-- ==== Sys2Proof/Word.lean ====
section
/-!
DEFINITION. The words of the hub: a register is 64 bits wide (00_scope.md, Registers), a memory byte 8 bits; and the
carrier of a sparse memory, a list of key and value pairs.
-/

namespace Sys2Proof

/-- A register word, a plant time, or one word of a bay FIFO. Bit 0 is the least significant bit (R5). -/
abbrev Word := BitVec 64

/-- One byte of the process image memory, of flash or of a frame. -/
abbrev Byte := BitVec 8

/-- Sparse data by key. The canonical form has strictly rising keys and no entry equal to what an unlisted key
reads as; Machine/SMap.lean holds its operations. -/
abbrev SMap (α : Type) := List (Nat × α)

end Sys2Proof
end

