-- ==== Sys2Proof/Syntax.lean ====
section
/-!
DEFINITION. The commands of the hub and their operands. The table of spec/ gives no row any bits; the operands are what
the rule of the row needs from outside the hub: who writes and what, which element acts, what a pin or a line does.
-/

namespace Sys2Proof

/-- The privilege levels of a request (05, R168): Local is the level of the housekeeper and the engines. -/
inductive Level where
  | supervisor | operator | localLevel
  deriving DecidableEq, Repr

/-- Who makes a register access: a master number and a level (05, R168). With level Local the number is not used. -/
structure Requester where
  master : Fin 4
  level : Level
  deriving DecidableEq, Repr

/-- A write to TOP_MODE_REQ (R213). `raced` says that the request met another trigger within the window of the mode
arbiter and was ordered after it, so that a request no longer listed is "dropped" (R36). -/
structure ModeReq where
  who : Requester
  raced : Bool
  deriving DecidableEq, Repr

/-- A wake source of R604: its code 1 to 4, the element for PWR_WAKE_LAST, and whether a WAKE body asks for Safe. -/
structure Wake where
  code : Fin 5
  element : Byte
  toSafe : Bool
  deriving DecidableEq, Repr

/-- The limits a CLAIM of the ingress port's Sieve program put on a frame's records (R319, R321). -/
structure Claim where
  masters : BitVec 4
  supervisor : Bool
  operator : Bool
  deriving DecidableEq, Repr

/-- A request record at the transaction target (R177, R178), with the way it came: the port, and the rings of its
frame. A request of the housekeeper or an engine has `port` none. -/
structure Txn where
  who : Requester
  tag : Byte
  /-- node number of the requester, bits [47:40] of the first word -/
  from_ : Byte
  /-- node number addressed, bits [39:32] -/
  node : Byte
  /-- local address of the first byte, bits [31:0] -/
  addr : BitVec 32
  port : Option (Fin 4)
  /-- src_node of the frame that carried it (R260) -/
  src : Byte
  srcRing : Fin 4
  dstRing : Fin 4
  claim : Option Claim
  deriving DecidableEq, Repr

/-- A frame (R227, R228): four header words, the payload bytes and the CRC-32 that follows them. -/
structure Frame where
  w0 : Word
  w1 : Word
  w2 : Word
  w3 : Word
  payload : List Byte
  crc : BitVec 32
  deriving DecidableEq, Repr

/-- How a port loses its link: loss of signal or of block lock, or the high-BER condition, through which its lock stands (R246). -/
structure LinkFault where
  port    : Fin 4
  highBer : Bool
  deriving DecidableEq, Repr

/-- A frame as a port receives it: the port, the time its start block reached the port, the time of its tail, whether
it was poisoned (R226), whether the link stayed up to its end (R230, check 1), and the MAC addresses (source `mac`, destination `toMac`),
the EtherType and the frame check sequence of the Ethernet frame that carried it on a tap port (R256). -/
structure RxFrame where
  port : Fin 4
  frame : Frame
  start : Word
  tail : Word
  poisoned : Bool
  aborted : Bool
  mac : BitVec 48
  etherType : BitVec 16
  toMac : BitVec 48 := 0
  fcs : BitVec 32 := 0
  deriving DecidableEq, Repr

/-- A Steam message (R252), with the payload of its check word. -/
structure SteamMsg where
  type : Byte
  src : Byte
  dst : Byte
  hops : Byte
  seq : Byte
  body : List Byte
  check : BitVec 48
  deriving DecidableEq, Repr

/-- What takes effect in an ACTION_EFFECT: the released OUT or IN of the context, the next bit of one of its lanes, or
the next clock edge of its lanes (R477, R485, R486). -/
inductive Effect where
  | pins | sample | outBit | inBit | clock
  deriving DecidableEq, Repr


/-- The commands: one constructor for each row of spec/opcode_table.json, in its order. -/
inductive Instr where
  /-- POWER_ON (R48). -/
  | powerOn (strap : Bool)
  /-- RESERVE_CHARGED (R49). -/
  | reserveCharged
  /-- RST_N_LOW (R82). -/
  | rstNLow (ns : Nat)
  /-- RST_N_RELEASE (R37). -/
  | rstNRelease (strap : Bool)
  /-- US_FALL (R49). -/
  | usFall
  /-- US_HOLD_EXPIRE (R50). -/
  | usHoldExpire
  /-- GROUP_SUPPLY_LOSS (R574). -/
  | groupSupplyLoss (g : Fin 2) (mv : BitVec 16)
  /-- GROUP_SUPPLY_RETURN (R576). -/
  | groupSupplyReturn (g : Fin 2) (mv : BitVec 16)
  /-- ISOLATOR_CLOSE_DELAY_EXPIRE (R576). -/
  | isolatorCloseDelayExpire (g : Fin 2)
  /-- ISOLATOR_CLOSED (R576). -/
  | isolatorClosed (g : Fin 2)
  /-- BAYGRP_OVERLOAD (R55). -/
  | baygrpOverload (k : Fin 4)
  /-- PP_GROUP_OVERLOAD (R577). -/
  | ppGroupOverload (g : Fin 2) (ma : BitVec 16)
  /-- SELFTEST_DONE (R678). -/
  | selftestDone
  /-- SELFTEST_FAIL (R24). -/
  | selftestFail
  /-- STEEP_COMPLETE (R121). -/
  | steepComplete
  /-- STEEP_FAIL (R122). -/
  | steepFail (storeError : Option (BitVec 32))
  /-- JTAG_TEST_INSTRUCTION (R27). -/
  | jtagTestInstruction
  /-- REQ_BOOT (R213). -/
  | reqBoot (r : ModeReq)
  /-- REQ_STEEP (R120). -/
  | reqSteep (r : ModeReq)
  /-- REQ_RUN (R213). -/
  | reqRun (r : ModeReq)
  /-- REQ_SAFE (R152). -/
  | reqSafe (r : ModeReq)
  /-- REQ_DOZE (R597). -/
  | reqDoze (r : ModeReq) (groups quads : BitVec 4)
  /-- REQ_HIBERNATE (R602). -/
  | reqHibernate (r : ModeReq)
  /-- REQ_UPDATE (R681). -/
  | reqUpdate (r : ModeReq)
  /-- REQ_TEST (R20). -/
  | reqTest (r : ModeReq)
  /-- DOZE_GATING_DONE (R599). -/
  | dozeGatingDone (d : Fin 8)
  /-- DOZE_EXIT_DONE (R600). -/
  | dozeExitDone (lost : BitVec 16)
  /-- HIBERNATE_POWERED_DOWN (R603). -/
  | hibernatePoweredDown
  /-- WAKE_SOURCE (R606). -/
  | wakeSource (w : Wake)
  /-- WAKE_PIN_EDGE (R604). -/
  | wakePinEdge (j : Fin 4) (rising : Bool) (ns : Nat)
  /-- WAKE_TIME_DUE (R605). -/
  | wakeTimeDue
  /-- WAKE_AT_ARM (R605). -/
  | wakeAtArm (r : Requester) (t : BitVec 40)
  /-- WAKE_AT_CANCEL (R605). -/
  | wakeAtCancel (r : Requester)
  /-- WAKE_CLOCK_DECIDE (R607). -/
  | wakeClockDecide (lost : BitVec 16)
  /-- ISLAND_TIMEOUT (R31). -/
  | islandTimeout
  /-- ACTIVATION_RECORD_WRITTEN (R682). -/
  | activationRecordWritten
  /-- REBOOT_WINDOW_CLOSE (R696). -/
  | rebootWindowClose
  /-- MIGRATION_END (R685). -/
  | migrationEnd (ok : Bool)
  /-- MIGRATION_TIMEOUT (R686). -/
  | migrationTimeout
  /-- TRIAL_WINDOW_EXPIRE (R688). -/
  | trialWindowExpire
  /-- TRIAL_CONFIRM_CHECK (R689). -/
  | trialConfirmCheck
  /-- TRIAL_CONFIRMED (R690). -/
  | trialConfirmed
  /-- TXN_RD (R179). -/
  | txnRd (t : Txn) (len : Nat)
  /-- TXN_WR (R179). -/
  | txnWr (t : Txn) (data : List Byte)
  /-- TXN_WRA (R179). -/
  | txnWra (t : Txn) (data : List Byte)
  /-- TXN_FAA (R204). -/
  | txnFaa (t : Txn) (addend : Word)
  /-- TXN_FAO (R204). -/
  | txnFao (t : Txn) (mask : Word)
  /-- TXN_CAS (R204). -/
  | txnCas (t : Txn) (compare swap : Word)
  /-- TXN_RESP (R211). -/
  | txnResp (m : Fin 4) (level : Level) (tag : Byte) (code : BitVec 4) (data : List Byte)
  /-- INIT_TIMEOUT (R210). -/
  | initTimeout (slot : Byte)
  /-- NOTICE_TOKEN_REFILL (R206). -/
  | noticeTokenRefill (m : Fin 4)
  /-- SEAL_WRITE (R150). -/
  | sealWrite (r : Requester) (v : Word)
  /-- EPOCH_WRITE (R151). -/
  | epochWrite (r : Requester) (v : BitVec 24)
  /-- SETTINGS_COMMIT_DONE (R153). -/
  | settingsCommitDone
  /-- SEAL_CHALLENGE (R156). -/
  | sealChallenge (r : Requester) (v : Word)
  /-- SEAL_RESP_READY (R156). -/
  | sealRespReady
  /-- LOAD_START (R127). -/
  | loadStart (r : Requester)
  /-- LOAD_DISCARD_STAGED (R128). -/
  | loadDiscardStaged (r : Requester)
  /-- LOAD_ABORT (R133). -/
  | loadAbort (r : Requester)
  /-- LOAD_VERIFY (R131). -/
  | loadVerify (r : Requester)
  /-- LOAD_VERIFY_DONE (R131). -/
  | loadVerifyDone
  /-- LOAD_BUF_WRITE (R129). -/
  | loadBufWrite (r : Requester) (i : Fin 32) (v : Word)
  /-- LOAD_PUT (R129). -/
  | loadPut (r : Requester) (block : BitVec 14) (words : BitVec 6)
  /-- LOAD_PUT_DONE (R668). -/
  | loadPutDone
  /-- STAGING_ERASE_DONE (R669). -/
  | stagingEraseDone
  /-- UPD_VERIFY (R672). -/
  | updVerify (r : Requester)
  /-- UPD_CHECKS_DONE (R674). -/
  | updChecksDone
  /-- UPD_BUILD_DONE (R674). -/
  | updBuildDone (storeError : Option (BitVec 32))
  /-- UPD_RESUME (R671). -/
  | updResume (r : Requester)
  /-- UPD_CANCEL (R676). -/
  | updCancel (r : Requester)
  /-- UPD_ABANDON (R691). -/
  | updAbandon (r : Requester)
  /-- UPD_TRIAL_WRITE (R695). -/
  | updTrialWrite (r : Requester) (v : Word)
  /-- FRAME_RECEIVE (R230). -/
  | frameReceive (rx : RxFrame)
  /-- POUR_FRAME (R336). -/
  | pourFrame (rx : RxFrame)
  /-- SYNC_RECEIVED (R375). -/
  | syncReceived (p : Fin 4) (f : Frame) (stamp : Word)
  /-- PDREQ_RECEIVED (R370). -/
  | pdreqReceived (p : Fin 4) (f : Frame) (turnaround : Word)
  /-- PDRESP_RECEIVED (R371). -/
  | pdrespReceived (p : Fin 4) (f : Frame) (stamp : Word)
  /-- PDELAY_REQ_SEND (R370). -/
  | pdelayReqSend (p : Fin 4)
  /-- PDELAY_TIMEOUT (R371). -/
  | pdelayTimeout (p : Fin 4)
  /-- SYNC_TIMEOUT (R376). -/
  | syncTimeout
  /-- TIME_STEP_CMD (R381). -/
  | timeStepCmd (r : Requester)
  /-- RESONATOR_FAIL (R363). -/
  | resonatorFail
  /-- RESONATOR_READY (R363). -/
  | resonatorReady
  /-- TIMEBASE_LOSS (R364). -/
  | timebaseLoss
  /-- HEARTBEAT_RECEIVED (R262). -/
  | heartbeatReceived (sub : Bool) (f : Frame)
  /-- HEARTBEAT_SEND (R261). -/
  | heartbeatSend
  /-- COUPLER_EVALUATE (R263). -/
  | couplerEvaluate (lineHigh : Bool)
  /-- CPL_BACKOFF_END (R266). -/
  | cplBackoffEnd
  /-- CPL_LINE_FAULT_DETECT (R268). -/
  | cplLineFaultDetect
  /-- CPL_RELEASE (R267). -/
  | cplRelease (r : Requester)
  /-- GATEWAY_SYNC_SEND (R387). -/
  | gatewaySyncSend
  /-- GPTP_SYNC_SEND (R390). -/
  | gptpSyncSend (p : Fin 2)
  /-- GPTP_ANNOUNCE_SEND (R391). -/
  | gptpAnnounceSend (p : Fin 2)
  /-- GPTP_SYNC_RECEIVED (R392). -/
  | gptpSyncReceived (p : Fin 2)
  /-- LINK_LOSS (R246). -/
  | linkLoss (fault : LinkFault)
  /-- LINK_UP (R246). -/
  | linkUp (p : Fin 4)
  /-- BLOCK_LOCK (R218). -/
  | blockLock (p : Fin 4)
  /-- RATE_HUNT_SWITCH (R218). -/
  | rateHuntSwitch (p : Fin 2)
  /-- LINK_MARGIN_CHECK (R221). -/
  | linkMarginCheck (p : Fin 4) (invalid : Nat)
  /-- RING_RATE_WRITE (R220). -/
  | ringRateWrite (r : Requester) (next : BitVec 3) (t : BitVec 40)
  /-- RATE_SWITCH (R220). -/
  | rateSwitch
  /-- RING_CTRL_WRITE (R704). -/
  | ringCtrlWrite (r : Requester) (v : Word)
  /-- NODE_ADOPT (R243). -/
  | nodeAdopt (r : Requester)
  /-- NODE_ADOPT_SUB (R243). -/
  | nodeAdoptSub (r : Requester)
  /-- STRAINER_RESET (R240). -/
  | strainerReset (r : Requester)
  /-- STEAM_ENUM_RECEIVED (R243). -/
  | steamEnumReceived (p : Fin 4) (m : SteamMsg)
  /-- STEAM_WAKE_RECEIVED (R604). -/
  | steamWakeReceived (p : Fin 4) (m : SteamMsg)
  /-- STEAM_MESSAGE_FORWARD (R253). -/
  | steamMessageForward (p : Fin 4) (m : SteamMsg)
  /-- BEACON_SEND (R254). -/
  | beaconSend
  /-- ENUM_SEND (R242). -/
  | enumSend
  /-- RING_CLOSED_TIMEOUT (R248). -/
  | ringClosedTimeout (sub : Bool)
  /-- OUTPUT_START_FRAME (R275). -/
  | outputStartFrame (p : Fin 24)
  /-- HOLD_TIME_EXPIRE (R303). -/
  | holdTimeExpire (p : Fin 24)
  /-- RESEQ_HOLD_EXPIRE (R308). -/
  | reseqHoldExpire (p : Fin 24) (id : Nat)
  /-- RESEQ_KEY_AGE (R310). -/
  | reseqKeyAge (p : Fin 24) (src : BitVec 10) (flow : BitVec 16)
  /-- CADDY_AUDIT (R311). -/
  | caddyAudit (doubleFreed : Option (Fin 16384))
  /-- POUR_GUARD_OPEN (R300). -/
  | pourGuardOpen (p : Fin 2)
  /-- POUR_GUARD_TIMEOUT (R300). -/
  | pourGuardTimeout (p : Fin 2)
  /-- CYC_SAMPLE_POINT (R353). -/
  | cycSamplePoint (i : Fin 4)
  /-- CYC_SNAPSHOT_DONE (R354). -/
  | cycSnapshotDone (i : Fin 4)
  /-- CYC_APPLY_POINT (R340). -/
  | cycApplyPoint (i : Fin 4)
  /-- SCHED_ARM (R393). -/
  | schedArm (r : Requester) (i : Fin 32) (t : BitVec 40)
  /-- SCHED_CANCEL (R393). -/
  | schedCancel (r : Requester) (i : Fin 32)
  /-- SCHED_DUE (R393). -/
  | schedDue (i : Fin 32)
  /-- LAUNCH_LOAD (R397). -/
  | launchLoad (r : Requester) (i : Fin 4) (words : BitVec 6)
  /-- LAUNCH_HANDOVER (R399). -/
  | launchHandover (i : Fin 4)
  /-- TIMEIO_PERIODIC_EDGE (R401). -/
  | timeioPeriodicEdge (k : Fin 4)
  /-- TIMEIO_PULSE_END (R401). -/
  | timeioPulseEnd (k : Fin 4)
  /-- TIMEIO_CAPTURE (R403). -/
  | timeioCapture (k : Fin 4) (rising : Bool) (stamp : Word)
  /-- TIMEIO_CAPTURE_POP (R403). -/
  | timeioCapturePop (r : Requester) (k : Fin 4)
  /-- TIMEIO_PERIOD_WRITE (R404). -/
  | timeioPeriodWrite (r : Requester) (k : Fin 4) (v : Word)
  /-- PIN_EDGE_ACCEPT (R412). -/
  | pinEdgeAccept (g : Fin 384) (level : Bool) (stamp : Word)
  /-- PIN_OVERLOAD_TRIP (R415). -/
  | pinOverloadTrip (g : Fin 384)
  /-- OVERLOAD_CLEAR (R416). -/
  | overloadClear (r : Requester) (n : Fin 48) (mask hwSet : Byte)
  /-- BAY_OUT_WRITE (R420). -/
  | bayOutWrite (r : Requester) (n : Fin 48) (v : Word)
  /-- RX_POP (R441). -/
  | rxPop (r : Requester) (n : Fin 48)
  /-- TX_PUSH (R442). -/
  | txPush (r : Requester) (n : Fin 48) (v : Word)
  /-- RX_FLUSH (R435). -/
  | rxFlush (r : Requester) (n : Fin 48)
  /-- TX_FLUSH (R435). -/
  | txFlush (r : Requester) (n : Fin 48)
  /-- BAY_SEGMENT_SEND (R445). -/
  | baySegmentSend (n : Fin 48)
  /-- BAY_DATA_FRAME (R446). -/
  | bayDataFrame (p : Fin 12) (f : Frame)
  /-- SEGMENT_PUSH (R447). -/
  | segmentPush (p : Fin 12)
  /-- SEGMENT_HOLD_TIMEOUT (R447). -/
  | segmentHoldTimeout (p : Fin 12)
  /-- CONTEXT_START (R456). -/
  | contextStart (r : Requester) (e : Fin 16) (start stop : BitVec 16)
  /-- CONTEXT_STOP (R459). -/
  | contextStop (r : Requester) (e : Fin 16) (stop : BitVec 16)
  /-- PROG_WRITE (R494). -/
  | progWrite (r : Requester) (e : Fin 16) (i : Fin 512) (v : Word)
  /-- GRID_RELEASE (R476). -/
  | gridRelease (e c : Fin 16)
  /-- ACTION_EFFECT (R477). -/
  | actionEffect (e c : Fin 16) (k : Effect)
  /-- SHIFT_END (R489). -/
  | shiftEnd (e c : Fin 16) (out : Bool)
  /-- WPIN_EVENT (R481). -/
  | wpinEvent (e c : Fin 16)
  /-- WPIN_TIMEOUT (R515). -/
  | wpinTimeout (e c : Fin 16)
  /-- CONTEXT_RESUME (R506). -/
  | contextResume (e c : Fin 16)
  /-- WAIT (R509). -/
  | infWait (e c : Fin 16)
  /-- AT (R511). -/
  | infAt (e c : Fin 16)
  /-- OUT (R513). -/
  | infOut (e c : Fin 16)
  /-- IN (R514). -/
  | infIn (e c : Fin 16)
  /-- SHO (R518). -/
  | infSho (e c : Fin 16)
  /-- SHI (R519). -/
  | infShi (e c : Fin 16)
  /-- WPIN (R515). -/
  | infWpin (e c : Fin 16)
  /-- STAMP (R516). -/
  | infStamp (e c : Fin 16)
  /-- JMP (R524). -/
  | infJmp (e c : Fin 16)
  /-- SET_C0 (R525). -/
  | setC0 (e c : Fin 16)
  /-- SET_C1 (R525). -/
  | setC1 (e c : Fin 16)
  /-- SET_BIT_TIMER (R525). -/
  | setBitTimer (e c : Fin 16)
  /-- SET_LOOP (R526). -/
  | setLoop (e c : Fin 16)
  /-- SET_OUT_SHIFTER (R525). -/
  | setOutShifter (e c : Fin 16)
  /-- SET_CLEAR_IN (R525). -/
  | setClearIn (e c : Fin 16)
  /-- SET_FLAGS (R525). -/
  | setFlags (e c : Fin 16)
  /-- QPUT (R528). -/
  | infQput (e c : Fin 16)
  /-- QGET (R529). -/
  | infQget (e c : Fin 16)
  /-- ALU_ADD (R531). -/
  | aluAdd (e c : Fin 16)
  /-- ALU_SUB (R531). -/
  | aluSub (e c : Fin 16)
  /-- ALU_AND (R531). -/
  | aluAnd (e c : Fin 16)
  /-- ALU_OR (R531). -/
  | aluOr (e c : Fin 16)
  /-- ALU_XOR (R531). -/
  | aluXor (e c : Fin 16)
  /-- ALU_SHL (R531). -/
  | aluShl (e c : Fin 16)
  /-- ALU_SHR (R531). -/
  | aluShr (e c : Fin 16)
  /-- ALU_MOV (R531). -/
  | aluMov (e c : Fin 16)
  /-- ALU_CRC (R532). -/
  | aluCrc (e c : Fin 16)
  /-- ALU_INS (R531). -/
  | aluIns (e c : Fin 16)
  /-- ALU_EXTR (R531). -/
  | aluExtr (e c : Fin 16)
  /-- SYNC_SIGNAL (R534). -/
  | syncSignal (e c : Fin 16)
  /-- SYNC_WAIT (R535). -/
  | syncWait (e c : Fin 16)
  /-- NOTE_NOTICE (R539). -/
  | noteNotice (e c : Fin 16)
  /-- NOTE_KETTLE (R540). -/
  | noteKettle (e c : Fin 16)
  /-- EXT_NOP (R541). -/
  | extNop (e c : Fin 16)
  /-- EXT_HALT (R541). -/
  | extHalt (e c : Fin 16)
  /-- EXT_FLUSH (R530). -/
  | extFlush (e c : Fin 16)
  /-- EXT_LDM (R541). -/
  | extLdm (e c : Fin 16)
  /-- EXT_STM (R541). -/
  | extStm (e c : Fin 16)
  /-- RQ_WR (R544). -/
  | rqWr (e c : Fin 16)
  /-- RQ_WRA (R544). -/
  | rqWra (e c : Fin 16)
  /-- RQ_RD (R544). -/
  | rqRd (e c : Fin 16)
  /-- EXT_GETT (R541). -/
  | extGett (e c : Fin 16)
  /-- EXT_RDREG (R543). -/
  | extRdreg (e c : Fin 16)
  /-- PORT_CMD_WRITE (R556). -/
  | portCmdWrite (r : Requester) (k : Fin 32) (on : Bool)
  /-- PORT_FAST_TRIP (R566). -/
  | portFastTrip (k : Fin 32)
  /-- PORT_DIODE_TRIP (R567). -/
  | portDiodeTrip (k : Fin 32) (tj : Int)
  /-- PORT_MODEL_EVAL (R568). -/
  | portModelEval (k : Fin 32) (mw : Nat) (tj : Int)
  /-- PORT_FAULT_TIMER_UPDATE (R563). -/
  | portFaultTimerUpdate (k : Fin 32)
  /-- PORT_TIMER_TRIP (R564). -/
  | portTimerTrip (k : Fin 32)
  /-- PORT_REGULATION_ENTER (R570). -/
  | portRegulationEnter (k : Fin 32)
  /-- PORT_REGULATION_EXIT (R569). -/
  | portRegulationExit (k : Fin 32)
  /-- PORT_POWER_GOOD_RISE (R569). -/
  | portPowerGoodRise (k : Fin 32) (vout : BitVec 16)
  /-- PORT_OUTPUT_DROP (R569). -/
  | portOutputDrop (k : Fin 32) (vout : BitVec 16)
  /-- PORT_COOLED (R558). -/
  | portCooled (k : Fin 32) (tj : Int)
  /-- PORT_RETRY_EXPIRE (R559). -/
  | portRetryExpire (k : Fin 32)
  /-- PORT_DAMAGED_DECLARE (R572). -/
  | portDamagedDeclare (k : Fin 32)
  /-- PORT_DAMAGED_CLEAR (R573). -/
  | portDamagedClear (r : Requester) (k : Fin 32)
  /-- PORT_CFG_WRITE (R565). -/
  | portCfgWrite (r : Requester) (k : Fin 32) (v : Word)
  /-- PORT_MEASURE_UPDATE (R554). -/
  | portMeasureUpdate (k : Fin 32) (vout ma supply groupMa : BitVec 16) (tj : Int)
  /-- GROUP_OPEN_CMD (R574). -/
  | groupOpenCmd (r : Requester) (g : Fin 2)
  /-- GROUP_CLOSE_CMD (R576). -/
  | groupCloseCmd (r : Requester) (g : Fin 2)
  /-- SCRIPT_START (R580). -/
  | scriptStart (r : Requester) (start stop : BitVec 4)
  /-- SCRIPT_STOP (R580). -/
  | scriptStop (r : Requester) (stop : BitVec 4)
  /-- SEQ_END (R582). -/
  | seqEnd (i : Fin 4)
  /-- SEQ_ON (R582). -/
  | seqOn (i : Fin 4)
  /-- SEQ_OFF (R582). -/
  | seqOff (i : Fin 4)
  /-- SEQ_WAITPG (R582). -/
  | seqWaitpg (i : Fin 4)
  /-- SEQ_WAITPG_DONE (R582). -/
  | seqWaitpgDone (i : Fin 4)
  /-- SEQ_WAITPG_TIMEOUT (R582). -/
  | seqWaitpgTimeout (i : Fin 4)
  /-- SEQ_WAIT (R582). -/
  | seqWait (i : Fin 4)
  /-- SEQ_WAIT_EXPIRE (R581). -/
  | seqWaitExpire (i : Fin 4)
  /-- SEQ_JMP (R582). -/
  | seqJmp (i : Fin 4)
  /-- SEQ_JLATCH (R582). -/
  | seqJlatch (i : Fin 4)
  /-- SEQ_NOTE (R583). -/
  | seqNote (i : Fin 4)
  /-- VSI_ACK (R588). -/
  | vsiAck
  /-- VSI_TIMEOUT (R591). -/
  | vsiTimeout
  /-- WINDOW_WRITE (R592). -/
  | windowWrite (r : Requester) (v : Word)
  /-- LOOP_RESUME (R591). -/
  | loopResume (r : Requester)
  /-- AVS_LOOP_EVAL (R594). -/
  | avsLoopEval (canary : List (BitVec 16))
  /-- TEMP_UPDATE (R614). -/
  | tempUpdate (hub power regulator : BitVec 8)
  /-- KETTLE_SCRUB (R635). -/
  | kettleScrub (corrected : Nat) (bad : Option (Fin 512 × Bool))
  /-- KETTLE_MASK_EXPIRE (R631). -/
  | kettleMaskExpire (i : Fin 512)
  /-- KETTLE_TX_OFF_EXPIRE (R628). -/
  | kettleTxOffExpire (p : Fin 4)
  /-- ERR_N_PULSE_END (R638). -/
  | errNPulseEnd
  /-- FORCE_END (R629). -/
  | forceEnd (r : Requester) (bays : BitVec 48)
  /-- PMC_FREEZE (R651). -/
  | pmcFreeze (r : Requester) (snapshot : Bool)
  /-- PMC_UNFREEZE (R651). -/
  | pmcUnfreeze (r : Requester)
  /-- PMC_CLEAR_ALL (R652). -/
  | pmcClearAll (r : Requester)
  /-- PMC_SNAPSHOT (R653). -/
  | pmcSnapshot (r : Requester)
  /-- PMC_SNAPSHOT_DONE (R654). -/
  | pmcSnapshotDone
  /-- PMC_SAMPLE_POP (R658). -/
  | pmcSamplePop (r : Requester)
  /-- PMC_SAMPLE_IDLE (R657). -/
  | pmcSampleIdle (i : Fin 64)
  /-- REGISTER_WRITE (R185). -/
  | registerWrite (r : Requester) (a : BitVec 32) (v hwSet : Word)
  /-- US_RETURN (R49). -/
  | usReturn
  /-- RESONATOR_START_TIMEOUT (R363). -/
  | resonatorStartTimeout
  /-- DRIVER_CURRENT_LIMIT (R415). -/
  | driverCurrentLimit (g : Fin 384) (on : Bool)
  /-- BAYGRP_OUTPUT_CURRENT (R55). -/
  | baygrpOutputCurrent (k : Fin 4) (above : Bool)
  /-- JTAG_END_OF_TEST (R27). -/
  | jtagEndOfTest
  deriving DecidableEq, Repr

end Sys2Proof
end

