-- ==== Sys2Proof/Decode.lean ====
section
/-!
DEFINITION. The commands that words of the opcode table spell. The hub is a block that takes commands; spec/opcode_table.json gives
none of its rows any bits, so no word spells a command. The words that the hub itself decodes are read elsewhere: Infuser
instructions in Machine/Isa.lean, Sieve instructions in Machine/Sieve.lean, records in Machine/Frame.lean and images in
Machine/Bits.lean.
-/

namespace Sys2Proof

/-- The command that word `w` of `nbits` bits spells: none. -/
def decodeTableWord (_nbits _w : Nat) : Option Instr := none

end Sys2Proof
end

