-- ==== Sys2Proof/Config.lean ====
section
/-!
DEFINITION. What the manual leaves open. Each constant has no body, so nothing can evaluate it or prove a value of it; the
argument that a command takes from `State.fresh` makes each use a value of its own (log entry 10).
-/

namespace Sys2Proof.Config

/-- A word the manual does not state. -/
opaque freeWord : Nat → Word
/-- A number the manual does not state. -/
opaque freeNat : Nat → Nat
/-- A byte of flash the manual does not state: the use, and the byte offset. -/
opaque freeByte : Nat → Nat → Byte
/-- The Aedotte public key, a point of P-256 (R112, R117). The manual gives no value. -/
opaque rootKey : BitVec 256 × BitVec 256
/-- Byte `i` of the signature block of the factory bit-stream, which the manual does not give. -/
opaque factorySignature : Nat → Byte
/-- The sector that a long erase or programming of flash works on at a time. -/
opaque flashSector : Nat → Nat
/-- The firmware and the library of the image that a hub leaves Aedotte with. The manual gives neither. -/
opaque firmware : List Byte
opaque library : List Byte
/-- A number in the factory bit-stream that the manual does not state (R158). -/
opaque factoryNat : Nat → Nat
/-- The count that Aedotte measured for the canary ring of a domain at the slow corner (R593). -/
opaque canaryReference : Nat → BitVec 16
/-- The jitter of a canary ring that a back-off time is drawn from (R266). -/
opaque jitter : Nat → BitVec 8

end Sys2Proof.Config
end

