-- ==== Sys2Proof/Machine/State.lean ====
section
/-!
DEFINITION. The state of the hub as plain data. Registers are kept as words at their local addresses (`regs`); what the
spec gives the hub beside its registers stands in the structures below. A register that shows such state (TOP_MODE,
BAY_RXSTAT, INF_CTX_STATE, ...) is a view computed by Machine/Views.lean and has no second home.
-/

namespace Sys2Proof.Machine

/-- The part numbers of R3. -/
inductive Variant where
  | f3248 | c3248 | l3224
  deriving DecidableEq, Repr

/-- The operating modes (01, "Operating modes"). -/
inductive Mode where
  | boot | steep | quarantine | run | runDegraded | island | safe | doze | hibernate | update | trial | test
  deriving DecidableEq, Repr

/-- One field of a register: its local address, lowest bit and width (R5). -/
structure Fld where
  addr : Nat
  lsb : Nat
  width : Nat
  deriving DecidableEq, Repr

/-- Response codes of R193. -/
inductive RCode where
  | ok | notReady | absent | priv | ecc | busy
  deriving DecidableEq, Repr

/-- The answer of the last register or memory access: what its response carries (R193). -/
structure Answer where
  code : RCode
  data : List Word
  deriving DecidableEq, Repr

/-- An event a unit has reported to the Kettle within the command, with its data (R618). -/
structure KEvent where
  src : Nat
  data : Nat
  deriving DecidableEq, Repr

/-- Whether a memory word reads clean, with a corrected error, or with an uncorrectable error (05, R703). -/
inductive Ecc where
  | clean | corrected | bad
  deriving DecidableEq, Repr

/-- The memories whose words may carry an ECC mark outside the FIFOs. The Caddy has three: data, words of 64 bits; link, one word a
leaf; reference counts, one word for the first leaf of a frame (R314). The Kettle has two copies of its configuration: word i is the
entry of source i, word 512 + l dependency list l (R635). -/
inductive EccMem where
  | pimem | prog | flash | caddy | caddyLink | caddyRef | ketMain | ketShadow
  deriving DecidableEq, Repr

/-- Drive states of R409. -/
inductive Drive where
  | released | low | high
  deriving DecidableEq, Repr

/-! ### Mode, supply, housekeeper -/

/-- Mode, supply and start-up state (01, 02, 04). Times are values of `State.clk`. -/
structure Hub where
  mode : Mode := .boot
  prev : Mode := .boot
  /-- row of R20 by which the mode was entered -/
  row : Nat := 1
  transitions : Nat := 0
  /-- plant time of the last mode change (TOP_MODE_TIME) -/
  modeTime : Word := 0
  enteredAt : Nat := 0
  /-- node number on the main ring, R243 -/
  node : Nat := 0
  usLowSince : Option Nat := none
  poweredAt : Nat := 0
  reserve : Bool := false
  /-- held in reset by US (R49) -/
  held : Bool := false
  /-- held in reset by RST_N (R82) -/
  rstLow : Bool := false
  strap : Bool := false
  /-- stays in Boot and holds ERR_N low (R23, R24) -/
  bootFail : Bool := false
  /-- last failure code of the BEACON, R254 -/
  lastFail : Nat := 0
  /-- source of the Steep in progress: 0 slot A, 1 slot B, 2 staging -/
  steepSrc : Nat := 0
  steepAt : Nat := 0
  /-- the retry of R23 is used up -/
  retried : Bool := false
  /-- slot that a retry boots instead of R37's choice (R23, R680) -/
  nextSlot : Option Bool := none
  /-- an access table is in force (R702) -/
  accessTable : Bool := false
  testFromBoot : Bool := false
  /-- the target performs a request that holds a slot, and whose response has not yet been handed over (R187) -/
  serving : Bool := false
  /-- drive states and port commands that a test imposes on pins and power ports in Test (R15, R28) -/
  testPins : SMap (Option Drive) := []
  testPorts : SMap (Option Bool) := []
  /-- the reboot window of R696 is open -/
  window : Bool := false
  /-- when a master was last heard (R31); before the first, when the hub was reset -/
  heardAt : Nat := 0
  /-- a link of port 0 or 1 has gone down or come up within the command, which the mode arbiter takes after the Kettle's
  reactions (R35, R247); false between commands -/
  ringDue : Bool := false
  /-- seal and epoch pending until admission (R149) -/
  pendSeal : Option Word := none
  pendEpoch : Option Nat := none
  /-- challenge whose response is being computed (R156) -/
  sealCalc : Option Word := none
  deriving DecidableEq, Repr

/-- What the boot record says of one slot (R677). State: 0 EMPTY, 1 BUILT, 2 TRIAL, 3 CONFIRMED, 4 FAILED. -/
structure Slot where
  state : Nat := 3
  build : Nat := 0
  version : Nat := 0
  imageDigest : BitVec 256 := 0
  fwDigest : BitVec 256 := 0
  deriving DecidableEq, Repr

/-- What the body of a settings record holds (R684): the trial policy, the fields of UPD_TRIAL as a word, operating hours, lifetime trips of
each power port, and the slots of the last 16 updates, newest first. How a version lays it out the manual does not state. -/
structure SetBody where
  policy : Word := 0
  hours : Nat := 0
  trips : SMap Nat := []
  updates : List Slot := []
  deriving DecidableEq, Repr

/-- A settings record (R684). `key` is the number of the free value of the bytes of its body. -/
structure SetRec where
  seq : Nat
  version : Nat
  epoch : Nat
  sealWord : Word
  body : SetBody
  key : Nat
  deriving DecidableEq, Repr

/-- One settings copy (R683): the record in force, the half in use, and the records of the two halves in the order of their places; none
stands for a record cut short, whose CRC-32 is bad. -/
structure Settings where
  cur : Option SetRec := none
  half : Bool := false
  low : List (Option SetRec) := []
  high : List (Option SetRec) := []
  writes : Nat := 0
  deriving DecidableEq, Repr

/-- A settings record being written, and whether it is an admission (R150, R153, R695). -/
structure Commit where
  admission : Bool
  epoch : Nat
  sealWord : Word
  policy : Word
  deriving DecidableEq, Repr

/-- The boot record in force (R677), and the copy that holds it. -/
structure BootRec where
  seq : Nat := 0
  copy : Bool := false
  active : Bool := false
  slotA : Slot := {}
  slotB : Slot := {}
  trialBoots : Nat := 0
  migration : Bool := false
  fallback : Nat := 0
  deriving DecidableEq, Repr

/-- What a boot record copy holds beside the record in force (R677): erased flash, a record cut short with its free bytes, or a record. -/
inductive BootCopy where
  | blank
  | torn (key : Nat)
  | held (r : BootRec)
  deriving DecidableEq, Repr

/-- A put being programmed (R129). -/
structure Put where
  block : Nat
  words : List Word
  deriving DecidableEq, Repr

/-- Loading, update and trial state of the housekeeper (04, 18). -/
structure Upd where
  loadOpen : Bool := false
  put : Option Put := none
  /-- the staging area and journal are being erased since this time (R669) -/
  erasing : Bool := false
  /-- a load verification is running (R131) -/
  loadVerifying : Bool := false
  /-- journaled chunks with their CRC-32 (R668) -/
  journal : SMap (Option (BitVec 32)) := []
  /-- 256-byte blocks of the staging area programmed since its erase -/
  blocks : SMap Bool := []
  /-- chunks of the staging area whose contents are undefined after an abort or an erase cut short, but for the blocks
  programmed since (R133, R693), with the number of their free value -/
  stagingUndef : SMap (Option Nat) := []
  boot : BootRec := {}
  /-- the other copy of the boot record -/
  other : BootCopy := .blank
  /-- the slot booted -/
  running : Bool := false
  copy0 : Settings := {}
  copy1 : Settings := {}
  /-- what the next settings record carries on (R684), and when the running slot was booted -/
  hours : Nat := 0
  trips : SMap Nat := []
  updates : List Slot := []
  bootAt : Nat := 0
  commit : Option Commit := none
  /-- time spent in Trial, in ns (R688) -/
  trialNs : Nat := 0
  /-- the confirming record write has begun in this boot, and it has ended (R690, R691) -/
  confirming : Bool := false
  confirmEnded : Bool := false
  abandoned : Bool := false
  /-- a fallback or failed migration to report at the end of the next Steep (R686, R692) -/
  fallbackDue : Bool := false
  migrationDue : Bool := false
  /-- last Kettle event of confirming severity (R689) -/
  lastSevere : Nat := 0
  deriving DecidableEq, Repr

/-! ### Ring -/

/-- State of a Strainer entry (R237). -/
inductive StrState where
  | empty | live | stale
  deriving DecidableEq, Repr

/-- A Strainer entry (R237). `last` is a value of `State.clk`. -/
structure StrEntry where
  st : StrState := .empty
  top : BitVec 16 := 0
  map : BitVec 128 := 0
  last : Nat := 0
  deriving DecidableEq, Repr

/-- Link state of ports 0 to 3 that no register shows (R218, R246). -/
structure Link where
  /-- block lock since this time -/
  lockSince : Option Nat := none
  /-- the high-BER condition was declared at this time, and the link has not come up since (R246) -/
  berAt : Option Nat := none
  downSince : Option Nat := some 0
  /-- rate listened for, and rate of the last lock: 1 25.78125 GBd, 2 10.3125 GBd, 3 1 Gbit/s; 0 none yet -/
  hunt : Nat := 1
  huntSince : Nat := 0
  lastRate : Nat := 0
  /-- transmitter held off by a Kettle block reset since this time (R628) -/
  txOffSince : Option Nat := none
  /-- last return of an own beacon sent through the opposite port (R248) -/
  beaconBack : Option Nat := none
  /-- MAC source address of the last tap frame received (R256) -/
  mac : BitVec 48 := 0
  /-- at risk since this time (R221) -/
  riskSince : Option Nat := none
  deriving DecidableEq, Repr

/-- Coupler logic (R261-R268). State: 0 off, 1 standby, 2 gateway, 3 back-off, 4 ineligible. -/
structure Cpl where
  state : Nat := 0
  drive : Bool := false
  /-- the level of CPL_ILK after its filter of 1 µs (R81) -/
  line : Bool := true
  /-- the level that the coupler logic saw at the pad last, and since when it has seen it (R81, R263) -/
  pad : Bool := true
  padSince : Nat := 0
  /-- a gateway has released the line and has not declared its new role in a heartbeat yet (R267) -/
  yielded : Bool := false
  /-- arrival of the last heartbeat declaring gateway, per ring -/
  gwMain : Option Nat := none
  gwSub : Option Nat := none
  /-- when the coupler logic came into use -/
  since : Nat := 0
  /-- arrival of the last heartbeat of any role, per ring -/
  hbMain : Option Nat := none
  hbSub : Option Nat := none
  count : Nat := 0
  lastSent : Nat := 0
  backoffEnd : Nat := 0
  highSince : Option Nat := none
  /-- CPL_LINE_FAULT has been raised for the present stretch of high line (R268) -/
  faulted : Bool := false
  /-- when its next sub-ring SYNC is due: at once where it has become time gateway (R387, R388) -/
  syncDue : Nat := 0
  syncSeq : Nat := 0
  deriving DecidableEq, Repr

/-- A Steam word: its flag first, and its six payload bytes, byte 0 first (R249). -/
structure SteamWord where
  first : Bool
  payload : List Byte
  deriving DecidableEq, Repr

/-- A Steam message waiting at a port (R253): the words of it that have not yet been sent, and whether one has been. -/
structure SteamOut where
  own : Bool
  words : List SteamWord
  begun : Bool := false
  deriving DecidableEq, Repr

/-- Ring state (06). -/
structure Ring where
  seqMain : BitVec 16 := 0
  seqSub : BitVec 16 := 0
  /-- when the sequence counters were restarted (R234) -/
  restartAt : Nat := 0
  /-- earliest time of the next dual frame, per ring (R235) -/
  nextMain : Nat := 0
  nextSub : Nat := 0
  /-- plant time at which an accepted write to RING_RATE changes the rate (R220, R393) -/
  rateDue : Option Word := none
  strainer : SMap StrEntry := []
  links : SMap Link := []
  cpl : Cpl := {}
  /-- last eastbound ENUM, main ring and sub-ring (R242) -/
  enumEast : Option Nat := none
  enumEastSub : Option Nat := none
  /-- Steam messages acted on: source, with 256 added on the sub-ring; sequence; time (R253) -/
  steamSeen : List (Nat × Nat × Nat) := []
  steamQ : SMap (List SteamOut) := []
  /-- earliest time of the next Steam word of each port (R251) -/
  steamNext : SMap Nat := []
  /-- the Steam word that each port sent last -/
  steamSent : SMap (Option SteamWord) := []
  steamSeq : Byte := 0
  beaconAt : Nat := 0
  enumAt : Nat := 0
  deriving DecidableEq, Repr

/-! ### Switch core and Caddy -/

/-- A frame stored in the Caddy (R281), with what read-out and the resequencer need. -/
structure Stored where
  id : Nat
  frame : Frame
  leaves : List Nat := []
  /-- ingress port -/
  ingress : Nat
  cls : Nat
  /-- outputs that hold a queue entry of it; their number is the reference count of R281 -/
  outs : List Nat := []
  /-- arrival stamp at the ingress port (R374) -/
  start : Word := 0
  /-- outputs whose reserve is charged with it; the others charge the shared pool (R285) -/
  fromReserve : List Nat := []
  /-- outputs at which the resequencer holds it, with the time it joined (R308) -/
  held : List (Nat × Nat) := []
  /-- earliest start under the pacing of R235 -/
  notBefore : Nat := 0
  /-- launch slot and due time of a timed launch (R399) -/
  launch : Option (Nat × Word) := none
  /-- request that this frame answers: master and tag (R187) -/
  answers : Option (Nat × Nat) := none
  /-- outputs at which a guard deferral has been counted (R301) -/
  deferred : List Nat := []
  /-- outputs that were down when they held it (R303) -/
  waited : List Nat := []
  /-- limits that the CLAIMs of its ingress program set (R319, R321) -/
  claim : Option Claim := none
  /-- an outbound pour copy for which a return was sent, with the input cups that were written then: what a ring output sends
  (R336, R342) -/
  exchanged : Option Frame := none
  /-- the ring or spur port by which a frame that port 23 returned had come (R389) -/
  came : Option Nat := none
  /-- the auditor has freed the leaves behind an unreadable link word of it (R312, R314) -/
  cut : Bool := false
  deriving DecidableEq, Repr

/-- What an output last sent: the frame as sent, whether it was closed as poisoned (R295), and the MAC destination and
source addresses and the EtherType of the encapsulation of R256 on a tap or analysis port. -/
structure Sent where
  frame : Frame
  poisoned : Bool := false
  ether : Option (BitVec 48 × BitVec 48 × BitVec 16) := none
  deriving DecidableEq, Repr

/-- One output of the core. Times are values of `State.clk`. -/
structure Outp where
  /-- ids of the queued frames, in queue order over all classes -/
  queue : List Nat := []
  busyUntil : Nat := 0
  /-- frame on the line, for R305 -/
  sending : Bool := false
  downSince : Option Nat := none
  /-- the hold time of R303 has ended with the port down -/
  holdEnded : Bool := false
  lastSent : Option Sent := none
  /-- pour guard intervals that are open: since when, and the predicted frame as `Cyc.arrivals` keys it (R300) -/
  guards : List (Nat × Nat) := []
  /-- start of the dual frame of the hub's own that left last (R235) -/
  lastDual : Option Nat := none
  /-- since when the condition of R287 has lasted -/
  riskSince : Option Nat := none
  resUsed : Nat := 0
  shUsed : Nat := 0
  deriving DecidableEq, Repr

/-- A key of the resequencer (R307): output, originator, flow; the last seq released, and since when it holds no frame. -/
structure Key where
  out : Nat
  srcRing : Nat
  src : Nat
  flow : Nat
  last : Option Nat := none
  idleSince : Nat := 0
  deriving DecidableEq, Repr

/-- A CLAIM that stands for the records of a frame read out to the transaction target (R321): source ring and node of the frame,
master and tag of the record. -/
structure Claimed where
  srcRing : Nat
  src : Nat
  master : Nat
  tag : Nat
  claim : Claim
  deriving DecidableEq, Repr

/-- Switch state (07). The free list is every leaf of 0 to 16,383 that no stored frame and no leaked leaf accounts for. -/
structure Switch where
  frames : List Stored := []
  nextId : Nat := 0
  /-- the port whose write the Caddy write arbiter granted last (R102) -/
  writer : Nat := 23
  outputs : SMap Outp := []
  /-- the leaves' data words, 32 to a leaf; none where nothing has been written (R315) -/
  mem : SMap (Option Word) := []
  /-- leaves that no frame accounts for and that are not on the free list (R312, R314) -/
  leaked : List Nat := []
  /-- leaves that failed the auditor's last pass, and when that pass was made (R311, R312) -/
  failed : List Nat := []
  auditAt : Nat := 0
  keys : List Key := []
  claimed : List Claimed := []
  deriving DecidableEq, Repr

/-! ### Cyclic unit -/

/-- A snapshot of an input cup: its data, the cycle and the plant time of its sample point, and when it was complete (R336, R337,
R594). -/
structure Shot where
  data : List Byte
  cycle : Nat
  at_ : Word
  done : Option Word
  deriving DecidableEq, Repr

/-- Snapshots of one input cup, the latest first: all that a copy in the hub can still ask for (R336). -/
structure Snap where
  shots : List Shot := []
  deriving DecidableEq, Repr

/-- Output cups committed for one cycle at one port: (cup, bytes including the header) (R338-R340). -/
structure Commits where
  stream : Nat
  port : Nat
  cycle : Nat
  cups : List (Nat × List Byte)
  deriving DecidableEq, Repr

/-- Cycles of a stream whose point of one kind is over, since it has been executed or passed: all below a number, and some more
(R331). -/
structure Over where
  below : Nat := 0
  more : List Nat := []
  deriving DecidableEq, Repr

/-- Cyclic unit (08). -/
structure Cyc where
  snaps : SMap Snap := []
  commits : List Commits := []
  /-- miss run of each output cup (R348) -/
  misses : SMap Nat := []
  /-- arrival of (stream, port, index) in the latest cycle, keyed 128 * stream + 64 * port + index (R355) -/
  arrivals : SMap (Option (Nat × Word)) := []
  /-- sample and apply points that are over, per stream (R331) -/
  sampled : SMap Over := []
  applied : SMap Over := []
  /-- former values of CYC_POINT, per stream, each with the first cycle that it does not govern, in ascending order (R359) -/
  oldPoints : SMap (List (Nat × Word)) := []
  deriving DecidableEq, Repr

/-! ### Time -/

/-- Peer-delay exchange of a port (R370, R371). -/
structure PDelay where
  pending : Option (Nat × Word) := none
  sentAt : Nat := 0
  results : List Int := []
  fails : Nat := 0
  deriving DecidableEq, Repr

/-- An armed schedule entry (R393): due time and the fields of TIM_SCHED_A as they stood. -/
structure Sched where
  due : Word
  fields : Word
  deriving DecidableEq, Repr

/-- A capture stamp (TIM_CAPTURE). -/
structure Stamp where
  rising : Bool
  lost : Bool
  time : Word
  deriving DecidableEq, Repr

/-- A TIME_IO pin (R401-R404). `level` is the level of a scheduled output; of a PPS or periodic output it says that the output
is active. `pulseEnd` is a value of `State.clk`. -/
structure TimeIo where
  level : Bool := false
  pulseEnd : Option Nat := none
  fifo : List Stamp := []
  lost : Bool := false
  /-- period, phase and width in force until the next active edge, after a write (R404) -/
  old : Option Word := none
  deriving DecidableEq, Repr

/-- A pin as its function starts: what it has captured stays. -/
def TimeIo.idle (x : TimeIo) : TimeIo := { fifo := x.fifo, lost := x.lost }

/-- A two-step Sync of a gPTP port (R390), and when it was sent. -/
structure GptpSync where
  sentAt : Nat
  dst : BitVec 48 := 0x0180C200000E
  etherType : BitVec 16 := 0x88F7
  domain : Nat := 0
  twoStep : Bool := true
  deriving DecidableEq, Repr

/-- The Follow_Up of a Sync (R390): when that was sent, as the port counts and in plant time, which the message carries. -/
structure FollowUp where
  sentAt : Nat
  origin : Word
  dst : BitVec 48 := 0x0180C200000E
  etherType : BitVec 16 := 0x88F7
  domain : Nat := 0
  deriving DecidableEq, Repr

/-- What an Announce of a gPTP port says (R390, R391), and when it was sent. -/
structure Announce where
  sentAt : Nat
  dst : BitVec 48 := 0x0180C200000E
  etherType : BitVec 16 := 0x88F7
  domain : Nat := 0
  priority1 : Nat := 246
  priority2 : Nat := 248
  clockClass : Nat
  utcOffset : Nat
  timeSource : Nat := 0x40
  clockIdentity : BitVec 64
  deriving DecidableEq, Repr

/-- Time unit (09). Servo: 0 FREERUN, 1 ACQUIRE, 2 LOCKING, 3 LOCKED, 4 HOLDOVER, 5 TIME_HOLD. -/
structure Time where
  servo : Nat := 0
  /-- accepted SYNC frames in ACQUIRE; in LOCKING, in succession within 50 ns; in LOCKED, beyond 200 ns -/
  run : Nat := 0
  /-- most recent offset, in units of 2^-16 ns -/
  offset : Int := 0
  lastSync : Nat := 0
  /-- last SYNC that arrived from the source followed, and that none has since the hub changed to it (R376, R377) -/
  lastHeard : Nat := 0
  tried : Bool := false
  /-- stamp and offset of the first SYNC accepted in ACQUIRE (R379) -/
  acquired : Option (Word × Int) := none
  /-- the counter has been stepped since the hub's last SYNC of its own (R366) -/
  stepped : Bool := false
  /-- tseq of the next PDREQ (R366) -/
  pdSeq : Nat := 0
  /-- last SYNC of gm_primary and the run of intervals in which it was heard (R376) -/
  lastPrimary : Nat := 0
  primaryRun : Nat := 0
  holdSince : Nat := 0
  lockedSince : Option Nat := none
  longLocked : Bool := false
  /-- hub temperature at entry to holdover and the largest change since (R383) -/
  holdTemp : Int := 0
  holdDelta : Nat := 0
  resonator : Bool := false
  resStart : Nat := 0
  /-- the resonator has been started, and has neither become ready nor failed nor run out of its 5 ms (R363) -/
  starting : Bool := true
  lost : Bool := false
  pdelay : SMap PDelay := []
  sched : SMap (Option Sched) := []
  io : SMap TimeIo := []
  /-- launch hand-over: due plant time of an ARMED slot (R399) -/
  launches : SMap (Option Word) := []
  /-- per spur port, the last gPTP Sync and the last Announce (R390, R391) -/
  gptp : SMap (Option GptpSync) := []
  followUp : SMap (Option FollowUp) := []
  announce : SMap (Option Announce) := []
  deriving DecidableEq, Repr

/-! ### Bays -/

/-- A pin cell (10). `level` is the level at the pad that was accepted last, none before the first one; `owner` the drive
state its owner set, on the logic side; `pad` the drive state at the pad. -/
structure Pin where
  level : Option Bool := none
  owner : Drive := .released
  pad : Drive := .released
  /-- accepted edges since the Steep, the latest first: stamp and whether the level read rose -/
  edges : List (Word × Bool) := []
  /-- edges that the hub's own driver has made on the line and that the receiver has not yet accepted, the oldest first: when it does,
  as a value of `State.clk`, and whether the level read will have risen (R72, R410) -/
  coming : List (Nat × Bool) := []
  limitSince : Option Nat := none
  /-- the pad keeps its drive state until the cyclic unit or an engine next sets it (R347, R348, R463) -/
  kept : Bool := false
  /-- latest engine action on the pin: grid tick, 16 * engine + context, whether it was an OUT (R473, R474) -/
  acted : Option (Nat × Nat × Bool) := none
  deriving DecidableEq, Repr

/-- One FIFO word with its tags (R425). -/
structure FWord where
  data : Word
  sop : Bool := false
  eop : Bool := false
  err : Bool := false
  flushed : Bool := false
  dataEcc : Ecc := .clean
  tagEcc : Ecc := .clean
  deriving DecidableEq, Repr

/-- A bay FIFO (R425-R440). -/
structure Fifo where
  words : List FWord := []
  /-- the producer has a packet open (R427, R429) -/
  opened : Bool := false
  /-- the consumer has taken a SOP whose EOP it has not yet taken (R436) -/
  taken : Bool := false
  /-- the packet at the head has been released (R430) -/
  released : Bool := false
  /-- discard what the producer still pushes of a packet delivered in error (R440) -/
  skipPush : Bool := false
  pseq : BitVec 16 := 0
  sseq : BitVec 16 := 0
  /-- TX of a bay-group port: discarding the rest of a packet; a marker is due before the next word; segments of the open
  packet have been pushed (R447) -/
  dropping : Bool := false
  markDue : Bool := false
  partPushed : Bool := false
  deriving DecidableEq, Repr

/-- A bay data frame held at the head of a bay-group port's output (R447). -/
structure Held where
  frame : Frame
  since : Nat
  deriving DecidableEq, Repr

/-- Bays (10). -/
structure Bays where
  pins : SMap Pin := []
  rx : SMap Fifo := []
  tx : SMap Fifo := []
  held : SMap (Option Held) := []
  /-- a bay group's outputs source more than 2.0 A since, and whether that has been raised (R55) -/
  overSince : SMap (Option (Nat × Bool)) := []
  deriving DecidableEq, Repr

/-! ### Infuser engines -/

/-- Context states of R453. -/
inductive CtxState where
  | idle | running | waiting | suspended | faulted
  deriving DecidableEq, Repr

/-- A stuff run (R508, R520): equal bits in a row, the last bit, and the count of a fixed shift. -/
structure StuffRun where
  len : Nat := 0
  last : Bool := false
  deriving DecidableEq, Repr

/-- A released shift as its lane latched it (R487). -/
structure Shift where
  /-- planned time, and the time at which it starts -/
  planned : Word
  t : Word
  /-- pc of the SHO or SHI -/
  pc : Nat
  b : Nat
  /-- data bit periods -/
  n : Nat
  w : Nat
  order : Bool
  sample : Nat
  clkMode : Nat
  clkSlot : Nat
  slot : Nat
  stuff : Nat
  cont : Bool
  adv : Bool
  /-- out lane: the bits of all periods, stuff bits included -/
  bits : List Bool
  deriving DecidableEq, Repr

/-- A shift lane (R483-R489). -/
structure Lane where
  cur : Option Shift := none
  queued : Option Shift := none
  /-- next bit period to act -/
  idx : Nat := 0
  /-- next clock half-period to act -/
  clk : Nat := 0
  /-- bits sampled, first first; stuff bits removed -/
  got : List Bool := []
  /-- the in lane has its last bit: all data bits are sampled, or a stuff error ended the shift -/
  full : Bool := false
  /-- a stuff error ended the shift (R523) -/
  broken : Bool := false
  run : StuffRun := {}
  /-- bit periods left to a stopped shift (R459) -/
  limit : Option Nat := none
  deriving DecidableEq, Repr

/-- An issued grid instruction that the grid has not released (R476). -/
structure GridOp where
  instr : BitVec 32
  pc : Nat
  t : Word
  deriving DecidableEq, Repr

/-- A released pin action waiting for its time (R477, R478). -/
structure PinAct where
  t : Word
  /-- slots to set with their drive state; empty for IN -/
  drives : List (Nat × Drive)
  /-- IN: first slot and number of slots -/
  sample : Option (Nat × Nat)
  /-- released before the context last ended its run (R459) -/
  old : Bool := false
  deriving DecidableEq, Repr

/-- A context (R452, R508). -/
structure Ctx where
  st : CtxState := .idle
  wait : Nat := 0
  cause : Nat := 0
  faultPc : Nat := 0
  island : Bool := false
  pc : Nat := 0
  loopStart : Nat := 0
  loopEnd : Nat := 0
  loopOn : Bool := false
  loopPend : Option (Nat × Nat) := none
  c0 : BitVec 16 := 0
  c1 : BitVec 16 := 0
  outSh : Word := 0
  outCnt : Nat := 0
  inSh : Word := 0
  inCnt : Nat := 0
  flags : BitVec 8 := 0
  flagTime : SMap Word := []
  tau : Word := 0
  riseL : BitVec 16 := 0
  fallL : BitVec 16 := 0
  laneErr : Bool := false
  /-- SOP, EOP, ERR, FLUSHED in bits 0 to 3 -/
  lastTags : BitVec 4 := 0
  reqFailed : Bool := false
  stampRep : BitVec 16 := 0
  /-- SHI with adv whose τ waits for the end of the shift (R523) -/
  tauDue : Bool := false
  /-- prefetched word of the next instruction (R493) -/
  pre : Option (Nat × Word) := none
  /-- the fetch awaited replaces a word that was discarded (R649) -/
  refetch : Bool := false
  /-- the instruction issued that waits for reason 4 to 8 -/
  cur : Option (BitVec 32) := none
  grid : Option GridOp := none
  acts : List PinAct := []
  outLane : Lane := {}
  inLane : Lane := {}
  /-- STAMP waiting for room: the word it read (R516) -/
  stampWord : Option Word := none
  /-- initiator slot awaited (R544) -/
  slot : Option Nat := none
  deriving DecidableEq, Repr

/-- An engine: contexts keyed 0 to 15, the turn, and what the tick in progress was spent on (R467, R649). -/
structure Engine where
  ctxs : SMap Ctx := []
  turn : Nat := 15
  /-- what the tick in progress has seen: contexts that issued an instruction, work discarded, and a context that ran and no longer
  does (R649) -/
  issued : List Nat := []
  wasted : Bool := false
  live : Bool := false
  /-- slots that are over and not yet charged: each names the contexts whose grid instruction issued in it and is neither released nor
  discarded (R649) -/
  owed : List (List Nat) := []
  deriving DecidableEq, Repr

/-- An initiator request in flight (R209). -/
structure InitReq where
  engine : Nat
  ctx : Nat
  master : Nat
  /-- 1 WRA, 2 RD -/
  kind : Nat
  sentAt : Nat
  deriving DecidableEq, Repr

/-! ### Power -/

/-- A power port (14). PWP_STAT holds its state, power-good, cause and marks. -/
structure Port where
  passOn : Bool := false
  inReg : Bool := false
  /-- F of R563 in units of 1.25 µs -/
  acc : Nat := 0
  latchedAt : Nat := 0
  /-- a Kettle block reset waits for the retry time (R559) -/
  resetDue : Bool := false
  /-- since when the conditions of R572 have held -/
  condSince : Option Nat := none
  /-- diode reading and model estimate in °C, delayed power in W (R568) -/
  diode : Int := 0
  estimate : Rat := 0
  delayed : Rat := 0
  /-- effective command on entry to the mode (R555, unchanged) -/
  kept : Bool := false
  deriving DecidableEq, Repr

/-- Isolator phases (R574-R576): open, waiting 10 ms after the supply's return, soft start, closed. -/
inductive Iso where
  | opened | delay | closing | closed
  deriving DecidableEq, Repr

/-- A port group (14): since when its supply has been present, since when its soft start runs, since when its current has
exceeded 8.0 A. -/
structure Group where
  iso : Iso := .opened
  supply : Bool := false
  since : Nat := 0
  closeAt : Nat := 0
  overSince : Option Nat := none
  deriving DecidableEq, Repr

/-- A script of the sequencer (R579-R582). -/
structure Script where
  waitEnd : Option Nat := none
  mask : BitVec 32 := 0
  onPg : Bool := false
  deriving DecidableEq, Repr

/-- An outstanding VSI request (R588-R591). Source: 1 software, 2 mode change, 3 adaptive loop. -/
structure Vsi where
  target : Nat
  source : Nat
  sentAt : Nat
  retry : Bool
  /-- made for an exit from Doze or a wake, so that its retry carries 850 mV -/
  rise : Bool := false
  deriving DecidableEq, Repr

/-- A VSI request that waits for the outstanding one. -/
structure VsiReq where
  target : Nat
  source : Nat
  rise : Bool := false
  deriving DecidableEq, Repr

/-- An exit from Doze in progress (R600). -/
structure DozeExit where
  mode : Mode
  row : Nat
  since : Nat
  /-- the voltage is acknowledged, or both attempts have failed -/
  ready : Bool
  /-- domains whose gating it stopped -/
  aborted : BitVec 8 := 0
  deriving DecidableEq, Repr

/-- Phases of a stay in Hibernate (R603, R606). -/
inductive HibPhase where
  | entering | down | waking | powered
  deriving DecidableEq, Repr

/-- A stay in Hibernate. `off` says that the domains have been switched off. -/
structure Hib where
  phase : HibPhase
  off : Bool
  target : Mode
  mv : Nat
  wakeAt : Nat
  since : Nat
  deriving DecidableEq, Repr

/-- Power states (15). -/
structure Power where
  ports : SMap Port := []
  groups : SMap Group := []
  scripts : SMap Script := []
  /-- the script that has executed an instruction last (R581) -/
  scriptTurn : Nat := 3
  vsi : Option Vsi := none
  /-- domains whose gating is accepted and power not yet removed: bits 0-3 bay groups, 4-7 quads -/
  gating : BitVec 8 := 0
  exit : Option DozeExit := none
  hib : Option Hib := none
  wakeDue : Option Word := none
  /-- lowest slack since the last evaluation of the loop, deadline missed (R594) -/
  slack : Int := 16
  missed : Bool := false
  /-- the latest evaluation found a missed deadline or a negative slack (R595) -/
  late : Bool := false
  riskSince : Option Nat := none
  /-- requests that wait for the outstanding one, at most one of a source, an earlier source first (R590) -/
  vsiWait : List VsiReq := []
  /-- the thermometer of the hub has been read since the reset (R9) -/
  tempSeen : Bool := false
  /-- a request has failed and none has been acknowledged since: the voltage in force is not known (R93, R600) -/
  mvUnknown : Bool := false
  deriving DecidableEq, Repr

/-! ### Kettle, counters -/

/-- A dependent mask (R631): the reacting source, the sources masked, the end of the reaction if complete. -/
structure Mask where
  src : Nat
  list : List Nat
  settle : Nat
  doneAt : Option Nat
  deriving DecidableEq, Repr

/-- Kettle (16). -/
structure Kettle where
  /-- events counted since the last firing of a source (R621) -/
  counted : SMap Nat := []
  seq : BitVec 16 := 0
  masks : List Mask := []
  pulseEnd : Option Nat := none
  /-- a collector self-fault holds ERR_N low and stops reactions and notices until the next Steep (R636); KET_STATUS shows it until a
  Steep or Boot (R637) -/
  selfFault : Bool := false
  /-- words of the configuration in which the two copies differ, numbered as `EccMem` numbers them (R635) -/
  differs : List Nat := []
  /-- when the newest entry of the history was granted -/
  grantAt : Option Nat := none
  /-- temperature sources that have fired and are not re-armed (R619): bits 0 to 2 -/
  hot : BitVec 3 := 0
  /-- bays of gated groups whose forced flush and clear are due (R629) -/
  forceDue : BitVec 48 := 0
  deriving DecidableEq, Repr

/-- A sample record (R656). -/
structure Sample where
  counter : Nat
  engine : Nat
  ctx : Nat
  pc : Nat
  skid : Nat
  lost : Bool
  idle : Bool
  time : Word
  deriving DecidableEq, Repr

/-- A count on its way to a counter: the element of its event, from when on the instructions of that engine count for a sample, how many
of them the event itself stands for (1 for an instruction event), and the first four since then: context and pc (R653, R656). -/
structure Tally where
  counter : Nat
  amount : Nat
  element : Nat
  start : Nat
  own : Nat
  seen : List (Nat × Nat)
  deriving DecidableEq, Repr

/-- A wrap of a sampling counter whose record awaits its instruction: the count that caused it, plant time and `clk` of the wrap, and
the instructions between the starting point and the one recorded (R656). -/
structure Wrap where
  tally : Tally
  time : Word
  since : Nat
  skid : Nat
  deriving DecidableEq, Repr

/-- Performance counters (17). -/
structure Pmc where
  fifo : List Sample := []
  lost : Bool := false
  waiting : List Wrap := []
  /-- counts held while the snapshot gate is closed (R653) -/
  heldCounts : List Tally := []
  /-- plant time of the snapshot in progress -/
  snapAt : Word := 0
  deriving DecidableEq, Repr

/-- Notice bucket of a master (R206, R207). -/
structure Bucket where
  tokens : Nat := 0
  lost : Nat := 0
  lastFill : Nat := 0
  deriving DecidableEq, Repr

/-- A process image window (R175). -/
structure Window where
  base : Nat
  size : Nat
  memOffset : Nat
  access : Nat
  flags : Nat
  deriving DecidableEq, Repr

/-- A tuning limit (R139, R140): field and bounds as 64-bit words. -/
structure Tune where
  addr : Nat
  lsb : Nat
  width : Nat
  signed : Bool
  lo : Nat
  hi : Nat
  deriving DecidableEq, Repr

/-- What the bit-stream gives that no register shows. -/
structure Loaded where
  /-- codes of the sections applied by the latest Steep -/
  sections : List Nat := []
  /-- access codes by block number (R174) -/
  access : SMap Nat := []
  windows : List Window := []
  /-- µs (R174) -/
  initTimeout : Nat := 0
  /-- safe state of each power port: 0 off, 1 on, 2 unchanged (R448) -/
  portSafe : SMap Nat := []
  /-- power port that is L+ of each bay; 255 none (R584) -/
  lplus : SMap Nat := []
  tuning : List Tune := []
  deriving DecidableEq, Repr

/-- The whole hub. -/
structure State where
  /-- commands waiting, first in, first out -/
  pending : List Instr
  variant : Variant
  /-- the Aedotte public key in the mask ROM, a point of P-256 (R117) -/
  rootKey : BitVec 256 × BitVec 256
  /-- the time counter, plant time in ns (R360) -/
  now : Word
  /-- ns counted on the time grid; durations are differences of it (R96) -/
  clk : Nat
  /-- registers by local address; an unlisted one holds its reset value -/
  regs : SMap Word
  /-- configuration store: the bit-stream's values of BS fields, by local address (R609) -/
  store : SMap Word
  /-- process image memory (R166) -/
  pimem : SMap Byte
  /-- slots and staging area of flash, by flash offset (R662) -/
  flash : SMap Byte
  /-- memory words with an ECC error: memory, word index, kind -/
  eccMarks : List (EccMem × Nat × Ecc)
  loaded : Loaded
  hub : Hub
  upd : Upd
  ring : Ring
  switch : Switch
  cyc : Cyc
  time : Time
  bays : Bays
  engines : SMap Engine
  initReqs : SMap (Option InitReq)
  buckets : SMap Bucket
  power : Power
  kettle : Kettle
  pmc : Pmc
  /-- events raised within the command and not yet taken in by the Kettle; empty between commands -/
  raised : List KEvent
  /-- answer of the last access -/
  answer : Option Answer
  /-- counter of free values taken (the model's own field) -/
  fresh : Nat
  deriving DecidableEq, Repr

/-- The model's faults. -/
inductive Fault where
  /-- Raised by RST_N_LOW on a low of 2 µs or more and less than 10 µs, which R82 forbids and to which it gives no
  effect. Safe: the machine stops where the hub may or may not be reset. -/
  | rstNWidth
  deriving DecidableEq, Repr

/-- The model's refusals. -/
inductive Refusal where
  /-- A command without a meaning; no arm answers it. Safe. -/
  | notModelled (mnemonic : String)
  deriving DecidableEq, Repr

/-- The hub right after power-on (R9, R20 row 1, R48). -/
def State.reset : State where
  pending := []
  variant := .f3248
  rootKey := Config.rootKey
  now := 0
  clk := 0
  regs := []
  store := []
  pimem := []
  flash := []
  eccMarks := []
  loaded := {}
  hub := {}
  upd := {}
  ring := {}
  switch := {}
  cyc := {}
  time := {}
  bays := {}
  engines := []
  initReqs := []
  buckets := []
  power := {}
  kettle := {}
  pmc := {}
  raised := []
  answer := none
  fresh := 0

end Sys2Proof.Machine
end

