-- ==== Sys2Proof/Machine/RegMap.lean ====
section
/-!
DEFINITION. The register map: the address of every register and the place of every field, as the register tables of
spec/ lay them out (R141, R159, R160, R212, R271, R272, R328, R359, R407, R451, R502, R587, R617, R642, R661, R694),
and the table of access codes (R7) and reset values (R9). A field name is the manual's, with the dot written as an
underscore; the index arguments are the manual's indices.
-/

namespace Sys2Proof.Machine

/-- The access codes of R7 (no register of the manual uses RWL). -/
inductive Acc where
  | ro | rw | w1c | w1s | wo | pop
  deriving DecidableEq, Repr

/-- One row of a register table. `bs` marks the reset entry "BS" of R9. -/
structure FieldDesc where
  lsb : Nat
  width : Nat
  acc : Acc
  reset : Nat
  bs : Bool
  deriving DecidableEq, Repr

/-- One register or one indexed family of registers. -/
structure RegDesc where
  base : Nat
  stride : Nat
  count : Nat
  fields : List FieldDesc
  deriving DecidableEq, Repr

/-- Base of the window of bay `n` (R451). -/
def bayBase (n : Nat) : Nat := 0x100000 + n * 0x2000

/-- Base of the window of engine `e` (R502). -/
def engBase (e : Nat) : Nat := 0x200000 + e * 0x10000

namespace R

/-- STP_STATUS (04_steeping_bitstream.md, R159). -/
def STP_STATUS : Nat := 0x10000
def STP_STATUS_last_cause : Fld := ⟨STP_STATUS, 60, 4⟩
def STP_STATUS_last_source : Fld := ⟨STP_STATUS, 58, 2⟩
def STP_STATUS_source : Fld := ⟨STP_STATUS, 56, 2⟩
def STP_STATUS_fail_count : Fld := ⟨STP_STATUS, 48, 8⟩
def STP_STATUS_duration : Fld := ⟨STP_STATUS, 0, 32⟩
def STP_STATUS_desc : RegDesc := ⟨0x10000, 8, 1, [⟨60, 4, .ro, 0, false⟩, ⟨58, 2, .ro, 0, false⟩, ⟨56, 2, .ro, 3, false⟩, ⟨48, 8, .ro, 0, false⟩, ⟨0, 32, .ro, 0, false⟩]⟩

/-- STP_LOADED (04_steeping_bitstream.md, R159). -/
def STP_LOADED : Nat := 0x10008
def STP_LOADED_build : Fld := ⟨STP_LOADED, 32, 32⟩
def STP_LOADED_epoch : Fld := ⟨STP_LOADED, 0, 24⟩
def STP_LOADED_desc : RegDesc := ⟨0x10008, 8, 1, [⟨32, 32, .ro, 0, true⟩, ⟨0, 24, .ro, 0, true⟩]⟩

/-- STP_DIGEST (04_steeping_bitstream.md, R159). -/
def STP_DIGEST (i : Nat) : Nat := 0x10010 + 8 * i
def STP_DIGEST_digest (i : Nat) : Fld := ⟨STP_DIGEST i, 0, 64⟩
def STP_DIGEST_desc : RegDesc := ⟨0x10010, 8, 4, [⟨0, 64, .ro, 0, true⟩]⟩

/-- STP_LOAD_CTRL (04_steeping_bitstream.md, R159). -/
def STP_LOAD_CTRL : Nat := 0x10040
def STP_LOAD_CTRL_source : Fld := ⟨STP_LOAD_CTRL, 8, 1⟩
def STP_LOAD_CTRL_discard_staged : Fld := ⟨STP_LOAD_CTRL, 7, 1⟩
def STP_LOAD_CTRL_abort : Fld := ⟨STP_LOAD_CTRL, 6, 1⟩
def STP_LOAD_CTRL_verify : Fld := ⟨STP_LOAD_CTRL, 5, 1⟩
def STP_LOAD_CTRL_start : Fld := ⟨STP_LOAD_CTRL, 4, 1⟩
def STP_LOAD_CTRL_desc : RegDesc := ⟨0x10040, 8, 1, [⟨8, 1, .rw, 0, false⟩, ⟨7, 1, .wo, 0, false⟩, ⟨6, 1, .wo, 0, false⟩, ⟨5, 1, .wo, 0, false⟩, ⟨4, 1, .wo, 0, false⟩]⟩

/-- STP_LOAD_STATUS (04_steeping_bitstream.md, R159). -/
def STP_LOAD_STATUS : Nat := 0x10048
def STP_LOAD_STATUS_state : Fld := ⟨STP_LOAD_STATUS, 61, 3⟩
def STP_LOAD_STATUS_busy : Fld := ⟨STP_LOAD_STATUS, 60, 1⟩
def STP_LOAD_STATUS_cause : Fld := ⟨STP_LOAD_STATUS, 56, 4⟩
def STP_LOAD_STATUS_owner : Fld := ⟨STP_LOAD_STATUS, 54, 2⟩
def STP_LOAD_STATUS_staged_image : Fld := ⟨STP_LOAD_STATUS, 53, 1⟩
def STP_LOAD_STATUS_overrun : Fld := ⟨STP_LOAD_STATUS, 52, 1⟩
def STP_LOAD_STATUS_received : Fld := ⟨STP_LOAD_STATUS, 0, 23⟩
def STP_LOAD_STATUS_desc : RegDesc := ⟨0x10048, 8, 1, [⟨61, 3, .ro, 0, false⟩, ⟨60, 1, .ro, 0, false⟩, ⟨56, 4, .ro, 0, false⟩, ⟨54, 2, .ro, 0, false⟩, ⟨53, 1, .ro, 0, false⟩, ⟨52, 1, .w1c, 0, false⟩, ⟨0, 23, .ro, 0, false⟩]⟩

/-- STP_LOAD_PUT (04_steeping_bitstream.md, R159). -/
def STP_LOAD_PUT : Nat := 0x10050
def STP_LOAD_PUT_block : Fld := ⟨STP_LOAD_PUT, 8, 14⟩
def STP_LOAD_PUT_words : Fld := ⟨STP_LOAD_PUT, 0, 6⟩
def STP_LOAD_PUT_desc : RegDesc := ⟨0x10050, 8, 1, [⟨8, 14, .wo, 0, false⟩, ⟨0, 6, .wo, 0, false⟩]⟩

/-- STP_TUNE_REFUSED (04_steeping_bitstream.md, R159). -/
def STP_TUNE_REFUSED : Nat := 0x10058
def STP_TUNE_REFUSED_count : Fld := ⟨STP_TUNE_REFUSED, 0, 48⟩
def STP_TUNE_REFUSED_desc : RegDesc := ⟨0x10058, 8, 1, [⟨0, 48, .rw, 0, false⟩]⟩

/-- STP_TUNE_LAST (04_steeping_bitstream.md, R159). -/
def STP_TUNE_LAST : Nat := 0x10060
def STP_TUNE_LAST_requester : Fld := ⟨STP_TUNE_LAST, 61, 3⟩
def STP_TUNE_LAST_privilege : Fld := ⟨STP_TUNE_LAST, 59, 2⟩
def STP_TUNE_LAST_address : Fld := ⟨STP_TUNE_LAST, 0, 32⟩
def STP_TUNE_LAST_desc : RegDesc := ⟨0x10060, 8, 1, [⟨61, 3, .ro, 0, false⟩, ⟨59, 2, .ro, 0, false⟩, ⟨0, 32, .ro, 0, false⟩]⟩

/-- STP_LOAD_BUF (04_steeping_bitstream.md, R159). -/
def STP_LOAD_BUF (i : Nat) : Nat := 0x10100 + 8 * i
def STP_LOAD_BUF_data (i : Nat) : Fld := ⟨STP_LOAD_BUF i, 0, 64⟩
def STP_LOAD_BUF_desc : RegDesc := ⟨0x10100, 8, 32, [⟨0, 64, .wo, 0, false⟩]⟩

/-- TOP_ID (05_address_space.md, R212). -/
def TOP_ID : Nat := 0
def TOP_ID_node : Fld := ⟨TOP_ID, 48, 8⟩
def TOP_ID_revision : Fld := ⟨TOP_ID, 32, 16⟩
def TOP_ID_variant : Fld := ⟨TOP_ID, 0, 16⟩
def TOP_ID_desc : RegDesc := ⟨0, 8, 1, [⟨48, 8, .ro, 0, false⟩, ⟨32, 16, .ro, 0, false⟩, ⟨0, 16, .ro, 0, false⟩]⟩

/-- TOP_MODE (05_address_space.md, R212). -/
def TOP_MODE : Nat := 8
def TOP_MODE_transitions : Fld := ⟨TOP_MODE, 32, 32⟩
def TOP_MODE_row : Fld := ⟨TOP_MODE, 16, 8⟩
def TOP_MODE_previous : Fld := ⟨TOP_MODE, 8, 4⟩
def TOP_MODE_mode : Fld := ⟨TOP_MODE, 0, 4⟩
def TOP_MODE_desc : RegDesc := ⟨8, 8, 1, [⟨32, 32, .ro, 0, false⟩, ⟨16, 8, .ro, 1, false⟩, ⟨8, 4, .ro, 0, false⟩, ⟨0, 4, .ro, 0, false⟩]⟩

/-- TOP_MODE_TIME (05_address_space.md, R212). -/
def TOP_MODE_TIME : Nat := 0x10
def TOP_MODE_TIME_time : Fld := ⟨TOP_MODE_TIME, 0, 64⟩
def TOP_MODE_TIME_desc : RegDesc := ⟨0x10, 8, 1, [⟨0, 64, .ro, 0, false⟩]⟩

/-- TOP_MODE_REQ (05_address_space.md, R212). -/
def TOP_MODE_REQ : Nat := 0x18
def TOP_MODE_REQ_doze_quads : Fld := ⟨TOP_MODE_REQ, 12, 4⟩
def TOP_MODE_REQ_doze_groups : Fld := ⟨TOP_MODE_REQ, 8, 4⟩
def TOP_MODE_REQ_mode : Fld := ⟨TOP_MODE_REQ, 0, 4⟩
def TOP_MODE_REQ_desc : RegDesc := ⟨0x18, 8, 1, [⟨12, 4, .wo, 0, false⟩, ⟨8, 4, .wo, 0, false⟩, ⟨0, 4, .wo, 0, false⟩]⟩

/-- TOP_MODE_REFUSED (05_address_space.md, R214). -/
def TOP_MODE_REFUSED : Nat := 0x20
def TOP_MODE_REFUSED_count : Fld := ⟨TOP_MODE_REFUSED, 48, 16⟩
def TOP_MODE_REFUSED_requester : Fld := ⟨TOP_MODE_REFUSED, 36, 3⟩
def TOP_MODE_REFUSED_reason : Fld := ⟨TOP_MODE_REFUSED, 32, 4⟩
def TOP_MODE_REFUSED_requested : Fld := ⟨TOP_MODE_REFUSED, 8, 4⟩
def TOP_MODE_REFUSED_at_mode : Fld := ⟨TOP_MODE_REFUSED, 0, 4⟩
def TOP_MODE_REFUSED_desc : RegDesc := ⟨0x20, 8, 1, [⟨48, 16, .rw, 0, false⟩, ⟨36, 3, .ro, 0, false⟩, ⟨32, 4, .ro, 0, false⟩, ⟨8, 4, .ro, 0, false⟩, ⟨0, 4, .ro, 0, false⟩]⟩

/-- TOP_W1C_OVERLAP (05_address_space.md, R214). -/
def TOP_W1C_OVERLAP : Nat := 0x28
def TOP_W1C_OVERLAP_last_block : Fld := ⟨TOP_W1C_OVERLAP, 48, 8⟩
def TOP_W1C_OVERLAP_count : Fld := ⟨TOP_W1C_OVERLAP, 0, 48⟩
def TOP_W1C_OVERLAP_desc : RegDesc := ⟨0x28, 8, 1, [⟨48, 8, .ro, 0, false⟩, ⟨0, 48, .rw, 0, false⟩]⟩

/-- TOP_TXN_LEVEL (05_address_space.md, R214). -/
def TOP_TXN_LEVEL : Nat := 0x30
def TOP_TXN_LEVEL_target_peak : Fld := ⟨TOP_TXN_LEVEL, 48, 16⟩
def TOP_TXN_LEVEL_target_now : Fld := ⟨TOP_TXN_LEVEL, 32, 16⟩
def TOP_TXN_LEVEL_init_peak : Fld := ⟨TOP_TXN_LEVEL, 16, 16⟩
def TOP_TXN_LEVEL_init_now : Fld := ⟨TOP_TXN_LEVEL, 0, 16⟩
def TOP_TXN_LEVEL_desc : RegDesc := ⟨0x30, 8, 1, [⟨48, 16, .rw, 0, false⟩, ⟨32, 16, .ro, 0, false⟩, ⟨16, 16, .rw, 0, false⟩, ⟨0, 16, .ro, 0, false⟩]⟩

/-- TOP_TXN_CNT (05_address_space.md, R214). -/
def TOP_TXN_CNT (i : Nat) : Nat := 0x40 + 8 * i
def TOP_TXN_CNT_count (i : Nat) : Fld := ⟨TOP_TXN_CNT i, 0, 48⟩
def TOP_TXN_CNT_desc : RegDesc := ⟨0x40, 8, 4, [⟨0, 48, .rw, 0, false⟩]⟩

/-- TOP_SEAL (04_steeping_bitstream.md, R160). -/
def TOP_SEAL : Nat := 0x60
def TOP_SEAL_seal : Fld := ⟨TOP_SEAL, 0, 64⟩
def TOP_SEAL_desc : RegDesc := ⟨0x60, 8, 1, [⟨0, 64, .wo, 0, false⟩]⟩

/-- TOP_SEAL_CHAL (04_steeping_bitstream.md, R160). -/
def TOP_SEAL_CHAL : Nat := 0x68
def TOP_SEAL_CHAL_challenge : Fld := ⟨TOP_SEAL_CHAL, 0, 64⟩
def TOP_SEAL_CHAL_desc : RegDesc := ⟨0x68, 8, 1, [⟨0, 64, .rw, 0, false⟩]⟩

/-- TOP_SEAL_RESP (04_steeping_bitstream.md, R160). -/
def TOP_SEAL_RESP : Nat := 0x70
def TOP_SEAL_RESP_response : Fld := ⟨TOP_SEAL_RESP, 0, 64⟩
def TOP_SEAL_RESP_desc : RegDesc := ⟨0x70, 8, 1, [⟨0, 64, .ro, 0, false⟩]⟩

/-- TOP_EPOCH (04_steeping_bitstream.md, R160). -/
def TOP_EPOCH : Nat := 0x78
def TOP_EPOCH_sealed : Fld := ⟨TOP_EPOCH, 63, 1⟩
def TOP_EPOCH_seal_pending : Fld := ⟨TOP_EPOCH, 62, 1⟩
def TOP_EPOCH_epoch_pending : Fld := ⟨TOP_EPOCH, 61, 1⟩
def TOP_EPOCH_commit_busy : Fld := ⟨TOP_EPOCH, 60, 1⟩
def TOP_EPOCH_stored : Fld := ⟨TOP_EPOCH, 0, 24⟩
def TOP_EPOCH_desc : RegDesc := ⟨0x78, 8, 1, [⟨63, 1, .ro, 0, false⟩, ⟨62, 1, .ro, 0, false⟩, ⟨61, 1, .ro, 0, false⟩, ⟨60, 1, .ro, 0, false⟩, ⟨0, 24, .rw, 0, false⟩]⟩

/-- TOP_MASTER (05_address_space.md, R214). -/
def TOP_MASTER (i : Nat) : Nat := 0x80 + 8 * i
def TOP_MASTER_known (i : Nat) : Fld := ⟨TOP_MASTER i, 63, 1⟩
def TOP_MASTER_node (i : Nat) : Fld := ⟨TOP_MASTER i, 48, 8⟩
def TOP_MASTER_notice_drop (i : Nat) : Fld := ⟨TOP_MASTER i, 0, 48⟩
def TOP_MASTER_desc : RegDesc := ⟨0x80, 8, 4, [⟨63, 1, .ro, 0, false⟩, ⟨48, 8, .ro, 0, false⟩, ⟨0, 48, .rw, 0, false⟩]⟩

/-- TOP_NOTICE_RATE (05_address_space.md, R214). -/
def TOP_NOTICE_RATE (i : Nat) : Nat := 0xA0 + 8 * i
def TOP_NOTICE_RATE_interval (i : Nat) : Fld := ⟨TOP_NOTICE_RATE i, 16, 16⟩
def TOP_NOTICE_RATE_depth (i : Nat) : Fld := ⟨TOP_NOTICE_RATE i, 0, 8⟩
def TOP_NOTICE_RATE_desc : RegDesc := ⟨0xA0, 8, 4, [⟨16, 16, .rw, 0, true⟩, ⟨0, 8, .rw, 0, true⟩]⟩

/-- TOP_SCRATCH (05_address_space.md, R214). -/
def TOP_SCRATCH (i : Nat) : Nat := 0xC0 + 8 * i
def TOP_SCRATCH_data (i : Nat) : Fld := ⟨TOP_SCRATCH i, 0, 64⟩
def TOP_SCRATCH_desc : RegDesc := ⟨0xC0, 8, 8, [⟨0, 64, .rw, 0, false⟩]⟩

/-- TOP_INV (04_steeping_bitstream.md, R141). -/
def TOP_INV (i : Nat) : Nat := 0x100 + 8 * i
def TOP_INV_unit (i : Nat) : Fld := ⟨TOP_INV i, 56, 8⟩
def TOP_INV_revision (i : Nat) : Fld := ⟨TOP_INV i, 48, 8⟩
def TOP_INV_capability (i : Nat) : Fld := ⟨TOP_INV i, 32, 16⟩
def TOP_INV_count (i : Nat) : Fld := ⟨TOP_INV i, 16, 16⟩
def TOP_INV_present (i : Nat) : Fld := ⟨TOP_INV i, 0, 1⟩
def TOP_INV_desc : RegDesc := ⟨0x100, 8, 32, [⟨56, 8, .ro, 0, false⟩, ⟨48, 8, .ro, 0, false⟩, ⟨32, 16, .ro, 0, false⟩, ⟨16, 16, .ro, 0, false⟩, ⟨0, 1, .ro, 0, false⟩]⟩

/-- RING_CTRL (06_ring_redundancy.md, R271). -/
def RING_CTRL : Nat := 0x20000
def RING_CTRL_lpi : Fld := ⟨RING_CTRL, 8, 2⟩
def RING_CTRL_loopback : Fld := ⟨RING_CTRL, 4, 4⟩
def RING_CTRL_tx_enable : Fld := ⟨RING_CTRL, 0, 4⟩
def RING_CTRL_desc : RegDesc := ⟨0x20000, 8, 1, [⟨8, 2, .rw, 0, true⟩, ⟨4, 4, .rw, 0, false⟩, ⟨0, 4, .rw, 0, true⟩]⟩

/-- RING_STATUS (06_ring_redundancy.md, R704). -/
def RING_STATUS : Nat := 0x20008
def RING_STATUS_ring_len : Fld := ⟨RING_STATUS, 56, 8⟩
def RING_STATUS_sub_len : Fld := ⟨RING_STATUS, 48, 8⟩
def RING_STATUS_up : Fld := ⟨RING_STATUS, 16, 4⟩
def RING_STATUS_sub_closed : Fld := ⟨RING_STATUS, 1, 1⟩
def RING_STATUS_closed : Fld := ⟨RING_STATUS, 0, 1⟩
def RING_STATUS_desc : RegDesc := ⟨0x20008, 8, 1, [⟨56, 8, .ro, 0, false⟩, ⟨48, 8, .ro, 0, false⟩, ⟨16, 4, .ro, 0, false⟩, ⟨1, 1, .ro, 0, false⟩, ⟨0, 1, .ro, 0, false⟩]⟩

/-- RING_CFG (06_ring_redundancy.md, R704). -/
def RING_CFG : Nat := 0x20010
def RING_CFG_pace : Fld := ⟨RING_CFG, 48, 16⟩
def RING_CFG_ring : Fld := ⟨RING_CFG, 34, 2⟩
def RING_CFG_sub_ring : Fld := ⟨RING_CFG, 32, 2⟩
def RING_CFG_tap_ethertype : Fld := ⟨RING_CFG, 0, 16⟩
def RING_CFG_desc : RegDesc := ⟨0x20010, 8, 1, [⟨48, 16, .rw, 0, true⟩, ⟨34, 2, .ro, 0, true⟩, ⟨32, 2, .ro, 0, true⟩, ⟨0, 16, .ro, 0, true⟩]⟩

/-- RING_RATE (06_ring_redundancy.md, R704). -/
def RING_RATE : Nat := 0x20018
def RING_RATE_switch_time : Fld := ⟨RING_RATE, 24, 40⟩
def RING_RATE_next : Fld := ⟨RING_RATE, 16, 3⟩
def RING_RATE_allowed : Fld := ⟨RING_RATE, 8, 3⟩
def RING_RATE_rate : Fld := ⟨RING_RATE, 0, 3⟩
def RING_RATE_desc : RegDesc := ⟨0x20018, 8, 1, [⟨24, 40, .rw, 0, false⟩, ⟨16, 3, .rw, 0, false⟩, ⟨8, 3, .ro, 0, true⟩, ⟨0, 3, .ro, 0, false⟩]⟩

/-- RING_NODE (06_ring_redundancy.md, R704). -/
def RING_NODE : Nat := 0x20020
def RING_NODE_node : Fld := ⟨RING_NODE, 56, 8⟩
def RING_NODE_sub_node : Fld := ⟨RING_NODE, 48, 8⟩
def RING_NODE_offer : Fld := ⟨RING_NODE, 40, 8⟩
def RING_NODE_sub_offer : Fld := ⟨RING_NODE, 32, 8⟩
def RING_NODE_master_ring : Fld := ⟨RING_NODE, 8, 8⟩
def RING_NODE_adopt_sub : Fld := ⟨RING_NODE, 1, 1⟩
def RING_NODE_adopt : Fld := ⟨RING_NODE, 0, 1⟩
def RING_NODE_desc : RegDesc := ⟨0x20020, 8, 1, [⟨56, 8, .ro, 0, false⟩, ⟨48, 8, .ro, 0, true⟩, ⟨40, 8, .ro, 0, false⟩, ⟨32, 8, .ro, 0, false⟩, ⟨8, 8, .ro, 0, false⟩, ⟨1, 1, .wo, 0, false⟩, ⟨0, 1, .wo, 0, false⟩]⟩

/-- RING_ISLAND (06_ring_redundancy.md, R704). -/
def RING_ISLAND : Nat := 0x20028
def RING_ISLAND_enable : Fld := ⟨RING_ISLAND, 16, 1⟩
def RING_ISLAND_timeout : Fld := ⟨RING_ISLAND, 0, 14⟩
def RING_ISLAND_desc : RegDesc := ⟨0x20028, 8, 1, [⟨16, 1, .rw, 0, true⟩, ⟨0, 14, .rw, 0, true⟩]⟩

/-- RING_CPL (06_ring_redundancy.md, R704). -/
def RING_CPL : Nat := 0x20030
def RING_CPL_partner_main : Fld := ⟨RING_CPL, 56, 8⟩
def RING_CPL_partner_sub : Fld := ⟨RING_CPL, 48, 8⟩
def RING_CPL_miss_limit : Fld := ⟨RING_CPL, 32, 4⟩
def RING_CPL_period : Fld := ⟨RING_CPL, 16, 16⟩
def RING_CPL_release : Fld := ⟨RING_CPL, 2, 1⟩
def RING_CPL_role : Fld := ⟨RING_CPL, 0, 2⟩
def RING_CPL_desc : RegDesc := ⟨0x20030, 8, 1, [⟨56, 8, .ro, 0, true⟩, ⟨48, 8, .ro, 0, true⟩, ⟨32, 4, .rw, 0, true⟩, ⟨16, 16, .rw, 0, true⟩, ⟨2, 1, .wo, 0, false⟩, ⟨0, 2, .ro, 0, true⟩]⟩

/-- RING_CPL_STATUS (06_ring_redundancy.md, R704). -/
def RING_CPL_STATUS : Nat := 0x20038
def RING_CPL_STATUS_takeovers : Fld := ⟨RING_CPL_STATUS, 48, 16⟩
def RING_CPL_STATUS_conflicts : Fld := ⟨RING_CPL_STATUS, 32, 16⟩
def RING_CPL_STATUS_miss_main : Fld := ⟨RING_CPL_STATUS, 16, 8⟩
def RING_CPL_STATUS_miss_sub : Fld := ⟨RING_CPL_STATUS, 8, 8⟩
def RING_CPL_STATUS_line : Fld := ⟨RING_CPL_STATUS, 5, 1⟩
def RING_CPL_STATUS_drive : Fld := ⟨RING_CPL_STATUS, 4, 1⟩
def RING_CPL_STATUS_state : Fld := ⟨RING_CPL_STATUS, 0, 3⟩
def RING_CPL_STATUS_desc : RegDesc := ⟨0x20038, 8, 1, [⟨48, 16, .rw, 0, false⟩, ⟨32, 16, .rw, 0, false⟩, ⟨16, 8, .ro, 0, false⟩, ⟨8, 8, .ro, 0, false⟩, ⟨5, 1, .ro, 0, false⟩, ⟨4, 1, .ro, 0, false⟩, ⟨0, 3, .ro, 0, false⟩]⟩

/-- RING_STEAM (06_ring_redundancy.md, R704). -/
def RING_STEAM : Nat := 0x20040
def RING_STEAM_rx : Fld := ⟨RING_STEAM, 48, 16⟩
def RING_STEAM_bad : Fld := ⟨RING_STEAM, 32, 16⟩
def RING_STEAM_tx_drop : Fld := ⟨RING_STEAM, 16, 16⟩
def RING_STEAM_desc : RegDesc := ⟨0x20040, 8, 1, [⟨48, 16, .rw, 0, false⟩, ⟨32, 16, .rw, 0, false⟩, ⟨16, 16, .rw, 0, false⟩]⟩

/-- RING_PORT (06_ring_redundancy.md, R704). -/
def RING_PORT (i : Nat) : Nat := 0x20060 + 8 * i
def RING_PORT_downs (i : Nat) : Fld := ⟨RING_PORT i, 48, 16⟩
def RING_PORT_invalid (i : Nat) : Fld := ⟨RING_PORT i, 32, 16⟩
def RING_PORT_risk_ms (i : Nat) : Fld := ⟨RING_PORT i, 16, 16⟩
def RING_PORT_margin_low (i : Nat) : Fld := ⟨RING_PORT i, 7, 1⟩
def RING_PORT_at_risk (i : Nat) : Fld := ⟨RING_PORT i, 6, 1⟩
def RING_PORT_function (i : Nat) : Fld := ⟨RING_PORT i, 4, 2⟩
def RING_PORT_lpi_active (i : Nat) : Fld := ⟨RING_PORT i, 3, 1⟩
def RING_PORT_locked (i : Nat) : Fld := ⟨RING_PORT i, 2, 1⟩
def RING_PORT_up (i : Nat) : Fld := ⟨RING_PORT i, 1, 1⟩
def RING_PORT_desc : RegDesc := ⟨0x20060, 8, 4, [⟨48, 16, .rw, 0, false⟩, ⟨32, 16, .ro, 0, false⟩, ⟨16, 16, .rw, 0, false⟩, ⟨7, 1, .ro, 0, false⟩, ⟨6, 1, .ro, 0, false⟩, ⟨4, 2, .ro, 0, true⟩, ⟨3, 1, .ro, 0, false⟩, ⟨2, 1, .ro, 0, false⟩, ⟨1, 1, .ro, 0, false⟩]⟩

/-- RING_DROP (06_ring_redundancy.md, R704). -/
def RING_DROP (i : Nat) : Nat := 0x20100 + 8 * i
def RING_DROP_count (i : Nat) : Fld := ⟨RING_DROP i, 0, 48⟩
def RING_DROP_desc : RegDesc := ⟨0x20100, 8, 32, [⟨0, 48, .rw, 0, false⟩]⟩

/-- STR_CTRL (06_ring_redundancy.md, R272). -/
def STR_CTRL : Nat := 0x21000
def STR_CTRL_reset : Fld := ⟨STR_CTRL, 0, 1⟩
def STR_CTRL_desc : RegDesc := ⟨0x21000, 8, 1, [⟨0, 1, .wo, 0, false⟩]⟩

/-- STR_STATUS (06_ring_redundancy.md, R272). -/
def STR_STATUS : Nat := 0x21008
def STR_STATUS_resets : Fld := ⟨STR_STATUS, 48, 16⟩
def STR_STATUS_live : Fld := ⟨STR_STATUS, 0, 11⟩
def STR_STATUS_desc : RegDesc := ⟨0x21008, 8, 1, [⟨48, 16, .rw, 0, false⟩, ⟨0, 11, .ro, 0, false⟩]⟩

/-- STR_CNT (06_ring_redundancy.md, R272). -/
def STR_CNT (i : Nat) : Nat := 0x21010 + 8 * i
def STR_CNT_count (i : Nat) : Fld := ⟨STR_CNT i, 0, 48⟩
def STR_CNT_desc : RegDesc := ⟨0x21010, 8, 4, [⟨0, 48, .rw, 0, false⟩]⟩

/-- STR_ENTRY (06_ring_redundancy.md, R272). -/
def STR_ENTRY (i : Nat) : Nat := 0x22000 + 8 * i
def STR_ENTRY_state (i : Nat) : Fld := ⟨STR_ENTRY i, 62, 2⟩
def STR_ENTRY_top (i : Nat) : Fld := ⟨STR_ENTRY i, 32, 16⟩
def STR_ENTRY_map (i : Nat) : Fld := ⟨STR_ENTRY i, 0, 32⟩
def STR_ENTRY_desc : RegDesc := ⟨0x22000, 8, 1024, [⟨62, 2, .ro, 0, false⟩, ⟨32, 16, .ro, 0, false⟩, ⟨0, 32, .ro, 0, false⟩]⟩

/-- SWC_CTRL (07_switch_caddy.md, R328). -/
def SWC_CTRL : Nat := 0x30000
def SWC_CTRL_reseq : Fld := ⟨SWC_CTRL, 1, 1⟩
def SWC_CTRL_mirror : Fld := ⟨SWC_CTRL, 0, 1⟩
def SWC_CTRL_desc : RegDesc := ⟨0x30000, 8, 1, [⟨1, 1, .rw, 0, true⟩, ⟨0, 1, .rw, 0, true⟩]⟩

/-- SWC_RESEQ (07_switch_caddy.md, R328). -/
def SWC_RESEQ : Nat := 0x30008
def SWC_RESEQ_held : Fld := ⟨SWC_RESEQ, 48, 16⟩
def SWC_RESEQ_keys : Fld := ⟨SWC_RESEQ, 40, 8⟩
def SWC_RESEQ_window : Fld := ⟨SWC_RESEQ, 0, 10⟩
def SWC_RESEQ_desc : RegDesc := ⟨0x30008, 8, 1, [⟨48, 16, .ro, 0, false⟩, ⟨40, 8, .ro, 0, false⟩, ⟨0, 10, .rw, 0, true⟩]⟩

/-- SWC_GUARD (07_switch_caddy.md, R328). -/
def SWC_GUARD : Nat := 0x30010
def SWC_GUARD_enable : Fld := ⟨SWC_GUARD, 16, 2⟩
def SWC_GUARD_lead : Fld := ⟨SWC_GUARD, 0, 14⟩
def SWC_GUARD_desc : RegDesc := ⟨0x30010, 8, 1, [⟨16, 2, .rw, 0, true⟩, ⟨0, 14, .rw, 0, true⟩]⟩

/-- SWC_XCNT (07_switch_caddy.md, R328). -/
def SWC_XCNT (i : Nat) : Nat := 0x30020 + 8 * i
def SWC_XCNT_count (i : Nat) : Fld := ⟨SWC_XCNT i, 0, 48⟩
def SWC_XCNT_desc : RegDesc := ⟨0x30020, 8, 4, [⟨0, 48, .rw, 0, false⟩]⟩

/-- SWC_RESEQ_CNT (07_switch_caddy.md, R328). -/
def SWC_RESEQ_CNT (i : Nat) : Nat := 0x30040 + 8 * i
def SWC_RESEQ_CNT_count (i : Nat) : Fld := ⟨SWC_RESEQ_CNT i, 0, 48⟩
def SWC_RESEQ_CNT_desc : RegDesc := ⟨0x30040, 8, 3, [⟨0, 48, .rw, 0, false⟩]⟩

/-- SWC_PORT (07_switch_caddy.md, R328). -/
def SWC_PORT (i : Nat) : Nat := 0x30100 + 8 * i
def SWC_PORT_mirror_out (i : Nat) : Fld := ⟨SWC_PORT i, 49, 1⟩
def SWC_PORT_mirror_in (i : Nat) : Fld := ⟨SWC_PORT i, 48, 1⟩
def SWC_PORT_down (i : Nat) : Fld := ⟨SWC_PORT i, 47, 1⟩
def SWC_PORT_held (i : Nat) : Fld := ⟨SWC_PORT i, 46, 1⟩
def SWC_PORT_orig_class (i : Nat) : Fld := ⟨SWC_PORT i, 32, 3⟩
def SWC_PORT_hold (i : Nat) : Fld := ⟨SWC_PORT i, 0, 16⟩
def SWC_PORT_desc : RegDesc := ⟨0x30100, 8, 24, [⟨49, 1, .rw, 0, true⟩, ⟨48, 1, .rw, 0, true⟩, ⟨47, 1, .ro, 0, false⟩, ⟨46, 1, .ro, 0, false⟩, ⟨32, 3, .ro, 0, true⟩, ⟨0, 16, .rw, 0, true⟩]⟩

/-- SWC_ADMIT (07_switch_caddy.md, R328). -/
def SWC_ADMIT (i : Nat) : Nat := 0x30200 + 8 * i
def SWC_ADMIT_reserve (i : Nat) : Fld := ⟨SWC_ADMIT i, 48, 16⟩
def SWC_ADMIT_lo (i : Nat) : Fld := ⟨SWC_ADMIT i, 32, 16⟩
def SWC_ADMIT_hi (i : Nat) : Fld := ⟨SWC_ADMIT i, 16, 16⟩
def SWC_ADMIT_alpha (i : Nat) : Fld := ⟨SWC_ADMIT i, 0, 8⟩
def SWC_ADMIT_desc : RegDesc := ⟨0x30200, 8, 24, [⟨48, 16, .ro, 0, true⟩, ⟨32, 16, .rw, 0, true⟩, ⟨16, 16, .rw, 0, true⟩, ⟨0, 8, .rw, 0, true⟩]⟩

/-- SWC_DROP (07_switch_caddy.md, R328). -/
def SWC_DROP (i : Nat) : Nat := 0x30400 + 8 * i
def SWC_DROP_count (i : Nat) : Fld := ⟨SWC_DROP i, 0, 48⟩
def SWC_DROP_desc : RegDesc := ⟨0x30400, 8, 384, [⟨0, 48, .rw, 0, false⟩]⟩

/-- SWC_GROUP (07_switch_caddy.md, R328). -/
def SWC_GROUP (i : Nat) : Nat := 0x31000 + 8 * i
def SWC_GROUP_ports (i : Nat) : Fld := ⟨SWC_GROUP i, 0, 24⟩
def SWC_GROUP_desc : RegDesc := ⟨0x31000, 8, 256, [⟨0, 24, .ro, 0, true⟩]⟩

/-- CAD_FREE (07_switch_caddy.md, R328). -/
def CAD_FREE : Nat := 0x32000
def CAD_FREE_low : Fld := ⟨CAD_FREE, 48, 16⟩
def CAD_FREE_free : Fld := ⟨CAD_FREE, 0, 15⟩
def CAD_FREE_desc : RegDesc := ⟨0x32000, 8, 1, [⟨48, 16, .rw, 0x4000, false⟩, ⟨0, 15, .ro, 0x4000, false⟩]⟩

/-- CAD_AUDIT (07_switch_caddy.md, R328). -/
def CAD_AUDIT : Nat := 0x32008
def CAD_AUDIT_leaked : Fld := ⟨CAD_AUDIT, 48, 16⟩
def CAD_AUDIT_double_free : Fld := ⟨CAD_AUDIT, 32, 16⟩
def CAD_AUDIT_passes : Fld := ⟨CAD_AUDIT, 0, 32⟩
def CAD_AUDIT_desc : RegDesc := ⟨0x32008, 8, 1, [⟨48, 16, .rw, 0, false⟩, ⟨32, 16, .rw, 0, false⟩, ⟨0, 32, .ro, 0, false⟩]⟩

/-- CAD_ECC (07_switch_caddy.md, R328). -/
def CAD_ECC : Nat := 0x32010
def CAD_ECC_corrected : Fld := ⟨CAD_ECC, 32, 32⟩
def CAD_ECC_uncorrectable : Fld := ⟨CAD_ECC, 0, 32⟩
def CAD_ECC_desc : RegDesc := ⟨0x32010, 8, 1, [⟨32, 32, .rw, 0, false⟩, ⟨0, 32, .rw, 0, false⟩]⟩

/-- CAD_RISK (07_switch_caddy.md, R328). -/
def CAD_RISK : Nat := 0x32018
def CAD_RISK_at_risk : Fld := ⟨CAD_RISK, 32, 24⟩
def CAD_RISK_clamp_ms : Fld := ⟨CAD_RISK, 0, 32⟩
def CAD_RISK_desc : RegDesc := ⟨0x32018, 8, 1, [⟨32, 24, .ro, 0, false⟩, ⟨0, 32, .rw, 0, false⟩]⟩

/-- CAD_USED (07_switch_caddy.md, R328). -/
def CAD_USED (i : Nat) : Nat := 0x32100 + 8 * i
def CAD_USED_peak (i : Nat) : Fld := ⟨CAD_USED i, 48, 16⟩
def CAD_USED_threshold (i : Nat) : Fld := ⟨CAD_USED i, 32, 16⟩
def CAD_USED_res_used (i : Nat) : Fld := ⟨CAD_USED i, 16, 16⟩
def CAD_USED_sh_used (i : Nat) : Fld := ⟨CAD_USED i, 0, 16⟩
def CAD_USED_desc : RegDesc := ⟨0x32100, 8, 24, [⟨48, 16, .rw, 0, false⟩, ⟨32, 16, .ro, 0, false⟩, ⟨16, 16, .ro, 0, false⟩, ⟨0, 16, .ro, 0, false⟩]⟩

/-- SIV_ENTRY (07_switch_caddy.md, R328). -/
def SIV_ENTRY (i : Nat) : Nat := 0x33000 + 8 * i
def SIV_ENTRY_default (i : Nat) : Fld := ⟨SIV_ENTRY i, 63, 1⟩
def SIV_ENTRY_entry (i : Nat) : Fld := ⟨SIV_ENTRY i, 0, 10⟩
def SIV_ENTRY_desc : RegDesc := ⟨0x33000, 8, 24, [⟨63, 1, .ro, 0, true⟩, ⟨0, 10, .ro, 0, true⟩]⟩

/-- SIV_HIT (07_switch_caddy.md, R328). -/
def SIV_HIT (i : Nat) : Nat := 0x33100 + 8 * i
def SIV_HIT_count (i : Nat) : Fld := ⟨SIV_HIT i, 0, 48⟩
def SIV_HIT_desc : RegDesc := ⟨0x33100, 8, 64, [⟨0, 48, .rw, 0, false⟩]⟩

/-- SIV_FAULT (07_switch_caddy.md, R328). -/
def SIV_FAULT : Nat := 0x33300
def SIV_FAULT_count : Fld := ⟨SIV_FAULT, 48, 16⟩
def SIV_FAULT_port : Fld := ⟨SIV_FAULT, 32, 5⟩
def SIV_FAULT_cause : Fld := ⟨SIV_FAULT, 16, 2⟩
def SIV_FAULT_pc : Fld := ⟨SIV_FAULT, 0, 10⟩
def SIV_FAULT_desc : RegDesc := ⟨0x33300, 8, 1, [⟨48, 16, .rw, 0, false⟩, ⟨32, 5, .ro, 0, false⟩, ⟨16, 2, .ro, 0, false⟩, ⟨0, 10, .ro, 0, false⟩]⟩

/-- SIV_LAST (07_switch_caddy.md, R328). -/
def SIV_LAST : Nat := 0x33308
def SIV_LAST_port : Fld := ⟨SIV_LAST, 8, 5⟩
def SIV_LAST_reason : Fld := ⟨SIV_LAST, 0, 8⟩
def SIV_LAST_desc : RegDesc := ⟨0x33308, 8, 1, [⟨8, 5, .ro, 0, false⟩, ⟨0, 8, .ro, 0, false⟩]⟩

/-- SIV_PROG (07_switch_caddy.md, R328). -/
def SIV_PROG (i : Nat) : Nat := 0x34000 + 8 * i
def SIV_PROG_instruction (i : Nat) : Fld := ⟨SIV_PROG i, 0, 64⟩
def SIV_PROG_desc : RegDesc := ⟨0x34000, 8, 1024, [⟨0, 64, .ro, 0, true⟩]⟩

/-- SWC_FLOW (07_switch_caddy.md, R328). -/
def SWC_FLOW (i : Nat) : Nat := 0x38000 + 8 * i
def SWC_FLOW_flow (i : Nat) : Fld := ⟨SWC_FLOW i, 48, 16⟩
def SWC_FLOW_group (i : Nat) : Fld := ⟨SWC_FLOW i, 40, 8⟩
def SWC_FLOW_valid (i : Nat) : Fld := ⟨SWC_FLOW i, 39, 1⟩
def SWC_FLOW_mirror (i : Nat) : Fld := ⟨SWC_FLOW i, 38, 1⟩
def SWC_FLOW_reseq (i : Nat) : Fld := ⟨SWC_FLOW i, 37, 1⟩
def SWC_FLOW_class_set (i : Nat) : Fld := ⟨SWC_FLOW i, 36, 1⟩
def SWC_FLOW_class (i : Nat) : Fld := ⟨SWC_FLOW i, 33, 3⟩
def SWC_FLOW_desc : RegDesc := ⟨0x38000, 8, 4096, [⟨48, 16, .ro, 0, true⟩, ⟨40, 8, .ro, 0, true⟩, ⟨39, 1, .ro, 0, true⟩, ⟨38, 1, .rw, 0, true⟩, ⟨37, 1, .rw, 0, true⟩, ⟨36, 1, .ro, 0, true⟩, ⟨33, 3, .ro, 0, true⟩]⟩

/-- CYC_CTRL (08_cyclic_exchange.md, R359). -/
def CYC_CTRL : Nat := 0x50000
def CYC_CTRL_enable : Fld := ⟨CYC_CTRL, 0, 4⟩
def CYC_CTRL_desc : RegDesc := ⟨0x50000, 8, 1, [⟨0, 4, .rw, 0, true⟩]⟩

/-- CYC_CYCLE (08_cyclic_exchange.md, R359). -/
def CYC_CYCLE (i : Nat) : Nat := 0x50020 + 8 * i
def CYC_CYCLE_units (i : Nat) : Fld := ⟨CYC_CYCLE i, 52, 12⟩
def CYC_CYCLE_phase (i : Nat) : Fld := ⟨CYC_CYCLE i, 0, 26⟩
def CYC_CYCLE_desc : RegDesc := ⟨0x50020, 8, 4, [⟨52, 12, .ro, 0, true⟩, ⟨0, 26, .ro, 0, true⟩]⟩

/-- CYC_POINT (08_cyclic_exchange.md, R359). -/
def CYC_POINT (i : Nat) : Nat := 0x50040 + 8 * i
def CYC_POINT_apply_offset (i : Nat) : Fld := ⟨CYC_POINT i, 32, 27⟩
def CYC_POINT_sample_offset (i : Nat) : Fld := ⟨CYC_POINT i, 0, 26⟩
def CYC_POINT_desc : RegDesc := ⟨0x50040, 8, 4, [⟨32, 27, .rw, 0, true⟩, ⟨0, 26, .rw, 0, true⟩]⟩

/-- CYC_STATUS (08_cyclic_exchange.md, R359). -/
def CYC_STATUS (i : Nat) : Nat := 0x50060 + 8 * i
def CYC_STATUS_cycle (i : Nat) : Fld := ⟨CYC_STATUS i, 32, 32⟩
def CYC_STATUS_fresh_limit (i : Nat) : Fld := ⟨CYC_STATUS i, 24, 8⟩
def CYC_STATUS_misses (i : Nat) : Fld := ⟨CYC_STATUS i, 0, 8⟩
def CYC_STATUS_desc : RegDesc := ⟨0x50060, 8, 4, [⟨32, 32, .ro, 0, false⟩, ⟨24, 8, .rw, 0, true⟩, ⟨0, 8, .ro, 0, false⟩]⟩

/-- CYC_ARRIVAL (08_cyclic_exchange.md, R359). -/
def CYC_ARRIVAL (i : Nat) : Nat := 0x50080 + 8 * i
def CYC_ARRIVAL_spread (i : Nat) : Fld := ⟨CYC_ARRIVAL i, 32, 16⟩
def CYC_ARRIVAL_offset (i : Nat) : Fld := ⟨CYC_ARRIVAL i, 0, 32⟩
def CYC_ARRIVAL_desc : RegDesc := ⟨0x50080, 8, 8, [⟨32, 16, .rw, 0, false⟩, ⟨0, 32, .ro, 0, false⟩]⟩

/-- CYC_STALE (08_cyclic_exchange.md, R359). -/
def CYC_STALE (i : Nat) : Nat := 0x500C0 + 8 * i
def CYC_STALE_stale (i : Nat) : Fld := ⟨CYC_STALE i, 0, 64⟩
def CYC_STALE_desc : RegDesc := ⟨0x500C0, 8, 2, [⟨0, 64, .ro, 0, false⟩]⟩

/-- CYC_CNT (08_cyclic_exchange.md, R359). -/
def CYC_CNT (i : Nat) : Nat := 0x50100 + 8 * i
def CYC_CNT_count (i : Nat) : Fld := ⟨CYC_CNT i, 0, 48⟩
def CYC_CNT_desc : RegDesc := ⟨0x50100, 8, 64, [⟨0, 48, .rw, 0, false⟩]⟩

/-- CYC_CUP (08_cyclic_exchange.md, R359). -/
def CYC_CUP (i : Nat) : Nat := 0x50400 + 8 * i
def CYC_CUP_valid (i : Nat) : Fld := ⟨CYC_CUP i, 63, 1⟩
def CYC_CUP_dir (i : Nat) : Fld := ⟨CYC_CUP i, 62, 1⟩
def CYC_CUP_stream (i : Nat) : Fld := ⟨CYC_CUP i, 60, 2⟩
def CYC_CUP_kind (i : Nat) : Fld := ⟨CYC_CUP i, 58, 2⟩
def CYC_CUP_gate (i : Nat) : Fld := ⟨CYC_CUP i, 55, 3⟩
def CYC_CUP_index (i : Nat) : Fld := ⟨CYC_CUP i, 49, 6⟩
def CYC_CUP_offset (i : Nat) : Fld := ⟨CYC_CUP i, 38, 11⟩
def CYC_CUP_length (i : Nat) : Fld := ⟨CYC_CUP i, 27, 11⟩
def CYC_CUP_source (i : Nat) : Fld := ⟨CYC_CUP i, 0, 18⟩
def CYC_CUP_desc : RegDesc := ⟨0x50400, 8, 128, [⟨63, 1, .ro, 0, true⟩, ⟨62, 1, .ro, 0, true⟩, ⟨60, 2, .ro, 0, true⟩, ⟨58, 2, .ro, 0, true⟩, ⟨55, 3, .ro, 0, true⟩, ⟨49, 6, .ro, 0, true⟩, ⟨38, 11, .ro, 0, true⟩, ⟨27, 11, .ro, 0, true⟩, ⟨0, 18, .ro, 0, true⟩]⟩

/-- TIM_CTRL (09_time.md, R407). -/
def TIM_CTRL : Nat := 0x40000
def TIM_CTRL_step : Fld := ⟨TIM_CTRL, 2, 1⟩
def TIM_CTRL_auto_step_fwd : Fld := ⟨TIM_CTRL, 1, 1⟩
def TIM_CTRL_desc : RegDesc := ⟨0x40000, 8, 1, [⟨2, 1, .wo, 0, false⟩, ⟨1, 1, .rw, 0, true⟩]⟩

/-- TIM_STATUS (09_time.md, R407). -/
def TIM_STATUS : Nat := 0x40008
def TIM_STATUS_gm_node : Fld := ⟨TIM_STATUS, 56, 8⟩
def TIM_STATUS_gm_class : Fld := ⟨TIM_STATUS, 48, 8⟩
def TIM_STATUS_path_hops : Fld := ⟨TIM_STATUS, 40, 8⟩
def TIM_STATUS_rx_port : Fld := ⟨TIM_STATUS, 34, 2⟩
def TIM_STATUS_clock : Fld := ⟨TIM_STATUS, 32, 2⟩
def TIM_STATUS_utc_offset : Fld := ⟨TIM_STATUS, 16, 16⟩
def TIM_STATUS_discont : Fld := ⟨TIM_STATUS, 7, 1⟩
def TIM_STATUS_degraded : Fld := ⟨TIM_STATUS, 6, 1⟩
def TIM_STATUS_valid : Fld := ⟨TIM_STATUS, 5, 1⟩
def TIM_STATUS_set : Fld := ⟨TIM_STATUS, 4, 1⟩
def TIM_STATUS_servo : Fld := ⟨TIM_STATUS, 0, 3⟩
def TIM_STATUS_desc : RegDesc := ⟨0x40008, 8, 1, [⟨56, 8, .ro, 0, false⟩, ⟨48, 8, .ro, 0xF8, false⟩, ⟨40, 8, .ro, 0, false⟩, ⟨34, 2, .ro, 0, false⟩, ⟨32, 2, .ro, 0, false⟩, ⟨16, 16, .ro, 0, false⟩, ⟨7, 1, .w1c, 0, false⟩, ⟨6, 1, .ro, 0, false⟩, ⟨5, 1, .ro, 0, false⟩, ⟨4, 1, .ro, 0, false⟩, ⟨0, 3, .ro, 0, false⟩]⟩

/-- TIM_NOW (09_time.md, R407). -/
def TIM_NOW : Nat := 0x40010
def TIM_NOW_time : Fld := ⟨TIM_NOW, 0, 64⟩
def TIM_NOW_desc : RegDesc := ⟨0x40010, 8, 1, [⟨0, 64, .ro, 0, false⟩]⟩

/-- TIM_OFFSET (09_time.md, R407). -/
def TIM_OFFSET : Nat := 0x40018
def TIM_OFFSET_offset : Fld := ⟨TIM_OFFSET, 0, 64⟩
def TIM_OFFSET_desc : RegDesc := ⟨0x40018, 8, 1, [⟨0, 64, .ro, 0, false⟩]⟩

/-- TIM_RATE (09_time.md, R407). -/
def TIM_RATE : Nat := 0x40020
def TIM_RATE_rate : Fld := ⟨TIM_RATE, 0, 32⟩
def TIM_RATE_desc : RegDesc := ⟨0x40020, 8, 1, [⟨0, 32, .ro, 0, false⟩]⟩

/-- TIM_HOLDOVER (09_time.md, R407). -/
def TIM_HOLDOVER : Nat := 0x40028
def TIM_HOLDOVER_elapsed : Fld := ⟨TIM_HOLDOVER, 32, 32⟩
def TIM_HOLDOVER_bound : Fld := ⟨TIM_HOLDOVER, 0, 32⟩
def TIM_HOLDOVER_desc : RegDesc := ⟨0x40028, 8, 1, [⟨32, 32, .ro, 0, false⟩, ⟨0, 32, .ro, 0, false⟩]⟩

/-- TIM_SYNC_CFG (09_time.md, R407). -/
def TIM_SYNC_CFG : Nat := 0x40030
def TIM_SYNC_CFG_gm_primary : Fld := ⟨TIM_SYNC_CFG, 56, 8⟩
def TIM_SYNC_CFG_gm_backup : Fld := ⟨TIM_SYNC_CFG, 48, 8⟩
def TIM_SYNC_CFG_sync_log : Fld := ⟨TIM_SYNC_CFG, 40, 8⟩
def TIM_SYNC_CFG_pdelay_log : Fld := ⟨TIM_SYNC_CFG, 32, 8⟩
def TIM_SYNC_CFG_gptp_log : Fld := ⟨TIM_SYNC_CFG, 24, 8⟩
def TIM_SYNC_CFG_gptp : Fld := ⟨TIM_SYNC_CFG, 3, 2⟩
def TIM_SYNC_CFG_gateway_only : Fld := ⟨TIM_SYNC_CFG, 2, 1⟩
def TIM_SYNC_CFG_gateway_eligible : Fld := ⟨TIM_SYNC_CFG, 1, 1⟩
def TIM_SYNC_CFG_desc : RegDesc := ⟨0x40030, 8, 1, [⟨56, 8, .ro, 0, true⟩, ⟨48, 8, .ro, 0, true⟩, ⟨40, 8, .ro, 0, true⟩, ⟨32, 8, .ro, 0, true⟩, ⟨24, 8, .ro, 0, true⟩, ⟨3, 2, .ro, 0, true⟩, ⟨2, 1, .ro, 0, true⟩, ⟨1, 1, .ro, 0, true⟩]⟩

/-- TIM_PDELAY (09_time.md, R407). -/
def TIM_PDELAY (i : Nat) : Nat := 0x40040 + 8 * i
def TIM_PDELAY_valid (i : Nat) : Fld := ⟨TIM_PDELAY i, 63, 1⟩
def TIM_PDELAY_delay (i : Nat) : Fld := ⟨TIM_PDELAY i, 0, 32⟩
def TIM_PDELAY_desc : RegDesc := ⟨0x40040, 8, 4, [⟨63, 1, .ro, 0, false⟩, ⟨0, 32, .ro, 0, false⟩]⟩

/-- TIM_ASYM (09_time.md, R407). -/
def TIM_ASYM (i : Nat) : Nat := 0x40060 + 8 * i
def TIM_ASYM_asym (i : Nat) : Fld := ⟨TIM_ASYM i, 0, 32⟩
def TIM_ASYM_desc : RegDesc := ⟨0x40060, 8, 4, [⟨0, 32, .rw, 0, true⟩]⟩

/-- TIM_IO (09_time.md, R407). -/
def TIM_IO (i : Nat) : Nat := 0x40080 + 8 * i
def TIM_IO_function (i : Nat) : Fld := ⟨TIM_IO i, 53, 3⟩
def TIM_IO_edges (i : Nat) : Fld := ⟨TIM_IO i, 48, 2⟩
def TIM_IO_width (i : Nat) : Fld := ⟨TIM_IO i, 0, 32⟩
def TIM_IO_desc : RegDesc := ⟨0x40080, 8, 4, [⟨53, 3, .ro, 0, true⟩, ⟨48, 2, .rw, 0, true⟩, ⟨0, 32, .rw, 0, true⟩]⟩

/-- TIM_IO_PER (09_time.md, R407). -/
def TIM_IO_PER (i : Nat) : Nat := 0x400A0 + 8 * i
def TIM_IO_PER_period (i : Nat) : Fld := ⟨TIM_IO_PER i, 32, 32⟩
def TIM_IO_PER_phase (i : Nat) : Fld := ⟨TIM_IO_PER i, 0, 32⟩
def TIM_IO_PER_desc : RegDesc := ⟨0x400A0, 8, 4, [⟨32, 32, .rw, 0, true⟩, ⟨0, 32, .rw, 0, true⟩]⟩

/-- TIM_CAPTURE (09_time.md, R407). -/
def TIM_CAPTURE (i : Nat) : Nat := 0x400C0 + 8 * i
def TIM_CAPTURE_edge (i : Nat) : Fld := ⟨TIM_CAPTURE i, 63, 1⟩
def TIM_CAPTURE_lost (i : Nat) : Fld := ⟨TIM_CAPTURE i, 62, 1⟩
def TIM_CAPTURE_time (i : Nat) : Fld := ⟨TIM_CAPTURE i, 0, 62⟩
def TIM_CAPTURE_desc : RegDesc := ⟨0x400C0, 8, 4, [⟨63, 1, .pop, 0, false⟩, ⟨62, 1, .pop, 0, false⟩, ⟨0, 62, .pop, 0, false⟩]⟩

/-- TIM_CNT (09_time.md, R407). -/
def TIM_CNT (i : Nat) : Nat := 0x40100 + 8 * i
def TIM_CNT_count (i : Nat) : Fld := ⟨TIM_CNT i, 0, 48⟩
def TIM_CNT_desc : RegDesc := ⟨0x40100, 8, 16, [⟨0, 48, .rw, 0, false⟩]⟩

/-- TIM_SCHED_T (09_time.md, R407). -/
def TIM_SCHED_T (i : Nat) : Nat := 0x40200 + 8 * i
def TIM_SCHED_T_cancel (i : Nat) : Fld := ⟨TIM_SCHED_T i, 63, 1⟩
def TIM_SCHED_T_time (i : Nat) : Fld := ⟨TIM_SCHED_T i, 0, 40⟩
def TIM_SCHED_T_desc : RegDesc := ⟨0x40200, 8, 32, [⟨63, 1, .wo, 0, false⟩, ⟨0, 40, .rw, 0, false⟩]⟩

/-- TIM_SCHED_A (09_time.md, R407). -/
def TIM_SCHED_A (i : Nat) : Nat := 0x40300 + 8 * i
def TIM_SCHED_A_status (i : Nat) : Fld := ⟨TIM_SCHED_A i, 61, 3⟩
def TIM_SCHED_A_late (i : Nat) : Fld := ⟨TIM_SCHED_A i, 60, 1⟩
def TIM_SCHED_A_late_window (i : Nat) : Fld := ⟨TIM_SCHED_A i, 32, 20⟩
def TIM_SCHED_A_action (i : Nat) : Fld := ⟨TIM_SCHED_A i, 28, 4⟩
def TIM_SCHED_A_target (i : Nat) : Fld := ⟨TIM_SCHED_A i, 24, 4⟩
def TIM_SCHED_A_masters (i : Nat) : Fld := ⟨TIM_SCHED_A i, 20, 4⟩
def TIM_SCHED_A_arg (i : Nat) : Fld := ⟨TIM_SCHED_A i, 0, 16⟩
def TIM_SCHED_A_desc : RegDesc := ⟨0x40300, 8, 32, [⟨61, 3, .ro, 0, false⟩, ⟨60, 1, .ro, 0, false⟩, ⟨32, 20, .rw, 0, false⟩, ⟨28, 4, .rw, 0, false⟩, ⟨24, 4, .rw, 0, false⟩, ⟨20, 4, .rw, 0, false⟩, ⟨0, 16, .rw, 0, false⟩]⟩

/-- TIM_LAUNCH_CTL (09_time.md, R407). -/
def TIM_LAUNCH_CTL (i : Nat) : Nat := 0x40400 + 8 * i
def TIM_LAUNCH_CTL_state (i : Nat) : Fld := ⟨TIM_LAUNCH_CTL i, 61, 3⟩
def TIM_LAUNCH_CTL_lag (i : Nat) : Fld := ⟨TIM_LAUNCH_CTL i, 32, 16⟩
def TIM_LAUNCH_CTL_words (i : Nat) : Fld := ⟨TIM_LAUNCH_CTL i, 0, 6⟩
def TIM_LAUNCH_CTL_desc : RegDesc := ⟨0x40400, 8, 4, [⟨61, 3, .ro, 0, false⟩, ⟨32, 16, .ro, 0, false⟩, ⟨0, 6, .rw, 0, false⟩]⟩

/-- TIM_LAUNCH_BUF (09_time.md, R407). -/
def TIM_LAUNCH_BUF (i : Nat) : Nat := 0x40800 + 8 * i
def TIM_LAUNCH_BUF_data (i : Nat) : Fld := ⟨TIM_LAUNCH_BUF i, 0, 64⟩
def TIM_LAUNCH_BUF_desc : RegDesc := ⟨0x40800, 8, 128, [⟨0, 64, .rw, 0, false⟩]⟩

/-- BAY_PIN (10_bays_pins_fifos.md, R451). -/
def BAY_PIN (g : Nat) : Nat := bayBase (g / 8) + 8 * (g % 8)
def BAY_PIN_filter (g : Nat) : Fld := ⟨BAY_PIN g, 28, 8⟩
def BAY_PIN_bias (g : Nat) : Fld := ⟨BAY_PIN g, 19, 1⟩
def BAY_PIN_term (g : Nat) : Fld := ⟨BAY_PIN g, 18, 1⟩
def BAY_PIN_invert (g : Nat) : Fld := ⟨BAY_PIN g, 17, 1⟩
def BAY_PIN_slow (g : Nat) : Fld := ⟨BAY_PIN g, 16, 1⟩
def BAY_PIN_safe (g : Nat) : Fld := ⟨BAY_PIN g, 12, 2⟩
def BAY_PIN_owner (g : Nat) : Fld := ⟨BAY_PIN g, 8, 2⟩
def BAY_PIN_mode (g : Nat) : Fld := ⟨BAY_PIN g, 0, 4⟩
def BAY_PIN_desc : RegDesc := ⟨0, 8, 8, [⟨28, 8, .rw, 0, true⟩, ⟨19, 1, .rw, 0, true⟩, ⟨18, 1, .rw, 0, true⟩, ⟨17, 1, .ro, 0, true⟩, ⟨16, 1, .ro, 0, true⟩, ⟨12, 2, .ro, 0, true⟩, ⟨8, 2, .ro, 0, true⟩, ⟨0, 4, .ro, 0, true⟩]⟩

/-- BAY_IN (10_bays_pins_fifos.md, R451). -/
def BAY_IN (n : Nat) : Nat := bayBase n + 0x40
def BAY_IN_released (n : Nat) : Fld := ⟨BAY_IN n, 16, 8⟩
def BAY_IN_driven (n : Nat) : Fld := ⟨BAY_IN n, 8, 8⟩
def BAY_IN_level (n : Nat) : Fld := ⟨BAY_IN n, 0, 8⟩
def BAY_IN_desc : RegDesc := ⟨0x40, 8, 1, [⟨16, 8, .ro, 0, false⟩, ⟨8, 8, .ro, 0, false⟩, ⟨0, 8, .ro, 0, false⟩]⟩

/-- BAY_OUT (10_bays_pins_fifos.md, R451). -/
def BAY_OUT (n : Nat) : Nat := bayBase n + 0x48
def BAY_OUT_enable (n : Nat) : Fld := ⟨BAY_OUT n, 8, 8⟩
def BAY_OUT_value (n : Nat) : Fld := ⟨BAY_OUT n, 0, 8⟩
def BAY_OUT_desc : RegDesc := ⟨0x48, 8, 1, [⟨8, 8, .rw, 0, false⟩, ⟨0, 8, .rw, 0, false⟩]⟩

/-- BAY_PINSTAT (10_bays_pins_fifos.md, R451). -/
def BAY_PINSTAT (n : Nat) : Nat := bayBase n + 0x50
def BAY_PINSTAT_in_limit (n : Nat) : Fld := ⟨BAY_PINSTAT n, 8, 8⟩
def BAY_PINSTAT_overload (n : Nat) : Fld := ⟨BAY_PINSTAT n, 0, 8⟩
def BAY_PINSTAT_desc : RegDesc := ⟨0x50, 8, 1, [⟨8, 8, .ro, 0, false⟩, ⟨0, 8, .w1c, 0, false⟩]⟩

/-- BAY_PINCNT (10_bays_pins_fifos.md, R451). -/
def BAY_PINCNT (n : Nat) : Nat := bayBase n + 0x58
def BAY_PINCNT_overloads (n : Nat) : Fld := ⟨BAY_PINCNT n, 0, 48⟩
def BAY_PINCNT_desc : RegDesc := ⟨0x58, 8, 1, [⟨0, 48, .rw, 0, false⟩]⟩

/-- BAY_ROUTE (10_bays_pins_fifos.md, R451). -/
def BAY_ROUTE (n : Nat) : Nat := bayBase n + 0x60
def BAY_ROUTE_flow (n : Nat) : Fld := ⟨BAY_ROUTE n, 48, 16⟩
def BAY_ROUTE_dst_node (n : Nat) : Fld := ⟨BAY_ROUTE n, 40, 8⟩
def BAY_ROUTE_dst_ring (n : Nat) : Fld := ⟨BAY_ROUTE n, 32, 2⟩
def BAY_ROUTE_notice (n : Nat) : Fld := ⟨BAY_ROUTE n, 8, 4⟩
def BAY_ROUTE_tx_producer (n : Nat) : Fld := ⟨BAY_ROUTE n, 1, 1⟩
def BAY_ROUTE_rx_consumer (n : Nat) : Fld := ⟨BAY_ROUTE n, 0, 1⟩
def BAY_ROUTE_desc : RegDesc := ⟨0x60, 8, 1, [⟨48, 16, .ro, 0, true⟩, ⟨40, 8, .ro, 0, true⟩, ⟨32, 2, .ro, 0, true⟩, ⟨8, 4, .rw, 0, true⟩, ⟨1, 1, .ro, 0, true⟩, ⟨0, 1, .ro, 0, true⟩]⟩

/-- BAY_RXSTAT (10_bays_pins_fifos.md, R451). -/
def BAY_RXSTAT (n : Nat) : Nat := bayBase n + 0x100
def BAY_RXSTAT_pseq (n : Nat) : Fld := ⟨BAY_RXSTAT n, 48, 16⟩
def BAY_RXSTAT_open (n : Nat) : Fld := ⟨BAY_RXSTAT n, 17, 1⟩
def BAY_RXSTAT_released (n : Nat) : Fld := ⟨BAY_RXSTAT n, 16, 1⟩
def BAY_RXSTAT_packets (n : Nat) : Fld := ⟨BAY_RXSTAT n, 8, 7⟩
def BAY_RXSTAT_words (n : Nat) : Fld := ⟨BAY_RXSTAT n, 0, 7⟩
def BAY_RXSTAT_desc : RegDesc := ⟨0x100, 8, 1, [⟨48, 16, .ro, 0, false⟩, ⟨17, 1, .ro, 0, false⟩, ⟨16, 1, .ro, 0, false⟩, ⟨8, 7, .ro, 0, false⟩, ⟨0, 7, .ro, 0, false⟩]⟩

/-- BAY_RXCTL (10_bays_pins_fifos.md, R451). -/
def BAY_RXCTL (n : Nat) : Nat := bayBase n + 0x108
def BAY_RXCTL_flush (n : Nat) : Fld := ⟨BAY_RXCTL n, 8, 1⟩
def BAY_RXCTL_ct (n : Nat) : Fld := ⟨BAY_RXCTL n, 0, 6⟩
def BAY_RXCTL_desc : RegDesc := ⟨0x108, 8, 1, [⟨8, 1, .wo, 0, false⟩, ⟨0, 6, .rw, 0, true⟩]⟩

/-- BAY_RXPOP (10_bays_pins_fifos.md, R451). -/
def BAY_RXPOP (n : Nat) : Nat := bayBase n + 0x110
def BAY_RXPOP_data (n : Nat) : Fld := ⟨BAY_RXPOP n, 0, 64⟩
def BAY_RXPOP_desc : RegDesc := ⟨0x110, 8, 1, [⟨0, 64, .pop, 0, false⟩]⟩

/-- BAY_RXLAST (10_bays_pins_fifos.md, R451). -/
def BAY_RXLAST (n : Nat) : Nat := bayBase n + 0x118
def BAY_RXLAST_pops (n : Nat) : Fld := ⟨BAY_RXLAST n, 8, 8⟩
def BAY_RXLAST_tags (n : Nat) : Fld := ⟨BAY_RXLAST n, 0, 4⟩
def BAY_RXLAST_desc : RegDesc := ⟨0x118, 8, 1, [⟨8, 8, .ro, 0, false⟩, ⟨0, 4, .ro, 0, false⟩]⟩

/-- BAY_RXCNT (10_bays_pins_fifos.md, R451): overflows, seg_drops and bad are of BAY_TXCNT only, and read 0 here. -/
def BAY_RXCNT (n : Nat) : Nat := bayBase n + 0x120
def BAY_RXCNT_flushes (n : Nat) : Fld := ⟨BAY_RXCNT n, 48, 16⟩
def BAY_RXCNT_orphans (n : Nat) : Fld := ⟨BAY_RXCNT n, 32, 16⟩
def BAY_RXCNT_desc : RegDesc := ⟨0x120, 8, 1, [⟨48, 16, .rw, 0, false⟩, ⟨32, 16, .rw, 0, false⟩]⟩

/-- BAY_RXECC (10_bays_pins_fifos.md, R451). -/
def BAY_RXECC (n : Nat) : Nat := bayBase n + 0x128
def BAY_RXECC_corrected (n : Nat) : Fld := ⟨BAY_RXECC n, 32, 32⟩
def BAY_RXECC_uncorrectable (n : Nat) : Fld := ⟨BAY_RXECC n, 0, 32⟩
def BAY_RXECC_desc : RegDesc := ⟨0x128, 8, 1, [⟨32, 32, .rw, 0, false⟩, ⟨0, 32, .rw, 0, false⟩]⟩

/-- BAY_TXSTAT (10_bays_pins_fifos.md, R451). -/
def BAY_TXSTAT (n : Nat) : Nat := bayBase n + 0x180
def BAY_TXSTAT_pseq (n : Nat) : Fld := ⟨BAY_TXSTAT n, 48, 16⟩
def BAY_TXSTAT_open (n : Nat) : Fld := ⟨BAY_TXSTAT n, 17, 1⟩
def BAY_TXSTAT_released (n : Nat) : Fld := ⟨BAY_TXSTAT n, 16, 1⟩
def BAY_TXSTAT_packets (n : Nat) : Fld := ⟨BAY_TXSTAT n, 8, 7⟩
def BAY_TXSTAT_words (n : Nat) : Fld := ⟨BAY_TXSTAT n, 0, 7⟩
def BAY_TXSTAT_desc : RegDesc := ⟨0x180, 8, 1, [⟨48, 16, .ro, 0, false⟩, ⟨17, 1, .ro, 0, false⟩, ⟨16, 1, .ro, 0, false⟩, ⟨8, 7, .ro, 0, false⟩, ⟨0, 7, .ro, 0, false⟩]⟩

/-- BAY_TXCTL (10_bays_pins_fifos.md, R451). -/
def BAY_TXCTL (n : Nat) : Nat := bayBase n + 0x188
def BAY_TXCTL_flush (n : Nat) : Fld := ⟨BAY_TXCTL n, 8, 1⟩
def BAY_TXCTL_ct (n : Nat) : Fld := ⟨BAY_TXCTL n, 0, 6⟩
def BAY_TXCTL_desc : RegDesc := ⟨0x188, 8, 1, [⟨8, 1, .wo, 0, false⟩, ⟨0, 6, .rw, 0, true⟩]⟩

/-- BAY_TXTAG (10_bays_pins_fifos.md, R451). -/
def BAY_TXTAG (n : Nat) : Nat := bayBase n + 0x190
def BAY_TXTAG_tags (n : Nat) : Fld := ⟨BAY_TXTAG n, 0, 3⟩
def BAY_TXTAG_desc : RegDesc := ⟨0x190, 8, 1, [⟨0, 3, .rw, 0, false⟩]⟩

/-- BAY_TXPUSH (10_bays_pins_fifos.md, R451). -/
def BAY_TXPUSH (n : Nat) : Nat := bayBase n + 0x198
def BAY_TXPUSH_data (n : Nat) : Fld := ⟨BAY_TXPUSH n, 0, 64⟩
def BAY_TXPUSH_desc : RegDesc := ⟨0x198, 8, 1, [⟨0, 64, .wo, 0, false⟩]⟩

/-- BAY_TXCNT (10_bays_pins_fifos.md, R451). -/
def BAY_TXCNT (n : Nat) : Nat := bayBase n + 0x1A0
def BAY_TXCNT_flushes (n : Nat) : Fld := ⟨BAY_TXCNT n, 48, 16⟩
def BAY_TXCNT_orphans (n : Nat) : Fld := ⟨BAY_TXCNT n, 32, 16⟩
def BAY_TXCNT_overflows (n : Nat) : Fld := ⟨BAY_TXCNT n, 16, 16⟩
def BAY_TXCNT_seg_drops (n : Nat) : Fld := ⟨BAY_TXCNT n, 8, 8⟩
def BAY_TXCNT_bad (n : Nat) : Fld := ⟨BAY_TXCNT n, 0, 8⟩
def BAY_TXCNT_desc : RegDesc := ⟨0x1A0, 8, 1, [⟨48, 16, .rw, 0, false⟩, ⟨32, 16, .rw, 0, false⟩, ⟨16, 16, .rw, 0, false⟩, ⟨8, 8, .rw, 0, false⟩, ⟨0, 8, .rw, 0, false⟩]⟩

/-- BAY_TXECC (10_bays_pins_fifos.md, R451). -/
def BAY_TXECC (n : Nat) : Nat := bayBase n + 0x1A8
def BAY_TXECC_corrected (n : Nat) : Fld := ⟨BAY_TXECC n, 32, 32⟩
def BAY_TXECC_uncorrectable (n : Nat) : Fld := ⟨BAY_TXECC n, 0, 32⟩
def BAY_TXECC_desc : RegDesc := ⟨0x1A8, 8, 1, [⟨32, 32, .rw, 0, false⟩, ⟨0, 32, .rw, 0, false⟩]⟩

/-- INF_CTRL (11_infuser_engines.md, R502). -/
def INF_CTRL (e : Nat) : Nat := engBase e + 0
def INF_CTRL_stop (e : Nat) : Fld := ⟨INF_CTRL e, 32, 16⟩
def INF_CTRL_start (e : Nat) : Fld := ⟨INF_CTRL e, 0, 16⟩
def INF_CTRL_desc : RegDesc := ⟨0, 8, 1, [⟨32, 16, .wo, 0, false⟩, ⟨0, 16, .wo, 0, false⟩]⟩

/-- INF_STATUS (11_infuser_engines.md, R502). -/
def INF_STATUS (e : Nat) : Nat := engBase e + 8
def INF_STATUS_faulted (e : Nat) : Fld := ⟨INF_STATUS e, 48, 16⟩
def INF_STATUS_waiting (e : Nat) : Fld := ⟨INF_STATUS e, 32, 16⟩
def INF_STATUS_running (e : Nat) : Fld := ⟨INF_STATUS e, 16, 16⟩
def INF_STATUS_refused (e : Nat) : Fld := ⟨INF_STATUS e, 0, 16⟩
def INF_STATUS_desc : RegDesc := ⟨8, 8, 1, [⟨48, 16, .ro, 0, false⟩, ⟨32, 16, .ro, 0, false⟩, ⟨16, 16, .ro, 0, false⟩, ⟨0, 16, .rw, 0, false⟩]⟩

/-- INF_CONF (11_infuser_engines.md, R502). -/
def INF_CONF (e : Nat) : Nat := engBase e + 0x10
def INF_CONF_loser (e : Nat) : Fld := ⟨INF_CONF e, 60, 4⟩
def INF_CONF_winner (e : Nat) : Fld := ⟨INF_CONF e, 56, 4⟩
def INF_CONF_pin (e : Nat) : Fld := ⟨INF_CONF e, 32, 9⟩
def INF_CONF_count (e : Nat) : Fld := ⟨INF_CONF e, 0, 32⟩
def INF_CONF_desc : RegDesc := ⟨0x10, 8, 1, [⟨60, 4, .ro, 0, false⟩, ⟨56, 4, .ro, 0, false⟩, ⟨32, 9, .ro, 0, false⟩, ⟨0, 32, .rw, 0, false⟩]⟩

/-- INF_PATCH (11_infuser_engines.md, R502). -/
def INF_PATCH (e : Nat) : Nat := engBase e + 0x18
def INF_PATCH_refused (e : Nat) : Fld := ⟨INF_PATCH e, 48, 16⟩
def INF_PATCH_patches (e : Nat) : Fld := ⟨INF_PATCH e, 32, 16⟩
def INF_PATCH_last (e : Nat) : Fld := ⟨INF_PATCH e, 0, 10⟩
def INF_PATCH_desc : RegDesc := ⟨0x18, 8, 1, [⟨48, 16, .rw, 0, false⟩, ⟨32, 16, .rw, 0, false⟩, ⟨0, 10, .ro, 0, false⟩]⟩

/-- INF_ECC (11_infuser_engines.md, R502). -/
def INF_ECC (e : Nat) : Nat := engBase e + 0x20
def INF_ECC_corrected (e : Nat) : Fld := ⟨INF_ECC e, 32, 32⟩
def INF_ECC_uncorrectable (e : Nat) : Fld := ⟨INF_ECC e, 0, 32⟩
def INF_ECC_desc : RegDesc := ⟨0x20, 8, 1, [⟨32, 32, .rw, 0, false⟩, ⟨0, 32, .rw, 0, false⟩]⟩

/-- INF_BAYS (11_infuser_engines.md, R502). -/
def INF_BAYS (e : Nat) : Nat := engBase e + 0x28
def INF_BAYS_bays (e : Nat) : Fld := ⟨INF_BAYS e, 0, 48⟩
def INF_BAYS_desc : RegDesc := ⟨0x28, 8, 1, [⟨0, 48, .ro, 0, true⟩]⟩

/-- INF_CTX_STATE (11_infuser_engines.md, R502). -/
def INF_CTX_STATE (e i : Nat) : Nat := engBase e + 0x100 + 8 * i
def INF_CTX_STATE_state (e i : Nat) : Fld := ⟨INF_CTX_STATE e i, 61, 3⟩
def INF_CTX_STATE_wait (e i : Nat) : Fld := ⟨INF_CTX_STATE e i, 57, 4⟩
def INF_CTX_STATE_cause (e i : Nat) : Fld := ⟨INF_CTX_STATE e i, 53, 4⟩
def INF_CTX_STATE_island (e i : Nat) : Fld := ⟨INF_CTX_STATE e i, 52, 1⟩
def INF_CTX_STATE_fault_pc (e i : Nat) : Fld := ⟨INF_CTX_STATE e i, 32, 10⟩
def INF_CTX_STATE_start_pc (e i : Nat) : Fld := ⟨INF_CTX_STATE e i, 16, 10⟩
def INF_CTX_STATE_pc (e i : Nat) : Fld := ⟨INF_CTX_STATE e i, 0, 10⟩
def INF_CTX_STATE_desc : RegDesc := ⟨0x100, 8, 16, [⟨61, 3, .ro, 0, false⟩, ⟨57, 4, .ro, 0, false⟩, ⟨53, 4, .ro, 0, false⟩, ⟨52, 1, .ro, 0, false⟩, ⟨32, 10, .ro, 0, false⟩, ⟨16, 10, .rw, 0, true⟩, ⟨0, 10, .ro, 0, false⟩]⟩

/-- INF_CTX_CFG (11_infuser_engines.md, R502). -/
def INF_CTX_CFG (e i : Nat) : Nat := engBase e + 0x180 + 8 * i
def INF_CTX_CFG_hot_patch (e i : Nat) : Fld := ⟨INF_CTX_CFG e i, 59, 1⟩
def INF_CTX_CFG_fallback (e i : Nat) : Fld := ⟨INF_CTX_CFG e i, 58, 1⟩
def INF_CTX_CFG_autostart (e i : Nat) : Fld := ⟨INF_CTX_CFG e i, 57, 1⟩
def INF_CTX_CFG_enabled (e i : Nat) : Fld := ⟨INF_CTX_CFG e i, 56, 1⟩
def INF_CTX_CFG_region_hi (e i : Nat) : Fld := ⟨INF_CTX_CFG e i, 42, 10⟩
def INF_CTX_CFG_region_lo (e i : Nat) : Fld := ⟨INF_CTX_CFG e i, 32, 10⟩
def INF_CTX_CFG_late_window (e i : Nat) : Fld := ⟨INF_CTX_CFG e i, 0, 20⟩
def INF_CTX_CFG_desc : RegDesc := ⟨0x180, 8, 16, [⟨59, 1, .ro, 0, true⟩, ⟨58, 1, .ro, 0, true⟩, ⟨57, 1, .ro, 0, true⟩, ⟨56, 1, .ro, 0, true⟩, ⟨42, 10, .ro, 0, true⟩, ⟨32, 10, .ro, 0, true⟩, ⟨0, 20, .rw, 0, true⟩]⟩

/-- INF_CTX_TIME (11_infuser_engines.md, R502). -/
def INF_CTX_TIME (e i : Nat) : Nat := engBase e + 0x200 + 8 * i
def INF_CTX_TIME_tau (e i : Nat) : Fld := ⟨INF_CTX_TIME e i, 0, 64⟩
def INF_CTX_TIME_desc : RegDesc := ⟨0x200, 8, 16, [⟨0, 64, .ro, 0, false⟩]⟩

/-- INF_CTX_REGS (11_infuser_engines.md, R502). -/
def INF_CTX_REGS (e i : Nat) : Nat := engBase e + 0x280 + 8 * i
def INF_CTX_REGS_c0 (e i : Nat) : Fld := ⟨INF_CTX_REGS e i, 48, 16⟩
def INF_CTX_REGS_c1 (e i : Nat) : Fld := ⟨INF_CTX_REGS e i, 32, 16⟩
def INF_CTX_REGS_flags (e i : Nat) : Fld := ⟨INF_CTX_REGS e i, 24, 8⟩
def INF_CTX_REGS_bit_timer (e i : Nat) : Fld := ⟨INF_CTX_REGS e i, 0, 21⟩
def INF_CTX_REGS_desc : RegDesc := ⟨0x280, 8, 16, [⟨48, 16, .ro, 0, false⟩, ⟨32, 16, .ro, 0, false⟩, ⟨24, 8, .ro, 0, false⟩, ⟨0, 21, .rw, 0, true⟩]⟩

/-- INF_CTX_WRAP (11_infuser_engines.md, R502). -/
def INF_CTX_WRAP (e i : Nat) : Nat := engBase e + 0x300 + 8 * i
def INF_CTX_WRAP_pending (e i : Nat) : Fld := ⟨INF_CTX_WRAP e i, 27, 1⟩
def INF_CTX_WRAP_enable (e i : Nat) : Fld := ⟨INF_CTX_WRAP e i, 26, 1⟩
def INF_CTX_WRAP_loop_end (e i : Nat) : Fld := ⟨INF_CTX_WRAP e i, 16, 10⟩
def INF_CTX_WRAP_loop_start (e i : Nat) : Fld := ⟨INF_CTX_WRAP e i, 0, 10⟩
def INF_CTX_WRAP_desc : RegDesc := ⟨0x300, 8, 16, [⟨27, 1, .ro, 0, false⟩, ⟨26, 1, .ro, 0, false⟩, ⟨16, 10, .ro, 0, false⟩, ⟨0, 10, .ro, 0, false⟩]⟩

/-- INF_CTX_SHIFT (11_infuser_engines.md, R502). -/
def INF_CTX_SHIFT (e i : Nat) : Nat := engBase e + 0x380 + 8 * i
def INF_CTX_SHIFT_out_slot (e i : Nat) : Fld := ⟨INF_CTX_SHIFT e i, 60, 4⟩
def INF_CTX_SHIFT_in_slot (e i : Nat) : Fld := ⟨INF_CTX_SHIFT e i, 56, 4⟩
def INF_CTX_SHIFT_width (e i : Nat) : Fld := ⟨INF_CTX_SHIFT e i, 54, 2⟩
def INF_CTX_SHIFT_order (e i : Nat) : Fld := ⟨INF_CTX_SHIFT e i, 53, 1⟩
def INF_CTX_SHIFT_clk_mode (e i : Nat) : Fld := ⟨INF_CTX_SHIFT e i, 51, 2⟩
def INF_CTX_SHIFT_clk_slot (e i : Nat) : Fld := ⟨INF_CTX_SHIFT e i, 47, 4⟩
def INF_CTX_SHIFT_sample (e i : Nat) : Fld := ⟨INF_CTX_SHIFT e i, 0, 21⟩
def INF_CTX_SHIFT_desc : RegDesc := ⟨0x380, 8, 16, [⟨60, 4, .ro, 0, true⟩, ⟨56, 4, .ro, 0, true⟩, ⟨54, 2, .ro, 0, true⟩, ⟨53, 1, .ro, 0, true⟩, ⟨51, 2, .ro, 0, true⟩, ⟨47, 4, .ro, 0, true⟩, ⟨0, 21, .ro, 0, true⟩]⟩

/-- INF_CTX_SHSTAT (11_infuser_engines.md, R502). -/
def INF_CTX_SHSTAT (e i : Nat) : Nat := engBase e + 0x400 + 8 * i
def INF_CTX_SHSTAT_out_busy (e i : Nat) : Fld := ⟨INF_CTX_SHSTAT e i, 63, 1⟩
def INF_CTX_SHSTAT_out_left (e i : Nat) : Fld := ⟨INF_CTX_SHSTAT e i, 56, 7⟩
def INF_CTX_SHSTAT_in_busy (e i : Nat) : Fld := ⟨INF_CTX_SHSTAT e i, 55, 1⟩
def INF_CTX_SHSTAT_in_left (e i : Nat) : Fld := ⟨INF_CTX_SHSTAT e i, 48, 7⟩
def INF_CTX_SHSTAT_out_count (e i : Nat) : Fld := ⟨INF_CTX_SHSTAT e i, 32, 7⟩
def INF_CTX_SHSTAT_in_count (e i : Nat) : Fld := ⟨INF_CTX_SHSTAT e i, 0, 7⟩
def INF_CTX_SHSTAT_desc : RegDesc := ⟨0x400, 8, 16, [⟨63, 1, .ro, 0, false⟩, ⟨56, 7, .ro, 0, false⟩, ⟨55, 1, .ro, 0, false⟩, ⟨48, 7, .ro, 0, false⟩, ⟨32, 7, .ro, 0, false⟩, ⟨0, 7, .ro, 0, false⟩]⟩

/-- INF_CTX_SLACK (11_infuser_engines.md, R502). -/
def INF_CTX_SLACK (e i : Nat) : Nat := engBase e + 0x480 + 8 * i
def INF_CTX_SLACK_late (e i : Nat) : Fld := ⟨INF_CTX_SLACK e i, 48, 16⟩
def INF_CTX_SLACK_min_slack (e i : Nat) : Fld := ⟨INF_CTX_SLACK e i, 0, 32⟩
def INF_CTX_SLACK_desc : RegDesc := ⟨0x480, 8, 16, [⟨48, 16, .rw, 0, false⟩, ⟨0, 32, .rw, 0x10, false⟩]⟩

/-- INF_CTX_OUTSH (11_infuser_engines.md, R502). -/
def INF_CTX_OUTSH (e i : Nat) : Nat := engBase e + 0x500 + 8 * i
def INF_CTX_OUTSH_data (e i : Nat) : Fld := ⟨INF_CTX_OUTSH e i, 0, 64⟩
def INF_CTX_OUTSH_desc : RegDesc := ⟨0x500, 8, 16, [⟨0, 64, .ro, 0, false⟩]⟩

/-- INF_CTX_INSH (11_infuser_engines.md, R502). -/
def INF_CTX_INSH (e i : Nat) : Nat := engBase e + 0x580 + 8 * i
def INF_CTX_INSH_data (e i : Nat) : Fld := ⟨INF_CTX_INSH e i, 0, 64⟩
def INF_CTX_INSH_desc : RegDesc := ⟨0x580, 8, 16, [⟨0, 64, .ro, 0, false⟩]⟩

/-- INF_MAP (11_infuser_engines.md, R502). -/
def INF_MAP (e i : Nat) : Nat := engBase e + 0x600 + 8 * i
def INF_MAP_slot3 (e i : Nat) : Fld := ⟨INF_MAP e i, 48, 16⟩
def INF_MAP_slot2 (e i : Nat) : Fld := ⟨INF_MAP e i, 32, 16⟩
def INF_MAP_slot1 (e i : Nat) : Fld := ⟨INF_MAP e i, 16, 16⟩
def INF_MAP_slot0 (e i : Nat) : Fld := ⟨INF_MAP e i, 0, 16⟩
def INF_MAP_desc : RegDesc := ⟨0x600, 8, 64, [⟨48, 16, .ro, 0, true⟩, ⟨32, 16, .ro, 0, true⟩, ⟨16, 16, .ro, 0, true⟩, ⟨0, 16, .ro, 0, true⟩]⟩

/-- INF_PROG (11_infuser_engines.md, R502). -/
def INF_PROG (e i : Nat) : Nat := engBase e + 0x1000 + 8 * i
def INF_PROG_odd (e i : Nat) : Fld := ⟨INF_PROG e i, 32, 32⟩
def INF_PROG_even (e i : Nat) : Fld := ⟨INF_PROG e i, 0, 32⟩
def INF_PROG_desc : RegDesc := ⟨0x1000, 8, 512, [⟨32, 32, .rw, 0, true⟩, ⟨0, 32, .rw, 0, true⟩]⟩

/-- PWP_GROUP (14_power_ports.md, R587). -/
def PWP_GROUP (i : Nat) : Nat := 0x90000 + 8 * i
def PWP_GROUP_supply (i : Nat) : Fld := ⟨PWP_GROUP i, 48, 16⟩
def PWP_GROUP_current (i : Nat) : Fld := ⟨PWP_GROUP i, 32, 16⟩
def PWP_GROUP_peak (i : Nat) : Fld := ⟨PWP_GROUP i, 16, 16⟩
def PWP_GROUP_overload (i : Nat) : Fld := ⟨PWP_GROUP i, 8, 1⟩
def PWP_GROUP_present (i : Nat) : Fld := ⟨PWP_GROUP i, 7, 1⟩
def PWP_GROUP_closed (i : Nat) : Fld := ⟨PWP_GROUP i, 6, 1⟩
def PWP_GROUP_opened_by (i : Nat) : Fld := ⟨PWP_GROUP i, 4, 2⟩
def PWP_GROUP_close (i : Nat) : Fld := ⟨PWP_GROUP i, 1, 1⟩
def PWP_GROUP_open (i : Nat) : Fld := ⟨PWP_GROUP i, 0, 1⟩
def PWP_GROUP_desc : RegDesc := ⟨0x90000, 8, 2, [⟨48, 16, .ro, 0, false⟩, ⟨32, 16, .ro, 0, false⟩, ⟨16, 16, .rw, 0, false⟩, ⟨8, 1, .ro, 0, false⟩, ⟨7, 1, .ro, 0, false⟩, ⟨6, 1, .ro, 0, false⟩, ⟨4, 2, .ro, 0, false⟩, ⟨1, 1, .wo, 0, false⟩, ⟨0, 1, .wo, 0, false⟩]⟩

/-- PWP_SEQ_CTRL (14_power_ports.md, R587). -/
def PWP_SEQ_CTRL : Nat := 0x90010
def PWP_SEQ_CTRL_autostart : Fld := ⟨PWP_SEQ_CTRL, 48, 4⟩
def PWP_SEQ_CTRL_stop : Fld := ⟨PWP_SEQ_CTRL, 16, 4⟩
def PWP_SEQ_CTRL_start : Fld := ⟨PWP_SEQ_CTRL, 0, 4⟩
def PWP_SEQ_CTRL_desc : RegDesc := ⟨0x90010, 8, 1, [⟨48, 4, .ro, 0, true⟩, ⟨16, 4, .wo, 0, false⟩, ⟨0, 4, .wo, 0, false⟩]⟩

/-- PWP_SEQ_STAT (14_power_ports.md, R587). -/
def PWP_SEQ_STAT (i : Nat) : Nat := 0x90020 + 8 * i
def PWP_SEQ_STAT_state (i : Nat) : Fld := ⟨PWP_SEQ_STAT i, 62, 2⟩
def PWP_SEQ_STAT_defined (i : Nat) : Fld := ⟨PWP_SEQ_STAT i, 57, 1⟩
def PWP_SEQ_STAT_entry (i : Nat) : Fld := ⟨PWP_SEQ_STAT i, 48, 8⟩
def PWP_SEQ_STAT_pc (i : Nat) : Fld := ⟨PWP_SEQ_STAT i, 0, 8⟩
def PWP_SEQ_STAT_desc : RegDesc := ⟨0x90020, 8, 4, [⟨62, 2, .ro, 0, false⟩, ⟨57, 1, .ro, 0, true⟩, ⟨48, 8, .ro, 0, true⟩, ⟨0, 8, .ro, 0, false⟩]⟩

/-- PWP_CMD (14_power_ports.md, R587). -/
def PWP_CMD (i : Nat) : Nat := 0x90100 + 8 * i
def PWP_CMD_on (i : Nat) : Fld := ⟨PWP_CMD i, 0, 1⟩
def PWP_CMD_desc : RegDesc := ⟨0x90100, 8, 32, [⟨0, 1, .rw, 0, true⟩]⟩

/-- PWP_CFG (14_power_ports.md, R587). -/
def PWP_CFG (i : Nat) : Nat := 0x90200 + 8 * i
def PWP_CFG_off_settle (i : Nat) : Fld := ⟨PWP_CFG i, 48, 16⟩
def PWP_CFG_timer (i : Nat) : Fld := ⟨PWP_CFG i, 37, 11⟩
def PWP_CFG_fold (i : Nat) : Fld := ⟨PWP_CFG i, 32, 5⟩
def PWP_CFG_fast (i : Nat) : Fld := ⟨PWP_CFG i, 16, 10⟩
def PWP_CFG_limit (i : Nat) : Fld := ⟨PWP_CFG i, 8, 8⟩
def PWP_CFG_retry (i : Nat) : Fld := ⟨PWP_CFG i, 2, 6⟩
def PWP_CFG_backfeed_ok (i : Nat) : Fld := ⟨PWP_CFG i, 1, 1⟩
def PWP_CFG_desc : RegDesc := ⟨0x90200, 8, 32, [⟨48, 16, .rw, 0, true⟩, ⟨37, 11, .rw, 0, true⟩, ⟨32, 5, .rw, 0, true⟩, ⟨16, 10, .rw, 0, true⟩, ⟨8, 8, .rw, 0, true⟩, ⟨2, 6, .rw, 0, true⟩, ⟨1, 1, .ro, 0, true⟩]⟩

/-- PWP_STAT (14_power_ports.md, R587). -/
def PWP_STAT (i : Nat) : Nat := 0x90300 + 8 * i
def PWP_STAT_state (i : Nat) : Fld := ⟨PWP_STAT i, 61, 3⟩
def PWP_STAT_forced (i : Nat) : Fld := ⟨PWP_STAT i, 60, 1⟩
def PWP_STAT_effective (i : Nat) : Fld := ⟨PWP_STAT i, 59, 1⟩
def PWP_STAT_pg (i : Nat) : Fld := ⟨PWP_STAT i, 58, 1⟩
def PWP_STAT_tripped (i : Nat) : Fld := ⟨PWP_STAT i, 57, 1⟩
def PWP_STAT_damaged (i : Nat) : Fld := ⟨PWP_STAT i, 56, 1⟩
def PWP_STAT_cause (i : Nat) : Fld := ⟨PWP_STAT i, 52, 4⟩
def PWP_STAT_accum (i : Nat) : Fld := ⟨PWP_STAT i, 32, 11⟩
def PWP_STAT_desc : RegDesc := ⟨0x90300, 8, 32, [⟨61, 3, .ro, 6, false⟩, ⟨60, 1, .ro, 0, false⟩, ⟨59, 1, .ro, 0, false⟩, ⟨58, 1, .ro, 0, false⟩, ⟨57, 1, .w1c, 0, false⟩, ⟨56, 1, .w1c, 0, false⟩, ⟨52, 4, .ro, 0, false⟩, ⟨32, 11, .ro, 0, false⟩]⟩

/-- PWP_MEAS (14_power_ports.md, R587). -/
def PWP_MEAS (i : Nat) : Nat := 0x90400 + 8 * i
def PWP_MEAS_vout (i : Nat) : Fld := ⟨PWP_MEAS i, 48, 16⟩
def PWP_MEAS_current (i : Nat) : Fld := ⟨PWP_MEAS i, 32, 16⟩
def PWP_MEAS_tj (i : Nat) : Fld := ⟨PWP_MEAS i, 24, 8⟩
def PWP_MEAS_tmodel (i : Nat) : Fld := ⟨PWP_MEAS i, 16, 8⟩
def PWP_MEAS_peak (i : Nat) : Fld := ⟨PWP_MEAS i, 0, 16⟩
def PWP_MEAS_desc : RegDesc := ⟨0x90400, 8, 32, [⟨48, 16, .ro, 0, false⟩, ⟨32, 16, .ro, 0, false⟩, ⟨24, 8, .ro, 0, false⟩, ⟨16, 8, .ro, 0, false⟩, ⟨0, 16, .rw, 0, false⟩]⟩

/-- PWP_CNT (14_power_ports.md, R587). -/
def PWP_CNT (i : Nat) : Nat := 0x90500 + 8 * i
def PWP_CNT_trips (i : Nat) : Fld := ⟨PWP_CNT i, 48, 16⟩
def PWP_CNT_limits (i : Nat) : Fld := ⟨PWP_CNT i, 32, 16⟩
def PWP_CNT_ramps (i : Nat) : Fld := ⟨PWP_CNT i, 16, 16⟩
def PWP_CNT_damaged (i : Nat) : Fld := ⟨PWP_CNT i, 0, 16⟩
def PWP_CNT_desc : RegDesc := ⟨0x90500, 8, 32, [⟨48, 16, .rw, 0, false⟩, ⟨32, 16, .rw, 0, false⟩, ⟨16, 16, .rw, 0, false⟩, ⟨0, 16, .rw, 0, false⟩]⟩

/-- PWP_SEQ_PROG (14_power_ports.md, R587). -/
def PWP_SEQ_PROG (i : Nat) : Nat := 0x91000 + 8 * i
def PWP_SEQ_PROG_odd (i : Nat) : Fld := ⟨PWP_SEQ_PROG i, 32, 32⟩
def PWP_SEQ_PROG_even (i : Nat) : Fld := ⟨PWP_SEQ_PROG i, 0, 32⟩
def PWP_SEQ_PROG_desc : RegDesc := ⟨0x91000, 8, 128, [⟨32, 32, .ro, 0, true⟩, ⟨0, 32, .ro, 0, true⟩]⟩

/-- PWR_STATUS (15_power_states.md, R617). -/
def PWR_STATUS : Nat := 0x70000
def PWR_STATUS_core_mv : Fld := ⟨PWR_STATUS, 48, 16⟩
def PWR_STATUS_requested : Fld := ⟨PWR_STATUS, 32, 16⟩
def PWR_STATUS_gated : Fld := ⟨PWR_STATUS, 8, 8⟩
def PWR_STATUS_vsi_busy : Fld := ⟨PWR_STATUS, 0, 1⟩
def PWR_STATUS_desc : RegDesc := ⟨0x70000, 8, 1, [⟨48, 16, .ro, 0, false⟩, ⟨32, 16, .ro, 0, false⟩, ⟨8, 8, .ro, 0, false⟩, ⟨0, 1, .ro, 0, false⟩]⟩

/-- PWR_WINDOW (15_power_states.md, R617). -/
def PWR_WINDOW : Nat := 0x70008
def PWR_WINDOW_ceiling : Fld := ⟨PWR_WINDOW, 48, 16⟩
def PWR_WINDOW_run_floor : Fld := ⟨PWR_WINDOW, 32, 16⟩
def PWR_WINDOW_doze_floor : Fld := ⟨PWR_WINDOW, 16, 16⟩
def PWR_WINDOW_desc : RegDesc := ⟨0x70008, 8, 1, [⟨48, 16, .rw, 0, true⟩, ⟨32, 16, .rw, 0, true⟩, ⟨16, 16, .rw, 0, true⟩]⟩

/-- PWR_LOOP (15_power_states.md, R617). -/
def PWR_LOOP : Nat := 0x70010
def PWR_LOOP_enable : Fld := ⟨PWR_LOOP, 63, 1⟩
def PWR_LOOP_ring_guard : Fld := ⟨PWR_LOOP, 62, 1⟩
def PWR_LOOP_at_risk : Fld := ⟨PWR_LOOP, 61, 1⟩
def PWR_LOOP_frozen : Fld := ⟨PWR_LOOP, 60, 1⟩
def PWR_LOOP_resume : Fld := ⟨PWR_LOOP, 59, 1⟩
def PWR_LOOP_slack_high : Fld := ⟨PWR_LOOP, 40, 8⟩
def PWR_LOOP_slack_low : Fld := ⟨PWR_LOOP, 32, 8⟩
def PWR_LOOP_clamp_ms : Fld := ⟨PWR_LOOP, 0, 32⟩
def PWR_LOOP_desc : RegDesc := ⟨0x70010, 8, 1, [⟨63, 1, .rw, 0, true⟩, ⟨62, 1, .rw, 0, true⟩, ⟨61, 1, .ro, 0, false⟩, ⟨60, 1, .ro, 0, false⟩, ⟨59, 1, .wo, 0, false⟩, ⟨40, 8, .rw, 0, true⟩, ⟨32, 8, .rw, 0, true⟩, ⟨0, 32, .rw, 0, false⟩]⟩

/-- PWR_VSI (15_power_states.md, R617). -/
def PWR_VSI : Nat := 0x70018
def PWR_VSI_requests : Fld := ⟨PWR_VSI, 48, 16⟩
def PWR_VSI_retries : Fld := ⟨PWR_VSI, 32, 16⟩
def PWR_VSI_failures : Fld := ⟨PWR_VSI, 16, 16⟩
def PWR_VSI_last_ack : Fld := ⟨PWR_VSI, 0, 16⟩
def PWR_VSI_desc : RegDesc := ⟨0x70018, 8, 1, [⟨48, 16, .rw, 0, false⟩, ⟨32, 16, .rw, 0, false⟩, ⟨16, 16, .rw, 0, false⟩, ⟨0, 16, .ro, 0, false⟩]⟩

/-- PWR_TEMP (15_power_states.md, R617). -/
def PWR_TEMP : Nat := 0x70020
def PWR_TEMP_hub : Fld := ⟨PWR_TEMP, 56, 8⟩
def PWR_TEMP_power : Fld := ⟨PWR_TEMP, 48, 8⟩
def PWR_TEMP_regulator : Fld := ⟨PWR_TEMP, 40, 8⟩
def PWR_TEMP_hub_peak : Fld := ⟨PWR_TEMP, 32, 8⟩
def PWR_TEMP_desc : RegDesc := ⟨0x70020, 8, 1, [⟨56, 8, .ro, 0, false⟩, ⟨48, 8, .ro, 0, false⟩, ⟨40, 8, .ro, 0, false⟩, ⟨32, 8, .rw, 0, false⟩]⟩

/-- PWR_WAKE_CFG (15_power_states.md, R617). -/
def PWR_WAKE_CFG : Nat := 0x70028
def PWR_WAKE_CFG_target : Fld := ⟨PWR_WAKE_CFG, 60, 4⟩
def PWR_WAKE_CFG_hib_sources : Fld := ⟨PWR_WAKE_CFG, 48, 4⟩
def PWR_WAKE_CFG_doze_sources : Fld := ⟨PWR_WAKE_CFG, 44, 4⟩
def PWR_WAKE_CFG_timeio : Fld := ⟨PWR_WAKE_CFG, 40, 4⟩
def PWR_WAKE_CFG_desc : RegDesc := ⟨0x70028, 8, 1, [⟨60, 4, .rw, 0, true⟩, ⟨48, 4, .rw, 0, true⟩, ⟨44, 4, .rw, 0, true⟩, ⟨40, 4, .ro, 0, true⟩]⟩

/-- PWR_WAKE_PINS (15_power_states.md, R617). -/
def PWR_WAKE_PINS : Nat := 0x70030
def PWR_WAKE_PINS_pin3 : Fld := ⟨PWR_WAKE_PINS, 48, 16⟩
def PWR_WAKE_PINS_pin2 : Fld := ⟨PWR_WAKE_PINS, 32, 16⟩
def PWR_WAKE_PINS_pin1 : Fld := ⟨PWR_WAKE_PINS, 16, 16⟩
def PWR_WAKE_PINS_pin0 : Fld := ⟨PWR_WAKE_PINS, 0, 16⟩
def PWR_WAKE_PINS_desc : RegDesc := ⟨0x70030, 8, 1, [⟨48, 16, .ro, 0, true⟩, ⟨32, 16, .ro, 0, true⟩, ⟨16, 16, .ro, 0, true⟩, ⟨0, 16, .ro, 0, true⟩]⟩

/-- PWR_WAKE_AT (15_power_states.md, R617). -/
def PWR_WAKE_AT : Nat := 0x70038
def PWR_WAKE_AT_armed : Fld := ⟨PWR_WAKE_AT, 63, 1⟩
def PWR_WAKE_AT_past : Fld := ⟨PWR_WAKE_AT, 62, 1⟩
def PWR_WAKE_AT_cancel : Fld := ⟨PWR_WAKE_AT, 61, 1⟩
def PWR_WAKE_AT_time : Fld := ⟨PWR_WAKE_AT, 0, 40⟩
def PWR_WAKE_AT_desc : RegDesc := ⟨0x70038, 8, 1, [⟨63, 1, .ro, 0, false⟩, ⟨62, 1, .ro, 0, false⟩, ⟨61, 1, .wo, 0, false⟩, ⟨0, 40, .rw, 0, false⟩]⟩

/-- PWR_WAKE_LAST (15_power_states.md, R617). -/
def PWR_WAKE_LAST : Nat := 0x70040
def PWR_WAKE_LAST_source : Fld := ⟨PWR_WAKE_LAST, 60, 4⟩
def PWR_WAKE_LAST_mode : Fld := ⟨PWR_WAKE_LAST, 56, 4⟩
def PWR_WAKE_LAST_element : Fld := ⟨PWR_WAKE_LAST, 48, 8⟩
def PWR_WAKE_LAST_time : Fld := ⟨PWR_WAKE_LAST, 0, 40⟩
def PWR_WAKE_LAST_desc : RegDesc := ⟨0x70040, 8, 1, [⟨60, 4, .ro, 0, false⟩, ⟨56, 4, .ro, 0, false⟩, ⟨48, 8, .ro, 0, false⟩, ⟨0, 40, .ro, 0, false⟩]⟩

/-- PWR_BANK (15_power_states.md, R617). -/
def PWR_BANK : Nat := 0x70048
def PWR_BANK_lost : Fld := ⟨PWR_BANK, 48, 16⟩
def PWR_BANK_dropped : Fld := ⟨PWR_BANK, 32, 16⟩
def PWR_BANK_mask : Fld := ⟨PWR_BANK, 16, 16⟩
def PWR_BANK_lost_events : Fld := ⟨PWR_BANK, 8, 8⟩
def PWR_BANK_legacy : Fld := ⟨PWR_BANK, 0, 1⟩
def PWR_BANK_desc : RegDesc := ⟨0x70048, 8, 1, [⟨48, 16, .w1c, 0, false⟩, ⟨32, 16, .ro, 0, false⟩, ⟨16, 16, .ro, 0, true⟩, ⟨8, 8, .rw, 0, false⟩, ⟨0, 1, .ro, 0, true⟩]⟩

/-- PWR_CANARY (15_power_states.md, R617). -/
def PWR_CANARY (i : Nat) : Nat := 0x70080 + 8 * i
def PWR_CANARY_reference (i : Nat) : Fld := ⟨PWR_CANARY i, 48, 16⟩
def PWR_CANARY_min (i : Nat) : Fld := ⟨PWR_CANARY i, 32, 16⟩
def PWR_CANARY_count (i : Nat) : Fld := ⟨PWR_CANARY i, 0, 16⟩
def PWR_CANARY_desc : RegDesc := ⟨0x70080, 8, 12, [⟨48, 16, .ro, 0, false⟩, ⟨32, 16, .rw, 0xFFFF, false⟩, ⟨0, 16, .ro, 0, false⟩]⟩

/-- PWR_REFUSE (15_power_states.md, R617). -/
def PWR_REFUSE (i : Nat) : Nat := 0x70100 + 8 * i
def PWR_REFUSE_refused (i : Nat) : Fld := ⟨PWR_REFUSE i, 48, 16⟩
def PWR_REFUSE_aborted (i : Nat) : Fld := ⟨PWR_REFUSE i, 32, 16⟩
def PWR_REFUSE_code (i : Nat) : Fld := ⟨PWR_REFUSE i, 24, 8⟩
def PWR_REFUSE_element (i : Nat) : Fld := ⟨PWR_REFUSE i, 0, 16⟩
def PWR_REFUSE_desc : RegDesc := ⟨0x70100, 8, 9, [⟨48, 16, .rw, 0, false⟩, ⟨32, 16, .rw, 0, false⟩, ⟨24, 8, .ro, 0, false⟩, ⟨0, 16, .ro, 0, false⟩]⟩

/-- KET_STATUS (16_kettle_faults.md, R642). -/
def KET_STATUS : Nat := 0x60000
def KET_STATUS_self_fault : Fld := ⟨KET_STATUS, 63, 1⟩
def KET_STATUS_self_cause : Fld := ⟨KET_STATUS, 61, 2⟩
def KET_STATUS_self_source : Fld := ⟨KET_STATUS, 52, 9⟩
def KET_STATUS_masked : Fld := ⟨KET_STATUS, 32, 10⟩
def KET_STATUS_desc : RegDesc := ⟨0x60000, 8, 1, [⟨63, 1, .ro, 0, false⟩, ⟨61, 2, .ro, 0, false⟩, ⟨52, 9, .ro, 0, false⟩, ⟨32, 10, .ro, 0, false⟩]⟩

/-- KET_FIRST_A (16_kettle_faults.md, R642). -/
def KET_FIRST_A : Nat := 0x60008
def KET_FIRST_A_valid : Fld := ⟨KET_FIRST_A, 63, 1⟩
def KET_FIRST_A_severity : Fld := ⟨KET_FIRST_A, 61, 2⟩
def KET_FIRST_A_mode : Fld := ⟨KET_FIRST_A, 57, 4⟩
def KET_FIRST_A_source : Fld := ⟨KET_FIRST_A, 48, 9⟩
def KET_FIRST_A_seq : Fld := ⟨KET_FIRST_A, 32, 16⟩
def KET_FIRST_A_data : Fld := ⟨KET_FIRST_A, 0, 32⟩
def KET_FIRST_A_desc : RegDesc := ⟨0x60008, 8, 1, [⟨63, 1, .w1c, 0, false⟩, ⟨61, 2, .ro, 0, false⟩, ⟨57, 4, .ro, 0, false⟩, ⟨48, 9, .ro, 0, false⟩, ⟨32, 16, .ro, 0, false⟩, ⟨0, 32, .ro, 0, false⟩]⟩

/-- KET_FIRST_T (16_kettle_faults.md, R642). -/
def KET_FIRST_T : Nat := 0x60010
def KET_FIRST_T_seq : Fld := ⟨KET_FIRST_T, 48, 16⟩
def KET_FIRST_T_time : Fld := ⟨KET_FIRST_T, 0, 48⟩
def KET_FIRST_T_desc : RegDesc := ⟨0x60010, 8, 1, [⟨48, 16, .ro, 0, false⟩, ⟨0, 48, .ro, 0, false⟩]⟩

/-- KET_HIST_HEAD (16_kettle_faults.md, R642). -/
def KET_HIST_HEAD : Nat := 0x60018
def KET_HIST_HEAD_overwritten : Fld := ⟨KET_HIST_HEAD, 48, 16⟩
def KET_HIST_HEAD_seq : Fld := ⟨KET_HIST_HEAD, 32, 16⟩
def KET_HIST_HEAD_newest : Fld := ⟨KET_HIST_HEAD, 0, 4⟩
def KET_HIST_HEAD_desc : RegDesc := ⟨0x60018, 8, 1, [⟨48, 16, .rw, 0, false⟩, ⟨32, 16, .ro, 0, false⟩, ⟨0, 4, .ro, 0xF, false⟩]⟩

/-- KET_ERRPIN (16_kettle_faults.md, R642). -/
def KET_ERRPIN : Nat := 0x60020
def KET_ERRPIN_low : Fld := ⟨KET_ERRPIN, 2, 1⟩
def KET_ERRPIN_armed : Fld := ⟨KET_ERRPIN, 1, 1⟩
def KET_ERRPIN_drive : Fld := ⟨KET_ERRPIN, 0, 1⟩
def KET_ERRPIN_desc : RegDesc := ⟨0x60020, 8, 1, [⟨2, 1, .ro, 0, false⟩, ⟨1, 1, .w1s, 1, false⟩, ⟨0, 1, .rw, 0, false⟩]⟩

/-- KET_FORCE (16_kettle_faults.md, R642). -/
def KET_FORCE : Nat := 0x60028
def KET_FORCE_forced : Fld := ⟨KET_FORCE, 0, 48⟩
def KET_FORCE_desc : RegDesc := ⟨0x60028, 8, 1, [⟨0, 48, .w1c, 0, false⟩]⟩

/-- KET_CNT (16_kettle_faults.md, R642). -/
def KET_CNT (i : Nat) : Nat := 0x60040 + 8 * i
def KET_CNT_count (i : Nat) : Fld := ⟨KET_CNT i, 0, 48⟩
def KET_CNT_desc : RegDesc := ⟨0x60040, 8, 8, [⟨0, 48, .rw, 0, false⟩]⟩

/-- KET_HIST_A (16_kettle_faults.md, R642). -/
def KET_HIST_A (i : Nat) : Nat := 0x60100 + 8 * i
def KET_HIST_A_valid (i : Nat) : Fld := ⟨KET_HIST_A i, 63, 1⟩
def KET_HIST_A_severity (i : Nat) : Fld := ⟨KET_HIST_A i, 61, 2⟩
def KET_HIST_A_mode (i : Nat) : Fld := ⟨KET_HIST_A i, 57, 4⟩
def KET_HIST_A_source (i : Nat) : Fld := ⟨KET_HIST_A i, 48, 9⟩
def KET_HIST_A_seq (i : Nat) : Fld := ⟨KET_HIST_A i, 32, 16⟩
def KET_HIST_A_data (i : Nat) : Fld := ⟨KET_HIST_A i, 0, 32⟩
def KET_HIST_A_desc : RegDesc := ⟨0x60100, 8, 16, [⟨63, 1, .ro, 0, false⟩, ⟨61, 2, .ro, 0, false⟩, ⟨57, 4, .ro, 0, false⟩, ⟨48, 9, .ro, 0, false⟩, ⟨32, 16, .ro, 0, false⟩, ⟨0, 32, .ro, 0, false⟩]⟩

/-- KET_HIST_T (16_kettle_faults.md, R642). -/
def KET_HIST_T (i : Nat) : Nat := 0x60180 + 8 * i
def KET_HIST_T_seq (i : Nat) : Fld := ⟨KET_HIST_T i, 48, 16⟩
def KET_HIST_T_time (i : Nat) : Fld := ⟨KET_HIST_T i, 0, 48⟩
def KET_HIST_T_desc : RegDesc := ⟨0x60180, 8, 16, [⟨48, 16, .ro, 0, false⟩, ⟨0, 48, .ro, 0, false⟩]⟩

/-- KET_SETTLE (16_kettle_faults.md, R642). -/
def KET_SETTLE (i : Nat) : Nat := 0x60200 + 8 * i
def KET_SETTLE_settle (i : Nat) : Fld := ⟨KET_SETTLE i, 0, 32⟩
def KET_SETTLE_desc : RegDesc := ⟨0x60200, 8, 64, [⟨0, 32, .ro, 0, true⟩]⟩

/-- KET_DEP (16_kettle_faults.md, R642). -/
def KET_DEP (i : Nat) : Nat := 0x60400 + 8 * i
def KET_DEP_entry3 (i : Nat) : Fld := ⟨KET_DEP i, 48, 16⟩
def KET_DEP_entry2 (i : Nat) : Fld := ⟨KET_DEP i, 32, 16⟩
def KET_DEP_entry1 (i : Nat) : Fld := ⟨KET_DEP i, 16, 16⟩
def KET_DEP_entry0 (i : Nat) : Fld := ⟨KET_DEP i, 0, 16⟩
def KET_DEP_desc : RegDesc := ⟨0x60400, 8, 256, [⟨48, 16, .ro, 0, true⟩, ⟨32, 16, .ro, 0, true⟩, ⟨16, 16, .ro, 0, true⟩, ⟨0, 16, .ro, 0, true⟩]⟩

/-- KET_SRC (16_kettle_faults.md, R642). -/
def KET_SRC (i : Nat) : Nat := 0x61000 + 8 * i
def KET_SRC_severity (i : Nat) : Fld := ⟨KET_SRC i, 62, 2⟩
def KET_SRC_reaction (i : Nat) : Fld := ⟨KET_SRC i, 59, 3⟩
def KET_SRC_arg (i : Nat) : Fld := ⟨KET_SRC i, 51, 8⟩
def KET_SRC_dep (i : Nat) : Fld := ⟨KET_SRC i, 44, 7⟩
def KET_SRC_masters (i : Nat) : Fld := ⟨KET_SRC i, 40, 4⟩
def KET_SRC_enable (i : Nat) : Fld := ⟨KET_SRC i, 39, 1⟩
def KET_SRC_masked (i : Nat) : Fld := ⟨KET_SRC i, 38, 1⟩
def KET_SRC_threshold (i : Nat) : Fld := ⟨KET_SRC i, 30, 8⟩
def KET_SRC_suppressed (i : Nat) : Fld := ⟨KET_SRC i, 16, 14⟩
def KET_SRC_events (i : Nat) : Fld := ⟨KET_SRC i, 0, 16⟩
def KET_SRC_desc : RegDesc := ⟨0x61000, 8, 512, [⟨62, 2, .ro, 0, true⟩, ⟨59, 3, .ro, 0, true⟩, ⟨51, 8, .ro, 0, true⟩, ⟨44, 7, .ro, 0, true⟩, ⟨40, 4, .rw, 0, true⟩, ⟨39, 1, .rw, 0, true⟩, ⟨38, 1, .ro, 0, false⟩, ⟨30, 8, .rw, 0, true⟩, ⟨16, 14, .rw, 0, false⟩, ⟨0, 16, .rw, 0, false⟩]⟩

/-- PMC_CTRL (17_performance_counters.md, R661). -/
def PMC_CTRL : Nat := 0x80000
def PMC_CTRL_clear_all : Fld := ⟨PMC_CTRL, 2, 1⟩
def PMC_CTRL_snapshot : Fld := ⟨PMC_CTRL, 1, 1⟩
def PMC_CTRL_freeze : Fld := ⟨PMC_CTRL, 0, 1⟩
def PMC_CTRL_desc : RegDesc := ⟨0x80000, 8, 1, [⟨2, 1, .wo, 0, false⟩, ⟨1, 1, .wo, 0, false⟩, ⟨0, 1, .rw, 0, false⟩]⟩

/-- PMC_STATUS (17_performance_counters.md, R661). -/
def PMC_STATUS : Nat := 0x80008
def PMC_STATUS_snap_count : Fld := ⟨PMC_STATUS, 32, 32⟩
def PMC_STATUS_snap_busy : Fld := ⟨PMC_STATUS, 0, 1⟩
def PMC_STATUS_desc : RegDesc := ⟨0x80008, 8, 1, [⟨32, 32, .ro, 0, false⟩, ⟨0, 1, .ro, 0, false⟩]⟩

/-- PMC_ACCESS (17_performance_counters.md, R661). -/
def PMC_ACCESS : Nat := 0x80010
def PMC_ACCESS_operator : Fld := ⟨PMC_ACCESS, 0, 4⟩
def PMC_ACCESS_desc : RegDesc := ⟨0x80010, 8, 1, [⟨0, 4, .rw, 0, true⟩]⟩

/-- PMC_OVF (17_performance_counters.md, R661). -/
def PMC_OVF : Nat := 0x80018
def PMC_OVF_ovf : Fld := ⟨PMC_OVF, 0, 64⟩
def PMC_OVF_desc : RegDesc := ⟨0x80018, 8, 1, [⟨0, 64, .w1c, 0, false⟩]⟩

/-- PMC_SNAP_TIME (17_performance_counters.md, R661). -/
def PMC_SNAP_TIME : Nat := 0x80020
def PMC_SNAP_TIME_time : Fld := ⟨PMC_SNAP_TIME, 0, 64⟩
def PMC_SNAP_TIME_desc : RegDesc := ⟨0x80020, 8, 1, [⟨0, 64, .ro, 0, false⟩]⟩

/-- PMC_SAMPLE (17_performance_counters.md, R661). -/
def PMC_SAMPLE : Nat := 0x80028
def PMC_SAMPLE_counter : Fld := ⟨PMC_SAMPLE, 58, 6⟩
def PMC_SAMPLE_engine : Fld := ⟨PMC_SAMPLE, 54, 4⟩
def PMC_SAMPLE_context : Fld := ⟨PMC_SAMPLE, 50, 4⟩
def PMC_SAMPLE_pc : Fld := ⟨PMC_SAMPLE, 40, 10⟩
def PMC_SAMPLE_skid : Fld := ⟨PMC_SAMPLE, 38, 2⟩
def PMC_SAMPLE_lost : Fld := ⟨PMC_SAMPLE, 37, 1⟩
def PMC_SAMPLE_idle : Fld := ⟨PMC_SAMPLE, 36, 1⟩
def PMC_SAMPLE_time : Fld := ⟨PMC_SAMPLE, 0, 36⟩
def PMC_SAMPLE_desc : RegDesc := ⟨0x80028, 8, 1, [⟨58, 6, .pop, 0, false⟩, ⟨54, 4, .pop, 0, false⟩, ⟨50, 4, .pop, 0, false⟩, ⟨40, 10, .pop, 0, false⟩, ⟨38, 2, .pop, 0, false⟩, ⟨37, 1, .pop, 0, false⟩, ⟨36, 1, .pop, 0, false⟩, ⟨0, 36, .pop, 0, false⟩]⟩

/-- PMC_SAMPLE_STAT (17_performance_counters.md, R661). -/
def PMC_SAMPLE_STAT : Nat := 0x80030
def PMC_SAMPLE_STAT_lost : Fld := ⟨PMC_SAMPLE_STAT, 48, 16⟩
def PMC_SAMPLE_STAT_records : Fld := ⟨PMC_SAMPLE_STAT, 0, 5⟩
def PMC_SAMPLE_STAT_desc : RegDesc := ⟨0x80030, 8, 1, [⟨48, 16, .rw, 0, false⟩, ⟨0, 5, .ro, 0, false⟩]⟩

/-- PMC_RANGE (17_performance_counters.md, R661). -/
def PMC_RANGE (i : Nat) : Nat := 0x80040 + 8 * i
def PMC_RANGE_hi (i : Nat) : Fld := ⟨PMC_RANGE i, 32, 32⟩
def PMC_RANGE_lo (i : Nat) : Fld := ⟨PMC_RANGE i, 0, 32⟩
def PMC_RANGE_desc : RegDesc := ⟨0x80040, 8, 4, [⟨32, 32, .rw, 0, false⟩, ⟨0, 32, .rw, 0, false⟩]⟩

/-- PMC_SEL (17_performance_counters.md, R661). -/
def PMC_SEL (i : Nat) : Nat := 0x80100 + 8 * i
def PMC_SEL_enable (i : Nat) : Fld := ⟨PMC_SEL i, 63, 1⟩
def PMC_SEL_sample (i : Nat) : Fld := ⟨PMC_SEL i, 62, 1⟩
def PMC_SEL_class (i : Nat) : Fld := ⟨PMC_SEL i, 57, 4⟩
def PMC_SEL_priv (i : Nat) : Fld := ⟨PMC_SEL i, 54, 3⟩
def PMC_SEL_masters (i : Nat) : Fld := ⟨PMC_SEL i, 49, 5⟩
def PMC_SEL_range (i : Nat) : Fld := ⟨PMC_SEL i, 46, 3⟩
def PMC_SEL_invert (i : Nat) : Fld := ⟨PMC_SEL i, 45, 1⟩
def PMC_SEL_events (i : Nat) : Fld := ⟨PMC_SEL i, 24, 16⟩
def PMC_SEL_elements (i : Nat) : Fld := ⟨PMC_SEL i, 0, 24⟩
def PMC_SEL_desc : RegDesc := ⟨0x80100, 8, 64, [⟨63, 1, .rw, 0, false⟩, ⟨62, 1, .rw, 0, false⟩, ⟨57, 4, .rw, 0, false⟩, ⟨54, 3, .rw, 0, false⟩, ⟨49, 5, .rw, 0, false⟩, ⟨46, 3, .rw, 0, false⟩, ⟨45, 1, .rw, 0, false⟩, ⟨24, 16, .rw, 0, false⟩, ⟨0, 24, .rw, 0, false⟩]⟩

/-- PMC_CNT (17_performance_counters.md, R661). -/
def PMC_CNT (i : Nat) : Nat := 0x80400 + 8 * i
def PMC_CNT_count (i : Nat) : Fld := ⟨PMC_CNT i, 0, 48⟩
def PMC_CNT_desc : RegDesc := ⟨0x80400, 8, 64, [⟨0, 48, .rw, 0, false⟩]⟩

/-- PMC_SHADOW (17_performance_counters.md, R661). -/
def PMC_SHADOW (i : Nat) : Nat := 0x80600 + 8 * i
def PMC_SHADOW_count (i : Nat) : Fld := ⟨PMC_SHADOW i, 0, 48⟩
def PMC_SHADOW_desc : RegDesc := ⟨0x80600, 8, 64, [⟨0, 48, .ro, 0, false⟩]⟩

/-- UPD_CTRL (18_image_update.md, R694). -/
def UPD_CTRL : Nat := 0x10800
def UPD_CTRL_abandon : Fld := ⟨UPD_CTRL, 3, 1⟩
def UPD_CTRL_resume : Fld := ⟨UPD_CTRL, 2, 1⟩
def UPD_CTRL_verify : Fld := ⟨UPD_CTRL, 1, 1⟩
def UPD_CTRL_cancel : Fld := ⟨UPD_CTRL, 0, 1⟩
def UPD_CTRL_desc : RegDesc := ⟨0x10800, 8, 1, [⟨3, 1, .wo, 0, false⟩, ⟨2, 1, .wo, 0, false⟩, ⟨1, 1, .wo, 0, false⟩, ⟨0, 1, .wo, 0, false⟩]⟩

/-- UPD_STATUS (18_image_update.md, R694). -/
def UPD_STATUS : Nat := 0x10808
def UPD_STATUS_state : Fld := ⟨UPD_STATUS, 60, 4⟩
def UPD_STATUS_cause : Fld := ⟨UPD_STATUS, 56, 4⟩
def UPD_STATUS_abandon_late : Fld := ⟨UPD_STATUS, 49, 1⟩
def UPD_STATUS_migration_fail : Fld := ⟨UPD_STATUS, 48, 1⟩
def UPD_STATUS_progress : Fld := ⟨UPD_STATUS, 40, 8⟩
def UPD_STATUS_verifies : Fld := ⟨UPD_STATUS, 16, 16⟩
def UPD_STATUS_failures : Fld := ⟨UPD_STATUS, 0, 16⟩
def UPD_STATUS_desc : RegDesc := ⟨0x10808, 8, 1, [⟨60, 4, .ro, 0, false⟩, ⟨56, 4, .ro, 0, false⟩, ⟨49, 1, .ro, 0, false⟩, ⟨48, 1, .ro, 0, false⟩, ⟨40, 8, .ro, 0, false⟩, ⟨16, 16, .rw, 0, false⟩, ⟨0, 16, .rw, 0, false⟩]⟩

/-- UPD_CHUNKS (18_image_update.md, R694). -/
def UPD_CHUNKS : Nat := 0x10810
def UPD_CHUNKS_chunks : Fld := ⟨UPD_CHUNKS, 0, 64⟩
def UPD_CHUNKS_desc : RegDesc := ⟨0x10810, 8, 1, [⟨0, 64, .ro, 0, false⟩]⟩

/-- UPD_PKG (18_image_update.md, R694). -/
def UPD_PKG : Nat := 0x10818
def UPD_PKG_build : Fld := ⟨UPD_PKG, 32, 32⟩
def UPD_PKG_settings_version : Fld := ⟨UPD_PKG, 16, 16⟩
def UPD_PKG_delta : Fld := ⟨UPD_PKG, 0, 1⟩
def UPD_PKG_desc : RegDesc := ⟨0x10818, 8, 1, [⟨32, 32, .ro, 0, false⟩, ⟨16, 16, .ro, 0, false⟩, ⟨0, 1, .ro, 0, false⟩]⟩

/-- UPD_BOOT (18_image_update.md, R694). -/
def UPD_BOOT : Nat := 0x10820
def UPD_BOOT_seq : Fld := ⟨UPD_BOOT, 32, 32⟩
def UPD_BOOT_fallback_cause : Fld := ⟨UPD_BOOT, 9, 3⟩
def UPD_BOOT_strap : Fld := ⟨UPD_BOOT, 8, 1⟩
def UPD_BOOT_trial_boots : Fld := ⟨UPD_BOOT, 4, 2⟩
def UPD_BOOT_migration_pending : Fld := ⟨UPD_BOOT, 3, 1⟩
def UPD_BOOT_running : Fld := ⟨UPD_BOOT, 1, 1⟩
def UPD_BOOT_active : Fld := ⟨UPD_BOOT, 0, 1⟩
def UPD_BOOT_desc : RegDesc := ⟨0x10820, 8, 1, [⟨32, 32, .ro, 0, false⟩, ⟨9, 3, .ro, 0, false⟩, ⟨8, 1, .ro, 0, false⟩, ⟨4, 2, .ro, 0, false⟩, ⟨3, 1, .ro, 0, false⟩, ⟨1, 1, .ro, 0, false⟩, ⟨0, 1, .ro, 0, false⟩]⟩

/-- UPD_TRIAL (18_image_update.md, R694). -/
def UPD_TRIAL : Nat := 0x10828
def UPD_TRIAL_window : Fld := ⟨UPD_TRIAL, 48, 8⟩
def UPD_TRIAL_conf_sev : Fld := ⟨UPD_TRIAL, 42, 2⟩
def UPD_TRIAL_require_master : Fld := ⟨UPD_TRIAL, 41, 1⟩
def UPD_TRIAL_dwell : Fld := ⟨UPD_TRIAL, 16, 16⟩
def UPD_TRIAL_elapsed : Fld := ⟨UPD_TRIAL, 0, 16⟩
def UPD_TRIAL_desc : RegDesc := ⟨0x10828, 8, 1, [⟨48, 8, .rw, 0, false⟩, ⟨42, 2, .rw, 0, false⟩, ⟨41, 1, .rw, 0, false⟩, ⟨16, 16, .rw, 0, false⟩, ⟨0, 16, .ro, 0, false⟩]⟩

/-- UPD_SLOT (18_image_update.md, R695). -/
def UPD_SLOT (i : Nat) : Nat := 0x10830 + 8 * i
def UPD_SLOT_state (i : Nat) : Fld := ⟨UPD_SLOT i, 61, 3⟩
def UPD_SLOT_settings_version (i : Nat) : Fld := ⟨UPD_SLOT i, 32, 16⟩
def UPD_SLOT_build (i : Nat) : Fld := ⟨UPD_SLOT i, 0, 32⟩
def UPD_SLOT_desc : RegDesc := ⟨0x10830, 8, 2, [⟨61, 3, .ro, 0, false⟩, ⟨32, 16, .ro, 0, false⟩, ⟨0, 32, .ro, 0, false⟩]⟩

/-- UPD_SETTINGS (18_image_update.md, R695). -/
def UPD_SETTINGS : Nat := 0x10840
def UPD_SETTINGS_version : Fld := ⟨UPD_SETTINGS, 48, 16⟩
def UPD_SETTINGS_records : Fld := ⟨UPD_SETTINGS, 32, 16⟩
def UPD_SETTINGS_writes : Fld := ⟨UPD_SETTINGS, 0, 32⟩
def UPD_SETTINGS_desc : RegDesc := ⟨0x10840, 8, 1, [⟨48, 16, .ro, 0, false⟩, ⟨32, 16, .ro, 0, false⟩, ⟨0, 32, .ro, 0, false⟩]⟩

/-- UPD_FLASH_ECC (18_image_update.md, R695). -/
def UPD_FLASH_ECC : Nat := 0x10848
def UPD_FLASH_ECC_corrected : Fld := ⟨UPD_FLASH_ECC, 32, 32⟩
def UPD_FLASH_ECC_uncorrectable : Fld := ⟨UPD_FLASH_ECC, 0, 32⟩
def UPD_FLASH_ECC_desc : RegDesc := ⟨0x10848, 8, 1, [⟨32, 32, .rw, 0, false⟩, ⟨0, 32, .rw, 0, false⟩]⟩

end R

def mainTablePart0 : List RegDesc := [R.STP_STATUS_desc, R.STP_LOADED_desc, R.STP_DIGEST_desc, R.STP_LOAD_CTRL_desc, R.STP_LOAD_STATUS_desc, R.STP_LOAD_PUT_desc, R.STP_TUNE_REFUSED_desc, R.STP_TUNE_LAST_desc, R.STP_LOAD_BUF_desc, R.TOP_ID_desc, R.TOP_MODE_desc, R.TOP_MODE_TIME_desc, R.TOP_MODE_REQ_desc, R.TOP_MODE_REFUSED_desc, R.TOP_W1C_OVERLAP_desc, R.TOP_TXN_LEVEL_desc, R.TOP_TXN_CNT_desc, R.TOP_SEAL_desc, R.TOP_SEAL_CHAL_desc, R.TOP_SEAL_RESP_desc, R.TOP_EPOCH_desc, R.TOP_MASTER_desc, R.TOP_NOTICE_RATE_desc, R.TOP_SCRATCH_desc, R.TOP_INV_desc, R.RING_CTRL_desc, R.RING_STATUS_desc, R.RING_CFG_desc, R.RING_RATE_desc, R.RING_NODE_desc, R.RING_ISLAND_desc, R.RING_CPL_desc, R.RING_CPL_STATUS_desc, R.RING_STEAM_desc, R.RING_PORT_desc, R.RING_DROP_desc, R.STR_CTRL_desc, R.STR_STATUS_desc, R.STR_CNT_desc, R.STR_ENTRY_desc]

def mainTablePart1 : List RegDesc := [R.SWC_CTRL_desc, R.SWC_RESEQ_desc, R.SWC_GUARD_desc, R.SWC_XCNT_desc, R.SWC_RESEQ_CNT_desc, R.SWC_PORT_desc, R.SWC_ADMIT_desc, R.SWC_DROP_desc, R.SWC_GROUP_desc, R.CAD_FREE_desc, R.CAD_AUDIT_desc, R.CAD_ECC_desc, R.CAD_RISK_desc, R.CAD_USED_desc, R.SIV_ENTRY_desc, R.SIV_HIT_desc, R.SIV_FAULT_desc, R.SIV_LAST_desc, R.SIV_PROG_desc, R.SWC_FLOW_desc, R.CYC_CTRL_desc, R.CYC_CYCLE_desc, R.CYC_POINT_desc, R.CYC_STATUS_desc, R.CYC_ARRIVAL_desc, R.CYC_STALE_desc, R.CYC_CNT_desc, R.CYC_CUP_desc, R.TIM_CTRL_desc, R.TIM_STATUS_desc, R.TIM_NOW_desc, R.TIM_OFFSET_desc, R.TIM_RATE_desc, R.TIM_HOLDOVER_desc, R.TIM_SYNC_CFG_desc, R.TIM_PDELAY_desc, R.TIM_ASYM_desc, R.TIM_IO_desc, R.TIM_IO_PER_desc, R.TIM_CAPTURE_desc]

def mainTablePart2 : List RegDesc := [R.TIM_CNT_desc, R.TIM_SCHED_T_desc, R.TIM_SCHED_A_desc, R.TIM_LAUNCH_CTL_desc, R.TIM_LAUNCH_BUF_desc, R.PWP_GROUP_desc, R.PWP_SEQ_CTRL_desc, R.PWP_SEQ_STAT_desc, R.PWP_CMD_desc, R.PWP_CFG_desc, R.PWP_STAT_desc, R.PWP_MEAS_desc, R.PWP_CNT_desc, R.PWP_SEQ_PROG_desc, R.PWR_STATUS_desc, R.PWR_WINDOW_desc, R.PWR_LOOP_desc, R.PWR_VSI_desc, R.PWR_TEMP_desc, R.PWR_WAKE_CFG_desc, R.PWR_WAKE_PINS_desc, R.PWR_WAKE_AT_desc, R.PWR_WAKE_LAST_desc, R.PWR_BANK_desc, R.PWR_CANARY_desc, R.PWR_REFUSE_desc, R.KET_STATUS_desc, R.KET_FIRST_A_desc, R.KET_FIRST_T_desc, R.KET_HIST_HEAD_desc, R.KET_ERRPIN_desc, R.KET_FORCE_desc, R.KET_CNT_desc, R.KET_HIST_A_desc, R.KET_HIST_T_desc, R.KET_SETTLE_desc, R.KET_DEP_desc, R.KET_SRC_desc, R.PMC_CTRL_desc, R.PMC_STATUS_desc]

def mainTablePart3 : List RegDesc := [R.PMC_ACCESS_desc, R.PMC_OVF_desc, R.PMC_SNAP_TIME_desc, R.PMC_SAMPLE_desc, R.PMC_SAMPLE_STAT_desc, R.PMC_RANGE_desc, R.PMC_SEL_desc, R.PMC_CNT_desc, R.PMC_SHADOW_desc, R.UPD_CTRL_desc, R.UPD_STATUS_desc, R.UPD_CHUNKS_desc, R.UPD_PKG_desc, R.UPD_BOOT_desc, R.UPD_TRIAL_desc, R.UPD_SLOT_desc, R.UPD_SETTINGS_desc, R.UPD_FLASH_ECC_desc]

/-- The registers of blocks 0x00 to 0x09, by local address. -/
def mainTable : List RegDesc := mainTablePart0 ++ mainTablePart1 ++ mainTablePart2 ++ mainTablePart3

def bayTablePart0 : List RegDesc := [R.BAY_PIN_desc, R.BAY_IN_desc, R.BAY_OUT_desc, R.BAY_PINSTAT_desc, R.BAY_PINCNT_desc, R.BAY_ROUTE_desc, R.BAY_RXSTAT_desc, R.BAY_RXCTL_desc, R.BAY_RXPOP_desc, R.BAY_RXLAST_desc, R.BAY_RXCNT_desc, R.BAY_RXECC_desc, R.BAY_TXSTAT_desc, R.BAY_TXCTL_desc, R.BAY_TXTAG_desc, R.BAY_TXPUSH_desc, R.BAY_TXCNT_desc, R.BAY_TXECC_desc]

/-- The registers of a bay window, by offset (R451). -/
def bayTable : List RegDesc := bayTablePart0

def engTablePart0 : List RegDesc := [R.INF_CTRL_desc, R.INF_STATUS_desc, R.INF_CONF_desc, R.INF_PATCH_desc, R.INF_ECC_desc, R.INF_BAYS_desc, R.INF_CTX_STATE_desc, R.INF_CTX_CFG_desc, R.INF_CTX_TIME_desc, R.INF_CTX_REGS_desc, R.INF_CTX_WRAP_desc, R.INF_CTX_SHIFT_desc, R.INF_CTX_SHSTAT_desc, R.INF_CTX_SLACK_desc, R.INF_CTX_OUTSH_desc, R.INF_CTX_INSH_desc, R.INF_MAP_desc, R.INF_PROG_desc]

/-- The registers of an engine window, by offset (R502). -/
def engTable : List RegDesc := engTablePart0

/-- The family of `t` that holds offset `o`, with its index. -/
def findIn (t : List RegDesc) (o : Nat) : Option (RegDesc × Nat) :=
  match t with
  | [] => none
  | d :: rest =>
    if d.base ≤ o ∧ (o - d.base) % d.stride = 0 ∧ (o - d.base) / d.stride < d.count
    then some (d, (o - d.base) / d.stride) else findIn rest o

/-- The register at local address `a` (R167: `none` is "no register"). SIV_ENTRY has no index 22 (R328). -/
def findReg (a : Nat) : Option (RegDesc × Nat) :=
  if a < 0x100000 then
    if a = R.SIV_ENTRY 22 then none else findIn mainTable a
  else if a < 0x100000 + 48 * 0x2000 then findIn bayTable ((a - 0x100000) % 0x2000)
  else if 0x200000 ≤ a ∧ a < 0x300000 then findIn engTable ((a - 0x200000) % 0x10000)
  else none

/-- The reset word that a list of fields gives (R9; BS and HW fields count as 0 here). -/
def fieldsReset (fs : List FieldDesc) : Nat := fs.foldl (fun w f => w + f.reset * 2 ^ f.lsb) 0

/-- The reset value of the register at local address `a`. -/
def resetWord (a : Nat) : Word :=
  match findReg a with
  | some (d, _) => BitVec.ofNat 64 (fieldsReset d.fields)
  | none => 0

end Sys2Proof.Machine
end

