-- ==== Sys2Proof/Machine/SMap.lean ====
section
/-!
DEFINITION. The operations of a sparse memory: a list of keys and values with strictly rising keys and no entry equal to
what an unlisted key reads as (`d`). Writing that value removes the entry, so equal memories are equal data.
-/

namespace Sys2Proof.Machine

/-- The value at key `k`; an unlisted key reads as `d`. -/
def mget {α : Type} (d : α) : SMap α → Nat → α
  | [], _ => d
  | (k', v) :: rest, k => if k' = k then v else mget d rest k

/-- The memory without an entry at `k`. -/
def mdel {α : Type} : SMap α → Nat → SMap α
  | [], _ => []
  | (k', v) :: rest, k => if k' = k then mdel rest k else (k', v) :: mdel rest k

/-- Insert an entry before the first larger key. -/
def mins {α : Type} : SMap α → Nat → α → SMap α
  | [], k, v => [(k, v)]
  | (k', v') :: rest, k, v => if k < k' then (k, v) :: (k', v') :: rest else (k', v') :: mins rest k v

/-- Write `v` at `k`. -/
def mput {α : Type} [DecidableEq α] (d : α) (m : SMap α) (k : Nat) (v : α) : SMap α :=
  if v = d then mdel m k else mins (mdel m k) k v

/-- Apply `f` to the value at `k`. -/
def mmod {α : Type} [DecidableEq α] (d : α) (m : SMap α) (k : Nat) (f : α → α) : SMap α := mput d m k (f (mget d m k))

/-- Write the list at `k`, `k + 1`, ... -/
def mputList {α : Type} [DecidableEq α] (d : α) (m : SMap α) (k : Nat) : List α → SMap α
  | [] => m
  | v :: vs => mputList d (mput d m k v) (k + 1) vs

/-- The `n` values from `k` on. -/
def mgetList {α : Type} (d : α) (m : SMap α) (k : Nat) : Nat → List α
  | 0 => []
  | n + 1 => mget d m k :: mgetList d m (k + 1) n

/-- Every key of the memory is above `b`, keys rise strictly, and no entry holds `d`. -/
def mwfAbove {α : Type} [DecidableEq α] (d : α) : Option Nat → SMap α → Bool
  | _, [] => true
  | b, (k, v) :: rest =>
    (match b with
      | none => true
      | some b => decide (b < k)) && decide (v ≠ d) && mwfAbove d (some k) rest

/-- The canonical form. -/
def mwf {α : Type} [DecidableEq α] (d : α) (m : SMap α) : Bool := mwfAbove d none m

/-- The canonical form of a memory of bytes that reads as `d` where nothing is listed. -/
def Memory.wf (d : Byte) (m : SMap Byte) : Bool := mwf d m

/-- The map without the entries whose key is in `[lo, hi)`. -/
def mcut {α : Type} (m : SMap α) (lo hi : Nat) : SMap α := m.filter (fun kv => kv.1 < lo ∨ hi ≤ kv.1)

end Sys2Proof.Machine
end

