-- ==== Sys2Proof/Machine/Regs.lean ====
section
/-!
DEFINITION. Access to the register words: fields of a word, reads and writes of a field by its place in the register map,
counters, free values. Everything that reads or writes a register goes through here.
-/

namespace Sys2Proof.Machine

/-- The field of `n` bits from bit `l` of `w`. -/
def fget (w : Word) (l n : Nat) : Nat := w.toNat / 2 ^ l % 2 ^ n

/-- The mask of a field. -/
def fmask (l n : Nat) : Word := BitVec.ofNat 64 ((2 ^ n - 1) * 2 ^ l)

/-- `w` with the field of `n` bits from bit `l` set to `v`, taken modulo the field's size. -/
def fset (w : Word) (l n v : Nat) : Word := (w &&& ~~~(fmask l n)) ||| (BitVec.ofNat 64 (v % 2 ^ n * 2 ^ l))

/-- A word from fields given as lowest bit and value. -/
def pack (fs : List (Nat × Nat)) : Word := BitVec.ofNat 64 (fs.foldl (fun w f => w + f.2 * 2 ^ f.1) 0)

/-- The two's complement value of an `n`-bit field. -/
def sext (n v : Nat) : Int := if v < 2 ^ (n - 1) then (v : Int) else (v : Int) - 2 ^ n

/-- The `n`-bit field that holds `v` in two's complement. -/
def unsext (n : Nat) (v : Int) : Nat := (v % (2 ^ n : Int)).toNat

/-- A Bool as a bit. -/
def bit01 (b : Bool) : Nat := if b then 1 else 0

/-- Bit `i` of a number. -/
def bitAt (v i : Nat) : Bool := v / 2 ^ i % 2 == 1

/-- `v` with bit `i` set to `b`. -/
def bitSet (v i : Nat) (b : Bool) : Nat := if bitAt v i then (if b then v else v - 2 ^ i) else (if b then v + 2 ^ i else v)

/-- Fields that the layout gives and a table reserves: the mirror bits of SWC_PORT[22] (R328), and the counts of SWC_DROP at causes 10 to
15 (R324), of CYC_CNT at 9 to 15 (R359) and of TIM_CNT at 13 to 15 (R407). They are taken as reserved bits in the sense of R8: they
read 0 and a write leaves them (DESIGN CHOICE, log entry 20: the tables call the index reserved, not its bits). -/
def reservedField (a : Nat) (f : FieldDesc) : Bool :=
  (a == R.SWC_PORT 22 && (f.lsb == 48 || f.lsb == 49)) ||
  (decide (R.SWC_DROP 0 ≤ a ∧ a ≤ R.SWC_DROP 383) && decide (10 ≤ (a - R.SWC_DROP 0) / 8 % 16)) ||
  (decide (R.CYC_CNT 0 ≤ a ∧ a ≤ R.CYC_CNT 63) && decide (9 ≤ (a - R.CYC_CNT 0) / 8 % 16)) ||
  decide (R.TIM_CNT 13 ≤ a ∧ a ≤ R.TIM_CNT 15)

/-- The stored word of the register at `a`. -/
def State.word (s : State) (a : Nat) : Word := mget (resetWord a) s.regs a

/-- `s` with the stored word of the register at `a` set. -/
def State.setWord (s : State) (a : Nat) (w : Word) : State := { s with regs := mput (resetWord a) s.regs a w }

/-- Read a field. -/
def State.rd (s : State) (f : Fld) : Nat := fget (s.word f.addr) f.lsb f.width

/-- Write a field. -/
def State.wr (s : State) (f : Fld) (v : Nat) : State := s.setWord f.addr (fset (s.word f.addr) f.lsb f.width v)

/-- A field that is not zero. -/
def State.on (s : State) (f : Fld) : Bool := s.rd f != 0

/-- Read a two's complement field. -/
def State.rdInt (s : State) (f : Fld) : Int := sext f.width (s.rd f)

/-- Write a two's complement field, wrapping. -/
def State.wrInt (s : State) (f : Fld) (v : Int) : State := s.wr f (unsext f.width v)

/-- Write a two's complement field, saturating at the field's range. -/
def State.wrIntSat (s : State) (f : Fld) (v : Int) : State :=
  s.wrInt f (max (-(2 ^ (f.width - 1) : Int)) (min v (2 ^ (f.width - 1) - 1 : Int)))

/-- Bit `i` of a field. -/
def State.bitOn (s : State) (f : Fld) (i : Nat) : Bool := bitAt (s.rd f) i

/-- Set or clear bit `i` of a field. -/
def State.wrBit (s : State) (f : Fld) (i : Nat) (b : Bool) : State := s.wr f (bitSet (s.rd f) i b)

/-- Add `n` to a counter that saturates. -/
def State.bumpBy (s : State) (f : Fld) (n : Nat) : State := s.wr f (min (s.rd f + n) (2 ^ f.width - 1))

/-- Count one event in a counter that saturates. -/
def State.bump (s : State) (f : Fld) : State := s.bumpBy f 1

/-- Count one event in a counter that wraps. -/
def State.bumpWrap (s : State) (f : Fld) : State := s.wr f (s.rd f + 1)

/-- The counter of the next free value, and the state in which it is taken (log entry 10). -/
def State.takeFree (s : State) : Nat × State := (s.fresh, { s with fresh := s.fresh + 1 })

/-- Put the registers of `[lo, hi)` back to their reset values. -/
def State.resetRange (s : State) (lo hi : Nat) : State := { s with regs := mcut s.regs lo hi }

/-- Put the registers of `[lo, hi)` at the values the bit-stream gave them, the others at their reset values (R609). -/
def State.restoreRange (s : State) (lo hi : Nat) : State :=
  let s := s.resetRange lo hi
  (s.store.filter (fun kv => lo ≤ kv.1 ∧ kv.1 < hi)).foldl (fun t kv => t.setWord kv.1 kv.2) s

/-! ### Variants (R3) -/

/-- Optical ring ports. -/
def State.optical (s : State) : Bool := s.variant != .c3248

/-- Power die fitted. -/
def State.hasPower (s : State) : Bool := s.variant != .l3224

/-- Bays fitted. -/
def State.nBays (s : State) : Nat := if s.variant = .l3224 then 24 else 48

/-- Field pins fitted. -/
def State.nPins (s : State) : Nat := s.nBays * 8

/-- Bay groups fitted. -/
def State.nGroups (s : State) : Nat := if s.variant = .l3224 then 2 else 4

/-- Whether port `p` of the switch core is present (R3). -/
def State.portPresent (s : State) (p : Nat) : Bool :=
  p < 24 && !(s.variant == .c3248 && (p == 2 || p == 3)) && !(s.variant == .l3224 && 16 ≤ p && p ≤ 21)

/-! ### ECC marks -/

/-- The ECC state of a memory word. -/
def State.eccOf (s : State) (m : EccMem) (i : Nat) : Ecc :=
  match s.eccMarks.find? (fun x => x.1 = m ∧ x.2.1 = i) with
  | some x => x.2.2
  | none => .clean

/-- A whole word is stored with fresh ECC (R703). -/
def State.freshEcc (s : State) (m : EccMem) (i : Nat) : State :=
  { s with eccMarks := s.eccMarks.filter (fun x => !(decide (x.1 = m) && decide (x.2.1 = i))) }

/-! ### Events for the Kettle and the performance counters -/

/-- Report an event of Kettle source `src` with its data (R618). The Kettle takes it in when the command ends. -/
def State.raise (s : State) (src : Nat) (data : Nat := 0) : State := { s with raised := s.raised ++ [⟨src, data % 2 ^ 32⟩] }

/-- The domains that Hibernate switches off have no power: every one but the Samovar domain (R12, R603). -/
def State.asleep (s : State) : Bool :=
  match s.power.hib with
  | some h => h.off
  | none => false

/-- The power-port control is fitted and has power (R3, R12). -/
def State.portsLive (s : State) : Bool := s.hasPower && !s.asleep

/-- The attributes of a counted event (R646): privilege bit 0-2, master bit 0-4, local address. -/
structure Attrs where
  priv : Option Nat := none
  master : Option Nat := none
  addr : Option Nat := none
  deriving DecidableEq, Repr

/-- Whether an element of a class is present (R648). -/
def State.pmcPresent (s : State) (cls x : Nat) : Bool :=
  !(s.variant == .c3248 && (cls == 2 || cls == 3) && (x == 2 || x == 3)) &&
  !(s.variant == .l3224 && ((cls == 3 && 16 ≤ x && x ≤ 21) || (cls == 8 && 6 ≤ x && x ≤ 11) || cls == 10))

/-- Event bits that a class lists (R647). -/
def pmcEvents (cls : Nat) : Nat := [10, 6, 8, 7, 5, 5, 9, 9, 7, 6, 3].getD cls 0

/-- Whether a selection word passes the event (R645, R646). A selection that names a reserved event bit counts nothing (R647). -/
def State.pmcPasses (s : State) (w : Word) (cls ev x : Nat) (a : Attrs) : Bool :=
  fget w 63 1 == 1 && fget w 57 4 == cls && bitAt (fget w 24 16) ev && fget w 24 16 / 2 ^ pmcEvents cls == 0 &&
  (fget w 0 24 == 0 || bitAt (fget w 0 24) x) &&
  (match a.priv with
    | none => true
    | some p => fget w 54 3 == 0 || bitAt (fget w 54 3) p) &&
  (match a.master with
    | none => true
    | some m => fget w 49 5 == 0 || bitAt (fget w 49 5) m) &&
  (match a.addr with
    | none => true
    | some v =>
      let r := fget w 46 3
      if r = 0 then true
      else if r ≤ 4 then
        (decide (s.rd (R.PMC_RANGE_lo (r - 1)) ≤ v ∧ v ≤ s.rd (R.PMC_RANGE_hi (r - 1)))) != (fget w 45 1 == 1)
      else false)

/-- Add a count to its counter, with the wrap of R643 and the sampling of R656. -/
def State.pmcAdd (s : State) (h : Tally) : State :=
  let i := h.counter
  let c := s.rd (R.PMC_CNT_count i) + h.amount
  let t := s.wr (R.PMC_CNT_count i) c
  if c < 2 ^ 48 then t
  else
    let t := t.wrBit R.PMC_OVF_ovf i true
    let w := t.word (R.PMC_SEL i)
    if fget w 62 1 == 1 && (fget w 57 4 == 6 || fget w 57 4 == 7) then
      let (k, t) := t.takeFree
      { t with pmc := { t.pmc with waiting := t.pmc.waiting ++ [⟨h, t.now, t.clk, Config.freeNat k % 4⟩] } }
    else t

/-- Count `n` on counter `i` for event bit `ev` of class `cls`. A slot event comes as its tick has ended, an instruction event with its
instruction; for any other event sampling counts from the first instruction after the tick (R656). -/
def tallyOf (clk cls ev x i n : Nat) : Tally :=
  ⟨i, n, x, if cls = 6 ∧ ev ≤ 5 then clk else clk + 2, if cls = 6 ∧ ev = 5 then 1 else 0, []⟩

/-- Count an event of class `cls`, event bit `ev`, element `x`, amount `n` (R643-R653). Only a listed register can be
enabled, since PMC_SEL resets to 0 (R661). -/
def State.pmcBy (s : State) (cls ev x n : Nat) (a : Attrs := {}) : State :=
  if n = 0 ∨ s.asleep ∨ s.on R.PMC_CTRL_freeze ∨ !s.pmcPresent cls x ∨ 10 < cls then s
  else
    (s.regs.filter (fun kv => 0x80100 ≤ kv.1 ∧ kv.1 < 0x80300 ∧ s.pmcPasses kv.2 cls ev x a)).foldl
      (fun t kv =>
        let i := (kv.1 - 0x80100) / 8
        if t.on R.PMC_STATUS_snap_busy then
          { t with pmc := { t.pmc with heldCounts := t.pmc.heldCounts ++ [tallyOf t.clk cls ev x i n] } }
        else t.pmcAdd (tallyOf t.clk cls ev x i n)) s

/-- The stale bit of output cup `j`; 0 for a cup that is not valid (R348, R524). -/
def State.cupStale (s : State) (j : Nat) : Bool := s.bitOn (R.CYC_STALE_stale (j / 64)) (j % 64) && s.on (R.CYC_CUP_valid j)

/-- Count one event. -/
def State.pmcEv (s : State) (cls ev x : Nat) (a : Attrs := {}) : State := s.pmcBy cls ev x 1 a

end Sys2Proof.Machine
end

