-- ==== Sys2Proof/Machine/Frame.lean ====
section
/-!
DEFINITION. Frames and transaction records as bits: the header fields of R227, the check sequences of R228, byte order
(little-endian words, R183 and R227), the record words of R177 and R178, and building a frame that a unit originates.
-/

namespace Sys2Proof.Machine

/-! ### Bytes -/

/-- The low `n` bytes of a number, least significant first. -/
def leBytes : Nat → Nat → List Byte
  | 0, _ => []
  | n + 1, v => BitVec.ofNat 8 v :: leBytes n (v / 256)

/-- The `n` bytes of a number, most significant first. -/
def beBytes (n v : Nat) : List Byte := (leBytes n v).reverse

/-- The number that bytes spell, least significant first. -/
def leNat : List Byte → Nat
  | [] => 0
  | b :: bs => b.toNat + 256 * leNat bs

/-- The 8 bytes of a word. -/
def wordBytes (w : Word) : List Byte := leBytes 8 w.toNat

/-- The word of up to 8 bytes. -/
def bytesWord (bs : List Byte) : Word := BitVec.ofNat 64 (leNat bs)

/-- Bytes `[o, o + n)` of a list; past its end they read as 0. -/
def slice (bs : List Byte) (o n : Nat) : List Byte :=
  let part := (bs.drop o).take n
  part ++ List.replicate (n - part.length) 0

/-- The little-endian number in bytes `[o, o + n)`. -/
def leAt (bs : List Byte) (o n : Nat) : Nat := leNat (slice bs o n)

/-- The words of a byte list, the last one padded with zeros. -/
def bytesWords : Nat → List Byte → List Word
  | 0, _ => []
  | n + 1, bs => bytesWord (bs.take 8) :: bytesWords n (bs.drop 8)

/-! ### Check sequences (R228) -/

/-- One bit of the CRC-16 with polynomial 0x1021. -/
def crc16Bit (c : BitVec 16) : BitVec 16 := if c.msb then (c <<< 1) ^^^ 0x1021 else c <<< 1

def crc16Byte (c : BitVec 16) (b : Byte) : BitVec 16 :=
  let c := c ^^^ (b.zeroExtend 16 <<< 8)
  crc16Bit (crc16Bit (crc16Bit (crc16Bit (crc16Bit (crc16Bit (crc16Bit (crc16Bit c)))))))

/-- The CRC-16 of R228. -/
def crc16 (bs : List Byte) : BitVec 16 := bs.foldl crc16Byte 0xFFFF

/-- One bit of the IEEE 802.3 CRC-32, least significant bit first. -/
def crc32Bit (c : BitVec 32) : BitVec 32 := if c.getLsbD 0 then (c >>> 1) ^^^ 0xEDB88320 else c >>> 1

def crc32Byte (c : BitVec 32) (b : Byte) : BitVec 32 :=
  let c := c ^^^ b.zeroExtend 32
  crc32Bit (crc32Bit (crc32Bit (crc32Bit (crc32Bit (crc32Bit (crc32Bit (crc32Bit c)))))))

/-- The CRC-32 of R228. -/
def crc32 (bs : List Byte) : BitVec 32 := ~~~(bs.foldl crc32Byte 0xFFFFFFFF)

end Sys2Proof.Machine

namespace Sys2Proof

open Sys2Proof.Machine

/-! ### Header fields (R227) -/

def Frame.version (f : Frame) : Nat := fget f.w0 60 4
def Frame.ftype (f : Frame) : Nat := fget f.w0 56 4
def Frame.tclass (f : Frame) : Nat := fget f.w0 53 3
def Frame.dual (f : Frame) : Bool := fget f.w0 52 1 == 1
def Frame.dir (f : Frame) : Bool := fget f.w0 51 1 == 1
def Frame.src (f : Frame) : Nat := fget f.w0 40 8
def Frame.dst (f : Frame) : Nat := fget f.w0 32 8
def Frame.seqNo (f : Frame) : Nat := fget f.w0 16 16
def Frame.hops (f : Frame) : Nat := fget f.w0 8 8
def Frame.srcRing (f : Frame) : Nat := fget f.w0 4 2
def Frame.dstRing (f : Frame) : Nat := fget f.w0 0 2
def Frame.flow (f : Frame) : Nat := fget f.w1 48 16
def Frame.length (f : Frame) : Nat := fget f.w1 32 12
def Frame.deadline (f : Frame) : Nat := fget f.w1 0 32
def Frame.hcs (f : Frame) : BitVec 16 := BitVec.ofNat 16 (fget f.w3 48 16)
def Frame.tinfo (f : Frame) : Nat := fget f.w3 0 48

/-- The bits of tinfo that a frame type leaves reserved: in a pour frame [40] and [37:32] (R333), in a time frame [43:32] and [14:0]
(R366), in every other frame all (R227). -/
def tinfoReserved (ftype : Nat) : Nat :=
  if ftype = 2 then 2 ^ 40 + 63 * 2 ^ 32 else if ftype = 3 then 4095 * 2 ^ 32 + 32767 else 2 ^ 48 - 1

/-- The reserved header bits are zero (R227, R230). -/
def Frame.reservedZero (f : Frame) : Bool :=
  fget f.w0 48 3 == 0 && fget f.w0 6 2 == 0 && fget f.w0 2 2 == 0 && fget f.w1 44 4 == 0 &&
  f.tinfo &&& tinfoReserved f.ftype == 0

/-- The 32 header bytes. -/
def Frame.header (f : Frame) : List Byte := wordBytes f.w0 ++ wordBytes f.w1 ++ wordBytes f.w2 ++ wordBytes f.w3

/-- The hcs that the header calls for: the CRC-16 of bytes 0 to 29. -/
def Frame.hcsOf (f : Frame) : BitVec 16 := crc16 (f.header.take 30)

/-- The CRC-32 that the frame calls for. -/
def Frame.crcOf (f : Frame) : BitVec 32 := crc32 (f.header ++ f.payload)

/-- The frame with its check sequences computed. -/
def Frame.seal (f : Frame) : Frame :=
  let f := { f with w3 := fset f.w3 48 16 f.hcsOf.toNat }
  { f with crc := f.crcOf }

/-- Bytes that the length field implies (R281). -/
def Frame.size (f : Frame) : Nat := 36 + f.length

/-- Leaves of the Caddy that the frame takes (R281). -/
def Frame.leaves (f : Frame) : Nat := (f.size + 255) / 256

def Frame.withHops (f : Frame) (n : Nat) : Frame := { f with w0 := fset f.w0 8 8 n }
def Frame.withDir (f : Frame) (west : Bool) : Frame := { f with w0 := fset f.w0 51 1 (bit01 west) }
def Frame.withDual (f : Frame) (d : Bool) : Frame := { f with w0 := fset f.w0 52 1 (bit01 d) }
def Frame.withCorrection (f : Frame) (c : Word) : Frame := { f with w2 := c }

/-- Number of a level in a record (R177). -/
def Level.code : Level → Nat
  | .supervisor => 0
  | .operator => 1
  | .localLevel => 2

end Sys2Proof

namespace Sys2Proof.Machine

/-- What a unit that originates a frame chooses of its header. -/
structure Head where
  ftype : Nat
  tclass : Nat := 0
  dual : Bool := true
  src : Nat := 0
  dst : Nat
  seq : Nat := 0
  srcRing : Nat := 0
  dstRing : Nat := 0
  flow : Nat := 0
  deadline : Nat := 0
  tinfo : Nat := 0
  deriving DecidableEq, Repr

/-- A frame with that header and payload, check sequences computed. -/
def Head.frame (h : Head) (payload : List Byte) : Frame :=
  Frame.seal
    { w0 := BitVec.ofNat 64 (1 * 2 ^ 60 + h.ftype % 16 * 2 ^ 56 + h.tclass % 8 * 2 ^ 53 + bit01 h.dual * 2 ^ 52 +
        h.src % 256 * 2 ^ 40 + h.dst % 256 * 2 ^ 32 + h.seq % 65536 * 2 ^ 16 + h.srcRing % 4 * 2 ^ 4 + h.dstRing % 4)
      w1 := BitVec.ofNat 64 (h.flow % 65536 * 2 ^ 48 + payload.length % 4096 * 2 ^ 32 + h.deadline % 2 ^ 32)
      w2 := 0
      w3 := BitVec.ofNat 64 (h.tinfo % 2 ^ 48)
      payload := payload
      crc := 0 }

/-! ### Transaction records (R177, R178, R697) -/

/-- The two header words of a record. `low` is its bits [39:0]. -/
def recordHead (type master level tag node low len : Nat) : List Byte :=
  wordBytes (BitVec.ofNat 64 (type * 2 ^ 60 + master * 2 ^ 58 + level * 2 ^ 56 + tag * 2 ^ 48 + node * 2 ^ 40 + low)) ++
  wordBytes (BitVec.ofNat 64 (if len = 0 then 2 ^ 48 else (len - 1) * 2 ^ 40))

/-- Data padded with zeros to a multiple of 8 bytes. -/
def pad8 (bs : List Byte) : List Byte := bs ++ List.replicate ((8 - bs.length % 8) % 8) 0

/-- Size of a record's data area by its type (R697); `none` for a type that has none known. -/
def recordArea (type lenField : Nat) (empty : Bool) : Option Nat :=
  match type with
  | 1 => some 0
  | 2 => some (lenField + 1)
  | 3 => some (lenField + 1)
  | 4 => some 8
  | 5 => some 8
  | 6 => some 16
  | 7 => some 32
  | 8 => some (if empty then 0 else lenField + 1)
  | _ => none

/-- Whether R181 lets the record through: type, level, length and reserved fields. A NOTICE is malformed at a hub (R208). -/
def recordOk (w0 w1 : Word) : Bool :=
  let type := fget w0 60 4
  let len := fget w1 40 8
  let empty := fget w1 48 1 == 1
  fget w0 56 2 != 3 && fget w1 0 40 == 0 && fget w1 49 15 == 0 && (!empty || len == 0) &&
  (match type with
    | 1 => !empty
    | 2 => !empty
    | 3 => !empty
    | 4 => !empty && len == 7
    | 5 => !empty && len == 7
    | 6 => !empty && len == 7
    | 8 => fget w0 0 36 == 0
    | _ => false)

/-- One record of a payload: its header words and data. -/
structure Record where
  w0 : Word
  w1 : Word
  data : List Byte
  deriving DecidableEq, Repr

/-- The records of a payload and the number of records discarded (R697). The first argument bounds the walk. -/
def walkRecords : Nat → List Byte → List Record × Nat
  | 0, _ => ([], 0)
  | n + 1, bs =>
    if bs.length < 16 then ([], 0)
    else
      let w0 := bytesWord (bs.take 8)
      let w1 := bytesWord ((bs.drop 8).take 8)
      if w0 = 0 then ([], 0)
      else
        match recordArea (fget w0 60 4) (fget w1 40 8) (fget w1 48 1 == 1) with
        | none => ([], 1)
        | some a =>
          let padded := (a + 7) / 8 * 8
          if bs.length < 16 + a then ([], 1)
          else
            let (rest, bad) := walkRecords n (bs.drop (16 + padded))
            if recordOk w0 w1 then (⟨w0, w1, (bs.drop 16).take a⟩ :: rest, bad) else (rest, bad + 1)

/-- The records of a transaction frame's payload. -/
def records (payload : List Byte) : List Record × Nat := walkRecords (payload.length / 16 + 1) payload

end Sys2Proof.Machine
end

