-- ==== Sys2Proof/Machine/Ecdsa.lean ====
section
/-!
DEFINITION. ECDSA over the curve P-256 with SHA-256, which R112 names: the check of a signature block under the Aedotte key.
-/

namespace Sys2Proof.Machine

/-- The prime of the field of P-256, and the order of its base point. -/
def p256 : Nat := 0xffffffff00000001000000000000000000000000ffffffffffffffffffffffff
def n256 : Nat := 0xffffffff00000000ffffffffffffffffbce6faada7179e84f3b9cac2fc632551

/-- A point of the curve in affine coordinates; none is the point at infinity. -/
abbrev Point := Option (Nat × Nat)

/-- The base point of P-256. -/
def base256 : Point :=
  some (0x6b17d1f2e12c4247f8bce6e563a440f277037d812deb33a0f4a13945d898c296,
    0x4fe342e2fe1a7f9b8ee7eb4a7c0f9e162bce33576b315ececbb6406837bf51f5)

/-- x^e modulo m; the first argument bounds the bits of e. -/
def powMod (m : Nat) : Nat → Nat → Nat → Nat
  | 0, _, _ => 1 % m
  | n + 1, x, e =>
    let r := powMod m n (x * x % m) (e / 2)
    if e % 2 = 1 then r * x % m else r

/-- The inverse modulo a prime. -/
def invMod (m x : Nat) : Nat := powMod m 256 (x % m) (m - 2)

/-- a - b in the field. -/
def subMod (a b : Nat) : Nat := (a + p256 - b % p256) % p256

/-- The sum of two points. The coefficient of x in the curve's equation is -3. -/
def addPoint (a b : Point) : Point :=
  match a, b with
  | none, b => b
  | a, none => a
  | some (x1, y1), some (x2, y2) =>
    if x1 = x2 ∧ (y1 + y2) % p256 = 0 then none
    else
      let l := if x1 = x2 then (3 * x1 * x1 + p256 - 3) * invMod p256 (2 * y1) % p256
        else subMod y2 y1 * invMod p256 (subMod x2 x1) % p256
      let x3 := subMod (l * l) (x1 + x2)
      some (x3, subMod (l * subMod x1 x3) y1)

/-- k times a point; the first argument bounds the bits of k. -/
def mulPoint : Nat → Nat → Point → Point
  | 0, _, _ => none
  | n + 1, k, p =>
    let r := mulPoint n (k / 2) (addPoint p p)
    if k % 2 = 1 then addPoint r p else r

/-- The number that bytes spell, big-endian. -/
def beNat (bs : List Byte) : Nat := bs.foldl (fun v b => v * 256 + b.toNat) 0

/-- Signature (r, s) on digest `e` verifies under public key `q`. -/
def ecdsaOk (q : Point) (e r s : Nat) : Bool :=
  decide (1 ≤ r ∧ r < n256) && decide (1 ≤ s ∧ s < n256) &&
  (let w := invMod n256 s
   match addPoint (mulPoint 256 (e * w % n256) base256) (mulPoint 256 (r * w % n256) q) with
   | none => false
   | some (x, _) => x % n256 == r)

/-- A signature block verifies under public key `k` (R112, R117): r stands in its bytes 0 to 31 and s in bytes 32 to 63. -/
def verifies (k : BitVec 256 × BitVec 256) (msg sig : List Byte) : Bool :=
  sig.length == 64 && ecdsaOk (some (k.1.toNat, k.2.toNat)) (beNat (sha256 msg)) (beNat (sig.take 32)) (beNat (sig.drop 32))

end Sys2Proof.Machine
end

