-- ==== Sys2Proof/Machine/Isa.lean ====
section
/-!
DEFINITION. The Infuser instruction words (R503, R504): what a word stands for, and the word of an instruction. A word with
a reserved code or a non-zero reserved bit stands for none.
-/

namespace Sys2Proof.Machine

/-- The Infuser instructions with their fields (12_infuser_isa.md). -/
inductive Insn where
  /-- R509 -/
  | wait (reg : Bool) (count : Nat)
  /-- R513 -/
  | out (bank rel : Bool) (mask value k : Nat)
  /-- R514 -/
  | inp (first nm1 k : Nat)
  /-- R517, `inLane` tells SHI from SHO -/
  | shift (inLane : Bool) (nm1 : Nat) (adv : Bool) (stuff : Nat) (cont : Bool) (k : Nat)
  /-- R524 -/
  | jmp (cond operand target : Nat)
  /-- R525 -/
  | set (dest imm : Nat)
  /-- R528 -/
  | qput (err eop sop keep : Bool) (bay : Nat) (nowait : Bool)
  /-- R529 -/
  | qget (bay : Nat) (nowait : Bool)
  /-- R515 -/
  | wpin (slot cond timeout : Nat)
  /-- R516 -/
  | stamp (slot bay : Nat) (err eop sop load nowait : Bool)
  /-- R510 -/
  | at_ (onpast : Bool) (src phase : Nat)
  /-- R531, ops 0x0 to 0x7 -/
  | alu (op : Nat) (c1 other : Bool) (imm : Nat)
  /-- R531, R532 -/
  | crc (out : Bool) (n poly : Nat)
  /-- R531 -/
  | ins (c1 out : Bool)
  | extr (c1 out : Bool)
  /-- R533 -/
  | signal (engine context flag : Nat)
  | await (adopt : Bool) (flag : Nat)
  /-- R538 -/
  | note (kettle : Bool) (masters code : Nat)
  /-- R541 -/
  | nop
  | halt
  | flush (bay : Nat) (tx : Bool)
  | ldm (out idx : Bool) (word : Nat)
  | stm (out idx : Bool) (word : Nat)
  | rq (master type : Nat)
  | gett (counter : Bool)
  | rdreg
  deriving DecidableEq, Repr

/-- `n` bits of a number from bit `l`. -/
def nbits (v l n : Nat) : Nat := v / 2 ^ l % 2 ^ n

/-- One bit of a number. -/
def nbit (v l : Nat) : Bool := v / 2 ^ l % 2 == 1

/-- Operand bits that a jump condition uses (R524). -/
def jmpOperandBits (cond : Nat) : Nat :=
  if 0x06 ≤ cond ∧ cond ≤ 0x09 then 4
  else if cond = 0x0B ∨ cond = 0x0C ∨ cond = 0x12 then 7
  else if cond = 0x0D ∨ cond = 0x0E then 3
  else if cond = 0x10 ∨ cond = 0x11 then 6
  else if cond = 0x14 then 4
  else 0

/-- Bits of imm that a SET destination uses (R525). -/
def setImmBits (dest : Nat) : Nat :=
  match dest with
  | 0 => 16
  | 1 => 16
  | 2 => 21
  | 3 => 21
  | 4 => 23
  | 5 => 0
  | _ => 16

/-- `some i` under a condition. -/
def when_ (c : Bool) (i : Insn) : Option Insn := if c then some i else none

/-- EXT words (R541). -/
def decodeExt (v : Nat) : Option Insn :=
  match nbits v 24 4 with
  | 0 => when_ (nbits v 0 24 == 0) .nop
  | 1 => when_ (nbits v 0 24 == 0) .halt
  | 2 => when_ (nbits v 0 17 == 0) (.flush (nbits v 18 6) (nbit v 17))
  | 3 => when_ (nbits v 15 7 == 0) (.ldm (nbit v 23) (nbit v 22) (nbits v 0 15))
  | 4 => when_ (nbits v 15 7 == 0) (.stm (nbit v 23) (nbit v 22) (nbits v 0 15))
  | 5 => when_ (nbits v 0 20 == 0 && nbits v 20 2 != 3) (.rq (nbits v 22 2) (nbits v 20 2))
  | 6 => when_ (nbits v 0 23 == 0) (.gett (nbit v 23))
  | 7 => when_ (nbits v 0 24 == 0) .rdreg
  | _ => none

/-- ALU words (R531). -/
def decodeAlu (v : Nat) : Option Insn :=
  let op := nbits v 24 4
  if op ≤ 7 then
    when_ (nbits v 16 6 == 0 && (!nbit v 22 || nbits v 0 16 == 0)) (.alu op (nbit v 23) (nbit v 22) (nbits v 0 16))
  else if op = 8 then
    when_ (nbits v 12 4 == 0 && nbits v 0 8 == 0 && decide (nbits v 8 4 < 8)) (.crc (nbit v 23) (nbits v 16 7) (nbits v 8 4))
  else if op = 9 then when_ (nbits v 0 22 == 0) (.ins (nbit v 23) (nbit v 22))
  else if op = 10 then when_ (nbits v 0 22 == 0) (.extr (nbit v 23) (nbit v 22))
  else none

/-- The instruction that a word stands for; none for the words of R504. -/
def decodeInsn (w : BitVec 32) : Option Insn :=
  let v := w.toNat
  match nbits v 28 4 with
  | 0x0 => when_ (!nbit v 27 || nbits v 0 27 == 0) (.wait (nbit v 27) (nbits v 0 27))
  | 0x1 => some (.out (nbit v 27) (nbit v 26) (nbits v 18 8) (nbits v 10 8) (nbits v 0 10))
  | 0x2 => when_ (nbits v 10 10 == 0) (.inp (nbits v 24 4) (nbits v 20 4) (nbits v 0 10))
  | 0x3 => when_ (nbits v 10 8 == 0 && nbits v 19 2 != 3)
      (.shift false (nbits v 22 6) (nbit v 21) (nbits v 19 2) (nbit v 18) (nbits v 0 10))
  | 0x4 => when_ (nbits v 10 8 == 0 && nbits v 19 2 != 3)
      (.shift true (nbits v 22 6) (nbit v 21) (nbits v 19 2) (nbit v 18) (nbits v 0 10))
  | 0x5 => when_ (nbits v 10 6 == 0 && decide (nbits v 23 5 ≤ 0x14) &&
        decide (nbits v 16 7 < 2 ^ jmpOperandBits (nbits v 23 5)))
      (.jmp (nbits v 23 5) (nbits v 16 7) (nbits v 0 10))
  | 0x6 => when_ (decide (nbits v 24 4 ≤ 6) && decide (nbits v 0 24 < 2 ^ setImmBits (nbits v 24 4)))
      (.set (nbits v 24 4) (nbits v 0 24))
  | 0x7 => when_ (nbits v 0 17 == 0)
      (.qput (nbit v 27) (nbit v 26) (nbit v 25) (nbit v 24) (nbits v 18 6) (nbit v 17))
  | 0x8 => when_ (nbits v 24 4 == 0 && nbits v 0 17 == 0) (.qget (nbits v 18 6) (nbit v 17))
  | 0x9 => when_ (decide (nbits v 21 3 ∈ [0, 1, 2, 4, 5])) (.wpin (nbits v 24 4) (nbits v 21 3) (nbits v 0 21))
  | 0xA => when_ (nbits v 0 13 == 0 && (!nbit v 14 || nbits v 18 6 == 0))
      (.stamp (nbits v 24 4) (nbits v 18 6) (nbit v 17) (nbit v 16) (nbit v 15) (nbit v 14) (nbit v 13))
  | 0xB => when_ (nbits v 20 5 == 0 && nbits v 25 2 != 3 && (nbits v 25 2 == 2 || nbits v 0 20 == 0))
      (.at_ (nbit v 27) (nbits v 25 2) (nbits v 0 20))
  | 0xC => decodeAlu v
  | 0xD =>
    if nbit v 27 then
      when_ (nbits v 23 4 == 0 && nbits v 19 3 == 0 && nbits v 0 16 == 0) (.await (nbit v 22) (nbits v 16 3))
    else when_ (nbits v 0 16 == 0) (.signal (nbits v 23 4) (nbits v 19 4) (nbits v 16 3))
  | 0xE => when_ (nbits v 16 7 == 0 && (!nbit v 27 || nbits v 23 4 == 0)) (.note (nbit v 27) (nbits v 23 4) (nbits v 0 16))
  | _ => decodeExt v

/-- The field values that the encoding can hold and that no check of R504 refuses. -/
def Insn.wf : Insn → Bool
  | .wait reg count => decide (count < 2 ^ 27) && (!reg || count == 0)
  | .out _ _ mask value k => decide (mask < 2 ^ 8) && decide (value < 2 ^ 8) && decide (k < 2 ^ 10)
  | .inp first nm1 k => decide (first < 16) && decide (nm1 < 16) && decide (k < 2 ^ 10)
  | .shift _ nm1 _ stuff _ k => decide (nm1 < 64) && decide (stuff < 3) && decide (k < 2 ^ 10)
  | .jmp cond operand target => decide (cond ≤ 0x14) && decide (operand < 2 ^ jmpOperandBits cond) && decide (target < 2 ^ 10)
  | .set dest imm => decide (dest ≤ 6) && decide (imm < 2 ^ setImmBits dest)
  | .qput _ _ _ _ bay _ => decide (bay < 64)
  | .qget bay _ => decide (bay < 64)
  | .wpin slot cond timeout => decide (slot < 16) && decide (cond ∈ [0, 1, 2, 4, 5]) && decide (timeout < 2 ^ 21)
  | .stamp slot bay _ _ _ load _ =>
    decide (slot < 16) && decide (bay < 64) && (!load || bay == 0)
  | .at_ _ src phase => decide (src < 3) && decide (phase < 2 ^ 20) && (src == 2 || phase == 0)
  | .alu op _ other imm => decide (op ≤ 7) && decide (imm < 2 ^ 16) && (!other || imm == 0)
  | .crc _ n poly => decide (n < 128) && decide (poly < 8)
  | .ins _ _ => true
  | .extr _ _ => true
  | .signal engine context flag => decide (engine < 16) && decide (context < 16) && decide (flag < 8)
  | .await _ flag => decide (flag < 8)
  | .note kettle masters code => decide (masters < 16) && decide (code < 2 ^ 16) && (!kettle || masters == 0)
  | .nop => true
  | .halt => true
  | .flush bay _ => decide (bay < 64)
  | .ldm _ _ word => decide (word < 2 ^ 15)
  | .stm _ _ word => decide (word < 2 ^ 15)
  | .rq master type => decide (master < 4) && decide (type < 3)
  | .gett _ => true
  | .rdreg => true

/-- A bit at its place. -/
def placed (b : Bool) (l : Nat) : Nat := if b then 2 ^ l else 0

/-- The bits of an instruction as a number. -/
def Insn.bits : Insn → Nat
  | .wait reg count => placed reg 27 + count
  | .out bank rel mask value k =>
    1 * 2 ^ 28 + placed bank 27 + placed rel 26 + mask * 2 ^ 18 + value * 2 ^ 10 + k
  | .inp first nm1 k => 2 * 2 ^ 28 + first * 2 ^ 24 + nm1 * 2 ^ 20 + k
  | .shift inLane nm1 adv stuff cont k =>
    3 * 2 ^ 28 + placed inLane 28 + nm1 * 2 ^ 22 + placed adv 21 + stuff * 2 ^ 19 + placed cont 18 + k
  | .jmp cond operand target => 5 * 2 ^ 28 + cond * 2 ^ 23 + operand * 2 ^ 16 + target
  | .set dest imm => 6 * 2 ^ 28 + dest * 2 ^ 24 + imm
  | .qput err eop sop keep bay nowait =>
    7 * 2 ^ 28 + placed err 27 + placed eop 26 + placed sop 25 + placed keep 24 + bay * 2 ^ 18 + placed nowait 17
  | .qget bay nowait => 8 * 2 ^ 28 + bay * 2 ^ 18 + placed nowait 17
  | .wpin slot cond timeout => 9 * 2 ^ 28 + slot * 2 ^ 24 + cond * 2 ^ 21 + timeout
  | .stamp slot bay err eop sop load nowait =>
    10 * 2 ^ 28 + slot * 2 ^ 24 + bay * 2 ^ 18 + placed err 17 + placed eop 16 + placed sop 15 + placed load 14 + placed nowait 13
  | .at_ onpast src phase => 11 * 2 ^ 28 + placed onpast 27 + src * 2 ^ 25 + phase
  | .alu op c1 other imm => 12 * 2 ^ 28 + op * 2 ^ 24 + placed c1 23 + placed other 22 + imm
  | .crc o n poly => 12 * 2 ^ 28 + 8 * 2 ^ 24 + placed o 23 + n * 2 ^ 16 + poly * 2 ^ 8
  | .ins c1 o => 12 * 2 ^ 28 + 9 * 2 ^ 24 + placed c1 23 + placed o 22
  | .extr c1 o => 12 * 2 ^ 28 + 10 * 2 ^ 24 + placed c1 23 + placed o 22
  | .signal engine context flag => 13 * 2 ^ 28 + engine * 2 ^ 23 + context * 2 ^ 19 + flag * 2 ^ 16
  | .await adopt flag => 13 * 2 ^ 28 + 2 ^ 27 + placed adopt 22 + flag * 2 ^ 16
  | .note kettle masters code => 14 * 2 ^ 28 + placed kettle 27 + masters * 2 ^ 23 + code
  | .nop => 15 * 2 ^ 28
  | .halt => 15 * 2 ^ 28 + 1 * 2 ^ 24
  | .flush bay tx => 15 * 2 ^ 28 + 2 * 2 ^ 24 + bay * 2 ^ 18 + placed tx 17
  | .ldm o idx word => 15 * 2 ^ 28 + 3 * 2 ^ 24 + placed o 23 + placed idx 22 + word
  | .stm o idx word => 15 * 2 ^ 28 + 4 * 2 ^ 24 + placed o 23 + placed idx 22 + word
  | .rq master type => 15 * 2 ^ 28 + 5 * 2 ^ 24 + master * 2 ^ 22 + type * 2 ^ 20
  | .gett counter => 15 * 2 ^ 28 + 6 * 2 ^ 24 + placed counter 23
  | .rdreg => 15 * 2 ^ 28 + 7 * 2 ^ 24

/-- The word of an instruction. -/
def encodeInsn (i : Insn) : BitVec 32 := BitVec.ofNat 32 i.bits

/-- The CRC widths and polynomials of R532. -/
def crcPoly (poly : Nat) : Nat × Nat :=
  match poly with
  | 0 => (6, 0x03)
  | 1 => (8, 0x07)
  | 2 => (15, 0x4599)
  | 3 => (16, 0x1021)
  | 4 => (16, 0x8005)
  | 5 => (17, 0x1685B)
  | 6 => (21, 0x102899)
  | _ => (32, 0x04C11DB7)

/-- One step of R532: feed one bit into a CRC register of width `w` with polynomial `p`. -/
def crcStep (w p : Nat) (reg : Nat) (bit : Bool) : Nat :=
  let fb := bit != nbit reg (w - 1)
  let r := reg * 2 % 2 ^ w
  if fb then r ^^^ p else r

/-- Feed the `n` least significant bits of `src`, most significant first (R532). -/
def crcFeed (w p : Nat) (src : Nat) : Nat → Nat → Nat
  | 0, reg => reg
  | n + 1, reg => crcFeed w p src n (crcStep w p reg (nbit src n))

end Sys2Proof.Machine
end

