-- ==== Sys2Proof/Machine/Contexts.lean ====
section
/-!
DEFINITION. Access to the contexts of the Infuser engines and to their pin maps (R452, R453, R470, R498), and the edges that
contexts latch (R508).
-/

namespace Sys2Proof.Machine

def State.engine (s : State) (e : Nat) : Engine := mget {} s.engines e
def State.setEngine (s : State) (e : Nat) (x : Engine) : State := { s with engines := mput {} s.engines e x }
def State.ctx (s : State) (e c : Nat) : Ctx := mget {} (s.engine e).ctxs c

/-- RUNNING or WAITING (R649). -/
def Ctx.active (x : Ctx) : Bool := x.st == .running || x.st == .waiting

/-- Set a context; the engine keeps that one was active within the tick (R649). -/
def State.setCtx (s : State) (e c : Nat) (x : Ctx) : State :=
  let y := s.engine e
  s.setEngine e { y with ctxs := mput {} y.ctxs c x, live := y.live || ((s.ctx e c).active && !x.active) }

/-- Running in the sense of R453. -/
def Ctx.runs (x : Ctx) : Bool :=
  match x.st with
  | .running => true
  | .waiting => true
  | .suspended => true
  | .idle => false
  | .faulted => false

/-- The contexts the engines hold: pairs of engine and context. -/
def State.ctxList (s : State) : List (Nat × Nat) :=
  s.engines.flatMap (fun kv => kv.2.ctxs.map (fun cv => (kv.1, cv.1)))

/-- `a - b` of two plant times, as the nearest signed number. -/
def tdiff (a b : Word) : Int := (a - b).toInt

/-! ### Slots (R470, R498) -/

/-- Entry `k` of the pin map of a context (R498). -/
def State.slotWord (s : State) (e c k : Nat) : Nat := fget (s.word (R.INF_MAP e (4 * c + k / 4))) (16 * (k % 4)) 16

/-- The pin a slot names for reading. -/
def State.slotRead (s : State) (e c k : Nat) : Option Nat :=
  if k < 16 ∧ bitAt (s.slotWord e c k) 15 then some (s.slotWord e c k % 512) else none

/-- The pin a slot names for driving. -/
def State.slotDrive (s : State) (e c k : Nat) : Option Nat :=
  if k < 16 ∧ bitAt (s.slotWord e c k) 15 ∧ bitAt (s.slotWord e c k) 14 then some (s.slotWord e c k % 512) else none

/-- The contexts with a valid slot that names pin `g`, with the slot. -/
def State.slotsOf (s : State) (g : Nat) : List (Nat × Nat × Nat) :=
  s.ctxList.flatMap (fun ec => ((List.range 16).filter (fun k => s.slotRead ec.1 ec.2 k == some g)).map (fun k => (ec.1, ec.2, k)))

/-- A slot of a context sees an accepted edge of its pin: the repeat bit of a STAMP is over, and a running context latches the edge
(R508). -/
def State.latchEdge (s : State) (rose : Bool) (eck : Nat × Nat × Nat) : State :=
  let (e, c, k) := eck
  let x := s.ctx e c
  let bit : BitVec 16 := BitVec.ofNat 16 (2 ^ k)
  let x := { x with stampRep := x.stampRep &&& ~~~bit }
  s.setCtx e c
    (if !x.runs then x else if rose then { x with riseL := x.riseL ||| bit } else { x with fallL := x.fallL ||| bit })

end Sys2Proof.Machine
end

