-- ==== Sys2Proof/Machine/Pins.lean ====
section
/-!
DEFINITION. The pin cells: which agent's drive state reaches the pad, safe values, invert, and the level an agent reads
(R14-R17, R408-R423, R463, R472, R629).
-/

namespace Sys2Proof.Machine

/-- A pin cell. -/
def State.pin (s : State) (g : Nat) : Pin := mget {} s.bays.pins g

/-- Replace a pin cell. -/
def State.setPin (s : State) (g : Nat) (p : Pin) : State := { s with bays := { s.bays with pins := mput {} s.bays.pins g p } }

/-- The bay group (power domain) of a pin (R12). -/
def groupOfPin (g : Nat) : Nat := g / 96

/-- Whether bay group `k` is gated (R599). -/
def State.groupGated (s : State) (k : Nat) : Bool := s.bitOn R.PWR_STATUS_gated k

/-- Whether engine quad `q` is gated (R599). -/
def State.quadGated (s : State) (q : Nat) : Bool := s.bitOn R.PWR_STATUS_gated (4 + q)

/-- Whether bay `n` is forced to its safe values (R629). -/
def State.bayForced (s : State) (n : Nat) : Bool := s.bitOn R.KET_FORCE_forced n

/-- The pins whose cell is configured: a pin in mode 0x0 has no BAY_PIN entry but its reset value. -/
def State.usedPins (s : State) : List Nat :=
  (s.regs.filter (fun kv => 0x100000 ≤ kv.1 ∧ kv.1 < 0x100000 + 48 * 0x2000 ∧ kv.1 % 0x2000 < 64)).map
    (fun kv => (kv.1 - 0x100000) / 0x2000 * 8 + kv.1 % 0x2000 / 8)

/-- Pin cell mode of R408. -/
def State.pinMode (s : State) (g : Nat) : Nat := s.rd (R.BAY_PIN_mode g)

/-- The odd pin of a differential or CAN pair (R410). -/
def State.pairOdd (s : State) (g : Nat) : Bool := (s.pinMode g == 6 || s.pinMode g == 7) && g % 2 == 1

/-- The cell has a driver that drive actions reach (R409, R410). -/
def State.hasDriver (s : State) (g : Nat) : Bool := 3 ≤ s.pinMode g && s.pinMode g ≤ 8 && !s.pairOdd g

/-- Who decides the outputs in the present mode (R15, R696): nobody (`off`), the safe values, the owners, or, in Island,
the fallback programs. -/
inductive OutputRule where
  | off | safe | owners | fallback
  deriving DecidableEq, Repr

def State.outputRule (s : State) : OutputRule :=
  match s.hub.mode with
  | .boot => .off
  | .steep => .off
  | .quarantine => .safe
  | .run => .owners
  | .runDegraded => .owners
  | .island => .fallback
  | .safe => .safe
  | .doze => .owners
  | .hibernate => .safe
  | .update => if s.hub.window ∨ s.hub.row = 7 then .off else .safe
  | .trial => .owners
  | .test => .safe

/-- Whether the context that last drove pin `g` has the fallback mark (R32, R462). -/
def State.islandDrives (s : State) (g : Nat) : Bool :=
  s.rd (R.BAY_PIN_owner g) == 3 && !(s.pin g).kept &&
  (match (s.pin g).acted with
    | some (_, ec, _) => s.on (R.INF_CTX_CFG_fallback (ec / 16) (ec % 16))
    | none => false)

/-- Whether the owner's drive state reaches the pad now. -/
def State.ownerDrives (s : State) (g : Nat) : Bool :=
  !s.bayForced (g / 8) && !s.groupGated (groupOfPin g) &&
  (match s.outputRule with
    | .owners => true
    | .fallback => s.islandDrives g
    | .safe => false
    | .off => false)

/-- What a test drives on pin `g` (R15, R28). No command starts a test drive (log entry 12). -/
def State.testDrive (s : State) (g : Nat) : Option Drive :=
  if s.hub.mode = .test ∧ !s.bayForced (g / 8) ∧ !s.groupGated (groupOfPin g) then mget none s.hub.testPins g else none

/-- A drive state through the inverter (R411). -/
def Drive.through (d : Drive) (inv : Bool) : Drive :=
  match d, inv with
  | .low, true => .high
  | .high, true => .low
  | d, _ => d

/-- The drive state at the pad that a safe value gives (R421): hold keeps the pad's. -/
def safeDrive (v : Nat) (pad : Drive) : Drive :=
  match v with
  | 0 => .released
  | 1 => .low
  | 2 => .high
  | _ => pad

/-- The C/Q driver of pin `g` is released and its level reads 0, since power-good of its bay's L+ is low (R578). -/
def State.lplusLow (s : State) (g : Nat) : Bool :=
  s.pinMode g == 8 && decide (mget 255 s.loaded.lplus (g / 8) < 32) && !s.on (R.PWP_STAT_pg (mget 255 s.loaded.lplus (g / 8)))

/-- The drive state that the owner of pin `g` asks for, on the logic side: BAY_OUT of the bay for owner 1, else what the owner
set last; a pin without an owner is never driven (R416, R418, R420). -/
def State.ownerState (s : State) (g : Nat) : Drive :=
  if s.rd (R.BAY_PIN_owner g) = 0 then .released
  else if s.rd (R.BAY_PIN_owner g) = 1 then
    if s.bitOn (R.BAY_OUT_enable (g / 8)) (g % 8) then
      (if s.bitOn (R.BAY_OUT_value (g / 8)) (g % 8) then .high else .low)
    else .released
  else (s.pin g).owner

/-- The level at pin `g` while no level has been accepted since power-on: 1 on an idle CAN FD bus and on an idle line of a
pair whose bias is on (R71, R410). For every other pin the manual gives none, and the model takes 0 (log entry 13). -/
def State.idleLevel (s : State) (g : Nat) : Bool := s.pinMode g == 7 || (s.pinMode g == 6 && s.on (R.BAY_PIN_bias g))

/-- The level accepted last at pin `g`. -/
def State.acceptedLevel (s : State) (g : Nat) : Bool := (s.pin g).level.getD (s.idleLevel g)

/-- What the hub's own driver makes of the line of pin `g` (R408, R410): the level at a pad whose driver drives and does not limit its
current, logic 0 or 1 of a pair in mode 6, dominant in mode 7. -/
def State.ownLine (s : State) (g : Nat) : Option Bool :=
  let m := s.pinMode g
  let single := m == 3 || m == 4 || m == 5 || m == 8
  match (s.pin g).pad with
  | .released => none
  | .low => if m = 6 ∨ m = 7 ∨ (single ∧ (s.pin g).limitSince.isNone) then some false else none
  | .high => if m = 6 ∨ (single ∧ (s.pin g).limitSince.isNone) then some true else none

/-- The output of the receiver of pin `g`, whoever drives the line (R410). -/
def State.lineLevel (s : State) (g : Nat) : Bool := (s.ownLine g).getD (s.acceptedLevel g)

/-- Pin `g` has accepted an edge with its stamp, after which agents read `rose`; its slots see it (R412, R508). -/
def State.recordEdge (s : State) (g : Nat) (stamp : Word) (rose : Bool) : State :=
  (s.slotsOf g).foldl (fun t k => t.latchEdge rose k) (s.setPin g { s.pin g with edges := (stamp, rose) :: (s.pin g).edges })

/-- A bound, in ns, of the delay with which the receiver of pin `g` follows the hub's own driver: the transition of a 24 V output at the slow
rate and its propagation (R61, R64, R65), else the loop delay of R72 (log entry 13). -/
def State.loopBound (s : State) (g : Nat) : Nat := if s.pinMode g = 3 ∨ s.pinMode g = 8 then 2100 else 256

/-- The receiver of pin `g` follows a change that the hub's own driver makes on its line, after a delay whose value is open (R72, R408,
R410, log entry 13): the edge comes when the delay is over, and not before an edge that is coming already. `old` is the state before
the change. -/
def State.followLine (s old : State) (g : Nat) : State :=
  if !s.hasDriver g ∨ s.groupGated (groupOfPin g) ∨ s.asleep ∨ old.lineLevel g = s.lineLevel g then s
  else
    let (k, t) := s.takeFree
    let due := ((s.pin g).coming.getLast?.map (·.1)).getD 0
    t.setPin g { s.pin g with coming := (s.pin g).coming ++
      [(max due (s.clk + Config.freeNat k % s.loopBound g), s.lineLevel g != s.on (R.BAY_PIN_invert g))] }

/-- The receiver of pin `g` accepts the oldest edge that its own driver has made, once its time has come; a pin without power accepts
none (R410, R413). -/
def State.acceptComing (s : State) (g : Nat) : State :=
  match (s.pin g).coming with
  | [] => s
  | (due, rose) :: rest =>
    if s.clk < due then s
    else
      let t := s.setPin g { s.pin g with coming := rest }
      if s.groupGated (groupOfPin g) ∨ s.asleep then t else t.recordEdge g (s.now - BitVec.ofNat 64 (s.clk - due)) rose

/-- Every pin accepts an edge that has come. -/
def State.acceptComings (s : State) : State :=
  ((s.bays.pins.filter (fun kv => !kv.2.coming.isEmpty)).map (·.1)).foldl State.acceptComing s

/-- Bring the pad of pin `g` to what the mode, the force, the overload latch, a test and the owner make of it. -/
def State.applyPad (s : State) (g : Nat) : State :=
  let p := s.pin g
  let inv := s.on (R.BAY_PIN_invert g)
  let owner := s.rd (R.BAY_PIN_owner g)
  let safe := safeDrive (s.rd (R.BAY_PIN_safe g)) p.pad
  let byAgent := owner == 2 || owner == 3
  if !s.hasDriver g ∨ s.lplusLow g then s.setPin g { p with pad := .released }
  else if s.outputRule = .off then s.setPin g { p with pad := .released, kept := p.kept || byAgent }
  else if s.bitOn (R.BAY_PINSTAT_overload (g / 8)) (g % 8) then
    s.setPin g { p with pad := .released, kept := p.kept || (byAgent && !s.ownerDrives g) }
  else if s.ownerDrives g then
    if byAgent ∧ p.kept then s else s.setPin g { p with pad := (s.ownerState g).through inv }
  else s.setPin g { p with pad := (s.testDrive g).getD safe, kept := p.kept || byAgent }

/-- `applyPad`, and what the receiver of a pair makes of it. -/
def State.applyPin (s : State) (g : Nat) : State := (s.applyPad g).followLine s g

/-- Bring every configured pin up to date: entry to a mode, gating, ungating. -/
def State.applyPins (s : State) : State := s.usedPins.foldl State.applyPin s

/-- Bring the pins of bay `n` up to date. -/
def State.applyBay (s : State) (n : Nat) : State := (List.range 8).foldl (fun t p => t.applyPin (8 * n + p)) s

/-- The owner of pin `g` sets its drive state: it is stored, and reaches the pad where owners drive (R416, R422, R472). -/
def State.drivePin (s : State) (g : Nat) (d : Drive) : State :=
  let p := s.pin g
  if s.groupGated (groupOfPin g) then s
  else
    let live := !s.bayForced (g / 8) && (match s.outputRule with
      | .owners => true
      | .fallback => true
      | .safe => false
      | .off => false)
    (s.setPin g { p with owner := d, kept := p.kept && !live }).applyPin g

/-- A pin that reads 0 whatever its pad does. -/
def State.pinBlind (s : State) (g : Nat) : Bool :=
  s.pinMode g == 0 || s.pairOdd g || s.groupGated (groupOfPin g) || s.lplusLow g

/-- The level after the latest accepted edge of pin `g`, on the logic side: an edge that is still coming has not been accepted. -/
def State.latestLevel (s : State) (g : Nat) : Bool :=
  match (s.pin g).coming with
  | (_, rose) :: _ => !rose
  | [] => s.lineLevel g != s.on (R.BAY_PIN_invert g)

/-- The level that an agent reads on pin `g` now (R408, R410, R411, R472). -/
def State.levelOf (s : State) (g : Nat) : Bool := if s.pinBlind g then false else s.latestLevel g

/-- The eight bits of BAY_IN and of a PINS input cup: levels of the bay's pins. -/
def State.bayLevels (s : State) (n : Nat) : Nat :=
  (List.range 8).foldl (fun v p => v + bit01 (s.levelOf (8 * n + p)) * 2 ^ p) 0

/-- The drive levels of a bay's pins on the logic side, and which are released (BAY_IN). -/
def State.bayDriven (s : State) (n : Nat) : Nat :=
  (List.range 8).foldl (fun v p =>
    let g := 8 * n + p
    v + bit01 (((s.pin g).pad.through (s.on (R.BAY_PIN_invert g))) == .high) * 2 ^ p) 0

def State.bayReleased (s : State) (n : Nat) : Nat :=
  (List.range 8).foldl (fun v p => v + bit01 ((s.pin (8 * n + p)).pad == .released) * 2 ^ p) 0

/-- Register-owned pins take the drive state that BAY_OUT gives (R418, R420). -/
def State.applyBayOut (s : State) (n : Nat) : State :=
  (List.range 8).foldl (fun t p =>
    let g := 8 * n + p
    if t.rd (R.BAY_PIN_owner g) = 1 then t.applyPin g else t) s

end Sys2Proof.Machine
end

