-- ==== Sys2Proof/Machine/Engine.lean ====
section
/-!
DEFINITION. The Infuser engines around their instructions: contexts, starting and stopping, faults, fetching, grid release,
lateness and slack, pin actions, shift lanes, gating (R452-R501).
-/

namespace Sys2Proof.Machine

/-- Attributes of the events of an engine (R647). -/
def engAttrs : Attrs := { priv := some 2, master := some 4 }

/-- The engine serves the bay (R498). -/
def State.serves (s : State) (e n : Nat) : Bool := decide (n < 48) && s.bitOn (R.INF_BAYS_bays e) n

/-! ### Program memory (R492, R493) -/

/-- The ECC counts and the source of a read of program word `i`. -/
def State.progEcc (s : State) (e i : Nat) : State :=
  match s.eccOf .prog (512 * e + i) with
  | .clean => s
  | .corrected => s.bump (R.INF_ECC_corrected e)
  | .bad => (s.bump (R.INF_ECC_uncorrectable e)).raise (0x120 + e) i

/-- Fetch the word that holds the next instruction of a context. -/
def State.fetch (s : State) (e c : Nat) : State :=
  let i := (s.ctx e c).pc / 2
  let s := s.progEcc e i
  s.setCtx e c { s.ctx e c with pre := some (i, s.word (R.INF_PROG e i)), refetch := false }

/-- Discard the prefetched word of a context (R495, R649). -/
def State.dropPre (s : State) (e c : Nat) : State :=
  match (s.ctx e c).pre with
  | none => s
  | some _ =>
    let s := s.setCtx e c { s.ctx e c with pre := none, refetch := true }
    (s.setEngine e { s.engine e with wasted := true }).pmcEv 6 8 e engAttrs

/-- pc lies in the context's region. -/
def State.inRegion (s : State) (e c pc : Nat) : Bool :=
  decide (s.rd (R.INF_CTX_CFG_region_lo e c) ≤ pc) && decide (pc ≤ s.rd (R.INF_CTX_CFG_region_hi e c))

/-- The context enters WAITING (R454). -/
def State.enterWait (s : State) (e c r : Nat) : State :=
  (s.setCtx e c { s.ctx e c with st := .waiting, wait := r }).pmcEv 7 (r - 1) e engAttrs

/-- The context becomes RUNNING, or waits for the fetch of its next instruction (R506). -/
def State.ready (s : State) (e c : Nat) : State :=
  let x := s.ctx e c
  if s.inRegion e c x.pc ∧ x.pre.map (·.1) ≠ some (x.pc / 2) then s.enterWait e c 9
  else s.setCtx e c { x with st := .running, wait := 0 }

/-- The index after the instruction at pc, with the wrap of R490 and R491. -/
def Ctx.passed (x : Ctx) : Ctx :=
  if x.loopOn ∧ x.pc = x.loopEnd then
    match x.loopPend with
    | some (a, b) => { x with pc := a, loopStart := a, loopEnd := b, loopPend := none }
    | none => { x with pc := x.loopStart }
  else { x with pc := (x.pc + 1) % 1024 }

/-- Pass the instruction at pc and fetch the word of the next one, if it is another word (R493). -/
def State.advance (s : State) (e c : Nat) : State :=
  let x := (s.ctx e c).passed
  let s := s.setCtx e c x
  if x.pre.isSome ∧ x.pre.map (·.1) ≠ some (x.pc / 2) ∧ s.inRegion e c x.pc then s.fetch e c else s

/-! ### Sampling and issue slots (R649, R656) -/

/-- Put a sample record into the FIFO (R658). -/
def State.pmcRecord (s : State) (r : Sample) : State :=
  if s.pmc.fifo.length < 16 then
    { s with pmc := { s.pmc with fifo := s.pmc.fifo ++ [{ r with lost := s.pmc.lost }], lost := false } }
  else ({ s with pmc := { s.pmc with lost := true } }).bump R.PMC_SAMPLE_STAT_lost

/-- An instruction of engine `e` joins those that a count has seen (R656). -/
def Tally.see (h : Tally) (clk e c pc : Nat) : Tally :=
  if h.element = e ∧ h.start ≤ clk ∧ h.seen.length < 4 then { h with seen := h.seen ++ [(c, pc)] } else h

/-- The instruction that the record of a wrap names, once it has issued. -/
def Wrap.named (w : Wrap) : Option (Nat × Nat) := w.tally.seen[w.skid]?

/-- Wraps whose instruction has issued become records; while the counters are frozen, no sample is taken (R651, R656). -/
def State.pmcReady (s : State) : State :=
  let t : State := { s with pmc := { s.pmc with waiting := s.pmc.waiting.filter (fun w => w.named.isNone) } }
  if s.on R.PMC_CTRL_freeze then t
  else s.pmc.waiting.foldl (fun (t : State) w =>
    match w.named with
    | some (c, pc) => t.pmcRecord ⟨w.tally.counter, w.tally.element, c, pc, w.skid, false, false, w.time⟩
    | none => t) t

/-- The engine issued the instruction at `pc` of context `c`. -/
def State.pmcIssued (s : State) (e c pc : Nat) : State :=
  let see (h : Tally) : Tally := h.see s.clk e c pc
  let waiting := s.pmc.waiting.map (fun (w : Wrap) => { w with tally := see w.tally })
  ({ s with pmc := { s.pmc with waiting := waiting, heldCounts := s.pmc.heldCounts.map see } }).pmcReady

/-- The tick in progress has seen an issue of context `c`. -/
def State.noteIssue (s : State) (e c : Nat) : State := s.setEngine e { s.engine e with issued := c :: (s.engine e).issued }

/-- An instruction has issued and is not held back. -/
def State.retire (s : State) (e c pc : Nat) : State := ((s.noteIssue e c).pmcEv 6 5 e engAttrs).pmcIssued e c pc

/-- A grid instruction has issued that waits for its release or its event: until then it may be discarded, and does not count as retired
(R649). -/
def State.issueHeld (s : State) (e c pc : Nat) : State := (s.noteIssue e c).pmcIssued e c pc

/-- Charge a slot of engine `e` to a category: 0 retired, 1 wasted, 2 front-starved, 3 back-starved (R649). -/
def State.chargeAs (s : State) (e k : Nat) : State := (s.pmcEv 6 k e engAttrs).pmcEv 6 4 e engAttrs

/-- The grid instruction at `pc` that context `c` waits with comes to its end: it is retired, and the slot in which it issued is charged
so. A sample that its event asks for counts from the instruction itself (R649, R656). -/
def State.retireHeld (s : State) (e c pc : Nat) : State :=
  let (paid, rest) := (s.engine e).owed.partition (fun l => l.contains c)
  let t := (s.setEngine e { s.engine e with owed := rest }).pmcEv 6 5 e engAttrs
  let see (h : Tally) : Tally := h.see s.clk e c pc
  let n := s.pmc.waiting.length
  let m := s.pmc.heldCounts.length
  let waiting := t.pmc.waiting.take n ++ (t.pmc.waiting.drop n).map (fun (w : Wrap) => { w with tally := see w.tally })
  let held := t.pmc.heldCounts.take m ++ (t.pmc.heldCounts.drop m).map see
  paid.foldl (fun (u : State) _ => u.chargeAs e 0)
    (({ t with pmc := { t.pmc with waiting := waiting, heldCounts := held } } : State).pmcReady)

/-- The grid instruction that the context issued and that has not been released is discarded: the tick in which it issued is wasted, or
its slot, where that is over and no other instruction of it stands (R649). -/
def State.dropGrid (s : State) (e c : Nat) : State :=
  let x := s.engine e
  if (s.ctx e c).grid.isNone then s
  else if x.issued.contains c then s.setEngine e { x with issued := x.issued.filter (· ≠ c), wasted := true }
  else
    let left := x.owed.map (fun l => l.filter (· ≠ c))
    (left.filter List.isEmpty).foldl (fun (t : State) _ => t.chargeAs e 1)
      (s.setEngine e { x with owed := left.filter (fun l => !l.isEmpty) })

/-- The context whose turn is next: the first RUNNING one after the context that issued last, 15 being followed by 0 (R467). -/
def State.nextTurn (s : State) (e : Nat) : Option Nat :=
  ((List.range 16).map (fun k => ((s.engine e).turn + 1 + k) % 16)).find? (fun c => (s.ctx e c).st == .running)

/-- Context `c` has had its turn (R467). -/
def State.turned (s : State) (e c : Nat) : State := s.setEngine e { s.engine e with turn := c }

/-! ### Lanes (R483-R489, R520-R523) -/

/-- A bit joins the stuff run (R520). Dynamic stuffing counts equal bits, fixed stuffing counts bits. -/
def StuffRun.add (r : StuffRun) (stuff : Nat) (b : Bool) : StuffRun :=
  if stuff = 2 then ⟨r.len + 1, b⟩ else ⟨if r.len ≠ 0 ∧ r.last = b then r.len + 1 else 1, b⟩

/-- A stuff bit is due. -/
def StuffRun.due (r : StuffRun) (stuff : Nat) : Bool := if stuff = 2 then r.len == 4 else r.len == 5

/-- The run after a stuff bit of value `b`. -/
def stuffAfter (stuff : Nat) (b : Bool) : StuffRun := if stuff = 2 then ⟨0, b⟩ else ⟨1, b⟩

/-- The bits on the line for data bits, and the run after them (R522). -/
def stuffLine (stuff : Nat) : StuffRun → List Bool → List Bool × StuffRun
  | r, [] => ([], r)
  | r, b :: rest =>
    let r1 := r.add stuff b
    if r1.due stuff then
      let (l, r2) := stuffLine stuff (stuffAfter stuff (!b)) rest
      (b :: (!b) :: l, r2)
    else
      let (l, r2) := stuffLine stuff r1 rest
      (b :: l, r2)

/-- The `n` bits that SHO takes from the out shifter, in order (R518). -/
def takeBits (sh : Word) (cnt n : Nat) (order : Bool) : List Bool :=
  (List.range n).map (fun j => sh.getLsbD (if order then j else cnt - 1 - j))

/-- The out shifter after that. -/
def leaveBits (sh : Word) (cnt n : Nat) (order : Bool) : Word :=
  if order then sh >>> n else sh &&& fmask 0 (cnt - n)

/-- Sampled bits enter the in shifter (R519). -/
def enterBits (order : Bool) : List Bool → Word → Nat → Word × Nat
  | [], sh, n => (sh, n)
  | b :: rest, sh, n =>
    let v : Word := BitVec.ofNat 64 (bit01 b)
    enterBits order rest (if order then sh ||| (v <<< n) else (sh <<< 1) ||| v) (min (n + 1) 64)

/-- Bit periods of the shift in the out lane. -/
def Lane.outPeriods (l : Lane) (sh : Shift) : Nat := min (sh.bits.length / sh.w) (l.limit.getD (sh.bits.length / sh.w))

/-- The in lane has taken its last bit. -/
def Lane.inDone (l : Lane) : Bool :=
  l.full || (match l.limit with
    | some k => decide (k ≤ l.idx)
    | none => false)

/-- The lane starts a shift at `t`. -/
def Lane.begin_ (l : Lane) (sh : Shift) (t : Word) (inLane : Bool) : Lane :=
  { l with cur := some { sh with t := t }, idx := 0, clk := 0, got := [], full := false, broken := false, limit := none,
           run := if inLane && !sh.cont then {} else l.run }

/-- A lane is stopped (R459): a shift not begun does not run, a running one ends with its bit. -/
def Lane.halt (l : Lane) (now : Word) : Lane :=
  match l.cur with
  | none => { l with queued := none }
  | some sh =>
    if tdiff sh.t now > 0 then { l with cur := none, queued := none }
    else { l with queued := none, limit := some ((now - sh.t).toNat / sh.b + 1) }

/-- The lane holds a shift that waits to start (R489). -/
def Lane.holds (l : Lane) (now : Word) : Bool :=
  l.queued.isSome || (match l.cur with
    | some sh => decide (tdiff sh.t now > 0)
    | none => false)

/-- The in lane is busy (R489). -/
def Ctx.inBusy (x : Ctx) : Bool := x.inLane.cur.isSome

/-- A lane is busy. -/
def Ctx.laneBusy (x : Ctx) : Bool := x.inLane.cur.isSome || x.outLane.cur.isSome

/-- Halves of bit periods that begin before `t` (R486). -/
def Shift.halvesBefore (sh : Shift) (t : Word) : Nat :=
  let d := tdiff t sh.t
  if d ≤ 0 then 0
  else
    let d := d.toNat
    2 * (d / sh.b) + bit01 (decide (0 < d % sh.b)) + bit01 (decide (sh.b / 2 < d % sh.b))

/-! ### Stopping, faults, starting -/

/-- What a stop, a fault and a reset have in common: lanes, fetch, waits; released actions other than shifts stand (R459). -/
def State.haltCtx (s : State) (e c : Nat) (st : CtxState) : State :=
  let s := (s.dropPre e c).dropGrid e c
  let x := s.ctx e c
  s.setCtx e c { x with st := st, wait := 0, cur := none, grid := none, slot := none, stampWord := none, tauDue := false,
                        acts := x.acts.map (fun a => { a with old := true }), outLane := x.outLane.halt s.now, inLane := x.inLane.halt s.now }

/-- The context becomes IDLE (R459). -/
def State.stopCtx (s : State) (e c : Nat) : State := s.haltCtx e c .idle

/-- The context meets a fault at `pc` (R466). -/
def State.faultCtx (s : State) (e c cause pc : Nat) : State :=
  let s := s.haltCtx e c .faulted
  (s.setCtx e c { s.ctx e c with cause := cause, faultPc := pc }).raise (0x100 + e) (c * 2 ^ 16 + cause * 2 ^ 12 + pc)

/-- A Kettle block reset of an engine (R465). -/
def State.resetEngine (s : State) (e : Nat) : State :=
  (s.engine e).ctxs.foldl (fun (t : State) kv =>
    let t := t.haltCtx e kv.1 .idle
    t.setCtx e kv.1 { t.ctx e kv.1 with outLane := {}, inLane := {} }) s

/-- Modes in which contexts run (R455). -/
def ctxMode (m : Mode) : Bool :=
  match m with
  | .run => true
  | .runDegraded => true
  | .trial => true
  | .doze => true
  | .island => true
  | .boot => false
  | .steep => false
  | .quarantine => false
  | .safe => false
  | .hibernate => false
  | .update => false
  | .test => false

/-- The mode and the engines section permit the context to run (R455, R457). -/
def State.mayRun (s : State) (e c : Nat) : Bool :=
  s.on (R.INF_CTX_CFG_enabled e c) && ctxMode s.hub.mode &&
  (s.hub.mode != .island || s.on (R.INF_CTX_CFG_fallback e c))

/-- τ of a start at this tick (R458). -/
def State.startTau (s : State) : Word := BitVec.ofNat 64 (s.now.toNat / 2 * 2 + 32)

/-- Start one context, or refuse (R456, R457). -/
def State.startCtx (s : State) (e c : Nat) (tau : Word) (island : Bool) : State :=
  let x := s.ctx e c
  if x.runs ∨ !s.mayRun e c then s.bump (R.INF_STATUS_refused e)
  else
    let y : Ctx := { x with
      st := .running, wait := 0, cause := 0, island := island, pc := s.rd (R.INF_CTX_STATE_start_pc e c), loopOn := false,
      loopPend := none, c0 := 0, c1 := 0, outSh := 0, outCnt := 0, inSh := 0, inCnt := 0, flags := 0, flagTime := [],
      tau := tau, riseL := 0, fallL := 0, laneErr := false, lastTags := 0, reqFailed := false, stampRep := 0,
      tauDue := false, pre := none, refetch := false, cur := none, grid := none, stampWord := none, slot := none,
      outLane := { x.outLane with run := {} }, inLane := { x.inLane with run := {} } }
    (s.setCtx e c y).ready e c

/-- Start the contexts of a mask of engine `e`; all receive one τ (R458). -/
def State.startMask (s : State) (e mask : Nat) : State :=
  (List.range 16).foldl (fun (t : State) c => if bitAt mask c then t.startCtx e c s.startTau false else t) s

/-- Stop the contexts of a mask. -/
def State.stopMask (s : State) (e mask : Nat) : State :=
  (List.range 16).foldl (fun (t : State) c => if bitAt mask c ∧ (t.ctx e c).st ≠ .idle then t.stopCtx e c else t) s

/-- Every pair of engine and context. -/
def allCtx : List (Nat × Nat) := (List.range 256).map (fun i => (i / 16, i % 16))

/-- Autostart and fallback starts (R461, R462). -/
def State.startWhere (s : State) (p : State → Nat → Nat → Bool) (island : Bool) : State :=
  allCtx.foldl (fun (t : State) ec =>
    if s.on (R.INF_CTX_CFG_enabled ec.1 ec.2) ∧ (s.ctx ec.1 ec.2).st = .idle ∧ p s ec.1 ec.2 then
      t.startCtx ec.1 ec.2 s.startTau island
    else t) s

/-- The transitions on which autostart contexts and scripts start (R461, R580): rows 12, 13 and 20, and a wake to Run (15,
R608). -/
def State.autostarts (s : State) : Bool :=
  s.hub.row == 12 || s.hub.row == 13 || s.hub.row == 20 || (s.hub.row == 24 && s.hub.mode == .run)

/-- What a change of mode does to the contexts (R455, R461, R462). The state already holds the new mode and its row. -/
def State.ctxModeChange (s : State) (old : Mode) : State :=
  let new := s.hub.mode
  let leave (t : State) (ec : Nat × Nat) : State :=
    let x := t.ctx ec.1 ec.2
    let t := if x.st ≠ .idle ∧ (!ctxMode new ∨ (new = .island ∧ !t.on (R.INF_CTX_CFG_fallback ec.1 ec.2)) ∨
        (old = .island ∧ x.island)) then t.stopCtx ec.1 ec.2 else t
    if x.island ∧ new ≠ .island then t.setCtx ec.1 ec.2 { t.ctx ec.1 ec.2 with island := false } else t
  let s := s.ctxList.foldl leave s
  let s := if new = .island then s.startWhere (fun t e c => t.on (R.INF_CTX_CFG_fallback e c)) true else s
  if s.autostarts then s.startWhere (fun t e c => t.on (R.INF_CTX_CFG_autostart e c)) false
  else s

/-- Engine quad `q` is gated: running contexts become SUSPENDED (R464). An instruction that waits for reason 4 to 8 is issued again after
the ungating (log entry 48). -/
def State.suspendQuad (s : State) (q : Nat) : State :=
  s.ctxList.foldl (fun (t : State) ec =>
    let (e, c) := ec
    if e / 4 = q ∧ (t.ctx e c).runs then
      let t := (t.dropPre e c).dropGrid e c
      let x := t.ctx e c
      let pc := match x.grid with
        | some g => g.pc
        | none => x.pc
      t.setCtx e c { x with st := .suspended, wait := 0, grid := none, cur := none, slot := none, pc := pc }
    else t) s

/-- Engine quad `q` is ungated (R464). -/
def State.resumeQuad (s : State) (q : Nat) : State :=
  s.ctxList.foldl (fun (t : State) ec =>
    let (e, c) := ec
    if e / 4 = q ∧ (t.ctx e c).st = .suspended then (t.setCtx e c { t.ctx e c with tau := s.startTau }).ready e c else t) s

/-! ### The time grid (R475-R482) -/

/-- The release deadline of a planned time (R476). -/
def deadline (t : Word) : Word := t - BitVec.ofNat 64 (t.toNat % 2) - 4

/-- The release window of `t` is open (R476). -/
def State.windowOpen (s : State) (t : Word) : Bool := decide (0 ≤ tdiff s.now (deadline t - 16))

/-- When an action planned for `t` takes effect if it is released now: the time, and its lateness (R478). -/
def State.reach (s : State) (t : Word) : Word × Option Nat :=
  if tdiff s.now (deadline t) ≤ 0 then (t, none)
  else
    let r := s.now + 4
    let eff := r + BitVec.ofNat 64 (r.toNat % 2) + BitVec.ofNat 64 (t.toNat % 2)
    (eff, some (tdiff eff t).toNat)

/-- Record the slack of an action (R479, R594). `early`: it was issued before its window opened. -/
def State.noteSlack (s : State) (e c : Nat) (t : Word) (early : Bool) : State :=
  let v : Int := if early then 16 else tdiff (deadline t) s.now
  let s := if v < s.rdInt (R.INF_CTX_SLACK_min_slack e c) then s.wrIntSat (R.INF_CTX_SLACK_min_slack e c) v else s
  { s with power := { s.power with slack := min s.power.slack v } }

/-- A late action is counted and reported (R478). -/
def State.noteLate (s : State) (e c l : Nat) : State :=
  let s := ((s.bump (R.INF_CTX_SLACK_late e c)).pmcEv 6 6 e engAttrs).raise (0x110 + e) (c * 2 ^ 16 + min l 65535)
  { s with power := { s.power with missed := true } }

/-- The lateness exceeds the late window of the context. -/
def State.tooLate (s : State) (e c l : Nat) : Bool := decide (s.rd (R.INF_CTX_CFG_late_window e c) < l)

/-- The pin-drive arbiter (R473, R474): an action of context `c` on pin `g` at time `t`. -/
def State.pinAction (s : State) (e c g : Nat) (d : Drive) (t : Word) (isOut : Bool) : State :=
  if s.groupGated (groupOfPin g) then s
  else
    let tick := t.toNat / 2
    let p := s.pin g
    let act (u : State) : State := (u.setPin g { u.pin g with acted := some (tick, 16 * e + c, isOut) }).drivePin g d
    let lost (u : State) (winner loser : Nat) : State :=
      ((((((u.bump (R.INF_CONF_count e)).wr (R.INF_CONF_loser e) loser).wr (R.INF_CONF_winner e) winner).wr
        (R.INF_CONF_pin e) g)).pmcEv 6 7 e engAttrs).raise (0x130 + e) (loser * 2 ^ 20 + winner * 2 ^ 16 + g)
    match p.acted with
    | some (k, ec, o) =>
      if k = tick ∧ ec / 16 = e ∧ (ec % 16, o) ≠ (c, isOut) then
        if c < ec % 16 ∨ (c = ec % 16 ∧ isOut) then lost (act s) c (ec % 16) else lost s (ec % 16) c
      else act s
    | none => act s

/-- The least bit period that a pin admits (R484). -/
def State.leastBit (s : State) (g : Nat) : Nat :=
  match s.pinMode g with
  | 1 => 1000 + 1000 * s.rd (R.BAY_PIN_filter g)
  | 2 => 1000 + 1000 * s.rd (R.BAY_PIN_filter g)
  | 3 => if s.on (R.BAY_PIN_slow g) then 5000 else 2000
  | 4 => 20
  | 5 => 20
  | 6 => 50
  | 7 => 125
  | 8 => 4340
  | _ => 0

/-- Pins of a shift configuration. -/
structure ShiftCfg where
  first : Nat
  w : Nat
  order : Bool
  clkMode : Nat
  clkSlot : Nat
  sample : Nat
  deriving DecidableEq, Repr

/-- The shift configuration of a context (R483). -/
def State.shiftCfg (s : State) (e c : Nat) (inLane : Bool) : ShiftCfg :=
  { first := if inLane then s.rd (R.INF_CTX_SHIFT_in_slot e c) else s.rd (R.INF_CTX_SHIFT_out_slot e c),
    w := 2 ^ s.rd (R.INF_CTX_SHIFT_width e c), order := s.on (R.INF_CTX_SHIFT_order e c),
    clkMode := s.rd (R.INF_CTX_SHIFT_clk_mode e c), clkSlot := s.rd (R.INF_CTX_SHIFT_clk_slot e c),
    sample := s.rd (R.INF_CTX_SHIFT_sample e c) }

/-- The fault of a shift at its release: PIN_DENIED or OPERAND for its data slots (R466, R500), BIT_TIMER (R484). -/
def State.shiftFault (s : State) (e c : Nat) (inLane : Bool) : Option Nat :=
  let k := s.shiftCfg e c inLane
  let b := s.rd (R.INF_CTX_REGS_bit_timer e c)
  let slots := (List.range k.w).map (k.first + ·)
  let pins := slots.filterMap (fun i => if inLane then s.slotRead e c i else s.slotDrive e c i)
  let clock := if k.clkMode = 0 then [] else (s.slotDrive e c k.clkSlot).toList
  if pins.length < k.w then some (if inLane then 11 else 6)
  else if (pins ++ clock).any (fun g => decide (b < s.leastBit g)) ∨ b ≤ k.sample then some 5
  else none

/-- Release a shift (R487, R488): it is latched, and starts at `eff` or follows the lane's current shift. -/
def State.releaseShift (s : State) (e c : Nat) (op : GridOp) (inLane : Bool) (n : Nat) (adv : Bool) (stuff : Nat)
    (cont : Bool) (eff : Word) : State :=
  let x := s.ctx e c
  let k := s.shiftCfg e c inLane
  let b := s.rd (R.INF_CTX_REGS_bit_timer e c)
  let data := if inLane then [] else takeBits x.outSh x.outCnt (n * k.w) k.order
  let run0 : StuffRun := if cont then x.outLane.run else {}
  let (line, run1) := if stuff = 0 then (data, run0) else stuffLine stuff run0 data
  let sh : Shift := { planned := op.t, t := eff, pc := op.pc, b := b, n := n, w := k.w, order := k.order, sample := k.sample,
                      clkMode := k.clkMode, clkSlot := k.clkSlot, slot := k.first, stuff := stuff, cont := cont, adv := adv,
                      bits := line }
  let late := inLane && adv && stuff != 0
  let periods := if inLane then n else line.length / k.w
  let x := { x with tau := if adv && !late then op.t + BitVec.ofNat 64 (periods * b) else op.t, tauDue := x.tauDue || late }
  let place (l : Lane) : Lane := if l.cur.isSome then { l with queued := some sh } else l.begin_ sh eff inLane
  let x := if inLane then { x with inLane := place x.inLane }
    else { x with outSh := leaveBits x.outSh x.outCnt (n * k.w) k.order, outCnt := x.outCnt - n * k.w,
                  outLane := place { x.outLane with run := run1 } }
  s.setCtx e c x

/-- The lane of a SHO or SHI is busy, so that its lateness is judged when the lane comes to it (R488). -/
def Ctx.busyFor (x : Ctx) (inLane : Bool) : Bool := if inLane then x.inLane.cur.isSome else x.outLane.cur.isSome

/-- The drives of an OUT: its slots with their drive state, or none where a slot may not be driven (R513). -/
def State.outDrives (s : State) (e c : Nat) (bank rel : Bool) (mask value : Nat) : Option (List (Nat × Drive)) :=
  ((List.range 8).filter (bitAt mask)).mapM (fun j =>
    (s.slotDrive e c (8 * bit01 bank + j)).map (fun g => (g, if rel then .released else if bitAt value j then .high else .low)))

/-- The grid releases an issued grid instruction (R476-R479, R484, R487). -/
def State.releaseGrid (s : State) (e c : Nat) (op : GridOp) (early : Bool) : State :=
  let s := s.setCtx e c { s.ctx e c with grid := none }
  match decodeInsn op.instr with
  | some (.out bank rel mask value _) =>
    let (eff, l) := if early then (op.t, none) else s.reach op.t
    let s := s.noteSlack e c op.t early
    let s : State := match l with
      | some l => s.noteLate e c l
      | none => s
    if s.tooLate e c (l.getD 0) then s.faultCtx e c 1 op.pc
    else
      let drives := (s.outDrives e c bank rel mask value).getD []
      let x := s.ctx e c
      (s.setCtx e c { x with tau := op.t, acts := x.acts ++ [{ t := eff, drives := drives, sample := none }] }).ready e c
  | some (.inp first nm1 _) =>
    let (eff, l) := if early then (op.t, none) else s.reach op.t
    let s := s.noteSlack e c op.t early
    let s : State := match l with
      | some l => s.noteLate e c l
      | none => s
    if s.tooLate e c (l.getD 0) then s.faultCtx e c 1 op.pc
    else
      let x := s.ctx e c
      (s.setCtx e c { x with tau := op.t, acts := x.acts ++ [{ t := eff, drives := [], sample := some (first, nm1 + 1) }] }).enterWait e c 2
  | some (.shift inLane nm1 adv stuff cont _) =>
    let (eff, l) := if early then (op.t, none) else s.reach op.t
    let s := s.noteSlack e c op.t early
    let l := if (s.ctx e c).busyFor inLane then none else l
    let s : State := match l with
      | some l => s.noteLate e c l
      | none => s
    if s.tooLate e c (l.getD 0) then s.faultCtx e c 1 op.pc
    else
      match s.shiftFault e c inLane with
      | some cause => s.faultCtx e c cause op.pc
      | none => (s.releaseShift e c op inLane (nm1 + 1) adv stuff cont eff).ready e c
  | _ => (s.setCtx e c { s.ctx e c with tau := op.t }).ready e c

/-- The grid releases the instruction that waits for its window (R476); one whose deadline a step of the counter has passed is late
(R394, R478). -/
def State.gridRelease (s : State) (e c : Nat) : State :=
  let x := s.ctx e c
  match x.grid with
  | none => s
  | some op =>
    if x.st = .waiting ∧ x.wait = 1 ∧ s.windowOpen op.t then
      (s.retireHeld e c op.pc).releaseGrid e c op (decide (tdiff s.now (deadline op.t) ≤ 0))
    else s

/-! ### Issue -/

/-- What an instruction makes of its context: go on, skip the next instruction, jump, wait with a reason, fault, halt, a grid
instruction with its planned time, or a watch for a pin event. -/
inductive IRes where
  | next | skip | jump (target : Nat) | stay (reason : Nat) | fault (cause : Nat) | halt | grid (t : Word) | watch
  deriving DecidableEq, Repr

/-- Complete the issue of word `w` with its result (R475, R476, R489, R506). -/
def State.finish (s : State) (e c : Nat) (w : BitVec 32) (r : IRes) : State :=
  let pc := (s.ctx e c).pc
  let clear (t : State) : State := t.setCtx e c { t.ctx e c with cur := none, stampWord := none }
  let go (t : State) : State := (clear t).retire e c pc
  match r with
  | .next => ((go s).advance e c).ready e c
  | .skip => (((go s).advance e c).advance e c).ready e c
  | .jump target =>
    if s.inRegion e c target then
      let s := (go s).dropPre e c
      (s.setCtx e c { s.ctx e c with pc := target }).ready e c
    else s.faultCtx e c 2 pc
  | .stay reason => (s.setCtx e c { s.ctx e c with cur := some w }).enterWait e c reason
  | .fault cause => s.faultCtx e c cause pc
  | .halt => (go s).stopCtx e c
  | .grid t =>
    let op : GridOp := ⟨w, pc, t⟩
    if s.windowOpen t then ((go s).advance e c).releaseGrid e c op false
    else
      let s := ((clear s).issueHeld e c pc).advance e c
      (s.setCtx e c { s.ctx e c with grid := some op }).enterWait e c 1
  | .watch =>
    let s := ((clear s).issueHeld e c pc).advance e c
    (s.setCtx e c { s.ctx e c with grid := some ⟨w, pc, (s.ctx e c).tau⟩ }).enterWait e c 3

/-- Opcodes of the grid instructions (R475). -/
def Insn.onGrid : Insn → Bool
  | .wait .. => true
  | .out .. => true
  | .inp .. => true
  | .shift .. => true
  | .wpin .. => true
  | .at_ .. => true
  | _ => false

/-- The instruction word that a RUNNING context issues next: the word it has fetched for its pc (R493). -/
def State.wordAt (s : State) (e c : Nat) : Option (BitVec 32) :=
  let x := s.ctx e c
  match x.st, x.pre with
  | .running, some (i, w) => if i = x.pc / 2 then some (BitVec.ofNat 32 (fget w (32 * (x.pc % 2)) 32)) else none
  | _, _ => none

/-- Context `c` of engine `e` issues its next instruction, if that is one of opcode `opcode` that `f` takes. A context whose turn it is
not issues none (R467); a pc outside the region, an uncorrectable word and a reserved encoding fault (R466, R504). -/
def State.issueAs (s : State) (e c opcode : Nat) (f : Insn → State → Option (State × IRes)) : State :=
  let x := s.ctx e c
  if s.nextTurn e ≠ some c then s
  else if !s.inRegion e c x.pc then (s.faultCtx e c 2 x.pc).turned e c
  else
    match s.wordAt e c with
    | none => s
    | some w =>
      if nbits w.toNat 28 4 ≠ opcode then s
      else if s.eccOf .prog (512 * e + x.pc / 2) = .bad then (s.faultCtx e c 4 x.pc).turned e c
      else
        match decodeInsn w with
        | none => (s.faultCtx e c 3 x.pc).turned e c
        | some i =>
          match f i s with
          | none => s
          | some (t, r) => (if i.onGrid ∧ x.tauDue then s.finish e c w (.stay 4) else t.finish e c w r).turned e c

end Sys2Proof.Machine
end

