-- ==== Sys2Proof/Machine/Fifos.lean ====
section
/-!
DEFINITION. The bay FIFO as an operation on its own: push, pop, flush and release (R425-R440, R699). What happens to the
counters and who is told stands in Machine/Bays.lean.
-/

namespace Sys2Proof.Machine

/-- Places of a bay FIFO (R425). -/
def fifoPlaces : Nat := 64

/-- The words of the packet at the head, up to and including its EOP. -/
def headPacket : List FWord → List FWord
  | [] => []
  | w :: rest => if w.eop then [w] else w :: headPacket rest

/-- Whether R430 or R431 releases the packet at the head with cut-through threshold `ct`. -/
def releaseNow (ct : Nat) (ws : List FWord) : Bool :=
  let p := headPacket ws
  p.any (·.eop) || (ct != 0 && ct ≤ p.length) || p.length == fifoPlaces

/-- Note a release. A packet stays released once it is (R430). -/
def Fifo.note (f : Fifo) (ct : Nat) : Fifo := { f with released := f.released || releaseNow ct f.words }

/-- A released word is at the head. -/
def Fifo.ready (f : Fifo) : Bool := f.released && !f.words.isEmpty

/-- The marker word of R428: data 0, tags EOP and ERR. -/
def errMarker : FWord := { data := 0, eop := true, err := true }

/-- The marker word of R436: data 0, tags EOP and FLUSHED. -/
def flushMarker : FWord := { data := 0, eop := true, flushed := true }

/-- What became of a push: stored, stored behind a marker, discarded as an orphan (R429) or as the rest of a packet that was delivered
in error (R440), or not done for want of room. -/
inductive Pushed where
  | stored | marked | orphan | rest | full
  deriving DecidableEq, Repr

/-- Places that a push needs (R428, R699); 0 for an orphan. -/
def Fifo.placesFor (f : Fifo) (sop : Bool) : Nat :=
  if sop then (if f.opened && !f.skipPush then 2 else 1) else if f.opened && !f.skipPush then 1 else 0

/-- Push a word (R427-R429, R434, R699). An orphan is judged before the fill. ERR carries EOP with it (R427). -/
def Fifo.push (f : Fifo) (ct : Nat) (w : FWord) : Fifo × Pushed :=
  let w := { w with eop := w.eop || w.err }
  let need := f.placesFor w.sop
  if need = 0 then
    (if f.skipPush && w.eop then { f with skipPush := false, opened := false } else f, if f.skipPush then .rest else .orphan)
  else if fifoPlaces < f.words.length + need then (f, .full)
  else
    let body := if need = 2 then [errMarker, w] else [w]
    (({ f with words := f.words ++ body, opened := !w.eop, skipPush := false }).note ct, if need = 2 then .marked else .stored)

/-- The tags of a word as bits: SOP, EOP, ERR, FLUSHED in bits 0 to 3 (R425). -/
def FWord.tags (w : FWord) : BitVec 4 :=
  BitVec.ofNat 4 (bit01 w.sop + 2 * bit01 w.eop + 4 * bit01 w.err + 8 * bit01 w.flushed)

/-- A word as it is delivered (R440). -/
def FWord.delivered (w : FWord) : FWord :=
  if w.tagEcc = .bad then { w with sop := false, eop := true, err := true, flushed := false }
  else if w.dataEcc = .bad then { w with eop := true, err := true }
  else w

/-- Drop words up to and including the next stored EOP, and before any stored SOP; also how many, and whether an end was
found (R440). -/
def dropRest : List FWord → List FWord × Nat × Bool
  | [] => ([], 0, false)
  | w :: rest =>
    if w.sop then (w :: rest, 0, true)
    else if w.eop then (rest, 1, true)
    else
      let (r, n, e) := dropRest rest
      (r, n + 1, e)

/-- Remove the word at the head: the FIFO after, the word as delivered, and the words discarded behind it (R433, R440). -/
def Fifo.pop (f : Fifo) (ct : Nat) : Option (Fifo × FWord × Nat) :=
  match f.ready, f.words with
  | true, w :: rest =>
    let d := w.delivered
    let g := { f with taken := if d.eop then false else (f.taken || d.sop), released := f.released && !d.eop }
    let bad := w.tagEcc = .bad || (w.dataEcc = .bad && !w.eop)
    if bad then
      let (rest', n, ended) := dropRest rest
      some (({ g with words := rest', skipPush := !ended && f.opened }).note ct, d, n)
    else some (({ g with words := rest }).note ct, d, 0)
  | _, _ => none

/-- Empty the FIFO (R435-R437). -/
def Fifo.flush (f : Fifo) (ct : Nat) : Fifo :=
  ({ f with words := if f.taken then [flushMarker] else [], opened := false, released := false, skipPush := false }).note ct

/-- Both FIFOs of a bay at the start of a Steep (R438). -/
def Fifo.clear (_ : Fifo) : Fifo := {}

/-- Words tagged EOP in the FIFO. -/
def Fifo.packets (f : Fifo) : Nat := (f.words.filter (·.eop)).length

end Sys2Proof.Machine
end

