-- ==== Sys2Proof/Machine/Sieve.lean ====
section
/-!
DEFINITION. The Sieve: running an ingress port's program over a frame (R316-R323).
-/

namespace Sys2Proof.Machine

/-- The limits of a CLAIM (R319), and those of all the CLAIMs executed: a record must meet each of them. -/
def claimMeet (a : Option Claim) (b : Claim) : Option Claim :=
  match a with
  | none => some b
  | some a => some ⟨a.masters &&& b.masters, a.supervisor && b.supervisor, a.operator && b.operator⟩

/-- How a program ended. -/
inductive SieveEnd where
  | pass
  | drop (reason : Nat)
  | fault (cause pc : Nat)
  deriving DecidableEq, Repr

/-- The verdict: how it ended, and what the executed instructions set. -/
structure Verdict where
  ending : SieveEnd := .pass
  cls : Option Nat := none
  mirror : Bool := false
  reseq : Bool := false
  claim : Option Claim := none
  routeClear : Bool := false
  routeAdd : Nat := 0
  hits : List Nat := []
  deriving DecidableEq, Repr

/-- The words that LD reads (R320): `metadata` is word 8. -/
def sieveWord (f : Frame) (metadata : Nat) (src : Nat) : Word :=
  match src with
  | 0 => f.w0
  | 1 => f.w1
  | 2 => f.w2
  | 3 => f.w3
  | 8 => BitVec.ofNat 64 metadata
  | n => if n < 8 then bytesWord (slice (f.payload.take f.length) (8 * (n - 4)) 8) else 0

/-- Run from instruction `pc`, with `n` instructions left of the budget of R317. -/
def sieveRun (prog : Nat → Word) (f : Frame) (metadata : Nat) : Nat → Nat → Nat → Verdict → Verdict
  | 0, pc, _, v => { v with ending := .fault 2 pc }
  | n + 1, pc, acc, v =>
    let w := prog pc
    let jump (c : Bool) : Verdict := sieveRun prog f metadata n (if c then pc + 1 + fget w 0 8 else pc + 1) acc v
    let masked := acc &&& fget w 32 16
    let value := fget w 16 16
    match fget w 60 4 with
    | 1 => sieveRun prog f metadata n (pc + 1)
        (fget (sieveWord f metadata (fget w 56 4) >>> fget w 50 6) 0 16 &&& fget w 32 16) v
    | 2 => jump (masked == value)
    | 3 => jump (masked != value)
    | 4 => jump (decide (masked < value))
    | 5 => jump (decide (value ≤ masked))
    | 6 => jump true
    | 7 => sieveRun prog f metadata n (pc + 1) acc { v with cls := some (fget w 0 3) }
    | 8 => sieveRun prog f metadata n (pc + 1) acc
        { v with
          mirror := v.mirror || fget w 0 1 == 1
          reseq := v.reseq || fget w 1 1 == 1
          hits := if fget w 2 1 = 1 then v.hits ++ [fget w 8 6] else v.hits }
    | 9 => sieveRun prog f metadata n (pc + 1) acc
        { v with claim := claimMeet v.claim ⟨BitVec.ofNat 4 (fget w 0 4), fget w 4 1 == 1, fget w 5 1 == 1⟩ }
    | 10 => sieveRun prog f metadata n (pc + 1) acc
        (if fget w 24 1 = 1 then { v with routeClear := true, routeAdd := fget w 0 24 }
         else { v with routeAdd := v.routeAdd ||| fget w 0 24 })
    | 14 => { v with ending := .pass }
    | 15 => { v with ending := .drop (fget w 0 8) }
    | _ => { v with ending := .fault 1 pc }

/-- The verdict of port `i` on a frame (R316): the default program is a single PASS. -/
def State.sieve (s : State) (i : Nat) (f : Frame) (metadata : Nat) : Verdict :=
  if s.on (R.SIV_ENTRY_default i) then {}
  else sieveRun (fun pc => s.word (R.SIV_PROG (pc % 1024))) f metadata 32 (s.rd (R.SIV_ENTRY_entry i)) 0 {}

/-- The counts and records that a verdict leaves (R317, R319, R323). -/
def State.recordVerdict (s : State) (i : Nat) (v : Verdict) : State :=
  let s := v.hits.foldl (fun t h => t.bump (R.SIV_HIT_count h)) s
  match v.ending with
  | .pass => s
  | .drop reason => (s.wr R.SIV_LAST_port i).wr R.SIV_LAST_reason reason
  | .fault cause pc =>
    ((((s.bump R.SIV_FAULT_count).wr R.SIV_FAULT_port i).wr R.SIV_FAULT_cause cause).wr R.SIV_FAULT_pc pc).raise 0x034
      (i * 2 ^ 24 + pc % 1024)

end Sys2Proof.Machine
end

