-- ==== Sys2Proof/Machine/Switch.lean ====
section
/-!
DEFINITION. The switch core and the Caddy: ports and rings, admission, queues, the resequencer, choosing outputs, starting
and closing a frame at an output, and originating a frame (R216, R231-R235, R259, R260, R273-R310, R374, R389).
-/

namespace Sys2Proof.Machine

/-! ### Ports and rings -/

/-- Port function of R271: 0 off, 1 ring or sub-ring, 2 tap, 3 analysis. -/
def State.portFunction (s : State) (p : Nat) : Nat := if p < 2 then 1 else s.rd (R.RING_PORT_function p)

/-- A ring or sub-ring port (R277). -/
def State.ringPort (s : State) (p : Nat) : Bool := p < 4 && s.portPresent p && s.portFunction p == 1

/-- Both spur ports are in sub-ring function: they are the East and West ports of a sub-ring (R258). -/
def State.hasSub (s : State) : Bool := s.ringPort 2 && s.ringPort 3

/-- The hub is a coupler: it joins a sub-ring, and its coupler role is not 0 (R259, R270). -/
def State.isCoupler (s : State) : Bool := s.hasSub && s.on R.RING_CPL_role

/-- Ring number of a ring port. -/
def State.ringOf (s : State) (p : Nat) : Nat := if p < 2 then s.rd R.RING_CFG_ring else s.rd R.RING_CFG_sub_ring

/-- The hub's own node number on the ring of a ring port; 0 while it has none (R162, R245). -/
def State.nodeOf (s : State) (p : Nat) : Nat := if p < 2 then s.hub.node else s.rd R.RING_NODE_sub_node

/-- Ring length that enumeration has set (R232). -/
def State.ringLen (s : State) (p : Nat) : Nat := if p < 2 then s.rd R.RING_STATUS_ring_len else s.rd R.RING_STATUS_sub_len

/-- The other port of the same ring. -/
def opposite (p : Nat) : Nat :=
  match p with
  | 0 => 1
  | 1 => 0
  | 2 => 3
  | _ => 2

/-- The switch core is in service (R15): not in Boot, Hibernate or the reboot window, and not while the hub is in reset. -/
def State.coreUp (s : State) : Bool :=
  !s.hub.held && !s.hub.rstLow &&
  (match s.hub.mode with
    | .boot => false
    | .hibernate => false
    | .update => !s.hub.window
    | _ => true)

/-- An output that is down (R302). -/
def State.portDown (s : State) (p : Nat) : Bool :=
  if p < 4 then !s.on (R.RING_PORT_up p)
  else if 10 ≤ p ∧ p ≤ 21 then s.groupGated ((p - 10) / 3)
  else false

/-- An output of the core. -/
def State.outp (s : State) (p : Nat) : Outp := mget {} s.switch.outputs p

def State.setOutp (s : State) (p : Nat) (o : Outp) : State :=
  { s with switch := { s.switch with outputs := mput {} s.switch.outputs p o } }

/-- Count a drop of cause `c` at port `p` (R324). -/
def State.countDrop (s : State) (p c : Nat) : State := (s.bump (R.SWC_DROP_count (16 * p + c))).pmcEv 3 3 p

/-! ### Leaves (R281, R284, R285) -/

/-- Leaves in use. -/
def State.leavesUsed (s : State) : List Nat :=
  s.switch.frames.foldl (fun l f => l ++ f.leaves) s.switch.leaked

/-- Leaves on the free list. -/
def State.leavesFree (s : State) : Nat :=
  16384 - (s.switch.frames.foldl (fun n f => n + f.leaves.length) s.switch.leaked.length)

/-- The first leaf not in `used` from `k` on, wrapping; the first argument bounds the search. -/
def firstFree : Nat → List Nat → Nat → Nat
  | 0, _, k => k % 16384
  | n + 1, used, k => if used.contains (k % 16384) then firstFree n used (k + 1) else k % 16384

/-- `n` free leaves. Which ones the free list gives is a free value. -/
def pickLeaves : Nat → List Nat → Nat → List Nat
  | 0, _, _ => []
  | n + 1, used, seed =>
    let l := firstFree 16384 used (Config.freeNat seed % 16384)
    l :: pickLeaves n (l :: used) (seed + 1)

/-- Free leaves that no reserve holds: F of R285 (R286). -/
def State.freeShared (s : State) : Nat :=
  s.leavesFree - ((List.range 24).foldl (fun n p => n + (s.rd (R.SWC_ADMIT_reserve p) - (s.outp p).resUsed)) 0)

/-- The unclamped threshold alpha × F ÷ 16, and T of R285, for `free` leaves that no reserve holds. -/
def State.rawThresholdOf (s : State) (free p : Nat) : Nat := s.rd (R.SWC_ADMIT_alpha p) * free / 16

def State.thresholdOf (s : State) (free p : Nat) : Nat :=
  max (s.rd (R.SWC_ADMIT_lo p)) (min (s.rawThresholdOf free p) (s.rd (R.SWC_ADMIT_hi p)))

/-- They stand now. -/
def State.rawThreshold (s : State) (p : Nat) : Nat := s.rawThresholdOf s.freeShared p
def State.threshold (s : State) (p : Nat) : Nat := s.thresholdOf s.freeShared p

/-- Whether the condition of R287 lasts at output `p`: T is clamped at hi, which alpha × F ÷ 16 exceeds. -/
def State.riskLasts (s : State) (p : Nat) : Bool := decide (s.rd (R.SWC_ADMIT_hi p) < s.rawThreshold p)

/-- Bring CAD_RISK.at_risk of output `p` up to date. -/
def State.checkRisk (s : State) (p : Nat) : State :=
  if s.bitOn R.CAD_RISK_at_risk p ∧ !s.riskLasts p then
    (s.wrBit R.CAD_RISK_at_risk p false).setOutp p { s.outp p with riskSince := none }
  else s

/-- Every output at risk follows a change of the free leaves. -/
def State.checkRisks (s : State) : State :=
  if s.rd R.CAD_RISK_at_risk = 0 then s else (List.range 24).foldl State.checkRisk s

/-- Admission of a frame of `n` leaves in class `cls` at output `p` (R285-R287), with F leaves `free`: none when it is dropped, else
whether it is charged to the reserve. -/
def State.admitsOf (s : State) (free p cls n : Nat) : Option Bool :=
  if 6 ≤ cls ∧ (s.outp p).resUsed + n ≤ s.rd (R.SWC_ADMIT_reserve p) then some true
  else if (s.outp p).shUsed + n ≤ s.thresholdOf free p ∧ n ≤ free then some false
  else none

/-- Admission of a frame that would arrive now. -/
def State.admits (s : State) (p cls n : Nat) : Option Bool := s.admitsOf s.freeShared p cls n

/-- Charge a frame of `n` leaves to output `p`. -/
def State.charge (s : State) (p n : Nat) (reserve : Bool) : State :=
  let o := s.outp p
  let o := if reserve then { o with resUsed := o.resUsed + n } else { o with shUsed := o.shUsed + n }
  let s := s.setOutp p o
  let u := o.resUsed + o.shUsed
  if s.rd (R.CAD_USED_peak p) < u then s.wr (R.CAD_USED_peak p) u else s

/-- Note the lowest free count (CAD_FREE.low). -/
def State.noteLow (s : State) : State := if s.leavesFree < s.rd R.CAD_FREE_low then s.wr R.CAD_FREE_low s.leavesFree else s

/-! ### The Caddy's memories (R314, R315) -/

/-- The counts and sources of words of the Caddy that read with an error (R314, R315). -/
def State.noteCaddyEcc (s : State) (ws : List Nat) : State :=
  ws.foldl (fun (t : State) i =>
    match t.eccOf .caddy i with
    | .clean => t
    | .corrected => t.bump R.CAD_ECC_corrected
    | .bad => (t.bump R.CAD_ECC_uncorrectable).raise 0x032 (i / 32)) s

/-- The counts and source of a link or reference-count word that reads with an error (R314); a corrected word is stored anew, and so
is one that is freed. -/
def State.noteCaddyWord (s : State) (m : EccMem) (i : Nat) : State :=
  match s.eccOf m i with
  | .clean => s
  | .corrected => (s.bump R.CAD_ECC_corrected).freshEcc m i
  | .bad => ((s.bump R.CAD_ECC_uncorrectable).raise 0x032 i).freshEcc m i

/-- A link or reference-count word that is read while its frame stands: an uncorrectable one stays so (R314). -/
def State.noteCaddyRead (s : State) (m : EccMem) (i : Nat) : State :=
  if s.eccOf m i = .bad then (s.bump R.CAD_ECC_uncorrectable).raise 0x032 i else s.noteCaddyWord m i

/-- The bytes of a frame as the Caddy stores them. -/
def storedBytes (f : Frame) : List Byte := f.header ++ f.payload ++ leBytes 4 f.crc.toNat

/-- The bytes in words; what the last word holds beyond them the manual does not state. -/
def caddyWords (seed : Nat) (bs : List Byte) : List Word :=
  bytesWords ((bs.length + 7) / 8) (bs ++ (List.range ((8 - bs.length % 8) % 8)).map (Config.freeByte seed))

/-- Place of word `i` of a frame in the Caddy. -/
def wordPlace (leaves : List Nat) (i : Nat) : Nat := 32 * leaves.getD (i / 32) 0 + i % 32

/-- Write a frame into its leaves: data words with fresh ECC, and link and reference-count words. -/
def State.writeLeaves (s : State) (leaves : List Nat) (f : Frame) : State :=
  let (k, s) := s.takeFree
  let ws := (caddyWords k (storedBytes f)).take (32 * leaves.length)
  { s with
    switch := { s.switch with mem := ws.zipIdx.foldl (fun m w => mput none m (wordPlace leaves w.2) (some w.1)) s.switch.mem }
    eccMarks := s.eccMarks.filter (fun x =>
      match x.1 with
      | .caddy => !(List.range ws.length).any (fun i => wordPlace leaves i == x.2.1)
      | .caddyLink => !leaves.contains x.2.1
      | .caddyRef => !leaves.contains x.2.1
      | _ => true) }

/-- Positions of the words of a stored frame that carry an ECC mark, with their places. -/
def State.frameMarks (s : State) (f : Stored) : List (Nat × Nat) :=
  ((List.range ((f.frame.size + 7) / 8)).map (fun i => (i, wordPlace f.leaves i))).filter (fun x => s.eccOf .caddy x.2 != .clean)

/-- The number of leaves of a frame that its link words reach: an uncorrectable one cuts off the rest (R314). -/
def State.reached (s : State) (leaves : List Nat) : List Nat :=
  let good := leaves.takeWhile (fun l => s.eccOf .caddyLink l != .bad)
  leaves.take (good.length + 1)

/-! ### Stored frames -/

/-- The stored frame `id`. -/
def State.stored? (s : State) (id : Nat) : Option Stored := s.switch.frames.find? (fun f => f.id == id)

/-- Replace stored frame `f.id`. -/
def State.setStored (s : State) (f : Stored) : State :=
  { s with switch := { s.switch with frames := s.switch.frames.map (fun g => if g.id = f.id then f else g) } }

/-- Frames of a key that the resequencer holds at output `p`, other than `id`. -/
def State.keyHeld (s : State) (k : Key) : List Stored :=
  s.switch.frames.filter (fun f =>
    f.held.any (fun h => h.1 == k.out) && f.frame.srcRing == k.srcRing && f.frame.src == k.src && f.frame.flow == k.flow)

/-- The key that a frame has at output `p` (R307). -/
def Key.is (k : Key) (p : Nat) (f : Frame) : Bool :=
  k.out == p && k.srcRing == f.srcRing && k.src == f.src && k.flow == f.flow

/-- The link words that lead along a frame are read, by an output or as the frame is freed (R314). -/
def State.noteLinks (s : State) (f : Stored) : State :=
  (s.reached f.leaves).foldl (fun (t : State) l => t.noteCaddyRead .caddyLink l) s

/-- Stored frame `f` is freed (R281): what its link words reach of its leaves returns to the free list. Where its reference count
cannot be read none of it does, and the rest is left to the auditor (R312, R314). `read` says that the output that frees it has followed
its link words already. -/
def State.freeFrame (s : State) (f : Stored) (read : Bool) : State :=
  let lost : Bool := match f.leaves with
    | [] => false
    | first :: _ => s.eccOf .caddyRef first == .bad
  let left := if lost then f.leaves else f.leaves.drop (s.reached f.leaves).length
  let s := if lost ∨ read then s else s.noteLinks f
  let s := (f.leaves.head?.map (s.noteCaddyWord .caddyRef)).getD s
  { s with switch := { s.switch with
      frames := s.switch.frames.filter (fun g => g.id != f.id), leaked := s.switch.leaked ++ left } }

/-- A key of the resequencer that held frame `f` at output `p` has lost it: from now on it may hold none (R310). -/
def State.touchKey (s : State) (p : Nat) (f : Stored) : State :=
  if f.held.any (fun h => h.1 == p) then
    { s with switch := { s.switch with keys := s.switch.keys.map (fun k => if k.is p f.frame then { k with idleSince := s.clk } else k) } }
  else s

/-- Output `p` gives up its queue entry of stored frame `id`: its charge is returned, its reference count goes down, and the leaves are
freed when no output holds an entry (R281). `read` says that the output has read the frame. -/
def State.release (s : State) (p id : Nat) (read : Bool := false) : State :=
  match s.stored? id with
  | none => s
  | some f =>
    let n := f.frame.leaves
    let o := s.outp p
    let o := { o with queue := o.queue.filter (· != id) }
    let o := if f.fromReserve.contains p then { o with resUsed := o.resUsed - n } else { o with shUsed := o.shUsed - n }
    let s := s.setOutp p o
    let outs := f.outs.filter (· != p)
    let s := s.touchKey p f
    let s := if outs.isEmpty then s.freeFrame f read
      else ((f.leaves.head?.map (s.noteCaddyRead .caddyRef)).getD s).setStored
        { f with outs := outs, held := f.held.filter (fun h => h.1 != p) }
    s.checkRisks

/-- The frames queued at output `p` are held from now on: they count when they are sent (R303). -/
def State.markWaited (s : State) (p : Nat) : State :=
  { s with switch := { s.switch with frames := s.switch.frames.map (fun f =>
      if f.outs.contains p ∧ !f.waited.contains p then { f with waited := f.waited ++ [p] } else f) } }

/-- The signed 16-bit difference of two sequence numbers. -/
def seqDiff (a b : Nat) : Int := sext 16 ((a + 65536 - b) % 65536)

/-- Insert a frame by ascending seq, relative to `base`. -/
def insertSeq (base : Nat) (f : Stored) : List Stored → List Stored
  | [] => [f]
  | g :: rest => if seqDiff f.frame.seqNo base < seqDiff g.frame.seqNo base then f :: g :: rest else g :: insertSeq base f rest

/-- The time a held frame joined at output `p`. -/
def Stored.joinedAt (f : Stored) (p : Nat) : Nat := ((f.held.find? (fun h => h.1 == p)).map (·.2)).getD 0

/-- The hold of one frame ends: it takes its place at the end of the queue. -/
def State.endHold (s : State) (p : Nat) (f : Stored) : State :=
  let o := s.outp p
  let s := s.setOutp p { o with queue := o.queue.filter (· != f.id) ++ [f.id] }
  match s.stored? f.id with
  | none => s
  | some g => s.setStored { g with held := g.held.filter (fun h => h.1 != p) }

/-- Release the held frame `f` of key `k`, after every held frame of the key whose seq is lower, in ascending order
(R308). -/
def State.reseqRelease (s : State) (k : Key) (f : Stored) : State :=
  let heldOnes := s.keyHeld k
  let lower := (heldOnes.filter (fun g => g.id != f.id && seqDiff g.frame.seqNo f.frame.seqNo < 0)).foldl
    (fun l g => insertSeq f.frame.seqNo g l) []
  let order := lower ++ [f]
  let left := heldOnes.filter (fun g => !(order.any (fun o => o.id == g.id)))
  let ahead := (order.filter (fun g =>
    ((order.dropWhile (fun o => o.id != g.id)).drop 1 ++ left).any (fun o => o.joinedAt k.out < g.joinedAt k.out))).length
  let s := order.foldl (fun t g => t.endHold k.out g) s
  let s := (s.bumpBy (R.SWC_RESEQ_CNT_count 0) ahead).pmcBy 3 6 k.out ahead
  { s with switch := { s.switch with keys := s.switch.keys.map (fun q =>
      if q.out = k.out ∧ q.srcRing = k.srcRing ∧ q.src = k.src ∧ q.flow = k.flow then
        { q with last := some f.frame.seqNo, idleSince := s.clk } else q) } }

/-- Frames held now, over all outputs. -/
def State.reseqHeld (s : State) : Nat := s.switch.frames.foldl (fun n f => n + f.held.length) 0

/-- The (frame, output) held longest. -/
def State.longestHeld (s : State) : Option (Stored × Nat) :=
  s.switch.frames.foldl (fun best f =>
    f.held.foldl (fun best h =>
      match best with
      | none => some (f, h.1)
      | some (g, p) => if h.2 < g.joinedAt p then some (f, h.1) else best) best) none

/-- Hold a frame at output `p`; when 512 are held, the one held longest is released first (R310). -/
def State.holdFrame (s : State) (p : Nat) (f : Stored) : State :=
  let s : State :=
    if 512 ≤ s.reseqHeld then
      match s.longestHeld with
      | none => s
      | some (g, q) =>
        match s.switch.keys.find? (fun k => k.is q g.frame) with
        | none => s
        | some k => (s.reseqRelease k g).bump (R.SWC_RESEQ_CNT_count 2)
    else s
  let f := (s.stored? f.id).getD f
  s.setStored { f with held := f.held ++ [(p, s.clk)] }

/-- A marked frame joins output `p` (R307-R310). -/
def State.reseqJoin (s : State) (p id : Nat) : State :=
  match s.stored? id with
  | none => s
  | some f =>
    let known := s.switch.keys.find? (fun k => k.is p f.frame)
    match known with
    | none =>
      if 64 ≤ s.switch.keys.length then s.bump (R.SWC_RESEQ_CNT_count 2)
      else
        let s : State := { s with switch := { s.switch with
          keys := s.switch.keys ++ [(⟨p, f.frame.srcRing, f.frame.src, f.frame.flow, none, s.clk⟩ : Key)] } }
        State.holdFrame s p f
    | some k =>
      match k.last with
      | some l =>
        if seqDiff f.frame.seqNo l < 0 then s.bump (R.SWC_RESEQ_CNT_count 1) else s.holdFrame p f
      | none => s.holdFrame p f

/-! ### Storing -/

/-- Output `p` is a spur port in tap function (R256). -/
def State.tapPort (s : State) (p : Nat) : Bool := decide (p < 4) && s.portFunction p == 2

/-- Payload bytes that a tap frame takes at most (R256). -/
def tapLimit : Nat := 1464

/-- Admit frame `f` at output `p`, with F leaves `free`: the state after the decision and whether it was admitted, and how charged. A
copy for port 22 is in class 0 and counts as MIRROR (R290, R291). A tap port takes no frame that is too long for it; the drop
counts as ADMIT (R256, log entry 17). -/
def State.admitAt (s : State) (free : Nat) (f : Stored) (p : Nat) : State × Option Bool :=
  if !s.portPresent p then (s, none)
  else if s.portDown p ∧ (s.outp p).holdEnded then (s.countDrop p 5, none)
  else if s.tapPort p ∧ tapLimit < f.frame.length then (s.countDrop p 3, none)
  else
    let cls := if p = 22 then 0 else f.cls
    match s.admitsOf free p cls f.frame.leaves with
    | some r => (s.charge p f.frame.leaves r, some r)
    | none =>
      if p = 22 then (s.countDrop 22 8, none)
      else
        let s := s.countDrop p 3
        if s.rd (R.SWC_ADMIT_hi p) < s.rawThresholdOf free p ∧ !s.bitOn R.CAD_RISK_at_risk p then
          let s := (s.wrBit R.CAD_RISK_at_risk p true).setOutp p { s.outp p with riskSince := some s.clk }
          (s.raise 0x033 (s.rd R.CAD_RISK_at_risk), none)
        else (s, none)

/-- Store a frame for the outputs `outs` (R276, R281, R285), with its id: every output decides by the leaves that were free when the
header came. A frame that is `marked` passes the resequencer (R307). -/
def State.enqueue (s : State) (f : Stored) (outs : List Nat) (marked : Bool) : State × Stored :=
  let f := { f with id := s.switch.nextId, outs := [] }
  let free := s.freeShared
  let (s, f) := outs.foldl (fun (acc : State × Stored) p =>
    let (t, ok) := acc.1.admitAt free acc.2 p
    match ok with
    | none => (t, acc.2)
    | some r => (t, { acc.2 with
        outs := acc.2.outs ++ [p]
        fromReserve := if r then acc.2.fromReserve ++ [p] else acc.2.fromReserve
        waited := if t.portDown p then acc.2.waited ++ [p] else acc.2.waited })) (s, f)
  if f.outs.isEmpty then (s, f)
  else
    let n := f.frame.leaves
    let f := { f with leaves := pickLeaves n s.leavesUsed s.fresh }
    let s : State := { s with
      fresh := s.fresh + n
      switch := { s.switch with frames := s.switch.frames ++ [f], nextId := s.switch.nextId + 1, writer := f.ingress } }
    let s := (s.writeLeaves f.leaves f.frame).checkRisks
    let s : State := f.outs.foldl (fun (t : State) p =>
      let o := t.outp p
      ((t.setOutp p { o with queue := o.queue ++ [f.id] }).pmcEv 3 0 p)) s
    let s := s.noteLow
    let s :=
      if marked ∧ f.frame.dual ∧ s.on R.SWC_CTRL_reseq ∧ s.on R.SWC_RESEQ_window then
        f.outs.foldl (fun t p => t.reseqJoin p f.id) s
      else s
    (s, (s.stored? f.id).getD f)

/-! ### Choosing outputs (R277-R280) -/

/-- The valid flow entry that matches a flow (R278). Only a listed register can be valid, since SWC_FLOW resets to 0. -/
def State.flowEntry (s : State) (flow : Nat) : Option Word :=
  ((s.regs.filter (fun kv => 0x38000 ≤ kv.1 ∧ kv.1 < 0x40000)).find? (fun kv =>
    fget kv.2 39 1 == 1 && fget kv.2 48 16 == flow)).map (·.2)

/-- Bits of a port mask as a list of ports. -/
def maskPorts (m : Nat) : List Nat := (List.range 24).filter (fun p => bitAt m p)

/-- Outputs of delivery (R278). -/
def State.deliverPorts (s : State) (f : Frame) : List Nat :=
  match f.ftype with
  | 1 => [5]
  | 3 => [7]
  | 5 =>
    match s.flowEntry f.flow with
    | some w => maskPorts (s.rd (R.SWC_GROUP_ports (fget w 40 8)))
    | none => []
  | _ => []

/-- R232: the node that received the frame on ring port `i` passes it on round the ring. A node without a number
recognises no frame as its own. -/
def State.forwardsRound (s : State) (f : Frame) (i : Nat) : Bool :=
  let own := s.nodeOf i
  let L := s.ringLen i
  !(f.dstRing == s.ringOf i && own != 0 && f.dst == own) &&
  !(f.srcRing == s.ringOf i && own != 0 && f.src == own) &&
  !(L != 0 && decide (L ≤ f.hops + 2))

/-- R232's third case alone: only the ring length stops the frame here. -/
def State.endsPath (s : State) (f : Frame) (i : Nat) : Bool :=
  s.ringLen i != 0 && decide (s.ringLen i ≤ f.hops + 2) &&
  !(f.dstRing == s.ringOf i && s.nodeOf i != 0 && f.dst == s.nodeOf i) &&
  !(f.srcRing == s.ringOf i && s.nodeOf i != 0 && f.src == s.nodeOf i)

/-- A frame of the hub's own that has come round the ring of port `i` (R231). -/
def State.ownFrame (s : State) (f : Frame) (i : Nat) : Bool :=
  f.srcRing == s.ringOf i && s.nodeOf i != 0 && f.src == s.nodeOf i

/-- R231 apart from the Strainer: the frame is to be delivered to the hub. -/
def State.addressed (s : State) (f : Frame) (i : Nat) : Bool :=
  f.dstRing == s.ringOf i && (f.dst == 0xFF || (s.nodeOf i != 0 && f.dst == s.nodeOf i)) && !s.ownFrame f i

/-- R231 for a PDREQ or PDRESP, which goes over one link only: a hub that has no number yet takes the answer to its own request, in which
its number field is 0 (DEDUCED, log entry 46). -/
def State.takesPeer (s : State) (f : Frame) (i : Nat) : Bool :=
  f.dstRing == s.ringOf i && (f.dst == 0xFF || f.dst == s.nodeOf i) && !s.ownFrame f i

/-- R259 apart from the Strainer: a coupler passes the frame into its other ring. Time frames of the ring profile stay on
their ring (R370, R389). -/
def State.crosses (s : State) (f : Frame) (i : Nat) : Bool :=
  s.isCoupler && f.dual && f.ftype != 3 && f.dstRing != s.ringOf i &&
  f.dstRing == s.ringOf (if i < 2 then 2 else 0)

/-- The ports of the ring that a frame of the hub's own is for (R279). -/
def State.ringPorts (s : State) (f : Frame) : List Nat :=
  if f.dst = 0 then [] else if s.isCoupler ∧ f.dstRing = s.rd R.RING_CFG_sub_ring then [2, 3] else [0, 1]

/-- Outputs of a frame that a unit originates (R279, R233). `tap` is the tap port on which the request it answers came. -/
def State.originPorts (s : State) (f : Frame) (tap : Option Nat) : List Nat :=
  match tap with
  | some p => [p]
  | none => (s.ringPorts f).filter (fun p => !s.portDown p)

/-- What the steps before the Sieve made of a frame: it passed the Strainer, R232 forwards it, R231 delivers it (bits 7 to 5 of the
metadata word of R320), and it is to be delivered, on whatever port it came (R277). -/
structure Way where
  strained : Bool := false
  forwards : Bool := false
  delivers : Bool := false
  wants : Bool := false
  /-- the port by which a frame that port 23 returns had come before -/
  came : Option Nat := none
  deriving DecidableEq, Repr

/-- The metadata word of R320. -/
def State.sieveMeta (s : State) (i : Nat) (w : Way) : Nat :=
  (if i < 4 then s.nodeOf i else 0) * 256 + bit01 w.strained * 128 + bit01 w.forwards * 64 + bit01 w.delivers * 32 + i

/-- What R277 makes of a frame on ingress port `i`. -/
structure Routing where
  outs : List Nat := []
  cls : Nat := 0
  reseq : Bool := false
  mirror : Bool := false
  verdict : Verdict := {}
  deriving DecidableEq, Repr

/-- A time frame that came on port `i` may not leave by ring port `p`: a PDREQ or PDRESP is never forwarded (R370), and a coupler
forwards no SYNC from one of its rings into the other (R389). A frame that the loopback port returns came where it had come before. -/
def State.timeBarred (s : State) (f : Frame) (i p : Nat) : Bool :=
  let msg := f.tinfo / 2 ^ 44
  f.ftype == 3 && s.ringPort p && i < 4 &&
  (msg == 2 || msg == 3 || (msg == 1 && s.isCoupler && s.ringPort i && s.ringOf i != s.ringOf p))

/-- Ports that a ROUTE adds for a frame that came on port `i`. -/
def State.routed (s : State) (f : Frame) (i m : Nat) : List Nat := (maskPorts m).filter (fun p => !s.timeBarred f i p)

/-- The procedure of R277. `out` and `del` are its two sets before the Sieve. The state carries the counts of drops and of the
Sieve. The flow entry that matches W1.flow acts on every frame (R290, R307, R328). -/
def State.route (s : State) (f : Frame) (i : Nat) (out del : List Nat) (w : Way) : State × Option Routing :=
  let v := s.sieve i f (s.sieveMeta i w)
  let s := s.recordVerdict i v
  match v.ending with
  | .drop _ => (s.countDrop i 1, none)
  | .fault _ _ => (s.countDrop i 2, none)
  | .pass =>
    let entry := s.flowEntry f.flow
    let del := if v.routeClear then [] else del
    let del := del ++ (s.routed f (w.came.getD i) v.routeAdd).filter (fun p => !del.contains p)
    let s : State := if f.ftype = 5 ∧ w.wants ∧ del.isEmpty then s.countDrop i 0 else s
    let out := out ++ del.filter (fun p => !out.contains p)
    let flagged (b : Nat) : Bool := (entry.map (fun w => fget w b 1 == 1)).getD false
    let mirror := s.on R.SWC_CTRL_mirror && (v.mirror || s.on (R.SWC_PORT_mirror_in i) || flagged 38)
    let out := if mirror ∧ !out.contains 22 then out ++ [22] else out
    let loops := i == 23 && out.contains 23
    let s : State := if loops then s.countDrop 23 9 else s
    let out := if loops then out.filter (· != 23) else out
    let flowCls := (entry.filter (fun w => fget w 36 1 == 1)).map (fun w => fget w 33 3)
    (s, some
      { outs := out
        cls := (v.cls.orElse (fun _ => flowCls)).getD f.tclass
        reseq := v.reseq || flagged 37
        mirror := mirror
        verdict := v })

/-! ### Read-out -/

/-- The forwarding of a SYNC (R374): `(e − a) + d_in(i)` in units of 2^-16 ns, with d_in in ps. -/
def State.syncGain (s : State) (i : Nat) (start departs : Word) : Word :=
  BitVec.ofInt 64 (((departs - start).toNat : Int) * 65536 +
    ((s.rd (R.TIM_PDELAY_delay i) : Int) + s.rdInt (R.TIM_ASYM_asym i)) * 65536 / 1000)

/-- The frame as output `p` sends it (R229, R279, R288): a frame passed round its ring gains a hop, one that enters a ring
here gets the dir of its port, a tap frame is never dual (R256), a mirror copy and a delivered frame leave as they are. -/
def State.sendForm (s : State) (f : Stored) (p : Nat) : Frame :=
  let g := f.frame
  if s.tapPort p then (g.withDual false).seal
  else if !s.ringPort p then g
  else if f.ingress < 4 ∧ s.ringPort f.ingress ∧ (f.ingress < 2) = (p < 2) then
    let g := g.withHops (g.hops + 1)
    let g := if g.ftype = 3 ∧ g.tinfo / 2 ^ 44 = 1 then g.withCorrection (g.w2 + s.syncGain f.ingress f.start s.now) else g
    g.seal
  else if f.ingress < 4 ∧ s.ringPort f.ingress then (((g.withHops 0).withDir (p % 2 == 1)).withDual true).seal
  else (g.withDir (p % 2 == 1)).seal

/-- A frame closed as poisoned: padded or cut to its length, with the inverse of its CRC-32 (R295-R297). -/
def Frame.poisonClosed (f : Frame) : Frame :=
  let g := { f with payload := slice f.payload 0 f.length }
  { g with crc := ~~~g.crcOf }

/-- Line time of a frame of `bytes` bytes at port `p`, in ns, rounded up (R294): 66-bit blocks with one idle block on an
optical port, at the rate of its receiver's last lock (R218), 8 ns a byte with preamble and gap on 1000BASE-T1, nothing inside the hub. -/
def State.lineTime (s : State) (p bytes : Nat) : Nat :=
  if 4 ≤ p then 0
  else if p < 2 ∧ s.optical then
    let blocks := 3 + (bytes - 7) / 8
    if (mget {} s.ring.links p).lastRate = 2 then (blocks * 64 + 9) / 10 else (blocks * 256 + 99) / 100
  else (bytes + 16) * 8

/-- The MAC addresses and the EtherType of a tap or mirrored frame (R256, R257). The destination of a port that has received no frame is 0
(DESIGN CHOICE, log entry 46). -/
def State.tapEther (s : State) (p : Nat) : Option (BitVec 48 × BitVec 48 × BitVec 16) :=
  if (p = 2 ∨ p = 3) ∧ (s.portFunction p = 2 ∨ s.portFunction p = 3) then
    some ((mget {} s.ring.links p).mac, BitVec.ofNat 48 (0x025A57000000 + s.hub.node),
      BitVec.ofNat 16 (s.rd R.RING_CFG_tap_ethertype))
  else none

/-- Put a frame on the line of port `p`: it is the frame last sent, and the transmitter is busy for its line time. -/
def State.putLine (s : State) (p : Nat) (g : Frame) (poisoned : Bool) : State :=
  let s := s.setOutp p { s.outp p with
    lastSent := some ⟨g, poisoned, s.tapEther p⟩, busyUntil := s.clk + s.lineTime p g.size, sending := decide (p < 4) }
  (s.pmcEv 3 1 p).pmcBy 3 5 p g.size

/-- Send a frame at port `p`; a port with mirror_out copies it to port 22 as sent (R290). The copy of a frame that was closed as
poisoned is dropped and counted (R291). -/
def State.transmit (s : State) (p : Nat) (g : Frame) (poisoned : Bool) : State :=
  let s := s.putLine p g poisoned
  if p != 22 ∧ s.on R.SWC_CTRL_mirror ∧ s.on (R.SWC_PORT_mirror_out p) then
    if poisoned then s.countDrop 22 8 else (s.enqueue { id := 0, frame := g, ingress := p, cls := 0 } [22] false).1
  else s

/-! ### The pour guard (R300, R301, R355) -/

/-- Cycle time of a stream in ns (R330). -/
def State.cycleNs (s : State) (st : Nat) : Nat := s.rd (R.CYC_CYCLE_units st) * 31250

/-- The next openings of guard intervals at output `p`, as plant times in ns, with the predicted frames: a pour frame that arrives on
the opposite port leaves by `p` (R300). -/
def State.guardOpenings (s : State) (p : Nat) : List (Nat × Nat) :=
  (s.cyc.arrivals.filter (fun kv => kv.1 / 64 % 2 = opposite p)).filterMap (fun kv =>
    match kv.2 with
    | none => none
    | some (_, t) => some (t.toNat + s.cycleNs (kv.1 / 128) - s.rd R.SWC_GUARD_lead, kv.1))

/-- Output `p` holds a frame of class `cls` and line time `ns` back for a pour guard (R301). -/
def State.guardBlocks (s : State) (p cls ns : Nat) : Bool :=
  p < 2 && s.bitOn R.SWC_GUARD_enable p && decide (cls ≤ 5) &&
  ((s.outp p).guards.any (fun g => decide (g.1 ≤ s.clk)) ||
    (s.guardOpenings p).any (fun t => decide (s.now.toNat < t.1 ∧ t.1 < s.now.toNat + ns)))

/-- The frame in the buffer of launch slot `i` (R398). -/
def State.launchFrame (s : State) (i : Nat) : Frame :=
  let w (k : Nat) : Word := s.word (R.TIM_LAUNCH_BUF (32 * i + k))
  let f : Frame := { w0 := w 0, w1 := w 1, w2 := w 2 &&& 0, w3 := w 3, payload := [], crc := 0 }
  let bytes := (List.range 28).flatMap (fun k => wordBytes (w (4 + k)))
  { f with payload := bytes.take f.length }

/-- Where the launch frame of slot `i` will be queued, and in which class (R398, R399). -/
def State.launchRouting (s : State) (i : Nat) : Routing :=
  let f := s.launchFrame i
  ((s.route f 7 (s.ringPorts f) (if f.dst = 0 then s.deliverPorts f else []) { wants := f.dst == 0 }).2).getD {}

/-- Output `p` holds a frame of class `cls` and line time `ns` back for a timed launch of higher class (R399). -/
def State.launchBlocks (s : State) (p cls ns : Nat) : Bool :=
  (s.time.launches.any (fun kv =>
    match kv.2 with
    | none => false
    | some due =>
      let r := s.launchRouting kv.1
      let lead := 2000 + s.lineTime p 2084
      r.outs.contains p && decide (cls < r.cls) &&
      decide (due.toNat ≤ s.now.toNat + lead ∧ due.toNat < s.now.toNat + ns ∧ s.now.toNat < due.toNat))) ||
  (s.switch.frames.any (fun f =>
    match f.launch with
    | none => false
    | some (_, due) =>
      f.outs.contains p && decide (cls < f.cls) && decide (due.toNat < s.now.toNat + ns ∧ s.now.toNat < due.toNat)))

/-! ### Originating a frame -/

/-- The hub originates no frame on a ring for 10 ms after it restarted its sequence counters (R234). -/
def State.ringQuietUntil (s : State) : Nat := s.ring.restartAt + 10000000

/-- The next sequence number of a ring, and the earliest time its frame may leave (R233-R235). -/
def State.takeSeq (s : State) (sub : Bool) : Nat × Nat × State :=
  let pace := s.rd R.RING_CFG_pace
  if sub then
    let at0 := max s.clk s.ring.nextSub
    (s.ring.seqSub.toNat, at0, { s with ring := { s.ring with seqSub := s.ring.seqSub + 1, nextSub := at0 + pace } })
  else
    let at0 := max s.clk s.ring.nextMain
    (s.ring.seqMain.toNat, at0, { s with ring := { s.ring with seqMain := s.ring.seqMain + 1, nextMain := at0 + pace } })

/-- How a unit's frame is addressed, when it may leave, and what it answers. -/
structure Origin where
  unit : Nat
  /-- tap port on which the request it answers came (R279) -/
  tap : Option Nat := none
  answers : Option (Nat × Nat) := none
  /-- slot and due time of a timed launch: the frame keeps its tclass, always gets a sequence number, and waits at a port that is
  down (R398, R400) -/
  launch : Option (Nat × Word) := none
  deriving DecidableEq, Repr

/-- Originate a frame from a unit (R233, R274, R277, R279): the core writes orig_class into tclass, and a frame for a ring
carries the hub's node and its ring. A dual frame takes the next sequence number of that ring; a launch frame that is not dual is
filled in with it, and leaves the counter alone (R398, log entry 29). Also whether some output took it. -/
def State.originate (s : State) (o : Origin) (f : Frame) : State × Bool :=
  if !s.coreUp then (s, false)
  else
    let cls := s.rd (R.SWC_PORT_orig_class o.unit)
    let f := if o.launch.isSome then f else { f with w0 := fset f.w0 53 3 cls }
    let sub := s.isCoupler && f.dstRing == s.rd R.RING_CFG_sub_ring && o.tap.isNone
    let ringP := if sub then 2 else 0
    let f := { f with w0 := fset (fset (fset f.w0 40 8 (s.nodeOf ringP)) 4 2 (s.ringOf ringP)) 8 8 0 }
    let (seq, at0, s) :=
      if f.dual ∧ o.tap.isNone ∧ f.dst ≠ 0 then s.takeSeq sub
      else if o.launch.isSome then ((if sub then s.ring.seqSub else s.ring.seqMain).toNat, s.clk, s)
      else (f.seqNo, s.clk, s)
    let f := { f with w0 := fset f.w0 16 16 seq }.seal
    let out := if o.launch.isSome then s.ringPorts f else s.originPorts f o.tap
    let del := if f.dst = 0 then s.deliverPorts f else []
    match s.route f o.unit out del { wants := f.dst == 0 } with
    | (s, none) => (s, false)
    | (s, some r) =>
      let (s, st) := s.enqueue
        { id := 0, frame := f, ingress := o.unit, cls := r.cls, start := s.now, notBefore := max at0 s.ringQuietUntil
          launch := o.launch, answers := o.answers, claim := r.verdict.claim } r.outs r.reseq
      (st.outs.foldl (fun t p => if p < 4 then t.pmcEv 2 2 p else t) s, !st.outs.isEmpty)

end Sys2Proof.Machine
end

