-- ==== Sys2Proof/Machine/Notice.lean ====
section
/-!
DEFINITION. Notices to masters and the token buckets that limit them (R205-R208), and where a master is found (R215, R260).
-/

namespace Sys2Proof.Machine

/-- The notice bucket of master `m`. -/
def State.bucket (s : State) (m : Nat) : Bucket := mget {} s.buckets m

def State.setBucket (s : State) (m : Nat) (b : Bucket) : State := { s with buckets := mput {} s.buckets m b }

/-- The ring recorded for master `m` (RING_NODE.master_ring). -/
def State.masterRing (s : State) (m : Nat) : Nat := s.rd R.RING_NODE_master_ring / 4 ^ m % 4

/-- Modes in which notices are sent (R208), Island among them whatever its ring directions are (DESIGN CHOICE, log entry 54). -/
def noticeMode (m : Mode) : Bool :=
  match m with
  | .quarantine => true
  | .run => true
  | .runDegraded => true
  | .island => true
  | .safe => true
  | .doze => true
  | .trial => true
  | .boot => false
  | .steep => false
  | .hibernate => false
  | .update => false
  | .test => false

/-- Attributes of an event that concerns master `m` at Local (R647, class 0x1). -/
def toMaster (m : Nat) : Attrs := { priv := some 2, master := some m }

/-- What a notice says (R205). -/
structure NoticeBody where
  block : Nat
  index : Nat
  code : Nat
  data : Word
  time : Word
  deriving DecidableEq, Repr

/-- A request or a notice takes a slot of the initiator: its highest occupancy is kept (R209). -/
def State.initPeak (s : State) : State :=
  s.wr R.TOP_TXN_LEVEL_init_peak (max (s.rd R.TOP_TXN_LEVEL_init_peak) (min 256 (s.initReqs.length + 1)))

/-- Send a notice to master `m` from unit port `unit`, or drop and count it (R205-R208). It holds a slot of the
initiator for its sending (R209). -/
def State.notice (s : State) (unit m : Nat) (b : NoticeBody) : State :=
  let k := s.bucket m
  if !noticeMode s.hub.mode ∨ !s.on (R.TOP_MASTER_known m) ∨ k.tokens = 0 then
    ((s.setBucket m { k with lost := min (k.lost + 1) 65535 }).bump (R.TOP_MASTER_notice_drop m)).pmcEv 1 5 0 (toMaster m)
  else
    let s := (s.setBucket m { k with tokens := k.tokens - 1, lost := 0 }).initPeak
    let node := s.rd (R.TOP_MASTER_node m)
    let ring := s.masterRing m
    let body := wordBytes (BitVec.ofNat 64 (b.block % 256 * 2 ^ 56 + b.index % 256 * 2 ^ 48 + k.lost * 2 ^ 32 + b.code % 2 ^ 32)) ++
      wordBytes b.data ++ wordBytes b.time ++ wordBytes 0
    let own := if s.isCoupler ∧ ring = s.rd R.RING_CFG_sub_ring then s.nodeOf 2 else s.hub.node
    let f := ({ ftype := 1, dst := node, dstRing := ring } : Head).frame
      (recordHead 7 m 2 0 own (node * 2 ^ 32) 32 ++ body)
    (s.originate { unit := unit } f).1.pmcEv 1 4 0 (toMaster m)

/-- Send a notice to each master of a mask. -/
def State.notices (s : State) (unit mask : Nat) (b : NoticeBody) : State :=
  (List.range 4).foldl (fun t m => if bitAt mask m then t.notice unit m b else t) s

/-- Fill every bucket (R206: full at the end of Steep). -/
def State.fillBuckets (s : State) : State :=
  (List.range 4).foldl (fun t m =>
    t.setBucket m { t.bucket m with tokens := t.rd (R.TOP_NOTICE_RATE_depth m), lastFill := t.clk }) s

end Sys2Proof.Machine
end

