-- ==== Sys2Proof/Machine/Bays.lean ====
section
/-!
DEFINITION. The bay FIFOs within the hub: pushes, pops and flushes with their counters and notices (R432-R443), bay data
segments (R444-R447) and forced safe values (R629).
-/

namespace Sys2Proof.Machine

def State.rx (s : State) (n : Nat) : Fifo := mget {} s.bays.rx n
def State.tx (s : State) (n : Nat) : Fifo := mget {} s.bays.tx n
def State.setRx (s : State) (n : Nat) (f : Fifo) : State := { s with bays := { s.bays with rx := mput {} s.bays.rx n f } }
def State.setTx (s : State) (n : Nat) (f : Fifo) : State := { s with bays := { s.bays with tx := mput {} s.bays.tx n f } }

/-- BAY_RXSTAT and BAY_TXSTAT as the FIFO gives them (R451). -/
def Fifo.statWord (f : Fifo) (pseq : Nat) : Word :=
  BitVec.ofNat 64 (pseq * 2 ^ 48 + bit01 f.opened * 2 ^ 17 + bit01 f.ready * 2 ^ 16 + f.packets * 2 ^ 8 + f.words.length)

/-- Put the RX FIFO after an operation; the masters of the notice mask are told when it comes to hold a released word
(R443). -/
def State.putRx (s : State) (n : Nat) (f : Fifo) : State :=
  let was := (s.rx n).ready
  let s := s.setRx n f
  if !was ∧ f.ready then
    s.notices 6 (s.rd (R.BAY_ROUTE_notice n)) ⟨0x10 + n, 0, 1, f.statWord f.pseq.toNat, s.now⟩
  else s

/-- Push a word into the RX FIFO of bay `n` (R428, R429). -/
def State.rxPush (s : State) (n : Nat) (w : FWord) : State × Pushed :=
  let (f, r) := (s.rx n).push (s.rd (R.BAY_RXCTL_ct n)) w
  match r with
  | .full => (s, r)
  | .orphan => (((s.setRx n f).bump (R.BAY_RXCNT_orphans n)).pmcEv 8 5 (n / 4), r)
  | .rest => ((s.setRx n f).bump (R.BAY_RXCNT_orphans n), r)
  | .marked => (((s.putRx n f).bump (R.BAY_RXCNT_orphans n)).pmcEv 8 0 (n / 4), r)
  | .stored => ((s.putRx n f).pmcEv 8 0 (n / 4), r)

/-- Push a word into the TX FIFO of bay `n` (R428, R429). -/
def State.txPush (s : State) (n : Nat) (w : FWord) : State × Pushed :=
  let (f, r) := (s.tx n).push (s.rd (R.BAY_TXCTL_ct n)) w
  match r with
  | .full => (s, r)
  | .orphan => (((s.setTx n f).bump (R.BAY_TXCNT_orphans n)).pmcEv 8 5 (n / 4), r)
  | .rest => ((s.setTx n f).bump (R.BAY_TXCNT_orphans n), r)
  | .marked => (((s.setTx n f).bump (R.BAY_TXCNT_orphans n)).pmcEv 8 2 (n / 4), r)
  | .stored => ((s.setTx n f).pmcEv 8 2 (n / 4), r)

/-- The error counts of a word read out at the head (R440); `tx` selects the FIFO. -/
def State.countEcc (s : State) (n : Nat) (tx : Bool) (w : FWord) : State :=
  let corrected := if tx then R.BAY_TXECC_corrected n else R.BAY_RXECC_corrected n
  let uncorrectable := if tx then R.BAY_TXECC_uncorrectable n else R.BAY_RXECC_uncorrectable n
  let one (t : State) (e : Ecc) : State :=
    match e with
    | .clean => t
    | .corrected => t.bump corrected
    | .bad => (t.bump uncorrectable).raise (0x0B0 + n) (bit01 tx)
  one (one s w.dataEcc) w.tagEcc

/-- Pop the head word of the RX FIFO of bay `n`: the state, the word as stored and the word as delivered (R433, R440). -/
def State.rxPop (s : State) (n : Nat) : Option (State × FWord × FWord) :=
  match (s.rx n).pop (s.rd (R.BAY_RXCTL_ct n)), (s.rx n).words with
  | some (f, d, dropped), w :: _ =>
    some ((((s.setRx n f).countEcc n false w).bumpBy (R.BAY_RXCNT_orphans n) dropped).pmcEv 8 1 (n / 4),
      w, d)
  | _, _ => none

/-- Pull the head word of the TX FIFO of bay `n`. -/
def State.txPop (s : State) (n : Nat) : Option (State × FWord × FWord) :=
  match (s.tx n).pop (s.rd (R.BAY_TXCTL_ct n)), (s.tx n).words with
  | some (f, d, dropped), w :: _ =>
    some ((((s.setTx n f).countEcc n true w).bumpBy (R.BAY_TXCNT_orphans n) dropped).pmcEv 8 3 (n / 4),
      w, d)
  | _, _ => none

/-- Flush the RX FIFO of bay `n` (R435, R436). -/
def State.rxFlush (s : State) (n : Nat) : State :=
  ((s.putRx n ((s.rx n).flush (s.rd (R.BAY_RXCTL_ct n)))).bump (R.BAY_RXCNT_flushes n)).pmcEv 8 4 (n / 4)

/-- Flush the TX FIFO of bay `n`. -/
def State.txFlush (s : State) (n : Nat) : State :=
  ((s.setTx n ((s.tx n).flush (s.rd (R.BAY_TXCTL_ct n)))).bump (R.BAY_TXCNT_flushes n)).pmcEv 8 4 (n / 4)

/-- Empty every FIFO without counting (R438). -/
def State.clearFifos (s : State) : State := { s with bays := { s.bays with rx := [], tx := [], held := [] } }

/-- Bays served by bay-group port `p` (R11). -/
def portBays (p : Nat) : List Nat := (List.range 4).map (fun i => 4 * (p - 10) + i)

/-- The driver of pin `g`, its overload bit cleared, takes its owner's drive state, or the safe value where the owner has
set none since the safe values were in force (R416, R347, R463). -/
def State.reenablePin (s : State) (g : Nat) : State :=
  let p := s.pin g
  if s.hasDriver g ∧ s.ownerDrives g ∧ p.kept then
    (s.setPin g { p with pad := safeDrive (s.rd (R.BAY_PIN_safe g)) p.pad }).followLine s g
  else s.applyPin g

/-- Clear overload bits of bay `n` (R416). -/
def State.clearOverload (s : State) (n mask : Nat) : State :=
  let bits := s.rd (R.BAY_PINSTAT_overload n)
  let s := s.wr (R.BAY_PINSTAT_overload n) (bits - (bits &&& mask))
  (List.range 8).foldl (fun t p => if bitAt (bits &&& mask) p then t.reenablePin (8 * n + p) else t) s

/-- The part of a force that acts in the bay itself (R629): safe values, TX flush, overload bits. -/
def State.forceBay (s : State) (n : Nat) : State :=
  let s := s.wrBit R.KET_FORCE_forced n true
  if s.groupGated (n / 12) then
    { s with kettle := { s.kettle with forceDue := s.kettle.forceDue ||| BitVec.ofNat 48 (2 ^ n) } }
  else ((s.txFlush n).clearOverload n 255).applyBay n

end Sys2Proof.Machine
end

