-- ==== Sys2Proof/Machine/Ports.lean ====
section
/-!
DEFINITION. Power ports and group isolators: the effective command, ramps, trips, latches, power-good, and opening and
closing an isolator (R555-R578).
-/

namespace Sys2Proof.Machine

def State.port (s : State) (k : Nat) : Port := mget {} s.power.ports k
def State.setPort (s : State) (k : Nat) (p : Port) : State := { s with power := { s.power with ports := mput {} s.power.ports k p } }
def State.group (s : State) (g : Nat) : Group := mget {} s.power.groups g
def State.setGroup (s : State) (g : Nat) (x : Group) : State := { s with power := { s.power with groups := mput {} s.power.groups g x } }

/-- Group of a port (R552). -/
def groupOfPort (k : Nat) : Nat := k / 16

/-- Ports of a group. -/
def groupPorts (g : Nat) : List Nat := (List.range 16).map (fun j => 16 * g + j)

/-- What decides the effective command (R555). -/
inductive PortRule where
  | off | safe | command
  deriving DecidableEq, Repr

def State.portRule (s : State) : PortRule :=
  match s.hub.mode with
  | .boot => .off
  | .steep => .off
  | .hibernate => .off
  | .update => if s.hub.window ∨ s.hub.row = 7 then .off else .safe
  | .quarantine => .safe
  | .safe => .safe
  | .test => .safe
  | .run => .command
  | .runDegraded => .command
  | .island => .command
  | .doze => .command
  | .trial => .command

/-- The mode, or a hub held in reset, forces the isolators open (R50, R555, R574). -/
def State.isolatorsForced (s : State) : Bool := s.hub.held || s.hub.rstLow || s.portRule == .off

/-- What a test drives on port `k` (R15, R555). -/
def State.testPort (s : State) (k : Nat) : Option Bool := if s.hub.mode = .test then mget none s.hub.testPorts k else none

/-- The effective command of port `k` (R555). -/
def State.effective (s : State) (k : Nat) : Bool :=
  if s.isolatorsForced then false
  else
    match s.portRule with
    | .off => false
    | .command => s.on (R.PWP_CMD_on k)
    | .safe =>
      match s.testPort k with
      | some b => b
      | none =>
        match mget 0 s.loaded.portSafe k with
        | 0 => false
        | 1 => true
        | _ => (s.port k).kept

/-- The C/Q drivers fed by port `k` follow its power-good (R578). -/
def State.applyLplus (s : State) (k : Nat) : State :=
  (s.loaded.lplus.filter (fun kv => kv.2 = k)).foldl (fun t kv => t.applyPin (8 * kv.1 + 4)) s

/-- Set power-good of port `k`. -/
def State.setPg (s : State) (k : Nat) (b : Bool) : State :=
  if s.on (R.PWP_STAT_pg k) = b then s else (s.wr (R.PWP_STAT_pg k) (bit01 b)).applyLplus k

/-- The conditions of R572 hold now. -/
def State.damageCond (s : State) (k : Nat) : Bool :=
  !(s.port k).passOn && (s.group (groupOfPort k)).iso == .closed && (s.group (groupOfPort k)).supply &&
  !s.on (R.PWP_CFG_backfeed_ok k) && decide (2000 < s.rd (R.PWP_MEAS_vout k))

/-- Keep the start time of the conditions of R572. -/
def State.noteDamageCond (s : State) (k : Nat) : State :=
  let p := s.port k
  s.setPort k { p with condSince := if s.damageCond k then some (p.condSince.getD s.clk) else none }

/-- Turn the pass transistor off: power-good falls and F returns to 0 (R561, R563). -/
def State.passOff (s : State) (k : Nat) (state : Nat) : State :=
  let s := s.setPort k { s.port k with passOn := false, inReg := false, acc := 0 }
  ((s.wr (R.PWP_STAT_state k) state).setPg k false).noteDamageCond k

/-- A reading of at most 130 °C on both thermometers (R558). -/
def State.portCool (s : State) (k : Nat) : Bool := decide ((s.port k).diode ≤ 130) && decide ((s.port k).estimate ≤ 130)

/-- Start a ramp (R558, R562): a ramp is in regulation from its start. -/
def State.startRamp (s : State) (k : Nat) : State :=
  let s := s.setPort k { s.port k with passOn := true, inReg := true }
  (((s.wr (R.PWP_STAT_state k) 1).bump (R.PWP_CNT_ramps k)).pmcEv 10 2 (groupOfPort k)).noteDamageCond k

/-- Bring port `k` to what its effective command, its marks, its isolator and its temperature make of it (R558, R559, R561,
R573, R575). -/
def State.refreshPort (s : State) (k : Nat) : State :=
  let st := s.rd (R.PWP_STAT_state k)
  if st = 4 then s.passOff k 4
  else if (s.group (groupOfPort k)).iso != .closed then s.passOff k 6
  else if !s.effective k ∨ s.on (R.PWP_STAT_damaged k) then s.passOff k 0
  else if st = 1 ∨ st = 2 ∨ st = 3 then s
  else if s.portCool k then s.startRamp k
  else s.passOff k 5

/-- The power ports fitted. -/
def State.portList (s : State) : List Nat := if s.hasPower then List.range 32 else []

/-- Every port follows a change of its mode, command or group. -/
def State.refreshPorts (s : State) : State := s.portList.foldl State.refreshPort s

/-- Note the effective commands on leaving a mode (R555, unchanged). -/
def State.keepEffective (s : State) : State :=
  s.portList.foldl (fun t k => if (t.port k).kept = t.effective k then t else t.setPort k { t.port k with kept := t.effective k }) s

/-- A trip (R559, R564, R566-R568, R571): of trips that meet, only the first is recorded. The housekeeper counts it for the settings
(R684). -/
def State.trip (s : State) (k cause : Nat) : State :=
  if s.rd (R.PWP_STAT_state k) = 4 ∨ !(s.port k).passOn then s
  else
    let s := s.passOff k 4
    let s := s.setPort k { s.port k with latchedAt := s.clk, resetDue := false }
    let s : State := { s with upd := { s.upd with trips := mput 0 s.upd.trips k (mget 0 s.upd.trips k + 1) } }
    ((((s.wr (R.PWP_STAT_tripped k) 1).wr (R.PWP_STAT_cause k) cause).bump (R.PWP_CNT_trips k)).pmcEv 10 0 (groupOfPort k)).raise
      (0x180 + k) cause

/-- Leave LATCHED (R559). -/
def State.clearLatch (s : State) (k : Nat) : State :=
  if s.rd (R.PWP_STAT_state k) = 4 then
    ((s.setPort k { s.port k with resetDue := false }).wr (R.PWP_STAT_state k) 0).refreshPort k
  else s

/-- A Kettle block reset of port `k`: it clears the latch once the port has been LATCHED for retry × 100 ms (R559, R628). -/
def State.resetPort (s : State) (k : Nat) : State :=
  if s.rd (R.PWP_STAT_state k) != 4 then s
  else if s.rd (R.PWP_CFG_retry k) * 100000000 ≤ s.clk - (s.port k).latchedAt then s.clearLatch k
  else s.setPort k { s.port k with resetDue := true }

/-- A write to PWP_CMD[k].on, by a master or by a script (R556, R559, R586). -/
def State.writePortCmd (s : State) (k : Nat) (on : Bool) : State :=
  let s := s.wr (R.PWP_CMD_on k) (bit01 on)
  if !on ∧ s.rd (R.PWP_STAT_state k) = 4 then s.clearLatch k else s.refreshPort k

/-! ### Isolators -/

/-- Open the isolator of group `g`; `cause` as PWP_GROUP.opened_by: an opening by the Kettle or by software stands until a
close write (R574-R576). -/
def State.openIsolator (s : State) (g cause : Nat) : State :=
  let x := s.group g
  let was := s.rd (R.PWP_GROUP_opened_by g)
  let s := s.setGroup g { x with iso := .opened }
  let s := (s.wr (R.PWP_GROUP_closed g) 0).wr (R.PWP_GROUP_opened_by g) 
    (if x.iso = .closed ∨ x.iso = .closing then cause else max was cause)
  (groupPorts g).foldl State.refreshPort s

/-- Start the soft start of the isolator of group `g` (R576). -/
def State.startClose (s : State) (g : Nat) : State := s.setGroup g { s.group g with iso := .closing, closeAt := s.clk }

/-- An isolator that the supply or the mode opened closes when neither holds it open: at once when the supply has been
present for 10 ms, else after that time (R576). -/
def State.letClose (s : State) (g : Nat) : State :=
  let x := s.group g
  if x.iso = .opened ∧ x.supply ∧ !s.isolatorsForced ∧ s.rd (R.PWP_GROUP_opened_by g) ≤ 1 then
    if 10000000 ≤ s.clk - x.since then s.startClose g else s.setGroup g { x with iso := .delay }
  else s

/-- The isolators follow a change of mode: one that the mode or an absent supply holds open says so (R555, R574, R576, R587). -/
def State.refreshIsolators (s : State) : State :=
  if !s.hasPower then s
  else
    (List.range 2).foldl (fun (t : State) g =>
      if t.isolatorsForced ∨ !(t.group g).supply then t.openIsolator g 1 else t.letClose g) s

/-- Every latch, accumulator and damaged mark is cleared (R560). -/
def State.clearPortMarks (s : State) : State :=
  s.portList.foldl (fun (t : State) k =>
    let t := if t.rd (R.PWP_STAT_state k) = 4 then t.wr (R.PWP_STAT_state k) 6 else t
    let t := t.setPort k { t.port k with acc := 0, resetDue := false }
    (t.wr (R.PWP_STAT_damaged k) 0).refreshPort k) s

end Sys2Proof.Machine
end

