-- ==== Sys2Proof/Machine/Time.lean ====
section
/-!
DEFINITION. The time unit: the clock of the time counter, the servo, schedule times, TIME_IO pins and timed launches
(R360-R404).
-/

namespace Sys2Proof.Machine

/-! ### Schedule times (R393) -/

/-- `sdiff` of R393 for a schedule time `a` and the counter. -/
def sdiff40 (a : Nat) (now : Word) : Int :=
  let d : Nat := (a + 2 ^ 40 - now.toNat % 2 ^ 40) % 2 ^ 40
  if 2 ^ 39 ≤ d then (d : Int) - 2 ^ 40 else (d : Int)

/-- How a schedule time resolves: due in the future, late by an amount within the window, or past. -/
inductive Resolved where
  | pending (due : Word) | late (due : Word) (by_ : Nat) | past (due : Word)
  deriving DecidableEq, Repr

/-- The decision of R393 for a difference `d` to the counter and a late window. -/
def decideDue (now : Word) (d : Int) (window : Nat) : Resolved :=
  let due := now + BitVec.ofInt 64 d
  if 0 ≤ d then .pending due else if -d < (window : Int) then .late due (-d).toNat else .past due

/-- Resolve a 40-bit schedule time at the counter (R393). -/
def resolve (now : Word) (t window : Nat) : Resolved := decideDue now (sdiff40 t now) window

/-! ### The clock of the counter (R361-R364) -/

/-- A clock is recovered on port `p`: the port is not down. -/
def State.recovered (s : State) (p : Nat) : Bool := s.on (R.RING_PORT_up p)

/-- The source of the counter's reference now: TIM_STATUS.clock. -/
def State.clockNow (s : State) : Nat :=
  if s.time.resonator then 0 else if s.recovered 0 then 1 else if s.recovered 1 then 2 else 3

/-- Leave the state of the servo for another; valid follows R378, and a run of SYNC frames starts anew. -/
def State.setServo (s : State) (n : Nat) : State :=
  let t := s.time
  { s with time := { t with
      servo := n, run := 0,
      lockedSince := if n = 3 then some s.clk else none } }.wr R.TIM_STATUS_valid (bit01 (n != 0))

/-- What holdover and TIME_HOLD keep of their beginning (R383). -/
def State.beginHold (s : State) : State :=
  let long := match s.time.lockedSince with
    | some t => decide (60000000000 ≤ s.clk - t)
    | none => false
  { s with time := { s.time with holdSince := s.clk, longLocked := long, holdTemp := s.rdInt R.PWR_TEMP_hub, holdDelta := 0 } }

/-- Enter HOLDOVER (R379); `loss` says that it is for lack of SYNC frames. -/
def State.enterHoldover (s : State) (loss : Bool) : State :=
  let s := (s.beginHold.setServo 4).bump (R.TIM_CNT_count 4)
  if loss then s.raise 0x050 else s

/-- Enter TIME_HOLD (R380). -/
def State.enterTimeHold (s : State) : State :=
  (((s.beginHold.setServo 5).wr R.TIM_STATUS_discont 1).bump (R.TIM_CNT_count 3)).raise 0x051 (s.rd R.TIM_OFFSET_offset)

/-- The counter has lost every reference: it runs at its nominal rate (R364, R378). -/
def State.timebaseLost (s : State) : State :=
  if s.time.lost then s
  else
    let s := { s with time := { s.time with lost := true } }
    let s := (s.wr R.TIM_STATUS_clock 3).wr R.TIM_STATUS_degraded 1
    let s : State := if s.time.servo ≠ 0 then s.setServo 0 else s
    ((s.wr R.TIM_STATUS_valid 0).wr R.TIM_RATE_rate 0).raise 0x054

/-- The reference of the counter follows what is available; a change away from the resonator raises TIMEBASE_DEGRADED
(R363), but not in Hibernate (R603), and not while the resonator starts. The loss of every reference is an event of its own. -/
def State.refreshClock (s : State) : State :=
  let c := s.clockNow
  if s.time.starting ∧ c ≠ 0 then s
  else if c = 0 then
    ({ s with time := { s.time with lost := false } }.wr R.TIM_STATUS_clock 0).wr R.TIM_STATUS_degraded 0
  else if c = 3 then (if s.hub.mode = .hibernate then s.wr R.TIM_STATUS_clock 3 else s)
  else if s.hub.mode = .hibernate then { s with time := { s.time with lost := false } }.wr R.TIM_STATUS_clock c
  else
    let was := s.on R.TIM_STATUS_degraded && s.rd R.TIM_STATUS_clock != 3
    let s := { s with time := { s.time with lost := false } }
    let s := (s.wr R.TIM_STATUS_clock c).wr R.TIM_STATUS_degraded 1
    if was then s else s.raise 0x053 c

/-! ### TIME_IO outputs (R401) -/

def State.tio (s : State) (k : Nat) : TimeIo := mget {} s.time.io k
def State.setTio (s : State) (k : Nat) (x : TimeIo) : State := { s with time := { s.time with io := mput {} s.time.io k x } }

/-- The level at the pad of TIME_IO pin `k`: none where it is an input and thus high-impedance. Bit 0 of edges makes the active edge of
a PPS or periodic output the falling one. -/
def State.tioPad (s : State) (k : Nat) : Option Bool :=
  match s.rd (R.TIM_IO_function k) with
  | 1 => some ((s.tio k).level != s.bitOn (R.TIM_IO_edges k) 0)
  | 2 => some ((s.tio k).level != s.bitOn (R.TIM_IO_edges k) 0)
  | 3 => some (s.tio k).level
  | _ => none

/-- TIM_SCHED actions 1, 2, 3 and 6 on a TIME_IO pin; `t` is the time at which the action runs. -/
def State.tioAction (s : State) (k action arg : Nat) (t : Word) : State :=
  let x := s.tio k
  match action with
  | 1 => s.setTio k { x with level := true }
  | 2 => s.setTio k { x with level := false }
  | 3 => s.setTio k { x with level := !x.level }
  | _ => s.setTio k { x with level := true, pulseEnd := some ((s.clk : Int) + tdiff t s.now + 10 * arg).toNat }

/-! ### Timed launches (R397-R400) -/

/-- The due time for which a launch slot is armed. -/
def State.armedFor (s : State) (i : Nat) : Option Word := mget none s.time.launches i

def State.setArmed (s : State) (i : Nat) (d : Option Word) : State :=
  { s with time := { s.time with launches := mput none s.time.launches i d } }

/-- A launch frame of slot `i` that has been handed over for `due` and not yet sent is taken back (R400). -/
def State.recall (s : State) (i : Nat) (due : Word) : State :=
  (s.switch.frames.filter (fun f => f.launch == some (i, due))).foldl (fun (t : State) f =>
    f.outs.foldl (fun (u : State) p => u.release p f.id) t) s

/-- The launch of slot `i` is not made (R398, R400). -/
def State.dropLaunch (s : State) (i : Nat) : State :=
  ((s.setArmed i none).wr (R.TIM_LAUNCH_CTL_state i) 5).bump (R.TIM_CNT_count 9)

/-- Hand the frame of slot `i` to the core (R398, R399). -/
def State.handOver (s : State) (i : Nat) (due : Word) : State :=
  let f := s.launchFrame i
  let words := s.rd (R.TIM_LAUNCH_CTL_words i)
  if (f.ftype ≠ 1 ∧ f.ftype ≠ 5) ∨ words ≠ 4 + (f.length + 7) / 8 then s.dropLaunch i
  else
    let s := s.setArmed i none
    match s.originate { unit := 7, launch := some (i, due) } f with
    | (s, true) => s
    | (s, false) => s.dropLaunch i

/-! ### TIM_SCHED entries (R393-R396) -/

/-- The action of an entry can run: it is not reserved, and its TIME_IO pin is in function 3. -/
def State.schedActs (s : State) (fields : Word) : Bool :=
  let action := fget fields 28 4
  let target := fget fields 24 4
  if action = 0 ∨ action = 5 then true
  else if action = 4 then decide (target < 4)
  else if action ≤ 3 ∨ action = 6 then decide (target < 4) && s.rd (R.TIM_IO_function target) == 3
  else false

/-- Run entry `i` with the fields it was armed with (TIM_SCHED_A); `late` is the mark of R393. An entry whose TIME_IO pin a Steep has
given another function is over and leaves the pin alone (R401). -/
def State.runSched (s : State) (i : Nat) (fields : Word) (due : Word) (late : Bool) : State :=
  let s := (s.wr (R.TIM_SCHED_A_status i) 2).wr (R.TIM_SCHED_A_late i) (bit01 late)
  let s := { s with time := { s.time with sched := mput none s.time.sched i none } }
  let s := if late then (s.bump (R.TIM_CNT_count 6)).pmcEv 5 2 0 else s.pmcEv 5 1 0
  let action := fget fields 28 4
  let target := fget fields 24 4
  let arg := fget fields 0 16
  if !s.schedActs fields then s else
  match action with
  | 1 => s.tioAction target 1 arg s.now
  | 2 => s.tioAction target 2 arg s.now
  | 3 => s.tioAction target 3 arg s.now
  | 6 => s.tioAction target 6 arg (if late then s.now else due)
  | 4 => if (s.armedFor target).isSome then s.handOver target due else s
  | 5 => s.notices 6 (fget fields 20 4) ⟨0x04, i, arg, due, s.now⟩
  | _ => s

/-- Entry `i`, due at `due`, resolves to PAST (R393, R400). -/
def State.pastSched (s : State) (i : Nat) (fields due : Word) : State :=
  let s := (s.wr (R.TIM_SCHED_A_status i) 3).wr (R.TIM_SCHED_A_late i) 1
  let s := { s with time := { s.time with sched := mput none s.time.sched i none } }
  let s := (s.bump (R.TIM_CNT_count 7)).pmcEv 5 3 0
  if fget fields 28 4 = 4 ∧ fget fields 24 4 < 4 then (s.recall (fget fields 24 4) due).dropLaunch (fget fields 24 4) else s

/-- An entry other than of TIM_SCHED resolves to PAST (R393). -/
def State.countPast (s : State) : State := (s.bump (R.TIM_CNT_count 7)).pmcEv 5 3 0

/-- The time of a ring-rate switch lies in the past: no switch is left (R220, R393). -/
def State.pastRate (s : State) : State :=
  (({ s with ring := { s.ring with rateDue := none } }).wr R.RING_RATE_next 0).countPast

/-- The wake time lies in the past (R605). -/
def State.pastWake (s : State) : State :=
  ((({ s with power := { s.power with wakeDue := none } }).wr R.PWR_WAKE_AT_armed 0).wr R.PWR_WAKE_AT_past 1).countPast

/-! ### Cycles and their points (R330, R331) -/

/-- The cycle of stream `i` at plant time `t`; 0 while the stream has no cycle time. -/
def State.cycleAt (s : State) (i t : Nat) : Nat :=
  if s.cycleNs i = 0 then 0 else (t - s.rd (R.CYC_CYCLE_phase i)) / s.cycleNs i

/-- The stream is in service: enabled, with a cycle time. -/
def State.streamOn (s : State) (i : Nat) : Bool := s.bitOn R.CYC_CTRL_enable i && s.cycleNs i != 0

/-- CYC_POINT of stream `i` as it governs cycle `n`: a write governs from the first cycle that starts after it (R359). -/
def State.pointWord (s : State) (i n : Nat) : Word :=
  match (mget [] s.cyc.oldPoints i).find? (fun o => decide (n < o.1)) with
  | some o => o.2
  | none => s.word (R.CYC_POINT i)

/-- T_n of R330. -/
def State.cycleStart (s : State) (i n : Nat) : Nat := n * s.cycleNs i + s.rd (R.CYC_CYCLE_phase i)

/-- The sample point and the apply point of cycle `n` (R331). -/
def State.samplePoint (s : State) (i n : Nat) : Nat := s.cycleStart i n + fget (s.pointWord i n) 0 26

def State.applyPoint (s : State) (i n : Nat) : Nat := s.cycleStart i n + fget (s.pointWord i n) 32 27

/-- The cycles whose points can lie at the present: an apply point lies up to two cycles after the start of its own (R331). -/
def State.cyclesNear (s : State) (i : Nat) : List Nat :=
  let k := s.cycleAt i s.now.toNat
  [k - 2, k - 1, k].eraseDups

/-- The point of cycle `n` is over. -/
def Over.has (x : Over) (n : Nat) : Bool := decide (n < x.below) || x.more.contains n

/-- The point of cycle `n` is over from now on, in cycle `k`; cycles whose points can no longer be due are not kept one by one. -/
def Over.add (x : Over) (k n : Nat) : Over :=
  let below := max x.below (k - 2)
  ⟨below, (n :: x.more).filter (fun m => decide (below ≤ m))⟩

/-- The two kinds of point of a stream: its time in cycle `n`, and which of them are over. -/
def State.pointAt (s : State) (apply : Bool) (i n : Nat) : Nat := if apply then s.applyPoint i n else s.samplePoint i n

def State.overOf (s : State) (apply : Bool) (i : Nat) : Over := mget {} (if apply then s.cyc.applied else s.cyc.sampled) i

/-- The point of cycle `n` of stream `i` is over. -/
def State.pointOver (s : State) (apply : Bool) (i n : Nat) : State :=
  let x := (s.overOf apply i).add (s.cycleAt i s.now.toNat) n
  if apply then { s with cyc := { s.cyc with applied := mput {} s.cyc.applied i x } }
  else { s with cyc := { s.cyc with sampled := mput {} s.cyc.sampled i x } }

/-- A forward step from plant time `old` passes over the points of stream `i` of one kind: they are never executed. Those of the
cycles that had begun were pending, and are PAST with a late window of 0 (R331, R394, log entry 31); cups committed for a cycle
whose apply point is passed are discarded. -/
def State.passPoints (s : State) (old : Nat) (apply : Bool) (i : Nat) : State :=
  let was : State := { s with now := BitVec.ofNat 64 old }
  let goes (n : Nat) : Bool := decide (s.pointAt apply i n < s.now.toNat) && !(s.overOf apply i).has n
  let pending := (was.cyclesNear i).filter (fun n => decide (old ≤ s.pointAt apply i n) && goes n)
  let s := pending.foldl (fun (t : State) _ => t.countPast) s
  let passed := ((was.cyclesNear i) ++ (s.cyclesNear i)).eraseDups.filter goes
  let s := passed.foldl (fun (t : State) n => t.pointOver apply i n) s
  if apply then
    { s with cyc := { s.cyc with commits := s.cyc.commits.filter (fun c => !(c.stream == i && (s.overOf true i).has c.cycle)) } }
  else s

/-- What a forward step from plant time `old` does to the points of all streams. -/
def State.retirePoints (s : State) (old : Nat) : State :=
  (List.range 4).foldl (fun (t : State) i =>
    if !t.streamOn i then t else (t.passPoints old false i).passPoints old true i) s

/-! ### Steps (R381, R394) -/

/-- Pending schedule entries that the counter has passed over are decided (R394). -/
def State.decidePassed (s : State) : State :=
  s.time.sched.foldl (fun (t : State) kv =>
    match kv.2 with
    | none => t
    | some e =>
      let d := tdiff e.due t.now
      if 0 ≤ d then t
      else
        match decideDue t.now d (fget e.fields 32 20) with
        | .pending _ => t
        | .late due _ => t.runSched kv.1 e.fields due true
        | .past _ => t.pastSched kv.1 e.fields e.due) s

/-- The step has passed over the due time. -/
def State.passed (s : State) (due : Option Word) : Bool :=
  match due with
  | some w => decide (tdiff w s.now < 0)
  | none => false

/-- A grid instruction of context `c` that waits, when a step by `d` has passed over it: an AT past its due time (R394, R511), an action
past its release deadline, which is late (R478). -/
def State.decideAt (s : State) (e c : Nat) (d : Int) : State :=
  match (s.ctx e c).grid with
  | none => s
  | some op =>
    match decodeInsn op.instr with
    | some (.at_ onpast src _) =>
      let l := -(tdiff op.t s.now)
      if 2 ≤ src ∨ l ≤ 0 ∨ d < l then s
      else
        let t := s.bump (R.INF_CTX_SLACK_late e c)
        if l < (s.rd (R.INF_CTX_CFG_late_window e c) : Int) then t.releaseGrid e c op false
        else if onpast then ((t.setCtx e c { t.ctx e c with grid := none, tau := t.startTau }).advance e c).ready e c
        else t.faultCtx e c 7 op.pc
    | _ => if 0 < d ∧ 0 < tdiff s.now (deadline op.t) then s.gridRelease e c else s

/-- A step moves the counter by `d`: what was pending and has been passed over is decided (R394); a ring-rate switch and a wake time
have a late window of 0 (R220, R605). -/
def State.moveCounter (s : State) (d : Int) : State :=
  let old := s.now.toNat
  let s := ({ s with now := s.now + BitVec.ofInt 64 d, time := { s.time with stepped := true } }).decidePassed
  let s := s.ctxList.foldl (fun (t : State) ec => t.decideAt ec.1 ec.2 d) s
  let s := if 0 < d then s.retirePoints old else s
  let s := if s.passed s.ring.rateDue then s.pastRate else s
  if s.passed s.power.wakeDue then s.pastWake else s

/-- Saturate to 32 bits, signed, as a 32-bit field. -/
def sat32 (v : Int) : Nat := unsext 32 (max (-(2 ^ 31 : Int)) (min v (2 ^ 31 - 1)))

/-- Step the counter by `d` ns (R381). -/
def State.stepCounter (s : State) (d : Int) : State :=
  ((s.moveCounter d).bump (R.TIM_CNT_count 2)).raise 0x052 (sat32 d)

/-- An offset in units of 2^-16 ns as whole ns. -/
def wholeNs (o : Int) : Int := Int.fdiv (o + 32768) 65536

/-- TIM_HOLDOVER (R383): ms since entry, and the drift bound in ns. -/
def State.holdover (s : State) : Nat × Nat :=
  if s.time.servo = 4 ∨ s.time.servo = 5 then
    let ms := (s.clk - s.time.holdSince) / 1000000
    let r := if s.time.longLocked then 10 else 100
    (min ms (2 ^ 32 - 1), min (25 + ms * (r + 20 * s.time.holdDelta) / 1000) (2 ^ 32 - 1))
  else (0, 0)

end Sys2Proof.Machine
end

