-- ==== Sys2Proof/Machine/Power.lean ====
section
/-!
DEFINITION. Core voltage and domains: VSI requests (R588-R592), gating and ungating (R464, R597-R600, R629), retention banks
(R609-R612).
-/

namespace Sys2Proof.Machine

/-! ### VSI -/

/-- The voltage in force: the lower of the old and the new target until the acknowledgement (R589). -/
def State.coreMv (s : State) : Nat :=
  match s.power.vsi with
  | some v => min (s.rd R.PWR_STATUS_core_mv) v.target
  | none => s.rd R.PWR_STATUS_core_mv


/-- The core is held at 850 mV (R592). -/
def heldMode (m : Mode) : Bool :=
  match m with
  | .boot => true
  | .steep => true
  | .update => true
  | .test => true
  | .quarantine => false
  | .run => false
  | .runDegraded => false
  | .island => false
  | .safe => false
  | .doze => false
  | .hibernate => false
  | .trial => false

/-- The window of R592: lowest and highest voltage in the present mode. An exit from Doze in progress has requested at least
run_floor, and nothing goes below it again (R93, R600). -/
def State.mvWindow (s : State) : Nat × Nat :=
  if heldMode s.hub.mode then (850, 850)
  else
    ((if s.hub.mode = .doze ∧ s.power.exit.isNone then s.rd R.PWR_WINDOW_doze_floor else s.rd R.PWR_WINDOW_run_floor),
      s.rd R.PWR_WINDOW_ceiling)

/-- The hub is held in reset (R49, R82). -/
def State.inReset (s : State) : Bool := s.hub.held || s.hub.rstLow

/-- The loop does not run in the modes of R592, in Hibernate and while it is frozen. -/
def State.loopRuns (s : State) : Bool :=
  s.on R.PWR_LOOP_enable && !s.on R.PWR_LOOP_frozen && !heldMode s.hub.mode && s.hub.mode != .hibernate && !s.inReset

/-- The condition of PWR_LOOP.at_risk (R595); it does not hold where the loop does not run. -/
def State.atRisk (s : State) : Bool := s.power.late && s.loopRuns && s.rd R.PWR_STATUS_requested == s.mvWindow.2

/-- PWR_LOOP.at_risk falls with its condition (R595). -/
def State.endRisk (s : State) : State :=
  if s.atRisk ∨ !s.on R.PWR_LOOP_at_risk then s
  else { s.wr R.PWR_LOOP_at_risk 0 with power := { s.power with riskSince := none } }

/-- PWR_LOOP.at_risk follows its condition, and DEADLINE_AT_RISK is raised as it rises (R595). -/
def State.noteRisk (s : State) : State :=
  if s.atRisk ∧ !s.on R.PWR_LOOP_at_risk then
    ({ s.wr R.PWR_LOOP_at_risk 1 with power := { s.power with riskSince := some s.clk } }).raise 0x001 0
  else s.endRisk

/-- Send a request, or a retry of one (R588, R591). -/
def State.vsiSend (s : State) (q : VsiReq) (retry : Bool) : State :=
  let s : State := { s with power := { s.power with vsi := some ⟨q.target, q.source, s.clk, retry, q.rise⟩ } }
  (((s.wr R.PWR_STATUS_requested q.target).wr R.PWR_STATUS_vsi_busy 1).bump R.PWR_VSI_requests).endRisk

/-- Put a request among those that wait: in the place of one of its source, an earlier source first. -/
def vsiInsert (q : VsiReq) (ws : List VsiReq) : List VsiReq :=
  ws.filter (fun w => decide (w.source < q.source)) ++ q :: ws.filter (fun w => decide (q.source < w.source))

/-- A request: discarded while one of an earlier source is outstanding, else it follows the outstanding one (R589, R590). -/
def State.vsiRequest (s : State) (q : VsiReq) : State :=
  match s.power.vsi with
  | none => s.vsiSend q false
  | some v => if v.source < q.source then s else { s with power := { s.power with vsiWait := vsiInsert q s.power.vsiWait } }

/-- The bound of a window that is nearest to a voltage outside it. -/
def mvBound (w : Nat × Nat) (mv : Nat) : Option Nat := if mv < w.1 then some w.1 else if w.2 < mv then some w.2 else none

/-- Request the nearest bound of the window when the voltage in force, or else the one requested, lies outside it and that
bound is not the target requested already (R592). In Hibernate the rail follows R603 and R606. -/
def State.vsiSettle (s : State) (source : Nat) : State :=
  if s.hub.mode = .hibernate then s
  else
    let target := s.power.vsi.map (·.target)
    match (mvBound s.mvWindow s.coreMv).orElse (fun _ => target.bind (mvBound s.mvWindow)) with
    | some mv => if target = some mv then s else s.vsiRequest ⟨mv, source, false⟩
    | none => s

/-- The domain of canary `d` has power (R593). -/
def State.canaryOn (s : State) (d : Nat) : Bool :=
  let off : Bool := match s.power.hib with
    | some h => h.off && (h.phase == .down || h.phase == .waking)
    | none => false
  if d = 0 then true
  else if off then false
  else if 3 ≤ d ∧ d ≤ 10 then !(s.bitOn R.PWR_STATUS_gated (d - 3)) || s.power.gating.getLsbD (d - 3) else true

/-! ### Retention banks (R609-R612) -/

/-- The registers of the ring core, but for what the Samovar domain shows through them: the links, the rate and the node
numbers (R244), and but for a collector self-fault, which only a Steep or a Boot clears (R637, log entry 27). -/
def State.resetRingCore (s : State) : State :=
  let old := s
  let s := (((s.restoreRange 0x00000 0x30000).restoreRange 0x40000 0x60000).restoreRange 0x60000 0x60008).restoreRange 0x60018 0x60100
  let s := s.restoreRange 0x60200 0x70000
  let s := (s.wr R.RING_RATE_rate (old.rd R.RING_RATE_rate)).wr R.RING_NODE_sub_node (old.rd R.RING_NODE_sub_node)
  let s := s.wr R.TIM_STATUS_clock (old.rd R.TIM_STATUS_clock)
  let s := ((s.wr R.KET_STATUS_self_fault (old.rd R.KET_STATUS_self_fault)).wr R.KET_STATUS_self_cause
    (old.rd R.KET_STATUS_self_cause)).wr R.KET_STATUS_self_source (old.rd R.KET_STATUS_self_source)
  (List.range 4).foldl (fun (t : State) p =>
    (t.wr (R.RING_PORT_up p) (old.rd (R.RING_PORT_up p))).wr (R.RING_PORT_locked p) (old.rd (R.RING_PORT_locked p))) s

/-- Put a bank at its reset values, BS fields at their bit-stream values, its FIFOs empty (R610). -/
def State.resetBank (s : State) (b : Nat) : State :=
  match b with
  | 0 =>
    let s := s.resetRingCore
    { s with
      eccMarks := s.eccMarks.filter (fun x => x.1 != .ketMain && x.1 != .ketShadow)
      upd := { s.upd with trialNs := 0 }
      initReqs := []
      hub := { s.hub with transitions := 0 }, ring := { s.ring with rateDue := none }, cyc := {}, buckets := [],
      time := { resonator := s.time.resonator, resStart := s.time.resStart, starting := s.time.starting, lost := s.time.lost },
      kettle := { s.kettle with counted := [], masks := [], differs := [] } }
  | 1 => { s with ring := { s.ring with strainer := [] } }
  | 2 => { s with pimem := [], eccMarks := s.eccMarks.filter (fun x => decide (x.1 ≠ .pimem)) }
  | 3 => (s.resetRange 0x60008 0x60018).resetRange 0x60100 0x60200
  | 4 => { s.restoreRange 0x80000 0x90000 with pmc := {} }
  | 5 => { s.restoreRange 0x30000 0x40000 with switch := { s.switch with keys := [] } }
  | 14 =>
    let s := s.restoreRange 0x90000 0xA0000
    let s := { s with power := { s.power with scripts := [] } }
    let s := (List.range 2).foldl (fun (t : State) g => t.wr (R.PWP_GROUP_present g) (bit01 (t.group g).supply)) s
    s.portList.foldl (fun (t : State) k =>
      t.setPort k { t.port k with acc := 0, resetDue := false, condSince := none }) s
  | _ =>
    if b ≤ 9 then
      (List.range 12).foldl (fun (t : State) i =>
        let n := 12 * (b - 6) + i
        let t := t.restoreRange (0x100000 + n * 0x2000) (0x102000 + n * 0x2000)
        let t := { t with bays := { t.bays with rx := mdel t.bays.rx n, tx := mdel t.bays.tx n } }
        (List.range 8).foldl (fun (u : State) p =>
          let g := 8 * n + p
          u.setPin g { level := (u.pin g).level, pad := (u.pin g).pad, kept := true }) t) s
    else
      (List.range 4).foldl (fun (t : State) i =>
        let e := 4 * (b - 10) + i
        { t.restoreRange (0x200000 + e * 0x10000) (0x210000 + e * 0x10000) with
          engines := mdel t.engines e, eccMarks := t.eccMarks.filter (fun x => decide (x.1 ≠ .prog ∨ x.2.1 / 512 ≠ e)) }) s

/-- Whether PWR_LEGACY drops bank `b` (R612). -/
def State.bankDropped (s : State) (b : Nat) : Bool := s.on R.PWR_BANK_legacy && !s.bitOn R.PWR_BANK_mask b

/-- Bank `b` is switched on again; `lost` says that its check fails (R609-R612). -/
def State.switchOnBank (s : State) (b : Nat) (lost : Bool) : State :=
  if s.bankDropped b then (s.resetBank b).wrBit R.PWR_BANK_dropped b true
  else
    let s := s.wrBit R.PWR_BANK_dropped b false
    if lost then
      let s := ((s.resetBank b).wrBit R.PWR_BANK_lost b true).bump R.PWR_BANK_lost_events
      s.raise 0x002 (s.rd R.PWR_BANK_lost)
    else s

/-! ### Gating (R597-R600) -/

/-- Ports of bay group `d` (R11). -/
def bayPorts (d : Nat) : List Nat := [10 + 3 * d, 11 + 3 * d, 12 + 3 * d]

/-- Domain `d` counts as gated: 0-3 bay groups, 4-7 engine quads (R599, R423, R464). -/
def State.gateDomain (s : State) (d : Nat) : State :=
  let s := s.wrBit R.PWR_STATUS_gated d true
  let s := { s with power := { s.power with gating := s.power.gating ||| BitVec.ofNat 8 (2 ^ d) } }
  let s : State := if d < 4 then (bayPorts d).foldl (fun (t : State) p =>
    (t.setOutp p { t.outp p with downSince := some s.clk, holdEnded := false }).markWaited p) s else s
  if d < 4 then (s.usedPins.filter (fun g => groupOfPin g = d)).foldl State.applyPin s else s.suspendQuad (d - 4)

/-- Domain `d` is powered, its bank checked, and in use again. A domain whose power was never removed keeps everything
(R600, R609, R629, R464). -/
def State.ungateDomain (s : State) (d : Nat) (lost : Bool) : State :=
  if !s.bitOn R.PWR_STATUS_gated d then s
  else
    let off := !s.power.gating.getLsbD d
    let s := { s with power := { s.power with gating := s.power.gating &&& ~~~(BitVec.ofNat 8 (2 ^ d)) } }
    let s : State := if off then s.switchOnBank (6 + d) lost else s
    let s := s.wrBit R.PWR_STATUS_gated d false
    if d < 4 then
      let s : State := (bayPorts d).foldl (fun (t : State) p =>
        t.setOutp p { t.outp p with downSince := none, holdEnded := false }) s
      let due := s.kettle.forceDue
      let s := (List.range 12).foldl (fun (t : State) i =>
        let n := 12 * d + i
        if due.getLsbD n then
          let t := { t with kettle := { t.kettle with forceDue := t.kettle.forceDue &&& ~~~(BitVec.ofNat 48 (2 ^ n)) } }
          (t.txFlush n).clearOverload n 255
        else t) s
      (s.usedPins.filter (fun g => groupOfPin g = d)).foldl State.applyPin s
    else s.resumeQuad (d - 4)

/-- Record a refusal or an abort in a PWR_REFUSE entry (R598). -/
def State.noteRefuser (s : State) (i code element : Nat) (aborted : Bool) : State :=
  let s := if aborted then s.bump (R.PWR_REFUSE_aborted i) else s.bump (R.PWR_REFUSE_refused i)
  (s.wr (R.PWR_REFUSE_code i) code).wr (R.PWR_REFUSE_element i) element

end Sys2Proof.Machine
end

