-- ==== Sys2Proof/Machine/Wire.lean ====
section
/-!
DEFINITION. Frames and Steam words on the line: the 66-bit blocks of an optical port with their scrambler (R224, R226, R249), the
GMII octets of a 1000BASE-T1 port (R225, R250), the Ethernet frame of a tap or analysis port (R256, R257), and the words of a Steam
message with their check (R252). The commands carry frames and messages whole; these functions say what stands for them on a
line.
-/

namespace Sys2Proof.Machine

/-! ### 66-bit blocks (R224) -/

/-- A block: whether its sync header says control, and its 64 bits before scrambling, the bit sent first in bit 0. -/
structure Block where
  control : Bool
  bits : Word
  deriving DecidableEq, Repr

/-- The block of eight idle characters. -/
def idleBlock : Block := ⟨true, 0x1E⟩

/-- The error block that follows a frame closed as poisoned: eight control characters /E/ of 7 bits, 0x1E (R295). -/
def errorBlock : Block := ⟨true, BitVec.ofNat 64 (0x1E + (List.range 8).foldl (fun v k => v + 0x1E * 2 ^ (8 + 7 * k)) 0)⟩

/-- Type of the terminate block that carries `n` octets of the frame, 0 to 7. -/
def terminateType (n : Nat) : Nat := [0x87, 0x99, 0xAA, 0xB4, 0xCC, 0xD2, 0xE1, 0xFF].getD n 0

/-- A control block of a type whose octets follow the type field; what it does not carry are idle characters. -/
def controlBlock (type : Nat) (bs : List Byte) : Block := ⟨true, BitVec.ofNat 64 (type + 256 * leNat (bs.take 7))⟩

/-- The data blocks and the terminate block of what follows the start block. The first argument bounds the walk. -/
def dataBlocks : Nat → List Byte → List Block
  | 0, _ => []
  | n + 1, bs =>
    if bs.length < 8 then [controlBlock (terminateType bs.length) bs]
    else ⟨false, bytesWord (bs.take 8)⟩ :: dataBlocks n (bs.drop 8)

/-- The blocks of a frame of at least 7 bytes: start, data, terminate. -/
def frameBlocks (bs : List Byte) : List Block :=
  controlBlock 0x78 (bs.take 7) :: dataBlocks (bs.length / 8 + 1) (bs.drop 7)

/-- The blocks of a frame that an output closes as poisoned: the error block follows its terminate block (R295). -/
def poisonedBlocks (bs : List Byte) : List Block := frameBlocks bs ++ [errorBlock]

/-- The bytes of the `n` octets above the type field of a block. -/
def blockOctets (b : Block) (n : Nat) : List Byte := leBytes n (b.bits.toNat / 256)

/-- Read what follows a start block: the bytes, and whether the frame is poisoned, since something else than data or a block with an
invalid sync header came before its terminate block (R226), or the error block directly after it (R298). -/
def readData : List (Option Block) → List Byte × Bool
  | [] => ([], true)
  | none :: rest => ((readData rest).1, true)
  | some b :: rest =>
    if !b.control then
      let (bs, bad) := readData rest
      (wordBytes b.bits ++ bs, bad)
    else
      match (List.range 8).find? (fun n => terminateType n == b.bits.toNat % 256) with
      | some n => (blockOctets b n, rest.head? == some (some errorBlock))
      | none => ([], true)

/-- Read a frame from what its line brings, `none` standing for a block whose sync header is invalid: its bytes and whether it is poisoned;
none where no start block opens it. -/
def readLine : List (Option Block) → Option (List Byte × Bool)
  | some b :: rest =>
    if b.control ∧ b.bits.toNat % 256 = 0x78 then
      let (bs, bad) := readData rest
      some (blockOctets b 7 ++ bs, bad)
    else none
  | _ => none

/-- Read a frame from blocks whose sync headers are all valid. -/
def readBlocks (bs : List Block) : Option (List Byte × Bool) := readLine (bs.map some)

/-- One bit through the scrambler 1 + x^39 + x^58 of IEEE 802.3 clause 49: the register after it, and the bit sent. -/
def scrambleBit (st : BitVec 58) (b : Bool) : BitVec 58 × Bool :=
  let o := b != (st.getLsbD 38 != st.getLsbD 57)
  ((st <<< 1) ||| BitVec.ofNat 58 (bit01 o), o)

/-- One received bit through the descrambler. -/
def descrambleBit (st : BitVec 58) (b : Bool) : BitVec 58 × Bool :=
  ((st <<< 1) ||| BitVec.ofNat 58 (bit01 b), b != (st.getLsbD 38 != st.getLsbD 57))

/-- Bits, the first one first, through a scrambler or descrambler. -/
def throughBits (f : BitVec 58 → Bool → BitVec 58 × Bool) : BitVec 58 → List Bool → BitVec 58 × List Bool
  | st, [] => (st, [])
  | st, b :: bs =>
    let (st, o) := f st b
    let (st, os) := throughBits f st bs
    (st, o :: os)

/-- The 66 bits of a block as sent, the first one first: the sync header, which is not scrambled, then the scrambled bits. -/
def Block.line (st : BitVec 58) (b : Block) : BitVec 58 × List Bool :=
  let (st, bits) := throughBits scrambleBit st ((List.range 64).map b.bits.getLsbD)
  (st, b.control :: (!b.control) :: bits)

/-- The block that 66 received bits stand for; none where the sync header is invalid. -/
def Block.ofLine (st : BitVec 58) (bits : List Bool) : BitVec 58 × Option Block :=
  let (st, clear) := throughBits descrambleBit st (bits.drop 2)
  let w : Word := BitVec.ofNat 64 ((clear.zipIdx).foldl (fun v b => v + bit01 b.1 * 2 ^ b.2) 0)
  match bits.take 2 with
  | [true, false] => (st, some ⟨true, w⟩)
  | [false, true] => (st, some ⟨false, w⟩)
  | _ => (st, none)

/-! ### GMII octets (R225) and Ethernet frames (R256, R257) -/

/-- An octet of the GMII with its signals TX_EN and TX_ER, or on the receiving side RX_DV and RX_ER. -/
structure Octet where
  en : Bool
  er : Bool
  data : Byte
  deriving DecidableEq, Repr

/-- A frame as octets of the GMII: preamble, SFD, the frame; TX_ER is asserted during the last octet of a poisoned one (R225, R296). -/
def gmiiOctets (bs : List Byte) (poisoned : Bool) : List Octet :=
  let os := (List.replicate 7 0x55 ++ [0xD5] ++ bs).map (Octet.mk true false)
  if poisoned then os.dropLast ++ (os.getLast?.map (fun o => { o with er := true })).toList else os

/-- The frame that octets of the GMII carry, and whether it is poisoned, since a receive error was asserted in it (R226). -/
def readGmii (os : List Octet) : Option (List Byte × Bool) :=
  if os.all (·.en) ∧ (os.take 8).map (·.data) = List.replicate 7 0x55 ++ [0xD5] then
    some ((os.drop 8).map (·.data), os.any (·.er))
  else none

/-- What the frame check sequence of an Ethernet frame on a tap or analysis port covers: addresses, EtherType and the frame without its
CRC-32. -/
def ethernetBody (dst src : BitVec 48) (etherType : BitVec 16) (f : Frame) : List Byte :=
  beBytes 6 dst.toNat ++ beBytes 6 src.toNat ++ beBytes 2 etherType.toNat ++ f.header ++ f.payload

/-- The frame check sequence. -/
def ethernetFcs (dst src : BitVec 48) (etherType : BitVec 16) (f : Frame) : BitVec 32 := crc32 (ethernetBody dst src etherType f)

/-- The Ethernet frame of a tap or analysis port. -/
def ethernetFrame (dst src : BitVec 48) (etherType : BitVec 16) (f : Frame) : List Byte :=
  ethernetBody dst src etherType f ++ leBytes 4 (ethernetFcs dst src etherType f).toNat

/-! ### Steam words (R249, R250, R252) -/

/-- The 64 bits of the idle block that a Steam word replaces: type 0x1E, C0 0x55, first, payload. -/
def SteamWord.block (w : SteamWord) : Block :=
  ⟨true, BitVec.ofNat 64 (0x1E + 0x55 * 2 ^ 8 + bit01 w.first * 2 ^ 15 + leNat (w.payload.take 6) * 2 ^ 16)⟩

/-- The Steam word of a block; none where the block carries none. -/
def steamOfBlock (b : Block) : Option SteamWord :=
  if b.control ∧ b.bits.toNat % 2 ^ 15 = 0x1E + 0x55 * 2 ^ 8 then
    some ⟨b.bits.getLsbD 15, leBytes 6 (b.bits.toNat / 2 ^ 16)⟩
  else none

/-- The 8 octets of a Steam word on 1000BASE-T1, in the interframe gap: TX_ER is high with the first alone (R250; DEDUCED, log entry
30: the manual gives the signals of the first octet). -/
def SteamWord.octets (w : SteamWord) : List Octet :=
  ⟨false, true, 0x5A⟩ :: ([BitVec.ofNat 8 (bit01 w.first)] ++ w.payload).map (Octet.mk false false)

/-- The Steam word of 8 octets: the first one's signals and value mark it, and the other bits of the second are zero (R250). -/
def steamOfOctets (os : List Octet) : Option SteamWord :=
  match os with
  | a :: b :: rest =>
    if a = ⟨false, true, 0x5A⟩ ∧ b.data.toNat < 2 ∧ rest.length = 6 then some ⟨b.data.getLsbD 0, rest.map (·.data)⟩ else none
  | _ => none

/-- Bytes in words of six, the last one padded with zeros. -/
def sixes : Nat → List Byte → List (List Byte)
  | 0, _ => []
  | n + 1, bs => if bs.isEmpty then [] else slice bs 0 6 :: sixes n (bs.drop 6)

end Sys2Proof.Machine

namespace Sys2Proof

open Sys2Proof.Machine

/-- The payload bytes that the check word covers: header, body, padding (R252), those of a word from byte 0, the least significant, on
(DESIGN CHOICE, log entry 76). -/
def SteamMsg.covered (m : SteamMsg) : List Byte :=
  [m.seq, BitVec.ofNat 8 m.body.length, m.hops, m.dst, m.src, m.type] ++ (sixes m.body.length m.body).flatten

/-- The check word that the message calls for. -/
def SteamMsg.checkOf (m : SteamMsg) : BitVec 48 := (crc16 m.covered).zeroExtend 48

/-- The message passes its check: bytes 1 and 0 of its check word are the CRC-16, its other bytes are zero. -/
def SteamMsg.intact (m : SteamMsg) : Bool := m.check == m.checkOf

/-- The message with its check word computed. -/
def SteamMsg.seal (m : SteamMsg) : SteamMsg := { m with check := m.checkOf }

/-- The words of a message: header, body, check. -/
def SteamMsg.words (m : SteamMsg) : List SteamWord :=
  (sixes (m.covered.length) m.covered).zipIdx.map (fun w => ⟨w.2 == 0, w.1⟩) ++ [⟨false, leBytes 6 m.check.toNat⟩]

/-- The message that words spell; none where they spell none. -/
def readSteam (ws : List SteamWord) : Option SteamMsg :=
  match ws with
  | ⟨true, [seq, len, hops, dst, src, type]⟩ :: rest =>
    if len.toNat ≤ 48 ∧ rest.length = (len.toNat + 5) / 6 + 1 ∧ rest.all (fun w => !w.first) then
      some ⟨type, src, dst, hops, seq, ((rest.dropLast.map (·.payload)).flatten).take len.toNat,
        BitVec.ofNat 48 (leNat ((rest.getLast?.map (·.payload)).getD []))⟩
    else none
  | _ => none

end Sys2Proof
end

