-- ==== Sys2Proof/Machine/Steam.lean ====
section
/-!
DEFINITION. Sending on the Steam channel: messages, their words, the queues of the ports, reports (R249-R254).
-/

namespace Sys2Proof.Machine

/-- The Steam queue of port `p`. -/
def State.steam (s : State) (p : Nat) : List SteamOut := mget [] s.ring.steamQ p

def State.setSteam (s : State) (p : Nat) (q : List SteamOut) : State :=
  { s with ring := { s.ring with steamQ := mput [] s.ring.steamQ p q } }

/-- Put a forwarded message behind the forwarded ones and before the node's own, but not before one of which words have left
(R253). -/
def insertForwarded (x : SteamOut) : List SteamOut → List SteamOut
  | [] => [x]
  | y :: rest => if y.begun ∨ !y.own then y :: insertForwarded x rest else x :: y :: rest

/-- Queue a message at port `p`; words beyond the 64 of the queue are dropped and counted (R253). -/
def State.queueSteam (s : State) (p : Nat) (m : SteamMsg) (own : Bool) : State :=
  let q := s.steam p
  let used := q.foldl (fun n x => n + x.words.length) 0
  let ws := m.words.take (64 - used)
  let s := s.bumpBy R.RING_STEAM_tx_drop (m.words.length - ws.length)
  if ws.isEmpty then s
  else
    let x : SteamOut := { own := own, words := ws }
    s.setSteam p (if own then q ++ [x] else insertForwarded x q)

/-- Send the next word of port `p`, at most one every 4.8 µs on an optical link and every 24 µs on a 1000BASE-T1 link, and between
frames only (R251). -/
def State.drainSteam (s : State) (p : Nat) : State :=
  match s.steam p with
  | [] => s
  | x :: rest =>
    if mget 0 s.ring.steamNext p ≤ s.clk ∧ (s.outp p).busyUntil ≤ s.clk then
      let gap := if p < 2 ∧ s.optical then 4800 else 24000
      let s := { s with ring := { s.ring with
        steamNext := mput 0 s.ring.steamNext p (s.clk + gap)
        steamSent := mput none s.ring.steamSent p x.words.head? } }
      let left := x.words.drop 1
      s.setSteam p (if left.isEmpty then rest else { x with words := left, begun := true } :: rest)
    else s

/-- A Steam word that waits at ring port `p` leaves in the idle block, or the gap, before the next frame, so that full load does not hold
it up (R251). -/
def State.steamFirst (s : State) (p : Nat) : State := if p < 4 then s.drainSteam p else s

/-- Ports that carry Steam words: the ring ports and those of a sub-ring (R250, R258). -/
def State.steamPorts (s : State) : List Nat := if s.hasSub then [0, 1, 2, 3] else [0, 1]

/-- Send a message of the hub's own through some ports: source node, hop count 0, and the next message sequence (R252). -/
def State.sendSteam (s : State) (type : Byte) (dst : Byte) (body : List Byte) (ports : List Nat) : State :=
  let seq := s.ring.steamSeq
  let s := { s with ring := { s.ring with steamSeq := seq + 1 } }
  ports.foldl (fun (t : State) p =>
    t.queueSteam p (SteamMsg.seal ⟨type, BitVec.ofNat 8 (t.nodeOf p), dst, 0, seq, body, 0⟩) true) s

/-- Send a REPORT (R254). -/
def State.report (s : State) (code data : Nat) : State :=
  s.sendSteam 4 0xFF (leBytes 2 code ++ leBytes 4 data) s.steamPorts

end Sys2Proof.Machine
end

