-- ==== Sys2Proof/Machine/Mode.lean ====
section
/-!
DEFINITION. Changing the mode (R15-R36): what every change does, the start of a Steep, entry to Boot, exits from Doze, and
refused requests (R21, R213).
-/

namespace Sys2Proof.Machine

/-- The mode codes of 01, "Operating modes". -/
def Mode.code : Mode → Nat
  | .boot => 0
  | .steep => 1
  | .quarantine => 2
  | .run => 3
  | .runDegraded => 4
  | .island => 5
  | .safe => 6
  | .doze => 7
  | .hibernate => 8
  | .update => 9
  | .trial => 10
  | .test => 11

/-! ### Scripts and coupler -/

def State.script (s : State) (i : Nat) : Script := mget {} s.power.scripts i
def State.setScript (s : State) (i : Nat) (x : Script) : State :=
  { s with power := { s.power with scripts := mput {} s.power.scripts i x } }

/-- Script `i` becomes IDLE (R580). -/
def State.stopScript (s : State) (i : Nat) : State := (s.setScript i {}).wr (R.PWP_SEQ_STAT_state i) 0

/-- Start script `i` at its entry, unless it has none or is RUNNING or WAITING (R580). -/
def State.startScript (s : State) (i : Nat) : State :=
  let st := s.rd (R.PWP_SEQ_STAT_state i)
  if !s.on (R.PWP_SEQ_STAT_defined i) ∨ st = 1 ∨ st = 2 then s
  else ((s.setScript i {}).wr (R.PWP_SEQ_STAT_pc i) (s.rd (R.PWP_SEQ_STAT_entry i))).wr (R.PWP_SEQ_STAT_state i) 1

/-- What a change of mode does to the scripts (R580). -/
def State.scriptModeChange (s : State) : State :=
  if !s.hasPower then s
  else
    let stop := match s.hub.mode with
      | .boot => true
      | .steep => true
      | .update => true
      | .hibernate => true
      | .test => true
      | _ => false
    if stop then (List.range 4).foldl State.stopScript s
    else if s.autostarts then
      (List.range 4).foldl (fun (t : State) i => if t.bitOn R.PWP_SEQ_CTRL_autostart i then t.startScript i else t) s
    else s

/-- Modes in which a coupler of role 1 is eligible (R267). -/
def cplMode (m : Mode) : Bool :=
  match m with
  | .run => true
  | .runDegraded => true
  | .trial => true
  | .safe => true
  | .doze => true
  | .island => true
  | .boot => false
  | .steep => false
  | .quarantine => false
  | .hibernate => false
  | .update => false
  | .test => false

/-- The coupler is eligible (R267). -/
def State.cplEligible (s : State) : Bool :=
  s.isCoupler && !s.hub.held && !s.hub.rstLow && cplMode s.hub.mode && s.rd R.RING_CPL_role == 1

/-- Set the coupler's state and whether it drives CPL_ILK low. -/
def State.setCpl (s : State) (state : Nat) (drive : Bool) : State :=
  { s with ring := { s.ring with cpl := { s.ring.cpl with state := state, drive := drive, highSince := none, faulted := false } } }

/-- The coupler releases the line for `state`; a gateway has its new role to declare in its next heartbeat (R267). -/
def State.releaseLine (s : State) (state : Nat) : State :=
  let t := s.setCpl state false
  { t with ring := { t.ring with cpl := { t.ring.cpl with yielded := t.ring.cpl.yielded || s.ring.cpl.state == 2 } } }

/-- The coupler becomes ineligible or eligible again with the mode and its role (R267). State 0: no coupler. -/
def State.cplModeChange (s : State) : State :=
  if !s.isCoupler ∨ s.rd R.RING_CPL_role = 0 then (if s.ring.cpl.state = 0 then s else s.setCpl 0 false)
  else if !s.cplEligible then (if s.ring.cpl.state = 4 then s else s.releaseLine 4)
  else if s.ring.cpl.state = 4 ∨ s.ring.cpl.state = 0 then s.setCpl 1 false
  else s

/-- The coupler follows a change of mode; when its logic comes into use, the count of its partner's missing heartbeats begins. -/
def State.cplFollowMode (s : State) : State :=
  let t := s.cplModeChange
  if s.ring.cpl.state = 0 ∧ t.ring.cpl.state ≠ 0 then
    { t with ring := { t.ring with cpl := { t.ring.cpl with since := t.clk, hbMain := none, hbSub := none, yielded := false } } }
  else t

/-! ### The change itself -/

/-- TOP_MODE changes to `m` by row `row`: every test drive has ended (R28), and outputs, ports, contexts, scripts, coupler and core
voltage follow (R15, R17, R455, R461, R462, R555, R580, R592). -/
def State.setMode (s : State) (m : Mode) (row : Nat) : State :=
  let old := s.hub.mode
  let s := s.keepEffective
  let s := { s with hub := { s.hub with
    mode := m, prev := old, row := row, transitions := min (s.hub.transitions + 1) (2 ^ 32 - 1), modeTime := s.now,
    enteredAt := s.clk, testPins := [], testPorts := [] } }
  let s := (s.applyPins.refreshIsolators.refreshPorts).ctxModeChange old
  ((s.scriptModeChange.cplFollowMode).vsiSettle 2).endRisk

/-- Every queued frame is freed and every leaf returns to the free list (R306), the segments that bay-group ports hold at the head
of their outputs (R447) among them; `counted`: the drops count as HOLD. The keys of the resequencer stay, and hold no frame. -/
def State.emptyCaddy (s : State) (counted : Bool) : State :=
  let s := if counted then
    (List.range 24).foldl (fun (t : State) p =>
      let t := (s.outp p).queue.foldl (fun (u : State) _ => u.countDrop p 5) t
      if 10 ≤ p ∧ p ≤ 21 ∧ (mget none s.bays.held (p - 10)).isSome then t.countDrop p 5 else t) s else s
  let keys := s.switch.keys.map (fun (k : Key) =>
    if s.switch.frames.any (fun f => f.held.any (fun h => k.is h.1 f.frame)) then { k with idleSince := s.clk } else k)
  let s := { s with
    switch := { s.switch with frames := [], leaked := [], failed := [], keys := keys }
    bays := { s.bays with held := [] } }
  (List.range 24).foldl (fun (t : State) p =>
    let o := t.outp p
    t.setOutp p { o with queue := [], resUsed := 0, shUsed := 0, riskSince := none }) (s.wr R.CAD_RISK_at_risk 0)

/-- The reserves of R326. -/
def defaultReserve (p : Nat) : Nat := if p < 2 then 64 else if p = 22 then 0 else 16

/-- The originating classes of R326. -/
def defaultClass (p : Nat) : Nat :=
  match p with
  | 4 => 6
  | 5 => 4
  | 6 => 4
  | 7 => 7
  | 8 => 2
  | 9 => 5
  | 22 => 0
  | 23 => 0
  | p => if p < 4 then 0 else 3

/-- The switch core as R326 and R327 give it without sections 0x0007 and 0x0008. -/
def State.switchDefaults (s : State) : State :=
  let s := (s.resetRange 0x31000 0x32000).resetRange 0x34000 0x40000
  let s := ((s.wr R.SWC_CTRL_reseq 0).wr R.SWC_CTRL_mirror 0).wr R.SWC_RESEQ_window 0
  let s := s.wr R.SWC_GUARD_enable 0
  (List.range 24).foldl (fun (t : State) p =>
    let t := (((t.wr (R.SWC_PORT_mirror_out p) 0).wr (R.SWC_PORT_mirror_in p) 0).wr (R.SWC_PORT_hold p) 2000).wr
      (R.SWC_PORT_orig_class p) (defaultClass p)
    let t := (((t.wr (R.SWC_ADMIT_reserve p) (defaultReserve p)).wr (R.SWC_ADMIT_lo p) 64).wr (R.SWC_ADMIT_hi p) 16384).wr
      (R.SWC_ADMIT_alpha p) 16
    (t.wr (R.SIV_ENTRY_default p) 1).wr (R.SIV_ENTRY_entry p) 0) s

/-- The Strainer of both rings is emptied (R240). -/
def State.emptyStrainer (s : State) : State :=
  ({ s with ring := { s.ring with strainer := [] } }).bump R.STR_STATUS_resets

/-- KET_STATUS no longer shows a collector self-fault (R637). -/
def State.clearSelfFault (s : State) : State :=
  ((s.wr R.KET_STATUS_self_fault 0).wr R.KET_STATUS_self_cause 0).wr R.KET_STATUS_self_source 0

/-- No edge has been accepted since the Steep (R516). -/
def State.clearEdges (s : State) : State :=
  s.bays.pins.foldl (fun (t : State) kv => t.setPin kv.1 { t.pin kv.1 with edges := [], coming := [] }) s

/-- The end of a verification or building that a Steep or Boot cuts short (R675). -/
def State.endVerification (s : State) : State :=
  if s.rd R.UPD_STATUS_state = 2 ∨ s.rd R.UPD_STATUS_state = 3 then (s.wr R.UPD_STATUS_state 1).wr R.UPD_STATUS_progress 0 else s

/-- Enter Steep from source `src` (0 slot A, 1 slot B, 2 staging) by a row: step 1 of R121, with R234, R240, R306, R438,
R560, R637, R639. -/
def State.startSteep (s : State) (src row : Nat) : State :=
  let s := s.endVerification.setMode .steep row
  let s := { s with hub := { s.hub with steepSrc := src, steepAt := s.clk } }
  let s := ((s.wr R.STP_LOADED_build 0).wr R.STP_LOADED_epoch 0).wr R.STP_STATUS_source 3
  let s := (List.range 4).foldl (fun (t : State) i => t.wr (R.STP_DIGEST_digest i) 0) s
  let s := ((s.emptyStrainer.emptyCaddy false).switchDefaults.clearFifos.clearPortMarks).clearSelfFault
  let s := { s with
    kettle := { s.kettle with selfFault := false }
    switch := { s.switch with keys := [] }
    ring := { s.ring with seqMain := 0, seqSub := 0, restartAt := s.clk }
    cyc := { misses := s.cyc.misses }
    time := { s.time with io := s.time.io.map (fun (x : Nat × TimeIo) => (x.1, x.2.idle)) } }
  (s.clearEdges.wr R.KET_ERRPIN_armed 1).wr R.KET_ERRPIN_drive 0

/-- Enter Boot by a row: no access table is in force, pending seal and epoch are discarded, and KET_STATUS no longer shows a collector
self-fault (R155, R637, R702). -/
def State.enterBoot (s : State) (row : Nat) : State :=
  let s := (s.endVerification.setMode .boot row).clearSelfFault
  { s with hub := { s.hub with
    accessTable := false, pendSeal := none, pendEpoch := none, window := false, bootFail := false,
    retried := s.hub.retried && row == 5, nextSlot := if row = 5 then s.hub.nextSlot else none } }

/-- Leave Doze for `m` by a row (R600): the domains are powered again and the core voltage is at least run_floor before
TOP_MODE changes, and a voltage that is not known is requested too. A gating in progress stops and is counted. A trigger that
meets an exit in progress changes its target (R36), and with it the row that the stopped gatings name. -/
def State.leaveDoze (s : State) (m : Mode) (row : Nat) : State :=
  match s.power.exit with
  | some x =>
    let s := (List.range 8).foldl (fun (t : State) d =>
      if x.aborted.getLsbD d then t.wr (R.PWR_REFUSE_element d) row else t) s
    { s with power := { s.power with exit := some { x with mode := m, row := row } } }
  | none =>
    let s := (List.range 8).foldl (fun (t : State) d =>
      if s.power.gating.getLsbD d then t.noteRefuser d 0x11 row true else t) s
    let floor := s.rd R.PWR_WINDOW_run_floor
    let ready := decide (floor ≤ s.coreMv) && !s.power.mvUnknown
    let s := if ready then s else s.vsiRequest ⟨floor, 2, true⟩
    { s with power := { s.power with exit := some ⟨m, row, s.clk, ready, s.power.gating⟩ } }

/-- Change to `m` by a row: at once, or through the exit from Doze. -/
def State.changeMode (s : State) (m : Mode) (row : Nat) : State :=
  if s.hub.mode = .doze then s.leaveDoze m row else s.setMode m row

/-- The mode that the trigger before has left (R36). -/
def State.arbMode (s : State) : Mode :=
  match s.hub.mode, s.power.exit with
  | .doze, some x => x.mode
  | m, _ => m

/-- Record a refused mode request (R21, R213): reason codes of TOP_MODE_REFUSED. -/
def State.refuseMode (s : State) (who : Requester) (code reason : Nat) : State :=
  let r := if who.level = .localLevel then 4 else who.master.val
  ((((s.bump R.TOP_MODE_REFUSED_count).wr R.TOP_MODE_REFUSED_requester r).wr R.TOP_MODE_REFUSED_reason reason).wr
    R.TOP_MODE_REFUSED_requested code).wr R.TOP_MODE_REFUSED_at_mode s.hub.mode.code

/-- Rows 26 and 27: to Safe, where R20 lists it (R25-R27); whether it was done. -/
def State.kettleSafe (s : State) (row : Nat) : State × Bool :=
  match s.arbMode with
  | .run => (s.changeMode .safe row, true)
  | .runDegraded => (s.changeMode .safe row, true)
  | .island => (s.changeMode .safe row, true)
  | .doze => (s.changeMode .safe row, true)
  | .trial => (s.changeMode .safe row, true)
  | .test => if s.hub.testFromBoot then (s, false) else (s.changeMode .safe row, true)
  | .boot => (s, false)
  | .steep => (s, false)
  | .quarantine => (s, false)
  | .safe => (s, false)
  | .hibernate => (s, false)
  | .update => (s, false)

/-- Row 17, 18 or 19: both ring directions are lost, or no master has been heard within the island timeout. -/
def State.ringOrMastersLost (s : State) : State :=
  match s.arbMode with
  | .run => s.changeMode (if s.on R.RING_ISLAND_enable then .island else .safe) (if s.on R.RING_ISLAND_enable then 17 else 18)
  | .runDegraded => s.changeMode (if s.on R.RING_ISLAND_enable then .island else .safe) (if s.on R.RING_ISLAND_enable then 17 else 18)
  | .doze => s.changeMode (if s.on R.RING_ISLAND_enable then .island else .safe) (if s.on R.RING_ISLAND_enable then 17 else 18)
  | .trial => s.changeMode .safe 19
  | _ => s

/-- Rows 15 to 19 as the ring link monitor drives them (R247): the ports up now decide, at a change of a link and on entry to
a mode. -/
def State.ringMonitor (s : State) : State :=
  let up0 := s.on (R.RING_PORT_up 0)
  let up1 := s.on (R.RING_PORT_up 1)
  if !up0 ∧ !up1 then s.ringOrMastersLost
  else if up0 ∧ up1 then (if s.hub.mode = .runDegraded then s.setMode .run 16 else s)
  else if s.hub.mode = .run then s.setMode .runDegraded 15
  else s

/-- The ring link monitor will act after the Kettle's reactions to the command (R35): `State.settle` has it act. -/
def State.askRing (s : State) : State := { s with hub := { s.hub with ringDue := true } }

/-! ### Links that go down (R18, R246, R302, R305) -/

/-- Link state of a port. -/
def State.link (s : State) (p : Nat) : Link := mget {} s.ring.links p

def State.setLink (s : State) (p : Nat) (l : Link) : State := { s with ring := { s.ring with links := mput {} s.ring.links p l } }

/-- A frame on the line of port `p` ends with the link (R305). -/
def State.cutFrame (s : State) (p : Nat) : State :=
  let o := s.outp p
  let on_line := o.sending && decide (s.clk < o.busyUntil)
  let s := s.setOutp p { o with downSince := some s.clk, holdEnded := false, sending := false, busyUntil := min o.busyUntil s.clk }
  (if on_line then s.countDrop p 6 else s).markWaited p

/-- A link of port `p` has changed: the ring link monitor will act on ports 0 and 1 (R35, R247). -/
def State.noteRing (s : State) (p : Nat) : State := if p < 2 then s.askRing else s

/-- Port `p` declares its link down: the transition is counted and raised (R246), the ring link monitor acts on ports 0 and 1
(R247), and the reference of the counter follows (R363). -/
def State.linkDown (s : State) (p : Nat) : State :=
  if !s.on (R.RING_PORT_up p) then s
  else
    let s := (((s.wr (R.RING_PORT_up p) 0).bump (R.RING_PORT_downs p)).raise (0x010 + p)).cutFrame p
    let s := s.setLink p { s.link p with downSince := some s.clk }
    (s.noteRing p).refreshClock

end Sys2Proof.Machine
end

