-- ==== Sys2Proof/Machine/Kettle.lean ====
section
/-!
DEFINITION. The Kettle (16_kettle_faults.md): intake of the events raised by a command, the records, ERR_N, notices, reactions
and dependent masks. `State.settle` runs it at the end of every command; `done` is how every command ends.
-/

namespace Sys2Proof.Machine

/-- Ranges of listed source numbers (R618). -/
def sourceRanges : List (Nat × Nat) :=
  [(0x000, 12), (0x010, 14), (0x020, 7), (0x030, 5), (0x040, 8), (0x050, 10), (0x060, 8), (0x080, 96), (0x100, 80), (0x180, 64)]

/-- The source exists in this variant (R618, R619). -/
def State.srcPresent (s : State) (i : Nat) : Bool :=
  sourceRanges.any (fun r => decide (r.1 ≤ i ∧ i < r.1 + r.2)) &&
  !(s.variant == .c3248 && [0x012, 0x013, 0x016, 0x017, 0x01A, 0x01B, 0x021, 0x023, 0x024, 0x025, 0x026, 0x058, 0x059].contains i) &&
  !(s.variant == .l3224 && (i == 0x005 || i == 0x062 || i == 0x063 || decide (0x064 ≤ i ∧ i ≤ 0x067) ||
    decide (0x098 ≤ i ∧ i ≤ 0x0AF) || decide (0x0C8 ≤ i ∧ i ≤ 0x0DF) || decide (0x180 ≤ i ∧ i ≤ 0x1BF)))

/-- Temperature sources (R619): the threshold is a reading, and the unit that reads it decides when they fire. -/
def tempSource (i : Nat) : Bool := decide (3 ≤ i ∧ i ≤ 5)

/-! ### Masks (R631-R633) -/

/-- The mask covers source `i` now. -/
def Mask.covers (m : Mask) (clk i : Nat) : Bool :=
  m.list.contains i && (match m.doneAt with
    | none => true
    | some t => decide (clk < t + m.settle * 1000))

/-- Source `i` is masked (R633). -/
def State.masked (s : State) (i : Nat) : Bool := s.kettle.masks.any (fun m => m.covers s.clk i)

/-- Sources of dependency list `l`, without absent ones (R640, R641). -/
def State.depList (s : State) (l : Nat) : List Nat :=
  (List.range 16).filterMap (fun k =>
    let e := fget (s.word (R.KET_DEP (4 * l + k / 4))) (16 * (k % 4)) 16
    if bitAt e 15 ∧ s.srcPresent (e % 512) then some (e % 512) else none)

/-- The link of a source of a ring or spur port (R628). -/
def linkSource (i : Nat) : Bool := decide (0x010 ≤ i ∧ i ≤ 0x01D)

/-- The reaction of source `src` is complete (R628, R631). -/
def State.reactionDone (s : State) (src : Nat) : Bool :=
  match s.rd (R.KET_SRC_reaction src) with
  | 2 =>
    if linkSource src then
      (s.link (src % 4)).txOffSince.isNone && s.on (R.RING_PORT_up (src % 4))
    else if 0x180 ≤ src then s.rd (R.PWP_STAT_state (src % 32)) != 4
    else true
  | 3 => s.hub.mode == .safe || s.hub.mode == .quarantine
  | _ => true

/-- Note the reactions that have completed. -/
def State.noteDone (s : State) : State :=
  { s with kettle := { s.kettle with masks := s.kettle.masks.map (fun m =>
      match m.doneAt with
      | some _ => m
      | none => if s.reactionDone m.src then { m with doneAt := some s.clk } else m) } }

/-- Mask the list that source `src` names (R631). -/
def State.startMasks (s : State) (src : Nat) : State :=
  let l := s.rd (R.KET_SRC_dep src)
  if 64 ≤ l then s
  else
    let m : Mask := ⟨src, s.depList l, s.rd (R.KET_SETTLE_settle l), none⟩
    { s with kettle := { s.kettle with masks := s.kettle.masks ++ [m] } }

/-! ### Reactions (R626-R630) -/

/-- Modes in which reactions and notices are taken (R630). -/
def State.reacts (s : State) : Bool :=
  match s.hub.mode with
  | .run => true
  | .runDegraded => true
  | .island => true
  | .doze => true
  | .trial => true
  | .safe => true
  | .quarantine => true
  | .test => !s.hub.testFromBoot
  | .boot => false
  | .steep => false
  | .hibernate => false
  | .update => false

/-- A block reset of the source's target; none where the target is in a gated domain (R628, R630). -/
def State.blockReset (s : State) (src : Nat) : Option State :=
  if linkSource src then
    let p := src % 4
    match (s.link p).txOffSince with
    | some _ => some s
    | none => some ((s.setLink p { s.link p with txOffSince := some s.clk }).linkDown p)
  else if 0x180 ≤ src then some (s.resetPort (src % 32))
  else if 0x100 ≤ src then
    let e := src % 16
    if s.quadGated (e / 4) then none else some (s.resetEngine e)
  else
    let n := if src < 0x0B0 then src - 0x080 else src - 0x0B0
    if s.groupGated (n / 12) then none else some ((s.rxFlush n).txFlush n)

/-- Bays that a force names (R626). -/
def forcedBays (src arg : Nat) : List Nat :=
  if arg = 0xFF then [if src < 0x0B0 then src - 0x080 else src - 0x0B0]
  else (List.range 48).filter (fun n => bitAt arg (n / 12))

/-- Take the reaction of a recorded event: the state, and whether it was taken. -/
def State.react (s : State) (src : Nat) : State × Bool :=
  let arg := s.rd (R.KET_SRC_arg src)
  match s.rd (R.KET_SRC_reaction src) with
  | 2 =>
    match s.blockReset src with
    | some t => (t, true)
    | none => (s, false)
  | 3 => if s.arbMode = .safe then (s, true) else s.kettleSafe 26
  | 4 =>
    ((List.range 2).foldl (fun (t : State) g =>
      if bitAt arg g ∧ (t.group g).iso ≠ .opened then t.openIsolator g 2
      else if bitAt arg g then t.wr (R.PWP_GROUP_opened_by g) (max (t.rd (R.PWP_GROUP_opened_by g)) 2) else t) s, true)
  | 5 =>
    ((forcedBays src arg).foldl (fun (t : State) n =>
      if n < t.nBays then t.forceBay n else t) s, true)
  | _ => (s, true)

/-! ### Records (R622-R624, R638) -/

/-- The A word of a record (KET_FIRST_A). -/
def recordA (sev mode src seq data : Nat) : Word :=
  BitVec.ofNat 64 (2 ^ 63 + sev * 2 ^ 61 + mode * 2 ^ 57 + src * 2 ^ 48 + seq * 2 ^ 32 + data % 2 ^ 32)

/-- The T word of a record. -/
def recordT (seq : Nat) (t : Word) : Word := BitVec.ofNat 64 (seq * 2 ^ 48 + t.toNat % 2 ^ 48)

/-- Record a granted event in the first-error record and the history; also its history entry. -/
def State.recordEvent (s : State) (sev src data : Nat) : State × Nat :=
  let seq := s.kettle.seq.toNat
  let a := recordA sev s.hub.mode.code src seq data
  let t := recordT seq s.now
  let s := { s with kettle := { s.kettle with seq := s.kettle.seq + 1, grantAt := some s.clk } }
  let s := if s.on R.KET_FIRST_A_valid then s else (s.setWord R.KET_FIRST_A a).setWord R.KET_FIRST_T t
  let i := (s.rd R.KET_HIST_HEAD_newest + 1) % 16
  let s := if s.on (R.KET_HIST_A_valid i) then s.bump R.KET_HIST_HEAD_overwritten else s
  let s := (s.setWord (R.KET_HIST_A i) a).setWord (R.KET_HIST_T i) t
  ((s.wr R.KET_HIST_HEAD_newest i).wr R.KET_HIST_HEAD_seq seq, i)

/-- The pulse on ERR_N (R638). The pulse ends between 50 and 60 µs after this time, with ERR_N_PULSE_END. -/
def State.pulse (s : State) (sev : Nat) : State :=
  if 2 ≤ sev ∧ s.on R.KET_ERRPIN_armed then
    { s.wr R.KET_ERRPIN_armed 0 with kettle := { s.kettle with pulseEnd := some (s.clk + 50000) } }
  else s

/-! ### Trial policy (R684, R688, R689) -/

/-- Fields of the record in force of a settings copy; an empty copy has no record. -/
def Settings.used (x : Settings) : Bool := x.cur.isSome
def Settings.seq (x : Settings) : Nat := (x.cur.map (·.seq)).getD 0
def Settings.version (x : Settings) : Nat := (x.cur.map (·.version)).getD 0
def Settings.epoch (x : Settings) : Nat := (x.cur.map (·.epoch)).getD 0
def Settings.sealWord (x : Settings) : Word := (x.cur.map (·.sealWord)).getD 0
def Settings.body (x : Settings) : SetBody := (x.cur.map (·.body)).getD {}
def Settings.policy (x : Settings) : Word := x.body.policy

/-- The records of half `h`. -/
def Settings.places (x : Settings) (h : Bool) : List (Option SetRec) := if h then x.high else x.low

/-- Records in the half in use. -/
def Settings.records (x : Settings) : Nat := (x.places x.half).length

/-- The settings copy of slot `b`. -/
def State.settingsOf (s : State) (b : Bool) : Settings := if b then s.upd.copy1 else s.upd.copy0

/-- The trial policy where no record holds one: the defaults of R688 and R689, and log entry 7. -/
def defaultPolicy : Word := pack [(48, 10), (42, 2), (16, 60)]

/-- The trial policy in force. -/
def State.policy (s : State) : Word :=
  let c := s.settingsOf s.upd.running
  if c.used then c.policy else defaultPolicy

/-- A granted event of the confirming severity restarts the dwell of a trial (R689). -/
def State.noteSevere (s : State) (sev : Nat) : State :=
  if fget s.policy 42 2 ≤ sev then { s with upd := { s.upd with lastSevere := s.clk } } else s

/-- Grant a firing: record it, signal it, tell the masters and react (R622-R630, R636). -/
def State.grant (s : State) (src data : Nat) : State :=
  let sev := s.rd (R.KET_SRC_severity src)
  let reaction := s.rd (R.KET_SRC_reaction src)
  let t := s.now
  let (s, i) := s.recordEvent sev src data
  let s := ((s.pulse sev).bump (R.KET_CNT_count sev)).pmcEv 9 sev 0
  let s := s.noteSevere sev
  if s.kettle.selfFault then s
  else if !s.reacts then (if reaction = 0 then s else s.bump (R.KET_CNT_count 7))
  else
    let s := if reaction = 0 then s
      else s.notices 9 (s.rd (R.KET_SRC_masters src)) ⟨0x06, i, src + sev * 2 ^ 16, BitVec.ofNat 64 (data % 2 ^ 32), t⟩
    if reaction < 2 then s
    else
      match s.react src with
      | (s, true) => ((s.startMasks src).bump (R.KET_CNT_count 5)).pmcEv 9 5 0
      | (s, false) => s.bump (R.KET_CNT_count 7)

/-- A collector self-fault (R635, R636): cause 1 uncorrectable error, 2 mismatch. It is no reaction, and not counted as one. -/
def State.collectorFault (s : State) (cause i : Nat) : State :=
  if s.on R.KET_STATUS_self_fault then s
  else
    let s := ((s.wr R.KET_STATUS_self_fault 1).wr R.KET_STATUS_self_cause cause).wr R.KET_STATUS_self_source i
    (({ s with kettle := { s.kettle with selfFault := true } }).kettleSafe 27).1

/-- Compare the two copies of word `w` of the configuration, for source `i`: a corrected error is rewritten and counted; an
uncorrectable one, or a difference, is a collector self-fault (R635, R636). -/
def State.checkCopy (s : State) (i w : Nat) : State :=
  let one (t : State) (m : EccMem) : State :=
    match t.eccOf m w with
    | .clean => t
    | .corrected => (t.freshEcc m w).bump (R.KET_CNT_count 6)
    | .bad => t.collectorFault 1 i
  let s := one (one s .ketMain) .ketShadow
  if s.kettle.differs.contains w then s.collectorFault 2 i else s

/-- Compare the copies of source `i` and of the list that it names (R635). -/
def State.checkCopies (s : State) (i : Nat) : State :=
  let s := s.checkCopy i i
  let l := s.rd (R.KET_SRC_dep i)
  if l < 64 then s.checkCopy i (512 + l) else s

/-- A write updates both copies of word `w` in one step (R635). -/
def State.freshCopies (s : State) (w : Nat) : State :=
  let s := (s.freshEcc .ketMain w).freshEcc .ketShadow w
  { s with kettle := { s.kettle with differs := s.kettle.differs.filter (fun x => x != w) } }

/-- One event of a source: its copies are compared (R635), and it is counted, suppressed, or fired (R619, R621, R632). Suppressed
events alone do not count towards the threshold. -/
def State.takeEvent (s : State) (e : KEvent) : State :=
  if !s.srcPresent e.src then s
  else
    let s := (s.checkCopies e.src).bump (R.KET_SRC_events e.src)
    let enabled := s.on (R.KET_SRC_enable e.src)
    if enabled ∧ s.rd (R.KET_SRC_severity e.src) ≠ 3 ∧ s.masked e.src then
      ((s.bump (R.KET_SRC_suppressed e.src)).bump (R.KET_CNT_count 4)).pmcEv 9 4 0
    else if tempSource e.src then (if enabled then s.grant e.src e.data else s)
    else
      let n := mget 0 s.kettle.counted e.src + 1
      let fires := enabled && decide (s.rd (R.KET_SRC_threshold e.src) ≤ n)
      let s := { s with kettle := { s.kettle with counted := mput 0 s.kettle.counted e.src (if fires then 0 else n) } }
      if fires then s.grant e.src e.data else s

/-- The order of the intake arbiter for concurrent events: higher severity first, then lower source (R622). -/
def State.before (s : State) (a b : KEvent) : Bool :=
  let sa := s.rd (R.KET_SRC_severity a.src)
  let sb := s.rd (R.KET_SRC_severity b.src)
  decide (sb < sa) || (sa == sb && decide (a.src < b.src))

/-- Insert an event behind those that do not come after it. -/
def State.insertEvent (s : State) (e : KEvent) : List KEvent → List KEvent
  | [] => [e]
  | x :: rest => if s.before e x then e :: x :: rest else x :: s.insertEvent e rest

/-- Take in the events that are waiting, again while reactions raise more. -/
def State.intake : Nat → State → State
  | 0, s => { s with raised := [] }
  | fuel + 1, s =>
    if s.raised.isEmpty then s
    else if s.hub.mode = .hibernate ∨ s.hub.held ∨ s.hub.rstLow then { s with raised := [] }
    else
      let order := s.raised.foldl (fun l e => s.insertEvent e l) []
      State.intake fuel (order.foldl State.takeEvent { s with raised := [] })

/-- The ring link monitor acts on a change of the command, after the enter-Safe reactions of the command's own events (R35,
R247). A reaction to its own events may bring a link down in its turn; the first argument bounds how often. -/
def State.ringSettle : Nat → State → State
  | 0, s => { s with hub := { s.hub with ringDue := false } }
  | n + 1, s =>
    if s.hub.ringDue then State.ringSettle n (State.intake 16 ({ s with hub := { s.hub with ringDue := false } }).ringMonitor) else s

/-- What follows every command: the Kettle takes in what was raised (R618-R636), then the ring link monitor acts (R35), and
reactions that are complete are noted. -/
def State.settle (s : State) : State := (State.ringSettle 4 (State.intake 16 s)).noteDone

/-- The end of a command that completes. -/
def done (s : State) : Host.Outcome State Fault Refusal := .next s.settle

/-- KET_STATUS.masked (R633). -/
def State.maskedCount (s : State) : Nat := ((List.range 512).filter s.masked).length

/-- This hub pulls ERR_N low now (R639). -/
def State.errLow (s : State) : Bool :=
  s.kettle.pulseEnd.isSome || s.on R.KET_ERRPIN_drive || s.hub.bootFail || s.kettle.selfFault

end Sys2Proof.Machine
end

