-- ==== Sys2Proof/Machine/Views.lean ====
section
/-!
DEFINITION. What a register reads as (R5, R7, R8): its stored fields, and the fields that show state kept elsewhere. Fields
with access WO read 0; a register with a POP field is read through Machine/Access.lean.
-/

namespace Sys2Proof.Machine

/-- The word with a field replaced. -/
def fput (w : Word) (f : Fld) (v : Nat) : Word := fset w f.lsb f.width v

/-- The word without its write-only fields. -/
def clearWo (fs : List FieldDesc) (w : Word) : Word :=
  fs.foldl (fun w f => if f.acc = .wo then fset w f.lsb f.width 0 else w) w

/-- Variant codes of R111. -/
def Variant.code : Variant → Nat
  | .f3248 => 1
  | .c3248 => 2
  | .l3224 => 3

/-! ### Settings (R683, R684, R686) -/

def State.setSettings (s : State) (b : Bool) (x : Settings) : State :=
  if b then { s with upd := { s.upd with copy1 := x } } else { s with upd := { s.upd with copy0 := x } }

/-- The record whose seal and epoch are in force: the running slot's, or the previous slot's after a failed migration. -/
def State.committed (s : State) : Settings :=
  if s.on R.UPD_STATUS_migration_fail then s.settingsOf (!s.upd.running) else s.settingsOf s.upd.running

/-- The seal in force; 0 means unsealed (R146). -/
def State.sealWord (s : State) : Word := s.committed.sealWord

/-- The stored epoch; 0 while the hub is unsealed (R118). -/
def State.storedEpoch (s : State) : Nat := s.committed.epoch

/-- The boot record's entry for slot `b`. -/
def State.slotOf (s : State) (b : Bool) : Slot := if b then s.upd.boot.slotB else s.upd.boot.slotA

/-! ### Update state (R670, R675) -/

/-- Offset of the staging area in flash (R662). -/
def stagingBase : Nat := 0x1800000

/-- A byte of flash as stored; erased flash reads 0xFF (log entry 9). -/
def State.flashByte (s : State) (o : Nat) : Byte :=
  if s.upd.stagingUndef.isEmpty ∨ o < stagingBase ∨ stagingBase + 0x400000 ≤ o then mget 0xFF s.flash o
  else if mget false s.upd.blocks ((o - stagingBase) / 256) then mget 0xFF s.flash o
  else
    match mget none s.upd.stagingUndef ((o - stagingBase) / 65536) with
    | some k => Config.freeByte k o
    | none => mget 0xFF s.flash o

/-- The `n` bytes of flash from `o` on. -/
def State.flashBytes (s : State) (o n : Nat) : List Byte :=
  if s.upd.stagingUndef.isEmpty then mgetList 0xFF s.flash o n else (List.range n).map (fun i => s.flashByte (o + i))

/-- The words of flash with an ECC mark among the `n` bytes from `o` on. -/
def State.flashMarks (s : State) (o n : Nat) : List Nat :=
  s.eccMarks.filterMap (fun x => if x.1 = .flash ∧ o / 8 ≤ x.2.1 ∧ 8 * x.2.1 < o + n then some x.2.1 else none)

/-- The `n` bytes of flash from `o` on as the housekeeper and the boot ROM read them: what an uncorrectable word reads as there the manual
does not state (log entry 75). -/
def State.readFlash (s : State) (o n : Nat) : List Byte :=
  if s.eccMarks.isEmpty then s.flashBytes o n
  else (List.range n).map (fun i =>
    if s.eccOf .flash ((o + i) / 8) = .bad then Config.freeByte ((o + i) / 8) (o + i) else s.flashByte (o + i))

/-- Words of flash that are erased or programmed whole have fresh ECC. -/
def State.freshFlash (s : State) (o n : Nat) : State :=
  { s with eccMarks := s.eccMarks.filter (fun x => !(decide (x.1 = .flash) && decide (o ≤ 8 * x.2.1) && decide (8 * x.2.1 + 8 ≤ o + n))) }

/-- Program bytes into flash. -/
def State.putFlash (s : State) (o : Nat) (bs : List Byte) : State :=
  ({ s with flash := mputList 0xFF s.flash o bs } : State).freshFlash o bs.length

/-- Erase flash from `lo` to below `hi`. -/
def State.eraseFlash (s : State) (lo hi : Nat) : State :=
  ({ s with flash := mcut s.flash lo hi } : State).freshFlash lo (hi - lo)

/-- STP_LOAD_STATUS.staged_image (R670). -/
def State.stagedImage (s : State) : Bool :=
  (mget none s.upd.journal 0).isSome && leNat (s.flashBytes stagingBase 4) == 0x5A575550

/-- UPD_CHUNKS (R668). -/
def State.chunkBits (s : State) : Nat := s.upd.journal.foldl (fun v kv => if kv.2.isSome then v + 2 ^ kv.1 else v) 0

/-- UPD_STATUS.state. The stored field holds 1, 2, 3 or 5 where a command has set it; else the state follows from the boot
record and the staging area. -/
def State.updState (s : State) : Nat :=
  let v := s.rd R.UPD_STATUS_state
  if v ≠ 0 then v
  else if (s.slotOf (!s.upd.running)).state = 1 then 4
  else if s.stagedImage then 1
  else 0

/-! ### Engines -/

/-- State codes of R453. -/
def CtxState.code : CtxState → Nat
  | .idle => 0
  | .running => 1
  | .waiting => 2
  | .suspended => 3
  | .faulted => 4

/-- The bits of a mask of contexts. -/
def State.ctxMask (s : State) (e : Nat) (p : Ctx → Bool) : Nat :=
  (List.range 16).foldl (fun v c => if p (s.ctx e c) then v + 2 ^ c else v) 0

/-- Bits a lane has still to send or to sample. -/
def Lane.left (l : Lane) (inLane : Bool) : Nat :=
  match l.cur with
  | none => 0
  | some sh =>
    let held := if inLane then (if l.full then 0 else sh.n * sh.w - l.got.length) else sh.bits.length - l.idx * sh.w
    match l.limit with
    | none => held
    | some k => min held ((k - l.idx) * sh.w)

/-- INF_CTX_SHSTAT of a context (R502). A lane whose shift has not yet begun holds its bits. -/
def Ctx.shstat (x : Ctx) : Word :=
  pack [(63, bit01 x.outLane.cur.isSome), (56, min 64 (x.outLane.left false)), (55, bit01 x.inLane.cur.isSome),
    (48, min 64 (x.inLane.left true)), (32, x.outCnt), (0, x.inCnt)]

/-! ### The views -/

/-- TOP_INV of unit `u` (R141, R142, R698). -/
def State.invWord (s : State) (u : Nat) : Word :=
  let absent : Word := pack [(56, u)]
  let unit (cap count : Nat) : Word := pack [(56, u), (48, 1), (32, cap), (16, count), (0, 1)]
  if u = 0 then unit 1 16
  else if u ≤ 2 then (if s.optical then unit 3 1 else absent)
  else if u ≤ 4 then unit (if s.optical then 5 else 6) 1
  else if u ≤ 8 then (if u - 5 < s.nGroups then unit 7 12 else absent)
  else if u ≤ 12 then unit 1 4
  else if u ≤ 14 then (if s.hasPower then unit 3 16 else absent)
  else if u = 16 then unit 0 32
  else if u ≤ 17 then unit 0 1
  else 0

/-- Slots of the transaction target in use: requests whose answer has not left the hub, the one in service among them (R187). -/
def State.targetNow (s : State) : Nat := (s.switch.frames.filter (fun f => f.answers.isSome)).length + bit01 s.hub.serving

/-- Slots of the initiator in use (R209). -/
def State.initNow (s : State) : Nat := s.initReqs.length

/-- Blocks 0x00 and 0x01. -/
def State.viewLow (s : State) (a : Nat) (w : Word) : Word :=
  if a = R.TOP_ID then pack [(48, s.hub.node), (32, 1), (0, s.variant.code)]
  else if a = R.TOP_MODE then
    pack [(32, s.hub.transitions), (16, s.hub.row), (8, s.hub.prev.code), (0, s.hub.mode.code)]
  else if a = R.TOP_MODE_TIME then s.hub.modeTime
  else if a = R.TOP_TXN_LEVEL then fput (fput w R.TOP_TXN_LEVEL_target_now s.targetNow) R.TOP_TXN_LEVEL_init_now s.initNow
  else if a = R.TOP_EPOCH then
    pack [(63, bit01 (s.sealWord != 0)), (62, bit01 s.hub.pendSeal.isSome), (61, bit01 s.hub.pendEpoch.isSome),
      (60, bit01 s.upd.commit.isSome), (0, s.storedEpoch)]
  else if R.TOP_INV 0 ≤ a ∧ a ≤ R.TOP_INV 31 then s.invWord ((a - R.TOP_INV 0) / 8)
  else if a = R.STP_LOAD_STATUS then fput w R.STP_LOAD_STATUS_staged_image (bit01 s.stagedImage)
  else if a = R.UPD_STATUS then fput w R.UPD_STATUS_state s.updState
  else if a = R.UPD_CHUNKS then BitVec.ofNat 64 s.chunkBits
  else if a = R.UPD_BOOT then
    let b := s.upd.boot
    pack [(32, b.seq), (9, b.fallback), (8, bit01 s.hub.strap), (4, b.trialBoots), (3, bit01 b.migration),
      (1, bit01 s.upd.running), (0, bit01 b.active)]
  else if a = R.UPD_TRIAL then fput (s.policy &&& ~~~(fmask 0 16)) R.UPD_TRIAL_elapsed (min 65535 (s.upd.trialNs / 1000000000))
  else if a = R.UPD_SLOT 0 ∨ a = R.UPD_SLOT 1 then
    let x := s.slotOf (a = R.UPD_SLOT 1)
    pack [(61, x.state), (32, x.version), (0, x.build)]
  else if a = R.UPD_SETTINGS then
    let c := s.settingsOf s.upd.running
    pack [(48, c.version), (32, c.records), (0, c.writes)]
  else w

/-- Periods of the coupler that have passed without a heartbeat since `t`, up to 255. -/
def State.missed (s : State) (t : Option Nat) : Nat :=
  if s.ring.cpl.state = 0 then 0
  else min 255 ((s.clk - t.getD s.ring.cpl.since) / (max 1 (s.rd R.RING_CPL_period) * 1000))

/-- The fields still show the Reset column (R9): the hub is in Boot after power-on or a release of RST_N. From the first change of
mode on they follow their descriptions (DEDUCED, log entry 26). -/
def State.asReset (s : State) : Bool := s.hub.mode == .boot && s.hub.row == 1

/-- Blocks 0x02 and 0x03. A spur port whose low-power idle is enabled is in it while it has nothing to send (R222). SWC_PORT.down of
ports 0 to 3 follows the link (R302) once the hub has left the Boot of its reset. -/
def State.viewRing (s : State) (a : Nat) (w : Word) : Word :=
  if a = R.RING_STATUS then
    fput w R.RING_STATUS_up ((List.range 4).foldl (fun v p => v + bit01 (s.on (R.RING_PORT_up p)) * 2 ^ p) 0)
  else if a = R.RING_PORT 2 ∨ a = R.RING_PORT 3 then
    let p := if a = R.RING_PORT 2 then 2 else 3
    fput w (R.RING_PORT_lpi_active p) (bit01 (s.bitOn R.RING_CTRL_lpi (p - 2) && s.portFunction p != 1 && s.on (R.RING_PORT_up p) &&
      (s.outp p).queue.isEmpty && decide ((s.outp p).busyUntil ≤ s.clk)))
  else if a = R.RING_NODE then fput w R.RING_NODE_node s.hub.node
  else if a = R.RING_CPL_STATUS then
    let c := s.ring.cpl
    let w := fput (fput w R.RING_CPL_STATUS_miss_main (s.missed c.hbMain)) R.RING_CPL_STATUS_miss_sub (s.missed c.hbSub)
    fput (fput (fput w R.RING_CPL_STATUS_line (bit01 c.line)) R.RING_CPL_STATUS_drive (bit01 c.drive))
      R.RING_CPL_STATUS_state c.state
  else if a = R.STR_STATUS then
    fput w R.STR_STATUS_live (s.ring.strainer.filter (fun kv => kv.2.st = .live)).length
  else if R.STR_ENTRY 0 ≤ a ∧ a ≤ R.STR_ENTRY 1023 then
    let x := mget {} s.ring.strainer ((a - R.STR_ENTRY 0) / 8)
    let st := match x.st with
      | .empty => 0
      | .live => 1
      | .stale => 2
    pack [(62, st), (32, x.top.toNat), (0, x.map.toNat % 2 ^ 32)]
  else if a = R.SWC_RESEQ then fput (fput w R.SWC_RESEQ_held s.reseqHeld) R.SWC_RESEQ_keys s.switch.keys.length
  else if R.SWC_PORT 0 ≤ a ∧ a ≤ R.SWC_PORT 23 then
    let p := (a - R.SWC_PORT 0) / 8
    fput (fput w (R.SWC_PORT_down p) (bit01 (s.portDown p && !s.asReset))) (R.SWC_PORT_held p)
      (bit01 (s.portDown p && !(s.outp p).queue.isEmpty))
  else if a = R.CAD_FREE then fput w R.CAD_FREE_free s.leavesFree
  else if R.CAD_USED 0 ≤ a ∧ a ≤ R.CAD_USED 23 then
    let p := (a - R.CAD_USED 0) / 8
    fput (fput (fput w (R.CAD_USED_threshold p) (s.threshold p)) (R.CAD_USED_res_used p) (s.outp p).resUsed)
      (R.CAD_USED_sh_used p) (s.outp p).shUsed
  else w

/-- Blocks 0x04 to 0x09. PWP_STAT.forced is worked out from the modes and isolators of R555 once the hub has left the Boot of its reset
(R9), and PWR_CANARY.reference is the count that Aedotte measured (R593). -/
def State.viewHigh (s : State) (a : Nat) (w : Word) : Word :=
  if a = R.TIM_STATUS then fput w R.TIM_STATUS_servo s.time.servo
  else if a = R.TIM_NOW then s.now
  else if a = R.TIM_HOLDOVER then pack [(32, s.holdover.1), (0, s.holdover.2)]
  else if R.CYC_STATUS 0 ≤ a ∧ a ≤ R.CYC_STATUS 3 then
    let i := (a - R.CYC_STATUS 0) / 8
    fput w (R.CYC_STATUS_cycle i) (s.cycleAt i s.now.toNat)
  else if a = R.CYC_STALE 0 ∨ a = R.CYC_STALE 1 then
    let i := (a - R.CYC_STALE 0) / 8
    BitVec.ofNat 64 ((List.range 64).foldl (fun v k => v + bit01 (s.cupStale (64 * i + k)) * 2 ^ k) 0)
  else if a = R.KET_STATUS then fput w R.KET_STATUS_masked s.maskedCount
  else if a = R.KET_ERRPIN then fput w R.KET_ERRPIN_low (bit01 s.errLow)
  else if R.KET_SRC 0 ≤ a ∧ a ≤ R.KET_SRC 511 then
    let i := (a - R.KET_SRC 0) / 8
    fput w (R.KET_SRC_masked i) (bit01 (s.masked i))
  else if R.PWR_CANARY 0 ≤ a ∧ a ≤ R.PWR_CANARY 11 then
    let d := (a - R.PWR_CANARY 0) / 8
    let w := fput w (R.PWR_CANARY_reference d) (Config.canaryReference d).toNat
    if s.canaryOn d then w else fput w (R.PWR_CANARY_count d) 0
  else if a = R.PMC_SAMPLE_STAT then fput w R.PMC_SAMPLE_STAT_records s.pmc.fifo.length
  else if R.PWP_STAT 0 ≤ a ∧ a ≤ R.PWP_STAT 31 then
    let k := (a - R.PWP_STAT 0) / 8
    fput (fput (fput w (R.PWP_STAT_forced k) (bit01 ((s.portRule != .command || s.isolatorsForced) && !s.asReset)))
      (R.PWP_STAT_effective k) (bit01 (s.effective k))) (R.PWP_STAT_accum k) (min 2047 ((s.port k).acc / 80))
  else w

/-- The window of bay `n`, offset `o`. BAY_IN.released is worked out from the drive states once the hub has left the Boot of its reset
(R9). -/
def State.viewBay (s : State) (n o : Nat) (w : Word) : Word :=
  if o = 0x40 then pack [(16, if s.asReset then 0 else s.bayReleased n), (8, s.bayDriven n), (0, s.bayLevels n)]
  else if o = 0x100 then (s.rx n).statWord (s.rx n).pseq.toNat
  else if o = 0x180 then (s.tx n).statWord (s.tx n).pseq.toNat
  else w

/-- The window of engine `e`, offset `o`. -/
def State.viewEng (s : State) (e o : Nat) (w : Word) : Word :=
  let c := o / 8 % 16
  let x := s.ctx e c
  if o = 8 then
    fput (fput (fput w (R.INF_STATUS_faulted e) (s.ctxMask e (fun x => x.st == .faulted)))
      (R.INF_STATUS_waiting e) (s.ctxMask e (fun x => x.st == .waiting))) (R.INF_STATUS_running e) (s.ctxMask e Ctx.runs)
  else if 0x100 ≤ o ∧ o < 0x180 then
    pack [(61, x.st.code), (57, x.wait), (53, x.cause), (52, bit01 x.island), (32, x.faultPc),
      (16, s.rd (R.INF_CTX_STATE_start_pc e c)), (0, x.pc)]
  else if 0x200 ≤ o ∧ o < 0x280 then x.tau
  else if 0x280 ≤ o ∧ o < 0x300 then
    pack [(48, x.c0.toNat), (32, x.c1.toNat), (24, x.flags.toNat), (0, s.rd (R.INF_CTX_REGS_bit_timer e c))]
  else if 0x300 ≤ o ∧ o < 0x380 then
    pack [(27, bit01 x.loopPend.isSome), (26, bit01 x.loopOn), (16, x.loopEnd), (0, x.loopStart)]
  else if 0x400 ≤ o ∧ o < 0x480 then x.shstat
  else if 0x500 ≤ o ∧ o < 0x580 then x.outSh
  else if 0x580 ≤ o ∧ o < 0x600 then x.inSh
  else w

/-- What a read of the register at `a` returns; an address that is no register reads 0 (R167). -/
def State.readReg (s : State) (a : Nat) : Word :=
  match findReg a with
  | none => 0
  | some (d, _) =>
    let w := clearWo d.fields (s.word a)
    if a < 0x20000 then s.viewLow a w
    else if a < 0x40000 then s.viewRing a w
    else if a < 0x100000 then s.viewHigh a w
    else if a < 0x200000 then s.viewBay ((a - 0x100000) / 0x2000) ((a - 0x100000) % 0x2000) w
    else s.viewEng ((a - 0x200000) / 0x10000) ((a - 0x200000) % 0x10000) w

end Sys2Proof.Machine
end

