-- ==== Sys2Proof/Machine/Bits.lean ====
section
/-!
DEFINITION. The bit-stream: its checks 1 to 6, its sections and what applying each writes (R110-R116, R139, R174-R176, R270,
R325-R327, R356, R405, R448-R450, R498-R500, R584-R586, R615, R616, R640, R641). A section is checked as it is applied.
-/

namespace Sys2Proof.Machine

/-! ### Absent registers (R144) -/

/-- The register at `a` belongs to a unit this variant lacks. -/
def State.absentReg (s : State) (a : Nat) : Bool :=
  let c := s.variant == .c3248
  let l := s.variant == .l3224
  (c && (a == R.RING_CPL || a == R.RING_CPL_STATUS || a == R.RING_PORT 2 || a == R.RING_PORT 3 ||
    decide (R.RING_DROP 16 ≤ a ∧ a ≤ R.RING_DROP 31) || a == R.TIM_PDELAY 2 || a == R.TIM_PDELAY 3 ||
    a == R.TIM_ASYM 2 || a == R.TIM_ASYM 3)) ||
  (l && (decide (0x90000 ≤ a ∧ a < 0xA0000) || a == R.PWR_REFUSE 2 || a == R.PWR_REFUSE 3 || a == R.PWR_CANARY 5 ||
    a == R.PWR_CANARY 6 || a == R.PWR_CANARY 11 || decide (0x100000 + 24 * 0x2000 ≤ a ∧ a < 0x100000 + 48 * 0x2000))) ||
  (List.range 24).any (fun p => !s.portPresent p &&
    (a == R.SWC_PORT p || a == R.SWC_ADMIT p || a == R.CAD_USED p || a == R.SIV_ENTRY p ||
      decide (R.SWC_DROP (16 * p) ≤ a ∧ a ≤ R.SWC_DROP (16 * p + 15)))) ||
  (decide (R.KET_SRC 0 ≤ a ∧ a ≤ R.KET_SRC 511) &&
    sourceRanges.any (fun r => decide (r.1 ≤ (a - R.KET_SRC 0) / 8 ∧ (a - R.KET_SRC 0) / 8 < r.1 + r.2)) &&
    !s.srcPresent ((a - R.KET_SRC 0) / 8))

/-! ### The image -/

/-- Causes of R116. -/
inductive Cause where
  | format | length | signature | variant | epoch | directory | unitAbsent | range | store
  deriving DecidableEq, Repr

def Cause.code : Cause → Nat
  | .format => 1
  | .length => 2
  | .signature => 3
  | .variant => 4
  | .epoch => 5
  | .directory => 6
  | .unitAbsent => 7
  | .range => 8
  | .store => 9

/-- A checked bit-stream: header fields, digest and sections by code. -/
structure Image where
  epoch : Nat
  build : Nat
  digest : List Byte
  secs : List (Nat × List Byte)
  deriving DecidableEq, Repr

/-- A section's bytes. -/
def Image.sec (g : Image) (code : Nat) : Option (List Byte) := (g.secs.find? (fun x => x.1 == code)).map (·.2)

/-- The first of several checks that fails. -/
def firstFailing {α : Type} : List (Bool × α) → Option α
  | [] => none
  | (ok, c) :: rest => if ok then firstFailing rest else some c

/-- The size that a section's chapter gives it, from its own count fields; none for a code that is not listed (R116). -/
def sectionSize (code : Nat) (b : List Byte) : Option Nat :=
  match code with
  | 0x1 => some 416
  | 0x2 => some 3840
  | 0x3 => some (216 + 32 * leAt b 0 2)
  | 0x4 => some 16
  | 0x5 => some 6656
  | 0x6 => some (b.length / 24 * 24)
  | 0x7 => some (1304 + 8 * leAt b 0 2)
  | 0x8 => some (56 + 8 * leAt b 48 2)
  | 0x9 => some 88
  | 0xA => some (72 + 8 * leAt b 64 2)
  | 0xB => some 16448
  | 0xC => some (max 128 b.length)
  | 0xD => some ((576 + 4 * leAt b 570 2 + 7) / 8 * 8)
  | 0xE => some 24
  | _ => none

/-- One directory entry (R111). -/
structure DirEntry where
  code : Nat
  flags : Nat
  off : Nat
  size : Nat
  crc : Nat
  deriving DecidableEq, Repr

/-- The directory of a bit-stream. -/
def directory (bs : List Byte) : List DirEntry :=
  (List.range (leAt bs 12 2)).map (fun i =>
    let e := slice bs (32 + 16 * i) 16
    ⟨leAt e 0 2, leAt e 2 2, leAt e 4 4, leAt e 8 4, leAt e 12 4⟩)

/-- Codes rise strictly. -/
def rising : List Nat → Bool
  | a :: b :: rest => decide (a < b) && rising (b :: rest)
  | _ => true

/-- No two ranges overlap. -/
def disjointFrom (off size : Nat) (ds : List DirEntry) : Bool :=
  ds.all (fun d => decide (off + size ≤ d.off) || decide (d.off + d.size ≤ off))

def allDisjoint : List DirEntry → Bool
  | [] => true
  | d :: rest => disjointFrom d.off d.size rest && allDisjoint rest

/-- Check 6 of R116. An offset or size that is no multiple of 8, and a number of sections outside 6 to 14, fail it too (DESIGN CHOICE,
log entry 23: R114 forbids them, and R116 gives them no cause of their own). -/
def directoryOk (bs : List Byte) : Bool :=
  let n := leAt bs 12 2
  let ds := directory bs
  decide (6 ≤ n) && decide (n ≤ 14) && rising (ds.map (·.code)) && allDisjoint ds &&
  (List.range 6).all (fun i => ds.any (fun d => d.code == i + 1)) &&
  ds.all (fun d =>
    let b := slice bs d.off d.size
    d.flags == 0 && d.off % 8 == 0 && d.size % 8 == 0 && decide (32 + 16 * n ≤ d.off) &&
    decide (d.off + d.size + 64 ≤ bs.length) && sectionSize d.code b == some d.size && crc32 b == BitVec.ofNat 32 d.crc)

/-- Checks 1 to 6 of R116 on the bytes present at a source, against the Aedotte key, a variant and a stored epoch: the first that fails. -/
def imageFault (bs : List Byte) (key : BitVec 256 × BitVec 256) (variant stored : Nat) : Option Cause :=
  let len := leAt bs 8 4
  firstFailing
    [(leAt bs 0 4 == 0x5A574253 && leAt bs 4 2 == 1 && leAt bs 19 1 == 0 && leAt bs 24 8 == 0, .format),
     (len % 8 == 0 && decide (len ≤ 4194304) && decide (32 + 16 * leAt bs 12 2 + 64 ≤ len) && len == bs.length, .length),
     (verifies key (bs.take (len - 64)) (bs.drop (len - 64)), .signature),
     (leAt bs 14 2 == variant, .variant),
     (decide (stored ≤ leAt bs 16 3), .epoch),
     (directoryOk bs, .directory)]

/-- The image that checked bytes hold. -/
def imageOf (bs : List Byte) : Image :=
  { epoch := leAt bs 16 3, build := leAt bs 20 4, digest := sha256 (bs.take (leAt bs 8 4 - 64)),
    secs := (directory bs).map (fun d => (d.code, slice bs d.off d.size)) }

/-! ### Sources (R119, R130, R664) -/

/-- Offset of a slot in flash (R662). -/
def slotBase (b : Bool) : Nat := if b then 0xC00000 else 0

/-- Where the component of a slot image stands in flash whose offset and length are at `at_` of its header, and its length, at most `cap`
bytes; 0 where the slot holds no image (R664). -/
def State.componentRange (s : State) (b : Bool) (at_ cap : Nat) : Nat × Nat :=
  let h := s.readFlash (slotBase b) 72
  if leAt h 0 4 = 0x5A57494D ∧ leAt h (at_ + 4) 4 ≤ cap ∧ leAt h at_ 4 + leAt h (at_ + 4) 4 ≤ 12582912 then
    (slotBase b + leAt h at_ 4, leAt h (at_ + 4) 4)
  else (slotBase b, 0)

/-- The component. -/
def State.component (s : State) (b : Bool) (at_ cap : Nat) : List Byte :=
  let r := s.componentRange b at_ cap
  s.readFlash r.1 r.2

/-- The bytes present at a source: 0 slot A, 1 slot B, 2 staging area. -/
def State.sourceBytes (s : State) (src : Nat) : List Byte :=
  if src = 2 then s.readFlash stagingBase (s.rd R.STP_LOAD_STATUS_received) else s.component (src == 1) 24 4194304

/-! ### Configuration writes -/

/-- Set a field to its bit-stream value, in its register and in the configuration store. -/
def State.cfg (s : State) (f : Fld) (v : Nat) : State :=
  let s := s.wr f v
  { s with store := mput (resetWord f.addr) s.store f.addr (fset (mget (resetWord f.addr) s.store f.addr) f.lsb f.width v) }

/-- Set a whole register to its bit-stream value. -/
def State.cfgWord (s : State) (a : Nat) (w : Word) : State := s.cfg ⟨a, 0, 64⟩ w.toNat

/-- The bits of the register at `a` that the bit-stream gives. -/
def bsMask (a : Nat) : Word :=
  match findReg a with
  | none => 0
  | some (d, _) => d.fields.foldl (fun m f => if f.bs then m ||| fmask f.lsb f.width else m) 0

/-- Every field that the bit-stream gives returns to 0, before the sections are applied; each word of program memory and of the
Kettle's two copies is stored afresh (R9, R138, R496, R635, R703). -/
def State.clearConfig (s : State) : State :=
  let s := s.regs.foldl (fun (t : State) kv => t.setWord kv.1 (kv.2 &&& ~~~(bsMask kv.1))) s
  { s with
    store := []
    loaded := { access := s.loaded.access, windows := s.loaded.windows }
    kettle := { s.kettle with differs := [] }
    eccMarks := s.eccMarks.filter (fun x => x.1 != .prog && x.1 != .ketMain && x.1 != .ketShadow) }

/-- What applying a section makes: the state, or the cause for which it fails. -/
abbrev Applied := Except Cause State

/-- A check that fails with a cause. -/
def orElseFail (c : Bool) (k : Cause) : Except Cause Unit := if c then .ok () else .error k

/-! ### Sections 0x0001 and 0x0002: safe values and pin cells (R448-R450) -/

/-- Section 0x0001. In this section and in every other, the entries that name absent units are looked for before the values out of
range (DESIGN CHOICE, log entry 23: the manual does not say which cause is recorded where a section holds both). -/
def State.applySafe (s : State) (b : List Byte) : Applied := do
  orElseFail ((List.range 384).all (fun g => decide (g < s.nPins) || leAt b g 1 == 0) &&
    (List.range 32).all (fun k => s.hasPower || leAt b (384 + k) 1 == 0)) .unitAbsent
  orElseFail ((List.range 384).all (fun g => decide (leAt b g 1 ≤ 3)) &&
    (List.range 32).all (fun k => decide (leAt b (384 + k) 1 ≤ 2))) .range
  let s := (List.range 384).foldl (fun (t : State) g => t.cfg (R.BAY_PIN_safe g) (leAt b g 1)) s
  pure ((List.range 32).foldl (fun (t : State) k =>
    { t with loaded := { t.loaded with portSafe := mput 0 t.loaded.portSafe k (leAt b (384 + k) 1) } }) s)

/-- The pin mode is one that R59 permits on pin `p` of a bay. -/
def pinModeOk (p mode : Nat) : Bool := mode ≤ 5 || ((mode == 6 || mode == 7) && p ≤ 3) || (mode == 8 && p == 4)

/-- One pin entry (R449, R450): `e` its bytes, `pair` the mode of the other pin of its pair, `mapped` an engine serves the
bay. -/
def pinEntryOk (p : Nat) (e : List Byte) (pair : Nat) (mapped : Bool) : Bool :=
  let mode := leAt e 0 1
  let owner := leAt e 1 1
  let flags := leAt e 2 1
  let even := p % 2 == 0
  pinModeOk p mode && (decide (3 < p) || !(mode == 6 || mode == 7 || pair == 6 || pair == 7) || pair == mode) &&
  decide (owner ≤ 3) && (owner == 0 || !(decide (mode ≤ 2) || ((mode == 6 || mode == 7) && !even))) &&
  (owner != 3 || mapped) && decide (flags < 16) &&
  (!bitAt flags 0 || mode == 3) && (!bitAt flags 2 || ((mode == 6 || mode == 7) && even)) &&
  (!bitAt flags 3 || (mode == 6 && even)) && (leAt e 3 1 == 0 || mode == 1 || mode == 2) && leAt e 4 4 == 0

/-- One bay entry (R449, R450). dst_node is checked only where the bay is bound to its port (DESIGN CHOICE, log entry 23: R450 names
that case, and R449 gives the field a range). -/
def bayEntryOk (e : List Byte) : Bool :=
  let node := leAt e 8 1
  decide (leAt e 0 1 ≤ 1) && decide (leAt e 1 1 ≤ 1) && decide (leAt e 2 1 ≤ 63) && decide (leAt e 3 1 ≤ 63) &&
  decide (leAt e 4 1 ≤ 15) && leAt e 5 1 == 0 && decide (leAt e 9 1 ≤ 3) && leAt e 10 6 == 0 &&
  ((leAt e 0 1 == 0 && leAt e 1 1 == 0) || node == 0xFF || decide (1 ≤ node ∧ node ≤ 250))

/-- The safe value that a pin of this mode may have (R424). -/
def safeValueOk (p mode safe : Nat) : Bool :=
  if mode ≤ 2 ∨ ((mode = 6 ∨ mode = 7) ∧ p % 2 = 1) then safe == 0 else mode != 7 || safe != 1

def allZero (bs : List Byte) : Bool := bs.all (· == 0)

def State.applyPinCells (s : State) (g : Image) (b : List Byte) : Applied := do
  let pinE (i : Nat) : List Byte := slice b (8 * i) 8
  let bayE (n : Nat) : List Byte := slice b (3072 + 16 * n) 16
  let mapped (n : Nat) : Bool := match g.sec 0xB with
    | none => false
    | some e => leAt e n 1 != 0xFF
  orElseFail ((List.range 384).all (fun i => decide (i < s.nPins) || allZero (pinE i)) &&
    (List.range 48).all (fun n => decide (n < s.nBays) || allZero (bayE n))) .unitAbsent
  orElseFail ((List.range 384).all (fun i =>
      pinEntryOk (i % 8) (pinE i) (leAt (pinE (if i % 2 = 0 then i + 1 else i - 1)) 0 1) (mapped (i / 8)) &&
      safeValueOk (i % 8) (leAt (pinE i) 0 1) (s.rd (R.BAY_PIN_safe i))) &&
    (List.range 48).all (fun n => bayEntryOk (bayE n))) .range
  let s := (List.range 384).foldl (fun (t : State) i =>
    let e := pinE i
    let fl := leAt e 2 1
    let t := (t.cfg (R.BAY_PIN_mode i) (leAt e 0 1)).cfg (R.BAY_PIN_owner i) (leAt e 1 1)
    let t := (t.cfg (R.BAY_PIN_slow i) fl).cfg (R.BAY_PIN_invert i) (fl / 2)
    ((t.cfg (R.BAY_PIN_term i) (fl / 4)).cfg (R.BAY_PIN_bias i) (fl / 8)).cfg (R.BAY_PIN_filter i) (leAt e 3 1)) s
  pure ((List.range 48).foldl (fun (t : State) n =>
    let e := bayE n
    let t := (t.cfg (R.BAY_ROUTE_rx_consumer n) (leAt e 0 1)).cfg (R.BAY_ROUTE_tx_producer n) (leAt e 1 1)
    let t := (t.cfg (R.BAY_RXCTL_ct n) (leAt e 2 1)).cfg (R.BAY_TXCTL_ct n) (leAt e 3 1)
    let t := (t.cfg (R.BAY_ROUTE_notice n) (leAt e 4 1)).cfg (R.BAY_ROUTE_flow n) (leAt e 6 2)
    (t.cfg (R.BAY_ROUTE_dst_node n) (leAt e 8 1)).cfg (R.BAY_ROUTE_dst_ring n) (leAt e 9 1)) s)

/-! ### Section 0x0003: address windows (R174-R176) -/

/-- The eight 2-bit rights of an access code. -/
def rights (code : Nat) : List Nat := (List.range 8).map (fun i => code / 4 ^ i % 4)

/-- One access code of the table (R176). -/
def accessOk (block code : Nat) : Bool :=
  (block != 8 || decide (code < 256)) && (!(block == 0x50 || block == 0x51) || (rights code).all (fun r => decide (r ≤ 1))) &&
  (block == 0 || (rights code).all (fun r => decide (r ≤ 2))) &&
  (!(decide (0xA ≤ block ∧ block ≤ 0xF) || decide (0x52 ≤ block)) || code == 0)

/-- One window entry (R175). -/
def windowOf (e : List Byte) : Window := ⟨leAt e 0 4, leAt e 4 4, leAt e 8 4, leAt e 12 2, leAt e 14 2⟩

def windowOk (e : List Byte) : Bool :=
  let w := windowOf e
  decide (0x40000000 ≤ w.base) && decide (w.base ≤ 0x7FFFFF00) && w.base % 256 == 0 && w.size % 256 == 0 &&
  decide (256 ≤ w.size) && decide (w.size ≤ 262144) && decide (w.base + w.size ≤ 0x80000000) && w.memOffset % 256 == 0 &&
  decide (w.memOffset + w.size ≤ 262144) && decide (w.flags ≤ 1) && allZero (slice e 16 16)

def windowsDisjoint : List Window → Bool
  | [] => true
  | w :: rest =>
    rest.all (fun v => decide (w.base + w.size ≤ v.base) || decide (v.base + v.size ≤ w.base)) && windowsDisjoint rest

/-- Section 0x0003. Of the blocks that a hub may lack, R176 names bays and engines only: an access code for the power ports is accepted
on ZH3224-L, whose registers answer ABSENT whatever it grants (DESIGN CHOICE, log entry 23). -/
def State.applyWindows (s : State) (b : List Byte) : Applied := do
  let n := leAt b 0 2
  let code (i : Nat) : Nat := leAt b (24 + 2 * i) 2
  let entry (i : Nat) : List Byte := slice b (216 + 32 * i) 32
  orElseFail ((List.range 48).all (fun i => decide (i < s.nBays) || code (0x10 + i) == 0)) .unitAbsent
  orElseFail (decide (n ≤ 64) && decide (1 ≤ leAt b 2 2) && decide (leAt b 4 4 < 16) &&
    (List.range 4).all (fun m => decide (1 ≤ leAt b (8 + 4 * m) 1) && leAt b (9 + 4 * m) 1 == 0 &&
      decide (1 ≤ leAt b (10 + 4 * m) 2)) &&
    (List.range 96).all (fun i => accessOk i (code i)) && (List.range n).all (fun i => windowOk (entry i)) &&
    windowsDisjoint ((List.range n).map (fun i => windowOf (entry i)))) .range
  let s := s.cfg R.PMC_ACCESS_operator (leAt b 4 4)
  let s := (List.range 4).foldl (fun (t : State) m =>
    (t.cfg (R.TOP_NOTICE_RATE_depth m) (leAt b (8 + 4 * m) 1)).cfg (R.TOP_NOTICE_RATE_interval m) (leAt b (10 + 4 * m) 2)) s
  pure { s with
    hub := { s.hub with accessTable := true }
    loaded := { s.loaded with
      access := (List.range 96).foldl (fun m i => mput 0 m i (code i)) []
      windows := (List.range n).map (fun i => windowOf (entry i))
      initTimeout := leAt b 2 2 } }

/-! ### Section 0x0004: ring and modes (R217, R270) -/

/-- RING_PORT.function of a spur code: 3 is sub-ring. -/
def spurFunction (v : Nat) : Nat :=
  match v with
  | 0 => 0
  | 1 => 2
  | 2 => 3
  | _ => 1

def State.applyRing (s : State) (b : List Byte) : Applied := do
  let rates := leAt b 0 1
  let rings := leAt b 1 1
  let spur := leAt b 2 1
  let a := spur % 4
  let bb := spur / 4 % 4
  let cpl := leAt b 3 1
  let island := leAt b 12 2
  orElseFail (s.variant != .c3248 || (spur % 64 == 0 && (cpl == 0 || decide (2 < cpl)))) .unitAbsent
  orElseFail ((if s.variant = .c3248 then rates == 4 else decide (1 ≤ rates ∧ rates ≤ 3)) && decide (rings < 16) &&
    decide (spur < 64) && (a == 3) == (bb == 3) && decide (cpl ≤ 2) && (cpl == 0 || a == 3) &&
    (cpl == 0 || rings % 4 != rings / 4) && decide (100 ≤ leAt b 6 2 ∧ leAt b 6 2 ≤ 50000) &&
    decide (2 ≤ leAt b 8 1 ∧ leAt b 8 1 ≤ 15) &&
    (if cpl = 0 then leAt b 9 1 == 0 && leAt b 10 1 == 0 && leAt b 11 1 == 0
      else decide (1 ≤ leAt b 9 1 ∧ leAt b 9 1 ≤ 250) && decide (1 ≤ leAt b 10 1 ∧ leAt b 10 1 ≤ 64) &&
        decide (1 ≤ leAt b 11 1 ∧ leAt b 11 1 ≤ 64)) &&
    !bitAt island 14 && decide (1 ≤ island % 16384 ∧ island % 16384 ≤ 10000)) .range
  let s := ((s.cfg R.RING_RATE_allowed rates).cfg R.RING_CFG_ring rings).cfg R.RING_CFG_sub_ring (rings / 4)
  let s := (s.cfg R.RING_CFG_pace (leAt b 4 2)).cfg R.RING_CFG_tap_ethertype (leAt b 14 2)
  let s := ((s.cfg (R.RING_PORT_function 0) 1).cfg (R.RING_PORT_function 1) 1)
  let s := (s.cfg (R.RING_PORT_function 2) (spurFunction a)).cfg (R.RING_PORT_function 3) (spurFunction bb)
  let s := s.cfg R.RING_CTRL_tx_enable (3 + 4 * bit01 (a != 0) + 8 * bit01 (bb != 0))
  let s := (s.cfg R.RING_CTRL_lpi (spur / 16)).cfg R.RING_CPL_role cpl
  let s := (s.cfg R.RING_CPL_period (leAt b 6 2)).cfg R.RING_CPL_miss_limit (leAt b 8 1)
  let s := ((s.cfg R.RING_CPL_partner_main (leAt b 9 1)).cfg R.RING_CPL_partner_sub (leAt b 10 1)).cfg R.RING_NODE_sub_node
    (leAt b 11 1)
  pure ((s.cfg R.RING_ISLAND_timeout island).cfg R.RING_ISLAND_enable (island / 32768))

/-! ### Section 0x0005: the Kettle (R626, R628, R640, R641) -/

/-- A source number the table of R618 lists. -/
def listedSource (i : Nat) : Bool := sourceRanges.any (fun r => decide (r.1 ≤ i ∧ i < r.1 + r.2))

/-- A source of a bay. -/
def baySource (i : Nat) : Bool := decide (0x080 ≤ i ∧ i < 0x0E0)

/-- A source with a target of a block reset (R628). -/
def hasTarget (i : Nat) : Bool := linkSource i || baySource i || decide (0x100 ≤ i ∧ i < 0x150) || decide (0x180 ≤ i ∧ i < 0x1C0)

/-- The arg that a reaction allows (R626, R641). -/
def argOk (i reaction arg : Nat) : Bool :=
  match reaction with
  | 4 => decide (1 ≤ arg ∧ arg ≤ 3)
  | 5 => if arg = 0xFF then baySource i else decide (1 ≤ arg ∧ arg ≤ 15)
  | _ => arg == 0

/-- The source entry `e` of source `i` (R640, R641). `live` says whether a list has a valid entry. -/
def sourceOk (i : Nat) (e : List Byte) (live : Nat → Bool) : Bool :=
  let reaction := leAt e 1 1
  let dep := leAt e 3 1
  let masters := leAt e 4 1 % 16
  let enable := bitAt (leAt e 4 1) 4
  let thr := leAt e 5 1
  decide (leAt e 0 1 ≤ 3) && decide (reaction ≤ 5) && argOk i reaction (leAt e 2 1) && (decide (dep < 64) || dep == 0xFF) &&
  decide (leAt e 4 1 < 32) && (if tempSource i then decide (thr ≤ 150) else !enable || decide (1 ≤ thr)) && leAt e 6 2 == 0 &&
  (reaction != 2 || hasTarget i) && (reaction != 0 || masters == 0) && (reaction != 1 || masters != 0) &&
  (!enable || dep == 0xFF || live dep)

/-- The arg of a reaction names a power group or a bay group that the hub lacks (R145). -/
def State.argAbsent (s : State) (reaction arg : Nat) : Bool :=
  (reaction == 4 && !s.hasPower && decide (arg % 4 ≠ 0)) ||
  (reaction == 5 && arg != 0xFF && (List.range 4).any (fun g => bitAt arg g && decide (s.nGroups ≤ g)))

def State.applyKettle (s : State) (b : List Byte) : Applied := do
  let entry (i : Nat) : List Byte := slice b (8 * i) 8
  let dep (l k : Nat) : Nat := leAt b (4096 + 40 * l + 4 + 2 * k) 2
  let live (l : Nat) : Bool := (List.range 16).any (fun k => bitAt (dep l k) 15)
  orElseFail ((List.range 512).all (fun i => !listedSource i || allZero (entry i) ||
    (s.srcPresent i && !s.argAbsent (leAt (entry i) 1 1) (leAt (entry i) 2 1)))) .unitAbsent
  orElseFail ((List.range 512).all (fun i => if listedSource i then sourceOk i (entry i) live else allZero (entry i)) &&
    (List.range 64).all (fun l => decide (leAt b (4096 + 40 * l) 4 ≤ 1000000) && leAt b (4096 + 40 * l + 36) 4 == 0 &&
      (List.range 16).all (fun k => decide (dep l k % 32768 < 512) && (!bitAt (dep l k) 15 || listedSource (dep l k % 512))))) .range
  let s := (List.range 512).foldl (fun (t : State) i =>
    let e := entry i
    let t := ((t.cfg (R.KET_SRC_severity i) (leAt e 0 1)).cfg (R.KET_SRC_reaction i) (leAt e 1 1)).cfg (R.KET_SRC_arg i) (leAt e 2 1)
    let t := (t.cfg (R.KET_SRC_dep i) (leAt e 3 1)).cfg (R.KET_SRC_masters i) (leAt e 4 1)
    (t.cfg (R.KET_SRC_enable i) (leAt e 4 1 / 16)).cfg (R.KET_SRC_threshold i) (leAt e 5 1)) s
  pure ((List.range 64).foldl (fun (t : State) l =>
    let t := t.cfg (R.KET_SETTLE_settle l) (leAt b (4096 + 40 * l) 4)
    (List.range 4).foldl (fun (u : State) w =>
      u.cfgWord (R.KET_DEP (4 * l + w)) (BitVec.ofNat 64 (leAt b (4096 + 40 * l + 4 + 8 * w) 8))) t) s)

/-! ### Section 0x0006: tuning limits (R139, R140) -/

/-- A value of a field in the reading of an entry. -/
def Tune.value (t : Tune) (v : Nat) : Int := if t.signed then sext t.width (v % 2 ^ t.width) else (v % 2 ^ t.width : Nat)

/-- Bits of a bound above the field's width are as R140 requires. -/
def Tune.boundOk (t : Tune) (v : Nat) : Bool :=
  if t.signed ∧ bitAt v (t.width - 1) then v == 2 ^ 64 - 2 ^ t.width + v % 2 ^ t.width else decide (v < 2 ^ t.width)

/-- An entry is in order (R140): it names a tunable field, and its bounds are well formed. -/
def Tune.ok (t : Tune) : Bool :=
  decide (1 ≤ t.width) && decide (t.lsb + t.width ≤ 64) && t.boundOk t.lo && t.boundOk t.hi && decide (t.value t.lo ≤ t.value t.hi) &&
  t.addr % 8 == 0 &&
  (match findReg t.addr with
    | none => false
    | some (d, _) => d.fields.any (fun f => f.lsb == t.lsb && f.width == t.width && f.bs && f.acc == .rw && !reservedField t.addr f))

def tuneOf (e : List Byte) : Tune := ⟨leAt e 0 4, leAt e 4 1, leAt e 5 1, bitAt (leAt e 6 2) 0, leAt e 8 8, leAt e 16 8⟩

/-- More than 4,096 entries fail with RANGE (DESIGN CHOICE, log entry 22: R139 names no cause). -/
def State.applyTuning (s : State) (b : List Byte) : Applied := do
  let n := b.length / 24
  let entries := (List.range n).map (fun i => slice b (24 * i) 24)
  orElseFail (entries.all (fun e => !s.absentReg (leAt e 0 4))) .unitAbsent
  orElseFail (decide (n ≤ 4096) && entries.all (fun e => (tuneOf e).ok && decide (leAt e 6 2 ≤ 1))) .range
  pure { s with loaded := { s.loaded with tuning := entries.map tuneOf } }

/-! ### Sections 0x0007 and 0x0008: switch tables and Sieve programs (R325-R327) -/

/-- The defaults of R326 and of R327. -/
def State.defaultSwitch (s : State) : State :=
  (List.range 24).foldl (fun (t : State) p =>
    let t := (t.cfg (R.SWC_PORT_hold p) 2000).cfg (R.SWC_PORT_orig_class p) (defaultClass p)
    let t := ((t.cfg (R.SWC_ADMIT_reserve p) (defaultReserve p)).cfg (R.SWC_ADMIT_lo p) 64).cfg (R.SWC_ADMIT_hi p) 16384
    (t.cfg (R.SWC_ADMIT_alpha p) 16).cfg (R.SIV_ENTRY_default p) 1) s

/-- No value stands twice in a list. -/
def noRepeat : List Nat → Bool
  | [] => true
  | a :: rest => !rest.contains a && noRepeat rest

/-- Section 0x0007 (R325-R327). Bit 3 of a flow entry's flags, which R325 neither names nor calls zero, must be 0 (DESIGN CHOICE, log
entry 23). -/
def State.applySwitch (s : State) (b : List Byte) : Applied := do
  let flows := leAt b 0 2
  let masks := [leAt b 8 4, leAt b 12 4]
  let group (i : Nat) : Nat := leAt b (280 + 4 * i) 4
  let absent (m : Nat) : Bool := (List.range 24).any (fun p => bitAt m p && !s.portPresent p)
  let flow (i : Nat) : List Byte := slice b (1304 + 8 * i) 8
  let adm (p o n : Nat) : Nat := leAt b (88 + 8 * p + o) n
  let analysis := s.portFunction 2 == 3 || s.portFunction 3 == 3
  orElseFail (!(masks.any absent) && (List.range 256).all (fun i => !absent (group i))) .unitAbsent
  orElseFail (decide (flows ≤ 4096) && decide (leAt b 2 2 ≤ 1000) && decide (leAt b 4 2 ≤ 10000) && decide (leAt b 6 1 ≤ 3) &&
    decide (leAt b 7 1 ≤ 3) && masks.all (fun m => decide (m < 2 ^ 24) && !bitAt m 22) &&
    (List.range 24).all (fun p => decide (leAt b (16 + p) 1 ≤ 7) && decide (adm p 2 2 ≤ adm p 4 2) &&
      decide (adm p 4 2 ≤ 16384) && decide (1 ≤ adm p 6 1 ∧ adm p 6 1 ≤ 64) && adm p 7 1 == 0) &&
    decide ((List.range 24).foldl (fun n p => n + adm p 0 2) 0 ≤ 4096) &&
    (List.range 256).all (fun i => decide (group i < 2 ^ 24) && !bitAt (group i) 0 && !bitAt (group i) 1 && !bitAt (group i) 22) &&
    (List.range flows).all (fun i => decide (leAt (flow i) 3 1 < 128) && !bitAt (leAt (flow i) 3 1) 3 && leAt (flow i) 4 4 == 0) &&
    noRepeat ((List.range flows).map (fun i => leAt (flow i) 0 2)) &&
    (!bitAt (leAt b 7 1) 0 || analysis)) .range
  let s := ((s.cfg R.SWC_RESEQ_window (leAt b 2 2)).cfg R.SWC_GUARD_lead (leAt b 4 2)).cfg R.SWC_GUARD_enable (leAt b 6 1)
  let s := (s.cfg R.SWC_CTRL_mirror (leAt b 7 1)).cfg R.SWC_CTRL_reseq (leAt b 7 1 / 2)
  let s := (List.range 24).foldl (fun (t : State) p =>
    let t := (t.cfg (R.SWC_PORT_mirror_in p) (bit01 (bitAt (leAt b 8 4) p))).cfg (R.SWC_PORT_mirror_out p) (bit01 (bitAt (leAt b 12 4) p))
    let t := (t.cfg (R.SWC_PORT_orig_class p) (leAt b (16 + p) 1)).cfg (R.SWC_PORT_hold p) (leAt b (40 + 2 * p) 2)
    let t := (t.cfg (R.SWC_ADMIT_reserve p) (adm p 0 2)).cfg (R.SWC_ADMIT_lo p) (adm p 2 2)
    (t.cfg (R.SWC_ADMIT_hi p) (adm p 4 2)).cfg (R.SWC_ADMIT_alpha p) (adm p 6 1)) s
  let s := (List.range 256).foldl (fun (t : State) i => t.cfg (R.SWC_GROUP_ports i) (group i)) s
  pure ((List.range flows).foldl (fun (t : State) i =>
    let e := flow i
    let fl := leAt e 3 1
    t.cfgWord (R.SWC_FLOW i) (pack [(48, leAt e 0 2), (40, leAt e 2 1), (39, 1), (38, fl % 2), (37, fl / 2 % 2), (36, fl / 4 % 2),
      (33, fl / 16 % 8)])) s)

/-- The bits that the encoding of an opcode names (R319). -/
def sieveMask (op : Nat) : Word :=
  match op with
  | 1 => 0xFFFCFFFF00000000
  | 2 => 0xF000FFFFFFFF00FF
  | 3 => 0xF000FFFFFFFF00FF
  | 4 => 0xF000FFFFFFFF00FF
  | 5 => 0xF000FFFFFFFF00FF
  | 6 => 0xF0000000000000FF
  | 7 => 0xF000000000000007
  | 8 => 0xF000000000003F07
  | 9 => 0xF00000000000003F
  | 10 => 0xF000000001FFFFFF
  | 14 => 0xF000000000000000
  | 15 => 0xF0000000000000FF
  | _ => 0

/-- Instruction `pc` of a program of `n` instructions is one that R322 allows. -/
def sieveInsnOk (n pc : Nat) (w : Word) : Bool :=
  let op := fget w 60 4
  sieveMask op != 0 && w &&& ~~~(sieveMask op) == 0 && (op != 1 || decide (fget w 56 4 ≤ 8)) &&
  (!(decide (2 ≤ op ∧ op ≤ 6)) || (decide (1 ≤ fget w 0 8) && decide (pc + 1 + fget w 0 8 < n))) &&
  (op != 10 || (!bitAt (fget w 0 24) 0 && !bitAt (fget w 0 24) 1 && !bitAt (fget w 0 24) 22)) &&
  (pc + 1 != n || op == 14 || op == 15)

/-- Section 0x0008 (R327). The program entry of a port is below 1,024 and may lie beyond the program's last instruction (DESIGN CHOICE, log
entry 23: R327 names no range for it against the count). -/
def State.applySieve (s : State) (b : List Byte) : Applied := do
  let entry (p : Nat) : Nat := leAt b (2 * p) 2
  let n := leAt b 48 2
  let insn (i : Nat) : Word := BitVec.ofNat 64 (leAt b (56 + 8 * i) 8)
  let absent (w : Word) : Bool := fget w 60 4 == 10 && (List.range 24).any (fun p => bitAt (fget w 0 24) p && !s.portPresent p)
  orElseFail ((List.range 24).all (fun p => s.portPresent p || entry p == 0xFFFF) &&
    (List.range n).all (fun i => !absent (insn i))) .unitAbsent
  orElseFail (decide (n ≤ 1024) && leAt b 50 6 == 0 && (List.range n).all (fun i => sieveInsnOk n i (insn i)) && entry 22 == 0xFFFF &&
    (List.range 24).all (fun p => entry p == 0xFFFF || decide (entry p < 1024))) .range
  let s := (List.range 24).foldl (fun (t : State) p =>
    if entry p = 0xFFFF then t.cfg (R.SIV_ENTRY_default p) 1
    else (t.cfg (R.SIV_ENTRY_default p) 0).cfg (R.SIV_ENTRY_entry p) (entry p)) s
  pure ((List.range n).foldl (fun (t : State) i => t.cfgWord (R.SIV_PROG i) (insn i)) s)

/-! ### Section 0x0009: time (R405, R406) -/

def State.defaultTime (s : State) : State :=
  (s.cfg R.TIM_SYNC_CFG_sync_log (unsext 8 (-5))).cfg R.TIM_CTRL_auto_step_fwd 1

/-- The TIME_IO settings that R405 allows. -/
def timeIoOk (function edges width period phase : Nat) : Bool :=
  match function with
  | 0 => true
  | 1 => decide (10 ≤ width ∧ width + 10 ≤ 1000000000)
  | 2 => decide (20 ≤ period ∧ period ≤ 1000000000) && decide (10 ≤ width ∧ width + 10 ≤ period) && decide (phase < period)
  | 3 => true
  | 4 => edges != 0
  | _ => false

def State.applyTime (s : State) (b : List Byte) : Applied := do
  let flags := leAt b 4 1
  let sbyte (o : Nat) : Int := sext 8 (leAt b o 1)
  let asym (p : Nat) : Int := sext 32 (leAt b (8 + 4 * p) 4)
  let io (k o n : Nat) : Nat := leAt b (24 + 16 * k + o) n
  orElseFail (s.variant != .c3248 || !(bitAt flags 1 || bitAt flags 3 || bitAt flags 4)) .unitAbsent
  orElseFail (decide (1 ≤ leAt b 0 1 ∧ leAt b 0 1 ≤ 250) && decide (leAt b 1 1 ≤ 250) && decide (-7 ≤ sbyte 2 ∧ sbyte 2 ≤ 0) &&
    decide (-3 ≤ sbyte 3 ∧ sbyte 3 ≤ 3) && decide (flags < 32) && decide (-5 ≤ sbyte 5 ∧ sbyte 5 ≤ 0) && leAt b 6 2 == 0 &&
    (!bitAt flags 3 || s.portFunction 2 == 2) && (!bitAt flags 4 || s.portFunction 3 == 2) &&
    (!bitAt flags 1 || s.rd R.RING_CPL_role == 1) &&
    (List.range 4).all (fun p => decide (-1000000 ≤ asym p ∧ asym p ≤ 1000000)) &&
    (List.range 4).all (fun k => decide (io k 1 1 ≤ 3) && io k 2 2 == 0 &&
      timeIoOk (io k 0 1) (io k 1 1) (io k 4 4) (io k 8 4) (io k 12 4))) .range
  let s := (s.cfg R.TIM_SYNC_CFG_gm_primary (leAt b 0 1)).cfg R.TIM_SYNC_CFG_gm_backup (leAt b 1 1)
  let s := ((s.cfg R.TIM_SYNC_CFG_sync_log (leAt b 2 1)).cfg R.TIM_SYNC_CFG_pdelay_log (leAt b 3 1)).cfg R.TIM_SYNC_CFG_gptp_log (leAt b 5 1)
  let s := (s.cfg R.TIM_CTRL_auto_step_fwd flags).cfg R.TIM_SYNC_CFG_gateway_eligible (flags / 2)
  let s := (s.cfg R.TIM_SYNC_CFG_gateway_only (flags / 4)).cfg R.TIM_SYNC_CFG_gptp (flags / 8)
  let s := (List.range 4).foldl (fun (t : State) p => t.cfg (R.TIM_ASYM_asym p) (leAt b (8 + 4 * p) 4)) s
  pure ((List.range 4).foldl (fun (t : State) k =>
    let t := ((t.cfg (R.TIM_IO_function k) (io k 0 1)).cfg (R.TIM_IO_edges k) (io k 1 1)).cfg (R.TIM_IO_width k) (io k 4 4)
    (t.cfg (R.TIM_IO_PER_period k) (if io k 0 1 = 1 then 1000000000 else io k 8 4)).cfg (R.TIM_IO_PER_phase k) (io k 12 4)) s)

/-! ### Section 0x000A: cyclic exchange (R330, R331, R356, R357) -/

/-- Fields of a CYC_CUP word. -/
structure Cup where
  dir : Bool
  stream : Nat
  pins : Bool
  gate : Nat
  index : Nat
  offset : Nat
  /-- bytes, the header included -/
  length : Nat
  source : Nat
  deriving DecidableEq, Repr

/-- The cup of a CYC_CUP word (R359). -/
def cupOf (w : Word) : Cup :=
  ⟨fget w 62 1 == 1, fget w 60 2, fget w 58 2 == 1, fget w 55 3, fget w 49 6, fget w 38 11, fget w 27 11 + 1, fget w 0 18⟩

def overlap (a n b m : Nat) : Bool := decide (a < b + m) && decide (b < a + n)

/-- The pairs of cups that R357 forbids. -/
def cupPairOk (a b : Cup) : Bool :=
  !(a.stream == b.stream && a.index == b.index && overlap a.offset a.length b.offset b.length) &&
  !(a.dir && b.dir && !a.pins && !b.pins && overlap a.source (a.length - 2) b.source (b.length - 2))

def cupPairsOk : List Cup → Bool
  | [] => true
  | c :: rest => rest.all (cupPairOk c) && cupPairsOk rest

def State.applyCyclic (s : State) (b : List Byte) : Applied := do
  let n := leAt b 64 2
  let str (i o k : Nat) : Nat := leAt b (16 * i + o) k
  let enabled (i : Nat) : Bool := str i 0 1 == 1
  let word (j : Nat) : Word := BitVec.ofNat 64 (leAt b (72 + 8 * j) 8)
  let cups := (List.range n).map (fun j => cupOf (word j))
  let total (d : Bool) : Nat := (cups.filter (fun c => c.dir == d)).foldl (fun t c => t + c.length) 0
  let bays (c : Cup) : List Nat := (List.range (c.length - 2)).map (c.source % 64 + ·)
  orElseFail (cups.all (fun c => (!c.pins || (bays c).all (fun m => decide (m < s.nBays) || decide (48 ≤ m))) &&
    (decide (4 ≤ c.gate) || decide (c.gate < s.nGroups)))) .unitAbsent
  orElseFail ((List.range 4).all (fun i => decide (str i 0 1 ≤ 1) &&
      decide (1 ≤ str i 1 1) && decide (1 ≤ str i 2 2 ∧ str i 2 2 ≤ 2048) && decide (str i 4 4 < str i 2 2 * 31250) &&
      decide (str i 8 4 < str i 2 2 * 31250) && decide (str i 12 4 < 2 * (str i 2 2 * 31250))) &&
    decide (n ≤ 128) && leAt b 66 6 == 0 &&
    (List.range n).all (fun j => fget (word j) 63 1 == 1 && decide (fget (word j) 58 2 ≤ 1) && fget (word j) 18 9 == 0) &&
    cups.all (fun c => enabled c.stream && decide (c.offset + c.length ≤ 2048) && decide (3 ≤ c.length) && decide (c.gate ≤ 4) &&
      (if c.pins then decide (c.source < 64) && decide (c.source + (c.length - 2) ≤ 48) &&
          (!c.dir || (bays c).all (fun m => (List.range 8).all (fun p => s.rd (R.BAY_PIN_owner (8 * m + p)) == 2)))
        else decide (c.source + c.length - 2 ≤ 262144))) &&
    cupPairsOk cups && decide (total true ≤ 2048) && decide (total false ≤ 2048)) .range
  let s := (List.range 4).foldl (fun (t : State) i =>
    let t := (t.cfg (R.CYC_STATUS_fresh_limit i) (str i 1 1)).cfg (R.CYC_CYCLE_units i) (str i 2 2)
    ((t.cfg (R.CYC_CYCLE_phase i) (str i 4 4)).cfg (R.CYC_POINT_sample_offset i) (str i 8 4)).cfg (R.CYC_POINT_apply_offset i) (str i 12 4)) s
  let s := s.cfg R.CYC_CTRL_enable ((List.range 4).foldl (fun v i => v + bit01 (enabled i) * 2 ^ i) 0)
  pure ((List.range n).foldl (fun (t : State) j => t.cfgWord (R.CYC_CUP j) (word j)) s)

/-! ### Sections 0x000B and 0x000C: engines and programs (R471, R498-R501) -/

/-- Section 0x000B (R498, R500). The slots of an enabled context are all checked, those of another where they are valid. -/
def State.applyEngines (s : State) (g : Image) (b : List Byte) : Applied := do
  let serves (n : Nat) : Nat := leAt b n 1
  let entry (ec : Nat) : List Byte := slice b (64 + 64 * ec) 64
  let slot (e : List Byte) (k : Nat) : Nat := leAt e (2 * k) 2
  let valid (e : List Byte) : List Nat := ((List.range 16).map (slot e)).filter (fun w => bitAt w 15)
  let checked (e : List Byte) : List Nat := if bitAt (leAt e 38 1) 0 then (List.range 16).map (slot e) else valid e
  let shift (e : List Byte) : Word := BitVec.ofNat 64 (leAt e 48 8)
  orElseFail ((List.range 48).all (fun n => decide (n < s.nBays) || serves n == 0xFF) &&
    (List.range 256).all (fun ec => (checked (entry ec)).all (fun w => decide (w % 512 < s.nPins) || decide (384 ≤ w % 512)))) .unitAbsent
  orElseFail ((List.range 48).all (fun n => decide (serves n < 16) || serves n == 0xFF) && allZero (slice b 48 16) &&
    (List.range 256).all (fun ec =>
      let e := entry ec
      let fl := leAt e 38 1
      let on := bitAt fl 0
      let sh := shift e
      let w := 2 ^ fget sh 54 2
      let clk := fget sh 51 2
      let clkSlot := slot e (fget sh 47 4)
      (on || fl == 0) && decide (fl < 16) &&
      (checked e).all (fun w => w / 512 % 32 == 0 && decide (w % 512 < 384)) &&
      (checked e).all (fun w => !bitAt w 14 ||
        (s.rd (R.BAY_PIN_owner (w % 512)) == 3 && serves (w % 512 / 8) == ec / 16)) &&
      noRepeat ((valid e).map (· % 512)) &&
      (!on || (decide (leAt e 36 2 < 1024) && decide (leAt e 34 2 ≤ leAt e 32 2) && decide (leAt e 32 2 ≤ leAt e 36 2) &&
        decide (leAt e 34 2 ≤ leAt e 36 2) && leAt e 39 1 == 0 && decide (leAt e 40 4 ≤ 1000000) &&
        decide (1 ≤ leAt e 44 4 ∧ leAt e 44 4 ≤ 2097151) && leAt e 56 8 == 0 && fget sh 21 26 == 0 &&
        decide (fget sh 54 2 ≤ 2) && decide (clk ≤ 2) && (clk == 0 || (bitAt clkSlot 15 && bitAt clkSlot 14)) &&
        decide (fget sh 60 4 + w ≤ 16) && decide (fget sh 56 4 + w ≤ 16) && (g.sec 0xC).isSome))) ) .range
  let s := (List.range 16).foldl (fun (t : State) e =>
    t.cfg (R.INF_BAYS_bays e) ((List.range 48).foldl (fun v n => v + bit01 (serves n == e) * 2 ^ n) 0)) s
  pure ((List.range 256).foldl (fun (t : State) ec =>
    let b := entry ec
    let e := ec / 16
    let c := ec % 16
    let fl := leAt b 38 1
    let t := (List.range 4).foldl (fun (u : State) w => u.cfgWord (R.INF_MAP e (4 * c + w)) (BitVec.ofNat 64 (leAt b (8 * w) 8))) t
    let t := ((t.cfg (R.INF_CTX_STATE_start_pc e c) (leAt b 32 2)).cfg (R.INF_CTX_CFG_region_lo e c) (leAt b 34 2)).cfg
      (R.INF_CTX_CFG_region_hi e c) (leAt b 36 2)
    let t := ((t.cfg (R.INF_CTX_CFG_enabled e c) fl).cfg (R.INF_CTX_CFG_autostart e c) (fl / 2)).cfg (R.INF_CTX_CFG_fallback e c) (fl / 4)
    let t := (t.cfg (R.INF_CTX_CFG_hot_patch e c) (fl / 8)).cfg (R.INF_CTX_CFG_late_window e c) (leAt b 40 4)
    (t.cfg (R.INF_CTX_REGS_bit_timer e c) (leAt b 44 4)).cfgWord (R.INF_CTX_SHIFT e c) (shift b &&& ~~~(fmask 21 26))) s)

def State.applyPrograms (s : State) (b : List Byte) : Applied := do
  let off (e : Nat) : Nat := leAt b (8 * e) 4
  let count (e : Nat) : Nat := leAt b (8 * e + 4) 2
  orElseFail ((List.range 16).all (fun e => off e % 8 == 0 && decide (count e ≤ 512) && leAt b (8 * e + 6) 2 == 0 &&
    decide (off e + 8 * count e ≤ b.length))) .range
  pure ((List.range 16).foldl (fun (t : State) e =>
    (List.range (count e)).foldl (fun (u : State) i =>
      u.cfgWord (R.INF_PROG e i) (BitVec.ofNat 64 (leAt b (off e + 8 * i) 8))) t) s)

/-! ### Section 0x000D: power ports (R565, R582, R584-R586) -/

/-- Port settings that the safe operating area permits (R565). -/
def soaOk (fold timer fast limit : Nat) : Bool := decide (fold * fold * timer ≤ 100000) && decide (3 * limit ≤ 2 * fast)

/-- A script instruction with no field outside its range and no bit that R582 does not name. -/
def scriptWordOk (w count : Nat) : Bool :=
  let low := w % 2 ^ 28
  match w / 2 ^ 28 with
  | 0 => low == 0
  | 1 => decide (low < 2 ^ 17)
  | 2 => decide (low < 2 ^ 17)
  | 3 => true
  | 4 => decide (1 ≤ low ∧ low < 2 ^ 24)
  | 5 => decide (low < 256) && decide (low < count)
  | 6 => decide (low < 2 ^ 25) && decide (low % 256 < count)
  | 7 => decide (low < 2 ^ 20)
  | _ => false

def State.defaultPorts (s : State) : State :=
  s.portList.foldl (fun (t : State) k =>
    let t := ((t.cfg (R.PWP_CFG_limit k) 10).cfg (R.PWP_CFG_fast k) 150).cfg (R.PWP_CFG_fold k) 2
    ((t.cfg (R.PWP_CFG_timer k) 5).cfg (R.PWP_CFG_off_settle k) 1000).cfg (R.PWP_CFG_retry k) 10) s

def State.applyPorts (s : State) (b : List Byte) : Applied := do
  let p (k o n : Nat) : Nat := leAt b (16 * k + o) n
  let lplus (n : Nat) : Nat := leAt b (512 + n) 1
  let entry (i : Nat) : Nat := leAt b (560 + 2 * i) 2
  let count := leAt b 570 2
  let auto := leAt b 568 1
  orElseFail s.hasPower .unitAbsent
  orElseFail ((List.range 48).all (fun n => decide (n < s.nBays) || lplus n == 0xFF)) .unitAbsent
  orElseFail ((List.range 32).all (fun k => decide (10 ≤ p k 0 1 ∧ p k 0 1 ≤ 200) && decide (2 ≤ p k 1 1 ∧ p k 1 1 ≤ 30) &&
      decide (150 ≤ p k 2 2 ∧ p k 2 2 ≤ 600) && decide (5 ≤ p k 4 2 ∧ p k 4 2 ≤ 2000) && decide (1 ≤ p k 6 2 ∧ p k 6 2 ≤ 10000) &&
      decide (1 ≤ p k 8 1 ∧ p k 8 1 ≤ 63) && decide (p k 9 1 ≤ 3) && p k 10 6 == 0 && soaOk (p k 1 1) (p k 4 2) (p k 2 2) (p k 0 1)) &&
    (List.range 48).all (fun n => (decide (lplus n < 32) || lplus n == 0xFF) &&
      (decide (lplus n < 32) == (s.pinMode (8 * n + 4) == 8))) &&
    decide (auto < 16) && leAt b 569 1 == 0 && decide (count ≤ 256) && leAt b 572 4 == 0 &&
    (List.range 4).all (fun i => (entry i == 0xFFFF || decide (entry i < count)) && (!bitAt auto i || entry i != 0xFFFF)) &&
    (List.range count).all (fun i => scriptWordOk (leAt b (576 + 4 * i) 4) count) && allZero (b.drop (576 + 4 * count))) .range
  let s := (List.range 32).foldl (fun (t : State) k =>
    let t := ((t.cfg (R.PWP_CFG_limit k) (p k 0 1)).cfg (R.PWP_CFG_fold k) (p k 1 1)).cfg (R.PWP_CFG_fast k) (p k 2 2)
    let t := ((t.cfg (R.PWP_CFG_timer k) (p k 4 2)).cfg (R.PWP_CFG_off_settle k) (p k 6 2)).cfg (R.PWP_CFG_retry k) (p k 8 1)
    (t.cfg (R.PWP_CMD_on k) (p k 9 1)).cfg (R.PWP_CFG_backfeed_ok k) (p k 9 1 / 2)) s
  let s := (List.range 48).foldl (fun (t : State) n =>
    { t with loaded := { t.loaded with lplus := mput 255 t.loaded.lplus n (lplus n) } }) s
  let s := (List.range 4).foldl (fun (t : State) i =>
    if entry i = 0xFFFF then t else (t.cfg (R.PWP_SEQ_STAT_defined i) 1).cfg (R.PWP_SEQ_STAT_entry i) (entry i)) s
  let s := s.cfg R.PWP_SEQ_CTRL_autostart auto
  pure ((List.range count).foldl (fun (t : State) i =>
    let v := leAt b (576 + 4 * i) 4
    t.cfg (if i % 2 = 0 then R.PWP_SEQ_PROG_even (i / 2) else R.PWP_SEQ_PROG_odd (i / 2)) v) s)

/-! ### Section 0x000E: power states (R613, R615, R616) -/

def State.defaultStates (s : State) : State :=
  let s := ((s.cfg R.PWR_WINDOW_ceiling 900).cfg R.PWR_WINDOW_run_floor 720).cfg R.PWR_WINDOW_doze_floor 720
  let s := ((s.cfg R.PWR_LOOP_enable 1).cfg R.PWR_LOOP_ring_guard 1).cfg R.PWR_LOOP_slack_low 4
  ((s.cfg R.PWR_LOOP_slack_high 12).cfg R.PWR_WAKE_CFG_target 6).cfg R.PWR_WAKE_CFG_hib_sources 1

/-- The voltage window that R615 allows. -/
def windowMvOk (ceiling run doze : Nat) : Bool :=
  decide (720 ≤ ceiling ∧ ceiling ≤ 900) && ceiling % 5 == 0 && decide (720 ≤ run ∧ run ≤ ceiling) && run % 5 == 0 &&
  decide (600 ≤ doze ∧ doze ≤ run) && doze % 5 == 0

/-- Section 0x000E (R613-R615). A bit of legacy_mask for a bank that the hub lacks fails with RANGE (DESIGN CHOICE, log entry 23: R613
names no cause); the pin number of an invalid wake-pin entry is free, up to 511 (DESIGN CHOICE, log entry 23: R615 does not say whether
it is checked). -/
def State.applyStates (s : State) (b : List Byte) : Applied := do
  let pin (j : Nat) : Nat := leAt b (16 + 2 * j) 2
  let mask := leAt b 2 2
  orElseFail ((List.range 4).all (fun j => !bitAt (pin j) 15 || decide (pin j % 512 < s.nPins) || decide (384 ≤ pin j % 512))) .unitAbsent
  orElseFail (decide (leAt b 0 1 ≤ 1) && decide (leAt b 1 1 ≤ 3) && !bitAt mask 15 && (leAt b 0 1 == 1 || mask == 0) &&
    (s.variant != .l3224 || !(bitAt mask 8 || bitAt mask 9 || bitAt mask 14)) &&
    windowMvOk (leAt b 4 2) (leAt b 6 2) (leAt b 8 2) && decide (leAt b 10 1 ≤ 15) &&
    decide (leAt b 10 1 < leAt b 11 1 ∧ leAt b 11 1 ≤ 16) && (leAt b 12 1 == 3 || leAt b 12 1 == 6) &&
    decide (leAt b 13 1 < 16) && decide (leAt b 14 1 < 16) && decide (leAt b 15 1 < 16) &&
    (List.range 4).all (fun k => !bitAt (leAt b 15 1) k || s.rd (R.TIM_IO_function k) == 4) &&
    (List.range 4).all (fun j => pin j / 512 % 32 == 0 && (!bitAt (pin j) 15 ||
      (decide (pin j % 512 < 384) && (s.pinMode (pin j % 512) == 1 || s.pinMode (pin j % 512) == 2))))) .range
  let s := (s.cfg R.PWR_BANK_legacy (leAt b 0 1)).cfg R.PWR_BANK_mask mask
  let s := (s.cfg R.PWR_LOOP_enable (leAt b 1 1)).cfg R.PWR_LOOP_ring_guard (leAt b 1 1 / 2)
  let s := ((s.cfg R.PWR_WINDOW_ceiling (leAt b 4 2)).cfg R.PWR_WINDOW_run_floor (leAt b 6 2)).cfg R.PWR_WINDOW_doze_floor (leAt b 8 2)
  let s := (s.cfg R.PWR_LOOP_slack_low (leAt b 10 1)).cfg R.PWR_LOOP_slack_high (leAt b 11 1)
  let s := ((s.cfg R.PWR_WAKE_CFG_target (leAt b 12 1)).cfg R.PWR_WAKE_CFG_hib_sources (leAt b 13 1)).cfg R.PWR_WAKE_CFG_doze_sources
    (leAt b 14 1)
  let s := s.cfg R.PWR_WAKE_CFG_timeio (leAt b 15 1)
  pure (s.cfgWord R.PWR_WAKE_PINS (BitVec.ofNat 64 (leAt b 16 8)))

/-! ### Applying the image (R115) -/

/-- Apply one section. -/
def State.applySection (s : State) (g : Image) (code : Nat) (b : List Byte) : Applied :=
  match code with
  | 0x1 => s.applySafe b
  | 0x2 => s.applyPinCells g b
  | 0x3 => s.applyWindows b
  | 0x4 => s.applyRing b
  | 0x5 => s.applyKettle b
  | 0x6 => s.applyTuning b
  | 0x7 => s.applySwitch b
  | 0x8 => s.applySieve b
  | 0x9 => s.applyTime b
  | 0xA => s.applyCyclic b
  | 0xB => s.applyEngines g b
  | 0xC => s.applyPrograms b
  | 0xD => s.applyPorts b
  | _ => s.applyStates b

/-- Apply sections in the order of the directory, which is ascending code order, up to the first that fails. -/
def State.applyFrom (s : State) (g : Image) : List (Nat × List Byte) → State × Option Cause
  | [] => (s, none)
  | (code, b) :: rest =>
    match s.applySection g code b with
    | .error c => (s, some c)
    | .ok t => State.applyFrom t g rest

/-- Apply an image (R115): the units without a section hold their defaults. -/
def State.applyImage (s : State) (g : Image) : State × Option Cause :=
  let s := s.clearConfig.defaultSwitch.defaultTime.defaultPorts.defaultStates
  State.applyFrom { s with loaded := { s.loaded with sections := g.secs.map (·.1) } } g g.secs

end Sys2Proof.Machine
end

