-- ==== Sys2Proof/Machine/Access.lean ====
section
/-!
DEFINITION. Access to registers and to process image memory (R161-R173, R182-R186, R193-R203, R315, R663, R702, R703): rights
and the checks of R194, reads with their answers, POP registers, and memory with its ECC. Writes go on in
Machine/RegWrite.lean.
-/

namespace Sys2Proof.Machine

/-- What an access does. -/
inductive Kind where
  | read | write | atomic
  deriving DecidableEq, Repr

/-- The word that stands for an access that was not read (R193). -/
def RCode.pattern : RCode → Word
  | .ok => 0
  | .notReady => 0xFFFFFFFFFFFFFFFF
  | .absent => 0xDEAD000000000000
  | .priv => 0
  | .ecc => 0xECC0000000000000
  | .busy => 0xFFFFFFFFFFFFFFFF

/-- Response code numbers (R193). -/
def RCode.num : RCode → Nat
  | .ok => 0
  | .notReady => 1
  | .absent => 2
  | .priv => 3
  | .ecc => 4
  | .busy => 5

/-- The code of an access of several registers (R195). -/
def RCode.join (a b : RCode) : RCode :=
  let rank : RCode → Nat
    | .ecc => 4
    | .priv => 3
    | .absent => 2
    | .notReady => 1
    | .busy => 0
    | .ok => 0
  if rank a < rank b then b else a

/-! ### Blocks (R165) -/

/-- The block that holds a local address. -/
def blockOf (a : Nat) : Option Nat :=
  if a < 0xA0000 then some (a / 0x10000)
  else if 0x100000 ≤ a ∧ a < 0x160000 then some (0x10 + (a - 0x100000) / 0x2000)
  else if 0x200000 ≤ a ∧ a < 0x300000 then some (0x40 + (a - 0x200000) / 0x10000)
  else if 0x1000000 ≤ a ∧ a < 0x1400000 then some 0x50
  else if 0x8000000 ≤ a ∧ a < 0xA000000 then some 0x51
  else none

/-- The window that holds the range. -/
def State.windowAt (s : State) (a n : Nat) : Option Window :=
  s.loaded.windows.find? (fun w => decide (w.base ≤ a) && decide (a + n ≤ w.base + w.size))

/-- The transaction target is in service (R195). -/
def State.targetUp (s : State) : Bool :=
  !s.hub.held && !s.hub.rstLow &&
  (match s.hub.mode with
    | .boot => false
    | .hibernate => false
    | .update => !s.hub.window
    | _ => true)

/-- The right of a requester under an access code (R171). -/
def rightIn (code : Nat) (r : Requester) : Nat :=
  match r.level with
  | .supervisor => code / 4 ^ r.master.val % 4
  | .operator => code / 4 ^ (4 + r.master.val) % 4
  | .localLevel => 2

/-- The right of a requester in a block (R171, R173, R702). -/
def State.blockRight (s : State) (r : Requester) (b : Nat) : Nat :=
  match r.level with
  | .localLevel => 2
  | .supervisor => if s.hub.accessTable then rightIn (mget 0 s.loaded.access b) r else if b ≤ 1 then 3 else 0
  | .operator =>
    if !s.hub.accessTable then 0
    else if b = 8 then (if s.bitOn R.PMC_ACCESS_operator r.master.val then 1 else 0)
    else rightIn (mget 0 s.loaded.access b) r

/-- The right of a requester in a window. A Local requester has right 2, so that an atomic of its own is answered PRIV (DESIGN CHOICE, log
entry 52: R170 leaves Local out of the table, and R202 asks for right 3). -/
def State.windowRight (s : State) (r : Requester) (w : Window) : Nat :=
  match r.level with
  | .localLevel => 2
  | _ => if s.hub.accessTable then rightIn w.access r else 0

/-- The right suffices for the access. -/
def rightSuffices (right : Nat) (k : Kind) : Bool :=
  match k with
  | .read => decide (1 ≤ right)
  | .write => decide (2 ≤ right)
  | .atomic => decide (3 ≤ right)

/-- Checks 3 and 4 of R194. `low` says that the access is to block 0x00 or 0x01. -/
def State.modeScreen (s : State) (r : Requester) (low : Bool) : Option RCode :=
  match s.hub.mode with
  | .steep => if r.level = .supervisor ∧ low then none else some .busy
  | .update => if r.level = .supervisor ∧ low then none else some .busy
  | .quarantine => if r.level = .operator then some .priv else none
  | .test => if r.level = .operator then some .priv else none
  | _ => none

/-- The block is in a gated domain (check 6). -/
def State.blockGated (s : State) (b : Nat) : Bool :=
  (decide (0x10 ≤ b ∧ b < 0x40) && s.groupGated ((b - 0x10) / 12)) || (decide (0x40 ≤ b ∧ b < 0x50) && s.quadGated ((b - 0x40) / 4))

/-- Checks 3 to 6 of R194 for a block. -/
def State.blockScreen (s : State) (r : Requester) (b : Nat) (k : Kind) : Option RCode :=
  match s.modeScreen r (b ≤ 1) with
  | some c => some c
  | none =>
    if !rightSuffices (s.blockRight r b) k then some .priv
    else if k ≠ .read ∧ (b = 0x50 ∨ b = 0x51) then some .priv
    else if k ≠ .read ∧ r.level = .operator ∧ (b = 1 ∨ b = 7 ∨ b = 8) then some .priv
    else if k = .atomic ∧ b ≠ 0 then some .priv
    else if s.blockGated b then some .busy
    else none

/-- Checks 3 to 6 of R194 for a window. -/
def State.windowScreen (s : State) (r : Requester) (w : Window) (k : Kind) : Option RCode :=
  match s.modeScreen r false with
  | some c => some c
  | none =>
    if !rightSuffices (s.windowRight r w) k then some .priv
    else if k = .atomic ∧ w.flags % 2 = 0 then some .priv
    else none

/-- A TOP_SCRATCH register. -/
def isScratch (a : Nat) : Bool := decide (R.TOP_SCRATCH 0 ≤ a ∧ a ≤ R.TOP_SCRATCH 7)

/-- The bay whose window offset `o` the address is. -/
def bayAt (o a : Nat) : Option Nat :=
  if 0x100000 ≤ a ∧ a < 0x160000 ∧ (a - 0x100000) % 0x2000 = o then some ((a - 0x100000) / 0x2000) else none

/-- The rules that answer a single register PRIV (R148, R172, R202, R441, R442, R659). -/
def State.regPriv (s : State) (r : Requester) (a : Nat) (k : Kind) : Bool :=
  (k != .read && r.level == .operator && decide (a < 0x10000) && !isScratch a) ||
  (k == .atomic && !isScratch a) ||
  (k == .read && r.level == .operator && a == R.PMC_SAMPLE) ||
  (match bayAt 0x110 a with
    | some n => k == .read && s.on (R.BAY_ROUTE_rx_consumer n)
    | none => false) ||
  (match bayAt 0x198 a with
    | some n => k == .write && s.on (R.BAY_ROUTE_tx_producer n)
    | none => false)

/-- The result of a ready-gated register is not ready (R156, R654). -/
def State.regNotReady (s : State) (a : Nat) : Bool :=
  (a == R.TOP_SEAL_RESP && s.hub.sealCalc.isSome) ||
  (decide (R.PMC_SHADOW 0 ≤ a ∧ a ≤ R.PMC_SHADOW 63) && s.on R.PMC_STATUS_snap_busy)

/-- Checks 2 to 6 of R194 for one register; none when the access goes on. A PRIV that a unit's chapter gives a single register stands before
the BUSY of a gated domain (DESIGN CHOICE, log entry 36: R194 does not place it). -/
def State.screenOne (s : State) (r : Requester) (a : Nat) (k : Kind) : Option RCode :=
  match blockOf a with
  | none => some .absent
  | some b =>
    if s.absentReg a then some .absent
    else
      match s.blockScreen r b k with
      | some .busy => if s.regPriv r a k ∧ (s.modeScreen r (b ≤ 1)).isNone then some .priv else some .busy
      | some c => some c
      | none => if s.regPriv r a k then some .priv else none

/-- Give the answer of an access. -/
def State.answered (s : State) (c : RCode) (data : List Word) : State := { s with answer := some ⟨c, data⟩ }

/-- The event of class 0x0 that a response code other than OK makes (R647). -/
def RCode.event : RCode → Nat
  | .ok => 0
  | .notReady => 3
  | .absent => 4
  | .priv => 5
  | .ecc => 6
  | .busy => 7

/-- Attributes of the events of a request (R646, R647). -/
def reqAttrs (r : Requester) (a : Nat) : Attrs :=
  match r.level with
  | .supervisor => { priv := some 0, master := some r.master.val, addr := some a }
  | .operator => { priv := some 1, master := some r.master.val, addr := some a }
  | .localLevel => { priv := some 2, master := some 4, addr := some a }

/-- The masters have been heard (R31). -/
def State.heard (s : State) : State := { s with hub := { s.hub with heardAt := s.clk } }

/-- A request of a master is an addressed transaction, by which the master is heard (R31). -/
def State.heardFrom (s : State) (r : Requester) : State :=
  match r.level with
  | .supervisor => s.heard
  | .operator => s.heard
  | .localLevel => s

/-- Count a request at the target by its answer (R647): event `ev` when it is OK, with `n` bytes of event `bytes`; the master that
sent it is heard. -/
def State.countTxn (s : State) (r : Requester) (a : Nat) (c : RCode) (ev bytes n : Nat) : State :=
  let s := s.heardFrom r
  if c = .ok then (s.pmcEv 0 ev 0 (reqAttrs r a)).pmcBy 0 bytes 0 n (reqAttrs r a) else s.pmcEv 0 c.event 0 (reqAttrs r a)

/-- A write by a requester to the register at `a`, whose effect is `eff`: it is checked under R194 and answered. While the
target is out of service the request gets no answer and has no effect. A register command shows a master to be there, but not by which ring
or node, so that TOP_MASTER stays (DESIGN CHOICE, log entry 52). -/
def State.asWrite (s : State) (r : Requester) (a : Nat) (eff : State → State) : State :=
  if !s.targetUp then s
  else
    match s.screenOne r a .write with
    | some c => (s.countTxn r a c 1 9 8).answered c []
    | none => ((eff s).countTxn r a .ok 1 9 8).answered .ok []

/-! ### POP registers (R198-R201) -/

/-- A capture stamp as TIM_CAPTURE gives it (R407). -/
def Stamp.word (x : Stamp) : Word := pack [(63, bit01 x.rising), (62, bit01 x.lost), (0, x.time.toNat % 2 ^ 62)]

/-- A sample record as PMC_SAMPLE gives it (R661). -/
def Sample.word (x : Sample) : Word :=
  pack [(58, x.counter), (54, x.engine), (50, x.ctx), (40, x.pc), (38, x.skid), (37, bit01 x.lost), (36, bit01 x.idle),
    (0, x.time.toNat % 2 ^ 36)]

/-- A pop of BAY_RXPOP[n] (R441, R433, R440). -/
def State.popRx (s : State) (n : Nat) : State × RCode × Word :=
  match s.rxPop n with
  | none => (s, .notReady, RCode.notReady.pattern)
  | some (t, w, d) =>
    let t := (t.bumpWrap (R.BAY_RXLAST_pops n)).wr (R.BAY_RXLAST_tags n) d.tags.toNat
    if w.dataEcc = .bad then (t, .ecc, RCode.ecc.pattern) else (t, .ok, d.data)

/-- A pop of TIM_CAPTURE[k] (R403). -/
def State.popCapture (s : State) (k : Nat) : State × RCode × Word :=
  match (s.tio k).fifo with
  | [] => (s, .notReady, RCode.notReady.pattern)
  | x :: rest => (s.setTio k { s.tio k with fifo := rest }, .ok, x.word)

/-- A pop of PMC_SAMPLE (R658). -/
def State.popSample (s : State) : State × RCode × Word :=
  match s.pmc.fifo with
  | [] => (s, .notReady, RCode.notReady.pattern)
  | x :: rest => ({ s with pmc := { s.pmc with fifo := rest } }, .ok, x.word)

/-- The pop of the register at `a`, if it has a POP field. -/
def State.popAt (s : State) (a : Nat) : Option (State × RCode × Word) :=
  match bayAt 0x110 a with
  | some n => some (s.popRx n)
  | none =>
    if R.TIM_CAPTURE 0 ≤ a ∧ a ≤ R.TIM_CAPTURE 3 then some (s.popCapture ((a - R.TIM_CAPTURE 0) / 8))
    else if a = R.PMC_SAMPLE then some s.popSample
    else none

/-- The engine and index of a program memory word. -/
def progAt (a : Nat) : Option (Nat × Nat) :=
  if 0x200000 ≤ a ∧ a < 0x300000 then
    let e := (a - 0x200000) / 0x10000
    if R.INF_PROG e 0 ≤ a ∧ a ≤ R.INF_PROG e 511 then some (e, (a - R.INF_PROG e 0) / 8) else none
  else none

/-- Read one register for a requester: checks 2, 7 and 8 of R194 and the rules that answer it PRIV. `only` says that the
access covers no other register (R201). -/
def State.readOne (s : State) (r : Requester) (a : Nat) (only : Bool) : State × RCode × Word :=
  if s.absentReg a then (s, .absent, RCode.absent.pattern)
  else if s.regPriv r a .read then (s, .priv, RCode.priv.pattern)
  else
    match s.popAt a with
    | some p => if only then p else (s, .notReady, RCode.notReady.pattern)
    | none =>
      if s.regNotReady a then (s, .notReady, RCode.notReady.pattern)
      else
        match progAt a with
        | none => (s, .ok, s.readReg a)
        | some (e, i) =>
          let t := s.progEcc e i
          if s.eccOf .prog (512 * e + i) = .bad then (t, .ecc, RCode.ecc.pattern) else (t, .ok, s.readReg a)

/-- Read `n` registers from `a` on. All are read within the command, so that nothing falls between two of them, which R104 allows on the
hardware (DESIGN CHOICE, log entry 38). -/
def State.readRegs (s : State) (r : Requester) (only : Bool) : Nat → Nat → State × RCode × List Word
  | 0, _ => (s, .ok, [])
  | n + 1, a =>
    let (t, c, w) := s.readOne r a only
    let (u, c', ws) := State.readRegs t r only n (a + 8)
    (u, c.join c', w :: ws)

/-- What a read of one register gives (R194): the state, the code and the word. -/
def State.readAs (s : State) (r : Requester) (a : Nat) : State × RCode × Word :=
  match s.screenOne r a .read with
  | some c => (s.countTxn r a c 0 8 8, c, c.pattern)
  | none =>
    let (t, c, w) := s.readOne r a true
    (t.countTxn r a c 0 8 8, c, w)

/-- A read by a requester of one register (R194). -/
def State.asRead (s : State) (r : Requester) (a : Nat) : State :=
  if !s.targetUp then s
  else
    let (t, c, w) := s.readAs r a
    t.answered c [w]

/-! ### Process image memory (R166, R183, R186, R703) -/

/-- A byte of process image memory. -/
def State.memByte (s : State) (o : Nat) : Byte := mget 0 s.pimem o

def State.memBytes (s : State) (o n : Nat) : List Byte := mgetList 0 s.pimem o n

/-- The word at word index `i`. -/
def State.memWord (s : State) (i : Nat) : Word := bytesWord (s.memBytes (8 * i) 8)

/-- The word indexes that a range of bytes touches. -/
def wordsOf (o n : Nat) : List Nat := if n = 0 then [] else (List.range ((o + n - 1) / 8 - o / 8 + 1)).map (o / 8 + ·)

/-- Report the uncorrectable words of a range (R618, PIMEM_ECC). -/
def State.noteMemEcc (s : State) (ws : List Nat) : State :=
  ws.foldl (fun (t : State) i => if t.eccOf .pimem i = .bad then t.raise 0x006 i else t) s

/-- Read a range: the state, whether every word read is good, and the bytes. -/
def State.memRead (s : State) (o n : Nat) : State × Bool × List Byte :=
  let ws := wordsOf o n
  (s.noteMemEcc ws, ws.all (fun i => s.eccOf .pimem i != .bad), s.memBytes o n)

/-- Write the bytes of a range that fall into word `i`, with the rule of R703 for a word whose stored ECC is bad. -/
def State.memWriteWord (s : State) (o : Nat) (bs : List Byte) (i : Nat) : State × Bool :=
  let lo := max o (8 * i)
  let hi := min (o + bs.length) (8 * i + 8)
  let part := (bs.drop (lo - o)).take (hi - lo)
  let t : State := { s with pimem := mputList 0 s.pimem lo part }
  if hi - lo = 8 then (t.freshEcc .pimem i, true)
  else if s.eccOf .pimem i = .bad then (s.raise 0x006 i, false)
  else (t.freshEcc .pimem i, true)

/-- Write bytes from offset `o` on: the state, and whether every word took them. -/
def State.memWrite (s : State) (o : Nat) (bs : List Byte) : State × Bool :=
  (wordsOf o bs.length).foldl (fun (acc : State × Bool) i =>
    let (t, ok) := acc.1.memWriteWord o bs i
    (t, acc.2 && ok)) (s, true)

/-- The data of a read with the words that did not read replaced by the pattern of R193. `bad` tells the byte offsets whose
word is bad. -/
def patched (bad : Nat → Bool) (bs : List Byte) (n : Nat) : List Byte :=
  (List.range ((n + 7) / 8)).flatMap (fun j =>
    let part := (bs.drop (8 * j)).take 8
    if (List.range part.length).any (fun k => bad (8 * j + k)) then (wordBytes RCode.ecc.pattern).take part.length else part)

/-! ### Caddy diagnostic window and flash window (R147, R315, R663) -/

/-- Byte `o` of leaf `l` of the Caddy. What a word holds that nothing has written the manual does not state. -/
def State.caddyByte (s : State) (l o : Nat) : Byte :=
  match mget none s.switch.mem (32 * l + o / 8) with
  | some w => BitVec.ofNat 8 (fget w (8 * (o % 8)) 8)
  | none => Config.freeByte l o

/-- Bytes of a boot record copy (R677). -/
def BootRec.bytes (b : BootRec) : List Byte :=
  let body := leBytes 4 0x5A574252 ++ leBytes 4 b.seq ++ leBytes 1 (bit01 b.active) ++ leBytes 1 b.slotA.state ++
    leBytes 1 b.slotB.state ++ leBytes 1 b.trialBoots ++ leBytes 1 (bit01 b.migration) ++ leBytes 1 b.fallback ++ leBytes 2 0 ++
    leBytes 4 b.slotA.build ++ leBytes 4 b.slotB.build ++ leBytes 2 b.slotA.version ++ leBytes 2 b.slotB.version ++ leBytes 4 0 ++
    leBytes 32 b.slotA.imageDigest.toNat ++ leBytes 32 b.slotB.imageDigest.toNat ++ leBytes 32 b.slotA.fwDigest.toNat ++
    leBytes 32 b.slotB.fwDigest.toNat ++ leBytes 28 0
  body ++ leBytes 4 (crc32 body).toNat

/-- Byte `i` of the sector of a boot record copy. -/
def BootCopy.byte (x : BootCopy) (i : Nat) : Byte :=
  match x with
  | .blank => 0xFF
  | .torn k => if i < 192 then Config.freeByte k i else 0xFF
  | .held r => r.bytes.getD i 0xFF

/-- Bytes 0 to 4,091 of a settings record: the head, and a body whose length and bytes the manual does not state (R684). -/
def SetRec.front (r : SetRec) : List Byte :=
  leBytes 4 0x5A575354 ++ leBytes 4 r.seq ++ leBytes 2 r.version ++ leBytes 2 0 ++ leBytes 4 (r.epoch % 2 ^ 24) ++ wordBytes r.sealWord ++
    leBytes 4 (Config.freeNat r.key % 4029) ++ leBytes 36 0 ++ (List.range 4028).map (Config.freeByte r.key)

/-- Byte `i` of a place of a settings copy: a record cut short has bytes the manual does not state, and the seal of a record reads 0
(R147). -/
def State.placeByte (s : State) (x : Option SetRec) (o i : Nat) : Byte :=
  match x with
  | none => if 16 ≤ i ∧ i < 24 then 0 else Config.freeByte s.upd.boot.seq o
  | some r => if 16 ≤ i ∧ i < 24 then 0 else (r.front ++ leBytes 4 (crc32 r.front).toNat).getD i 0

/-- A byte as the flash window shows it (R662): slots and the staging area stand in `flash`; settings copies and boot records are shown
from what they hold; the reserved area reads 0xFF. What the journal holds as bytes the manual does not state. -/
def State.flashRead (s : State) (o : Nat) : Byte :=
  if o < 0x1C00000 then s.flashByte o
  else if o < 0x1E00000 then
    match ((s.settingsOf (o / 0x100000 == 0x1D)).places (o / 0x80000 % 2 == 1))[o % 0x80000 / 4096]? with
    | some x => s.placeByte x o (o % 4096)
    | none => 0xFF
  else if o < 0x1F00000 then Config.freeByte s.upd.boot.seq o
  else if 0x1F20000 ≤ o then 0xFF
  else (if (o / 0x10000 == 0x1F1) == s.upd.boot.copy then BootCopy.held s.upd.boot else s.upd.other).byte (o % 0x10000)

/-- A boot record is being written: the confirming one, or that of an activation (R682, R690). -/
def State.bootWriting (s : State) : Bool :=
  (s.upd.confirming && !s.upd.confirmEnded) || (s.hub.mode == .update && s.hub.row == 30 && !s.hub.window)

/-- Sector `k` of flash is being erased or programmed (R663): a sector of the staging area and the journal during their erase, the sector of
a put, that of the next place of a settings copy (where its half is full, the other half is erased), a sector of the slot that is
being built, and the other copy of the boot record. Which sector a long erase or programming has reached the manual does not
state. -/
def State.sectorBusy (s : State) (k : Nat) : Bool :=
  let at_ := Config.flashSector s.clk
  (s.upd.erasing && (at_ % 80 == k - 0x180 && decide (0x180 ≤ k ∧ k < 0x1C0) || at_ % 80 == k - 0x1A0 && decide (0x1E0 ≤ k ∧ k < 0x1F0))) ||
  (match s.upd.put with
    | some p => k == (stagingBase + 256 * p.block) / 65536
    | none => false) ||
  (s.upd.commit.isSome &&
    (let x := s.settingsOf s.upd.running
     let base := if s.upd.running then 0x1D0 else 0x1C0
     if x.records < 128 then k == base + 8 * bit01 x.half + x.records / 16
     else decide (base + 8 * bit01 (!x.half) ≤ k ∧ k < base + 8 * bit01 (!x.half) + 8))) ||
  (s.rd R.UPD_STATUS_state == 3 && k == at_ % 193 + (if s.upd.running then 0 else 0xC0) && decide (at_ % 193 < 192)) ||
  (s.bootWriting && k == (if s.upd.boot.copy then 0x1F0 else 0x1F1))

/-- The sector of flash offset `o` is busy. -/
def State.flashBusy (s : State) (o : Nat) : Bool := s.sectorBusy (o / 65536)

/-- The counts and sources of words of flash that read with an error (R663). -/
def State.noteFlashEcc (s : State) (ws : List Nat) : State :=
  ws.foldl (fun (t : State) i =>
    match t.eccOf .flash i with
    | .clean => t
    | .corrected => t.bump R.UPD_FLASH_ECC_corrected
    | .bad => (t.bump R.UPD_FLASH_ECC_uncorrectable).raise 0x007 i) s

/-- The housekeeper or the boot ROM reads `n` bytes of flash from `o` on (R663). -/
def State.noteFlashRead (s : State) (o n : Nat) : State := s.noteFlashEcc (s.flashMarks o n)

/-- It reads the header and a component of a slot image. -/
def State.noteComponent (s : State) (b : Bool) (at_ cap : Nat) : State :=
  let r := s.componentRange b at_ cap
  (s.noteFlashRead (slotBase b) 72).noteFlashRead r.1 r.2

/-- It reads the bytes present at a source. -/
def State.noteSource (s : State) (src : Nat) : State :=
  if src = 2 then s.noteFlashRead stagingBase (s.rd R.STP_LOAD_STATUS_received) else s.noteComponent (src == 1) 24 4194304

/-- Read `n` bytes of the Caddy diagnostic window from offset `o`. -/
def State.caddyRead (s : State) (o n : Nat) : State × RCode × List Byte :=
  let bs := (List.range n).map (fun k => s.caddyByte ((o + k) / 256) ((o + k) % 256))
  let bad (k : Nat) : Bool := s.eccOf .caddy ((o + k) / 8) == .bad
  let t := s.noteCaddyEcc (wordsOf o n)
  if (List.range n).any bad then (t, .ecc, patched bad bs n) else (t, .ok, bs)

/-- Read `n` bytes of the flash window from offset `o`. -/
def State.flashWindowRead (s : State) (o n : Nat) : State × RCode × List Byte :=
  if (List.range n).any (fun k => s.flashBusy (o + k)) then (s, .notReady, List.replicate n 0xFF)
  else
    let bs := (List.range n).map (fun k => s.flashRead (o + k))
    let bad (k : Nat) : Bool := s.eccOf .flash ((o + k) / 8) == .bad
    let t := s.noteFlashEcc (wordsOf o n)
    if (List.range n).any bad then (t, .ecc, patched bad bs n) else (t, .ok, bs)

end Sys2Proof.Machine
end

