-- ==== Sys2Proof/Machine/Tune.lean ====
section
/-!
DEFINITION. Runtime writes to tunable fields (R136, R137, R139, R140): the limits of the bit-stream, and the record of a
refused write.
-/

namespace Sys2Proof.Machine

/-- Number of a requester in the records of refusals: 0-3 a master, 4 Local. -/
def requesterNum (r : Requester) : Nat := if r.level = .localLevel then 4 else r.master.val

/-- The tuning-limits section allows value `v` in a field (R139, R140). Where two entries name one field, both bound it (DESIGN CHOICE,
log entry 22: the manual does not speak of two). -/
def State.limitsAllow (s : State) (f : Fld) (v : Nat) : Bool :=
  s.loaded.tuning.all (fun t =>
    t.addr != f.addr || t.lsb != f.lsb || t.width != f.width ||
      (decide (t.value t.lo ≤ t.value v) && decide (t.value v ≤ t.value t.hi)))

/-- Record a refused tuning write (R137). -/
def State.refuseTune (s : State) (r : Requester) (a : Nat) : State :=
  (((s.bump R.STP_TUNE_REFUSED_count).wr R.STP_TUNE_LAST_requester (requesterNum r)).wr R.STP_TUNE_LAST_privilege r.level.code).wr
    R.STP_TUNE_LAST_address a

/-- A field, the value written to it, and whether its unit chapter permits that value. -/
structure TuneField where
  fld : Fld
  value : Nat
  ok : Bool
  deriving DecidableEq, Repr

/-- The write to one field may take effect (R136). -/
def State.tuneAllowed (s : State) (x : TuneField) : Bool := x.ok && s.limitsAllow x.fld x.value

/-- Write tunable fields of the register at `a`: each allowed one takes its value, and a refusal is recorded once for the
write (R136, R137). -/
def State.tune (s : State) (r : Requester) (a : Nat) (xs : List TuneField) : State :=
  let t := (xs.filter s.tuneAllowed).foldl (fun (t : State) x => t.wr x.fld x.value) s
  if xs.all s.tuneAllowed then t else t.refuseTune r a

/-- Write tunable fields that are checked as a whole: `okAfter` judges the register after the allowed fields have taken their
values; when it fails, no field changes. -/
def State.tuneWhole (s : State) (r : Requester) (a : Nat) (xs : List TuneField) (okAfter : State → Bool) : State :=
  let t := s.tune r a xs
  if okAfter t then t else s.refuseTune r a

end Sys2Proof.Machine
end

