-- ==== Sys2Proof/Machine/PowerStates.lean ====
section
/-!
DEFINITION. The power states (15): the regulator link, the adaptive voltage loop, Doze, Hibernate and the wake logic
(R588-R608, R614).
-/

namespace Sys2Proof.Machine

/-- Send a report and remember the low byte of its code, which a BEACON gives as the last failure code (R254; DESIGN CHOICE, log entry 76:
R254 does not say what that code is). -/
def State.failReport (s : State) (code data : Nat) : State :=
  let t := s.report code data
  { t with hub := { t.hub with lastFail := code % 256 } }

/-- The hub stays in Boot and holds ERR_N low; `code` is the report that says why (R23, R24). -/
def State.failBoot (s : State) (code data : Nat) : State :=
  let t := s.failReport code data
  { t with hub := { t.hub with bootFail := true } }

/-! ### VSI (R588-R592) -/

/-- The lowest voltage of a wake: R93 keeps a request below 720 mV to Doze. -/
def wakeMv (mv : Nat) : Nat := max mv 720

/-- Nothing is outstanding: an exit from Doze or a wake that waits for the rail goes on, or makes its request where that was
discarded, or the window is looked at again (R589, R592, R600, R606). `own` says that the request just acknowledged was its own. -/
def State.vsiProgress (s : State) (own : Bool) : State :=
  match s.power.exit, s.power.hib with
  | some x, _ =>
    if x.ready then s
    else if s.rd R.PWR_WINDOW_run_floor ≤ s.rd R.PWR_STATUS_core_mv ∧ !s.power.mvUnknown then
      { s with power := { s.power with exit := some { x with ready := true } } }
    else s.vsiRequest ⟨s.rd R.PWR_WINDOW_run_floor, 2, true⟩
  | none, some h =>
    if h.phase ≠ .waking then s
    else if !own then s.vsiRequest ⟨wakeMv h.mv, 2, true⟩
    else
      { s with
        power := { s.power with hib := some { h with phase := .powered } }
        time := { s.time with resStart := if h.off then s.clk else s.time.resStart, starting := h.off || s.time.starting } }
  | none, none => s.vsiSettle 2

/-- The rail is off, or comes off, and no request but a wake's own switches it on (R603, R606). -/
def State.railDown (s : State) : Bool :=
  match s.power.hib with
  | some h => h.phase == .down
  | none => false

/-- The outstanding request is over: the first that waits for it follows, within the window of the mode that has come since
(R592). -/
def State.vsiNext (s : State) (own : Bool) : State :=
  let s : State := { s with power := { s.power with vsi := none } }
  match s.power.vsiWait with
  | [] => s.vsiProgress own
  | q :: ws =>
    if s.railDown then { s with power := { s.power with vsiWait := [] } }
    else
      let mv := if q.rise ∨ s.hub.mode = .hibernate then q.target else (mvBound s.mvWindow q.target).getD q.target
      ({ s with power := { s.power with vsiWait := ws } }).vsiSend { q with target := mv } false

/-- The regulator acknowledges the outstanding request (R588, R589). -/
def State.vsiAcknowledge (s : State) : State :=
  match s.power.vsi with
  | none => s
  | some v =>
    let s : State := { s with power := { s.power with mvUnknown := false } }
    (((s.wr R.PWR_STATUS_core_mv v.target).wr R.PWR_STATUS_vsi_busy 0).wr R.PWR_VSI_last_ack
      (min 65535 ((s.clk - v.sentAt) / 1000))).vsiNext v.rise

/-- A wake whose rail did not come: the mode stays Hibernate, and the next wake leads to Safe (R608). -/
def State.wakeFailed (s : State) : State :=
  match s.power.hib with
  | some h =>
    if h.phase = .waking then
      let s := s.failReport 3 0
      { s with power := { s.power with hib := some { h with phase := .down, target := .safe } } }
    else s
  | none => s

/-- The retry of `v` has failed as well (R591): the voltage in force is not known. A failure in Boot is a failure of the
self-test (R24); a wake whose own request failed is over (R608), and an exit from Doze goes on without its voltage (R600). -/
def State.vsiFailed (s : State) (v : Vsi) : State :=
  let s := (((s.wr R.PWR_STATUS_vsi_busy 0).wr R.PWR_LOOP_frozen 1).bump R.PWR_VSI_failures).raise 0x000
  let s := ({ s with power := { s.power with mvUnknown := true } }).noteRisk
  let s := if v.rise then s.wakeFailed else s
  let s := if s.hub.mode = .boot then s.failBoot 1 0 else s
  let s : State := if v.rise then
      { s with power := { s.power with exit := s.power.exit.map (fun x => { x with ready := true }) } } else s
  if s.power.exit.isNone ∧ s.power.hib.isNone ∧ s.power.vsiWait.isEmpty then { s with power := { s.power with vsi := none } }
  else s.vsiNext false

/-- No acknowledgement has come within 200 µs (R591): retry once, with 850 mV for a wake from Hibernate or an exit from
Doze. -/
def State.vsiTimeout (s : State) : State :=
  match s.power.vsi with
  | none => s
  | some v =>
    if s.clk - v.sentAt < 200000 then s
    else if v.retry then s.vsiFailed v
    else (s.bump R.PWR_VSI_retries).vsiSend ⟨if v.rise then 850 else v.target, v.source, v.rise⟩ true

def execVsiAck (s : State) : Host.Outcome State Fault Refusal := done s.vsiAcknowledge

def execVsiTimeout (s : State) : Host.Outcome State Fault Refusal := done s.vsiTimeout

/-- The effect of a write to PWR_WINDOW (R592, R617): the window is judged whole, and a voltage outside it is corrected. -/
def State.writeWindow (s : State) (r : Requester) (v : Word) : State :=
  let t := s.tuneWhole r R.PWR_WINDOW
    [⟨R.PWR_WINDOW_ceiling, fget v 48 16, true⟩, ⟨R.PWR_WINDOW_run_floor, fget v 32 16, true⟩,
      ⟨R.PWR_WINDOW_doze_floor, fget v 16 16, true⟩]
    (fun t => windowMvOk (t.rd R.PWR_WINDOW_ceiling) (t.rd R.PWR_WINDOW_run_floor) (t.rd R.PWR_WINDOW_doze_floor))
  (t.vsiSettle 1).noteRisk

def execWindowWrite (r : Requester) (v : Word) (s : State) : Host.Outcome State Fault Refusal :=
  done (s.asWrite r R.PWR_WINDOW (fun t => t.writeWindow r v))

/-- The effect of a write of 1 to PWR_LOOP.resume (R591, R617). -/
def State.resumeLoop (s : State) (r : Requester) : State := if r.level = .supervisor then (s.wr R.PWR_LOOP_frozen 0).noteRisk else s

def execLoopResume (r : Requester) (s : State) : Host.Outcome State Fault Refusal :=
  done (s.asWrite r R.PWR_LOOP (fun t => t.resumeLoop r))

/-! ### The adaptive voltage loop (R593-R596) -/

/-- The canary counts of the latest 1 µs (R593). -/
def State.noteCanaries (s : State) (counts : List (BitVec 16)) : State :=
  (List.range 12).foldl (fun (t : State) d =>
    if t.absentReg (R.PWR_CANARY d) then t
    else if !t.canaryOn d then t.wr (R.PWR_CANARY_count d) 0
    else
      let v := (counts.getD d 0).toNat
      let t := t.wr (R.PWR_CANARY_count d) v
      if v < t.rd (R.PWR_CANARY_min d) then t.wr (R.PWR_CANARY_min d) v else t) s

/-- The voltage that the loop comes to (R594). -/
def State.loopTarget (s : State) : Nat :=
  let v := s.rd R.PWR_STATUS_requested
  let ringOk := !s.on R.PWR_LOOP_ring_guard || decide ((Config.canaryReference 1).toNat ≤ s.rd (R.PWR_CANARY_count 1))
  let v := if s.power.missed ∨ s.power.slack < (s.rd R.PWR_LOOP_slack_low : Int) then v + 10
    else if (s.rd R.PWR_LOOP_slack_high : Int) < s.power.slack ∧ ringOk then v - 5 else v
  max s.mvWindow.1 (min v s.mvWindow.2)

/-- One evaluation (R594, R595). -/
def State.loopEvaluate (s : State) : State :=
  let v := s.loopTarget
  let late := s.power.missed || decide (s.power.slack < 0)
  let s : State := { s with power := { s.power with late := late } }
  (if v ≠ s.rd R.PWR_STATUS_requested ∧ s.power.vsi.isNone then s.vsiRequest ⟨v, 3, false⟩ else s).noteRisk

/-- AVS_LOOP_EVAL: the canaries are read, the loop evaluates, and a new period of slack begins. -/
def State.avsEval (s : State) (counts : List (BitVec 16)) : State :=
  let s := s.noteCanaries counts
  let s := if s.loopRuns then s.loopEvaluate else s
  { s with power := { s.power with slack := 16, missed := false } }

def execAvsLoopEval (canary : List (BitVec 16)) (s : State) : Host.Outcome State Fault Refusal := done (s.avsEval canary)

/-! ### Doze (R597-R600) -/

/-- The bay whose segment bay-group port `10 + p` holds (R444, R447). -/
def State.heldBay (s : State) (p : Nat) : Option Nat := (mget none s.bays.held p).map (fun h => fget (bytesWord (h.frame.payload.take 8)) 58 6)

/-- First refuser of domain `d`, in ascending order of element: code and element (R597, R598). -/
def State.refuser (s : State) (d : Nat) : Option (Nat × Nat) :=
  if s.on R.PWR_LOOP_frozen then some (0x0C, 0)
  else if d < 4 then
    ((List.range 12).map (12 * d + ·)).findSome? (fun n =>
      if !(s.tx n).words.isEmpty then some (0x01, n)
      else if s.heldBay (n / 4) = some n then some (0x02, n)
      else none)
  else
    (List.range 64).findSome? (fun i =>
      let e := 4 * (d - 4) + i / 16
      let x := s.ctx e (i % 16)
      if x.laneBusy then some (0x04, 16 * e + i % 16)
      else if x.st = .waiting ∧ x.wait = 8 ∧ x.slot.isSome then some (0x05, 16 * e + i % 16)
      else none)

/-- The domains that a Doze request names. -/
def dozeDomains (groups quads : Nat) : List Nat :=
  (List.range 8).filter (fun d => if d < 4 then bitAt groups d else bitAt quads (d - 4))

/-- Power is removed from domain `d` (R599). -/
def State.removePower (s : State) (d : Nat) : State :=
  if s.power.exit.isSome then s
  else { s with power := { s.power with gating := s.power.gating &&& ~~~(BitVec.ofNat 8 (2 ^ d)) } }

def execDozeGatingDone (d : Fin 8) (s : State) : Host.Outcome State Fault Refusal := done (s.removePower d.val)

/-- The exit from Doze is complete (R30, R600): every gated domain is ungated, and the Kettle reacts to what its banks have raised,
which may change where the exit leads (R35, R36); then TOP_MODE changes. -/
def State.dozeExit (s : State) (lost : Nat) : State :=
  match s.power.exit with
  | none => s
  | some x =>
    if !x.ready then s
    else
      let s := State.intake 16 ((List.range 8).foldl (fun (t : State) d => t.ungateDomain d (bitAt lost (6 + d))) s)
      let x := s.power.exit.getD x
      let s : State := { s with power := { s.power with exit := none } }
      (s.setMode x.mode x.row).askRing

def execDozeExitDone (lost : BitVec 16) (s : State) : Host.Outcome State Fault Refusal := done (s.dozeExit lost.toNat)

/-! ### Hibernate (R602, R603) -/

/-- The refuser of a Hibernate request (R598, R602, R675). -/
def State.hibernateRefuser (s : State) : Option Nat :=
  if s.upd.commit.isSome then some 0x08
  else if s.upd.loadOpen ∨ s.upd.erasing ∨ s.updState = 2 ∨ s.updState = 3 then some 0x09
  else if !s.on R.PWR_WAKE_CFG_hib_sources then some 0x0A
  else if s.on R.PWR_LOOP_frozen then some 0x0C
  else none

/-- Row 23 (R603 steps 1 to 3). -/
def State.enterHibernate (s : State) : State :=
  let target : Mode := if s.hub.mode = .safe ∨ s.rd R.PWR_WAKE_CFG_target ≠ 3 then .safe else .run
  let mv := s.coreMv
  let s := (s.setMode .hibernate 23).emptyCaddy true
  let s := if 1 ≤ s.time.servo ∧ s.time.servo ≤ 3 then s.enterHoldover false else s
  { s with power := { s.power with hib := some ⟨.entering, false, target, mv, 0, s.clk⟩ } }

/-- HIBERNATE_POWERED_DOWN (R603 steps 4 and 5): the resonator stops, and the counter follows a recovered clock. -/
def State.poweredDown (s : State) : State :=
  match s.power.hib with
  | some h =>
    if h.phase = .entering then
      ({ s with
        power := { s.power with hib := some { h with phase := .down, off := true } }
        time := { s.time with resonator := false, starting := false } }).refreshClock
    else s
  | none => s

def execHibernatePoweredDown (s : State) : Host.Outcome State Fault Refusal := done s.poweredDown

/-! ### Waking (R601, R604-R608) -/

/-- PWR_WAKE_LAST records a wake (R606, R617). -/
def State.noteWake (s : State) (w : Wake) : State :=
  (((s.wr R.PWR_WAKE_LAST_source w.code.val).wr R.PWR_WAKE_LAST_mode s.hub.mode.code).wr R.PWR_WAKE_LAST_element
    w.element.toNat).wr R.PWR_WAKE_LAST_time s.now.toNat

/-- Step 1 of R606. -/
def State.beginWake (s : State) (h : Hib) (w : Wake) : State :=
  let s := s.noteWake w
  let h := { h with phase := .waking, wakeAt := s.clk, target := if w.toSafe then .safe else h.target }
  ({ s with power := { s.power with hib := some h } }).vsiRequest ⟨wakeMv h.mv, 2, true⟩

/-- TIME_IO pin `k` is a wake source (R604). -/
def State.timeioWakes (s : State) (k : Nat) : Bool :=
  decide (k < 4) && s.bitOn R.PWR_WAKE_CFG_timeio k && s.rd (R.TIM_IO_function k) == 4

/-- A wake source is seen: it ends Doze by row 22 (R601), aborts an entry to Hibernate (R603) or wakes the hub (R606). -/
def State.wake (s : State) (w : Wake) : State :=
  if w.code.val = 0 ∨ (w.code.val = 4 ∧ !s.timeioWakes w.element.toNat) then s
  else
    match s.hub.mode with
    | .doze =>
      if s.bitOn R.PWR_WAKE_CFG_doze_sources (w.code.val - 1) ∧ s.power.exit.isNone then (s.noteWake w).leaveDoze .run 22 else s
    | .hibernate =>
      if !s.bitOn R.PWR_WAKE_CFG_hib_sources (w.code.val - 1) then s
      else
        match s.power.hib with
        | some h =>
          match h.phase with
          | .entering => (s.noteRefuser 8 0x10 w.code.val true).beginWake h w
          | .down => s.beginWake h w
          | .waking => s
          | .powered => s
        | none => s
    | _ => s

def execWakeSource (w : Wake) (s : State) : Host.Outcome State Fault Refusal := done (s.wake w)

/-- An edge at wake pin `j` of R604. -/
def State.wakePin (s : State) (j : Nat) (rising : Bool) (ns : Nat) : State :=
  let e := fget (s.word R.PWR_WAKE_PINS) (16 * j) 16
  let g := e % 512
  if bitAt e 15 ∧ rising ≠ bitAt e 14 ∧ 5000 ≤ ns ∧ (s.pinMode g = 1 ∨ s.pinMode g = 2) then
    s.wake ⟨3, BitVec.ofNat 8 j, false⟩
  else s

def execWakePinEdge (j : Fin 4) (rising : Bool) (ns : Nat) (s : State) : Host.Outcome State Fault Refusal :=
  done (s.wakePin j.val rising ns)

/-- The armed wake time is due (R605). -/
def State.wakeTime (s : State) : State :=
  match s.power.wakeDue with
  | some t =>
    if 0 ≤ tdiff s.now t then
      (({ s with power := { s.power with wakeDue := none } }).wr R.PWR_WAKE_AT_armed 0).wake ⟨2, 0, false⟩
    else s
  | none => s

def execWakeTimeDue (s : State) : Host.Outcome State Fault Refusal := done s.wakeTime

/-- A write to PWR_WAKE_AT without cancel (R605). -/
def State.armWake (s : State) (t : Nat) : State :=
  let s := s.wr R.PWR_WAKE_AT_time t
  match resolve s.now t 0 with
  | .pending due =>
    (({ s with power := { s.power with wakeDue := some due } }).wr R.PWR_WAKE_AT_armed 1).wr R.PWR_WAKE_AT_past 0
  | _ => s.pastWake

def execWakeAtArm (r : Requester) (t : BitVec 40) (s : State) : Host.Outcome State Fault Refusal :=
  done (s.asWrite r R.PWR_WAKE_AT (fun u => u.armWake t.toNat))

/-- A write to PWR_WAKE_AT with cancel (R617). -/
def State.cancelWake (s : State) : State :=
  ({ s with power := { s.power with wakeDue := none } }).wr R.PWR_WAKE_AT_armed 0

def execWakeAtCancel (r : Requester) (s : State) : Host.Outcome State Fault Refusal :=
  done (s.asWrite r R.PWR_WAKE_AT State.cancelWake)

/-- The banks in the order in which a wake restores them (R603, R606): the reverse of the order of entry. -/
def State.wakeBanks (s : State) : List Nat :=
  [0, 1, 2, 3, 4, 5, 14, 6, 7, 8, 9, 10, 11, 12, 13].filter (fun b => s.variant != .l3224 || !(b == 8 || b == 9 || b == 14))

/-- Step 4 of R606: the banks are restored, schedule entries that the counter passed in Hibernate are decided as R394 decides them
(log entry 14), the clock is decided (R607), and the mode changes by row 24 or row 25. A start that finds no resonator raises
TIMEBASE_DEGRADED or TIMEBASE_LOST (R363, R364), whatever held when Hibernate was entered. -/
def State.wakeDecide (s : State) (lost : Nat) : State :=
  match s.power.hib with
  | some h =>
    if h.phase = .powered ∧ (s.time.resonator ∨ 5000000 ≤ s.clk - h.wakeAt) then
      let s := if h.off then s.wakeBanks.foldl (fun (t : State) b => t.switchOnBank b (bitAt lost b)) s else s
      let s := s.decidePassed
      let s : State := { s with power := { s.power with hib := none }, time := { s.time with starting := false, lost := false } }
      let s := s.wr R.TIM_STATUS_degraded 0
      if s.clockNow = 3 then (s.setMode .safe 25).timebaseLost
      else ((s.setMode h.target 24).refreshClock).askRing
    else s
  | none => s

def execWakeClockDecide (lost : BitVec 16) (s : State) : Host.Outcome State Fault Refusal := done (s.wakeDecide lost.toNat)

/-! ### Temperatures (R614, R619) -/

/-- Judge a temperature source on a reading after reading `old`: an enabled one fires at its threshold and is re-armed 5 K below it;
for one that is not enabled, each rise to the threshold is an event, and it stays armed (R619, R621, log entry 28). -/
def State.judgeTemp (s : State) (i : Nat) (old t : Int) : State :=
  let limit : Int := s.rd (R.KET_SRC_threshold (3 + i))
  let hot := s.kettle.hot.getLsbD i
  let enabled := s.on (R.KET_SRC_enable (3 + i))
  let mark : BitVec 3 := BitVec.ofNat 3 (2 ^ i)
  if !hot ∧ limit ≤ t ∧ (enabled ∨ old < limit) then
    ({ s with kettle := { s.kettle with hot := if enabled then s.kettle.hot ||| mark else s.kettle.hot } }).raise (3 + i) (unsext 32 t)
  else if hot ∧ t ≤ limit - 5 then { s with kettle := { s.kettle with hot := s.kettle.hot &&& ~~~mark } }
  else s

/-- The peak of the hub temperature: the first reading after a reset, and whatever exceeds it (R9, R617). -/
def State.notePeak (s : State) (hub : BitVec 8) : State :=
  if s.power.tempSeen ∧ hub.toInt ≤ s.rdInt R.PWR_TEMP_hub_peak then s
  else { s.wr R.PWR_TEMP_hub_peak hub.toNat with power := { s.power with tempSeen := true } }

/-- TEMP_UPDATE: the readings, the peak, the drift of holdover and the Kettle sources (R383, R614, R619). -/
def State.tempUpdate (s : State) (hub power regulator : BitVec 8) : State :=
  let power := if s.hasPower then power else 0
  let old := (s.rdInt R.PWR_TEMP_hub, s.rdInt R.PWR_TEMP_regulator, s.rdInt R.PWR_TEMP_power)
  let s := ((s.wr R.PWR_TEMP_hub hub.toNat).wr R.PWR_TEMP_power power.toNat).wr R.PWR_TEMP_regulator regulator.toNat
  let s := s.notePeak hub
  let s : State := if s.time.servo = 4 ∨ s.time.servo = 5 then
      { s with time := { s.time with holdDelta := max s.time.holdDelta (hub.toInt - s.time.holdTemp).natAbs } } else s
  ((s.judgeTemp 0 old.1 hub.toInt).judgeTemp 1 old.2.1 regulator.toInt).judgeTemp 2 old.2.2 power.toInt

def execTempUpdate (hub power regulator : BitVec 8) (s : State) : Host.Outcome State Fault Refusal :=
  done (s.tempUpdate hub power regulator)

end Sys2Proof.Machine
end

