-- ==== Sys2Proof/Machine/ModeReq.lean ====
section
/-!
DEFINITION. Mode requests of the masters (R20, R21, R36, R120, R152, R153, R213, R214, R597, R602, R637, R681, R686) and the
triggers of JTAG and of the master watch.
-/

namespace Sys2Proof.Machine

/-- A request without a row of R20 from the mode that the trigger before has left (R21, R36). -/
def State.notListed (s : State) (r : ModeReq) (code : Nat) : State := s.refuseMode r.who code (if r.raced then 2 else 1)

/-- A record that commits an admission is being written (R153). -/
def State.admitting (s : State) : Bool :=
  match s.upd.commit with
  | some c => c.admission
  | none => false

/-- Grant or refuse a request of code `code`: `f` is what R20 makes of it from the present mode, none when it lists nothing.
Every request is refused while an admission is being written (R153); a request at another level than Supervisor is none that
R20 lists. -/
def State.modeRequest (s : State) (r : ModeReq) (code : Nat) (f : Option State) : State :=
  if s.admitting then s.refuseMode r.who code 4
  else if r.who.level ≠ .supervisor then s.notListed r code
  else
    match f with
    | none => s.notListed r code
    | some t => t

/-- The record that is written next starts from the one being written, or from the one in force: a second write to TOP_SEAL,
TOP_EPOCH or UPD_TRIAL during a record write joins that record, and is judged by it (DESIGN CHOICE, log entry 25: R150 does
not speak of two). -/
def State.nextCommit (s : State) : Commit :=
  match s.upd.commit with
  | some c => c
  | none => ⟨false, s.storedEpoch, s.sealWord, s.policy⟩

/-- Discard the pending seal and epoch (R155). -/
def State.discardPending (s : State) : State := { s with hub := { s.hub with pendSeal := none, pendEpoch := none } }

/-- 0x0 Boot: row 4 (R20, R27). While an exit from Doze is in progress TOP_MODE still reads Doze, from which R20 lists no Boot,
Steep, Update or Test (log entry 37). -/
def State.requestBoot (s : State) (r : ModeReq) : State :=
  s.modeRequest r 0
    (match s.hub.mode with
    | .test => some (s.enterBoot 4)
    | .safe => if s.upd.abandoned then some (s.enterBoot 4) else none
    | .quarantine => if s.upd.abandoned then some (s.enterBoot 4) else none
    | _ => none)

/-- 0x1 Steep: row 29, from the running slot or from a VERIFIED staging area (R119, R120). -/
def State.requestSteep (s : State) (r : ModeReq) : State :=
  let go : State :=
    if s.on R.STP_LOAD_CTRL_source then
      if s.rd R.STP_LOAD_STATUS_state = 3 then s.discardPending.startSteep 2 29 else s.refuseMode r.who 1 3
    else s.discardPending.startSteep (bit01 s.upd.running) 29
  s.modeRequest r 1
    (match s.hub.mode with
    | .safe => some go
    | .quarantine => some go
    | _ => none)

/-- 0x3 Run: rows 12, 13, 20 and 22; not after a failed migration nor with a collector self-fault (R637, R686). -/
def State.requestRun (s : State) (r : ModeReq) : State :=
  let go (t : State) : State :=
    if s.on R.UPD_STATUS_migration_fail ∨ s.on R.KET_STATUS_self_fault then s.refuseMode r.who 3 3 else t
  s.modeRequest r 3
    (match s.arbMode with
    | .safe =>
      some (go (if (s.slotOf s.upd.running).state = 3 then (s.changeMode .run 12).askRing else (s.changeMode .trial 13).askRing))
    | .island => some (go (s.changeMode .run 20).askRing)
    | .doze => some (go (s.changeMode .run 22))
    | _ => none)

/-- Admission (R152, R153): the pending seal and epoch are committed; TOP_MODE reads Safe when the record is written. -/
def State.proceed (s : State) (r : ModeReq) : State :=
  match s.hub.pendSeal, s.hub.pendEpoch with
  | some w, some e =>
    if w ≠ 0 ∧ e = s.rd R.STP_LOADED_epoch ∧ !s.on R.UPD_STATUS_migration_fail then
      { s with upd := { s.upd with commit := some { s.nextCommit with admission := true, epoch := e, sealWord := w } } }
    else s.refuseMode r.who 6 3
  | _, _ => s.refuseMode r.who 6 3

/-- 0x6 Safe: admission (row 11) or row 28. -/
def State.requestSafe (s : State) (r : ModeReq) : State :=
  s.modeRequest r 6
    (match s.arbMode with
    | .quarantine => some (s.proceed r)
    | .run => some (s.changeMode .safe 28)
    | .runDegraded => some (s.changeMode .safe 28)
    | .island => some (s.changeMode .safe 28)
    | .doze => some (s.changeMode .safe 28)
    | .trial => some (s.changeMode .safe 28)
    | _ => none)

/-- Row 21 (R13, R214, R597-R599). -/
def State.dozeGo (s : State) (r : ModeReq) (groups quads : Nat) : State :=
  let ds := dozeDomains groups quads
  if ds.isEmpty ∨ (s.variant = .l3224 ∧ (bitAt groups 2 ∨ bitAt groups 3)) then s.refuseMode r.who 7 3
  else if ds.any (fun d => (s.refuser d).isSome) then
    (ds.foldl (fun (t : State) d =>
      match s.refuser d with
      | some (code, element) => t.noteRefuser d code element false
      | none => t) s).refuseMode r.who 7 5
  else (ds.foldl State.gateDomain (s.setMode .doze 21)).askRing

/-- 0x7 Doze. -/
def State.requestDoze (s : State) (r : ModeReq) (groups quads : Nat) : State :=
  s.modeRequest r 7
    (match s.arbMode with
    | .run => if s.hub.mode = .run then some (s.dozeGo r groups quads) else none
    | _ => none)

/-- 0x8 Hibernate: row 23. -/
def State.requestHibernate (s : State) (r : ModeReq) : State :=
  let go : State :=
    match s.hibernateRefuser with
    | some code => (s.noteRefuser 8 code 0 false).refuseMode r.who 8 5
    | none => s.enterHibernate
  s.modeRequest r 8
    (match s.hub.mode with
    | .run => some go
    | .safe => some go
    | _ => none)

/-- The epoch of the bit-stream of slot `b` (R111, R664). -/
def State.slotEpoch (s : State) (b : Bool) : Nat := leAt (s.component b 24 4194304) 16 3

/-- 0x9 Update: row 30 (R681, R682 step 1). -/
def State.requestUpdate (s : State) (r : ModeReq) : State :=
  let go : State :=
    if s.updState = 4 ∧ s.storedEpoch ≤ s.slotEpoch (!s.upd.running) then s.discardPending.setMode .update 30
    else s.refuseMode r.who 9 3
  s.modeRequest r 9
    (match s.hub.mode with
    | .safe => some go
    | .quarantine => some go
    | _ => none)

/-- Enter Test (R27); a loopback that is set takes its port's link down (R18). -/
def State.enterTest (s : State) (row : Nat) : State :=
  let s := s.setMode .test row
  let s : State := { s with hub := { s.hub with testFromBoot := row == 32 } }
  (List.range 4).foldl (fun (t : State) p => if t.bitOn R.RING_CTRL_loopback p then t.linkDown p else t) s

/-- 0xB Test: row 31. -/
def State.requestTest (s : State) (r : ModeReq) : State :=
  s.modeRequest r 11
    (match s.hub.mode with
    | .safe => some (s.enterTest 31)
    | _ => none)

def execReqBoot (r : ModeReq) (s : State) : Host.Outcome State Fault Refusal :=
  done (s.asWrite r.who R.TOP_MODE_REQ (fun t => t.requestBoot r))

def execReqSteep (r : ModeReq) (s : State) : Host.Outcome State Fault Refusal :=
  done (s.asWrite r.who R.TOP_MODE_REQ (fun t => t.requestSteep r))

def execReqRun (r : ModeReq) (s : State) : Host.Outcome State Fault Refusal :=
  done (s.asWrite r.who R.TOP_MODE_REQ (fun t => t.requestRun r))

def execReqSafe (r : ModeReq) (s : State) : Host.Outcome State Fault Refusal :=
  done (s.asWrite r.who R.TOP_MODE_REQ (fun t => t.requestSafe r))

def execReqDoze (r : ModeReq) (groups quads : BitVec 4) (s : State) : Host.Outcome State Fault Refusal :=
  done (s.asWrite r.who R.TOP_MODE_REQ (fun t => t.requestDoze r groups.toNat quads.toNat))

def execReqHibernate (r : ModeReq) (s : State) : Host.Outcome State Fault Refusal :=
  done (s.asWrite r.who R.TOP_MODE_REQ (fun t => t.requestHibernate r))

def execReqUpdate (r : ModeReq) (s : State) : Host.Outcome State Fault Refusal :=
  done (s.asWrite r.who R.TOP_MODE_REQ (fun t => t.requestUpdate r))

def execReqTest (r : ModeReq) (s : State) : Host.Outcome State Fault Refusal :=
  done (s.asWrite r.who R.TOP_MODE_REQ (fun t => t.requestTest r))

/-- A write to TOP_MODE_REQ by its code (R213); a code without a row is refused (R21). -/
def State.writeModeReq (s : State) (r : ModeReq) (v : Word) : State :=
  match fget v 0 4 with
  | 0 => s.requestBoot r
  | 1 => s.requestSteep r
  | 3 => s.requestRun r
  | 6 => s.requestSafe r
  | 7 => s.requestDoze r (fget v 8 4) (fget v 12 4)
  | 8 => s.requestHibernate r
  | 9 => s.requestUpdate r
  | 11 => s.requestTest r
  | c => s.modeRequest r c none

/-! ### JTAG and the master watch -/

/-- A test instruction loaded in Boot (R27). -/
def State.jtagTest (s : State) : State := if s.hub.mode = .boot ∧ !s.inReset then s.enterTest 32 else s

def execJtagTestInstruction (s : State) : Host.Outcome State Fault Refusal := done s.jtagTest

/-- An end-of-test request through JTAG (R27). -/
def State.jtagEnd (s : State) : State := if s.hub.mode = .test then s.enterBoot 4 else s

def execJtagEndOfTest (s : State) : Host.Outcome State Fault Refusal := done s.jtagEnd

/-- The island timeout has passed since a master was heard (R31). -/
def State.islandDue (s : State) : Bool :=
  s.on R.RING_ISLAND_timeout && decide (s.rd R.RING_ISLAND_timeout * 1000000 ≤ s.clk - s.hub.heardAt)

def execIslandTimeout (s : State) : Host.Outcome State Fault Refusal :=
  done (if s.islandDue then s.ringOrMastersLost else s)

end Sys2Proof.Machine
end

