-- ==== Sys2Proof/Machine/Records.lean ====
section
/-!
DEFINITION. The records of the housekeeper in flash: the boot record, the settings records, the staging area with its journal,
and what a power failure leaves of a write in progress (R154, R668, R677, R683, R693).
-/

namespace Sys2Proof.Machine

/-! ### Boot record (R677) -/

/-- Write a new boot record into the other copy, with seq + 1; the previous record stays in its own. -/
def State.writeBoot (s : State) (f : BootRec → BootRec) : State :=
  let b := f s.upd.boot
  { s with upd := { s.upd with
      boot := { b with seq := (s.upd.boot.seq + 1) % 2 ^ 32, copy := !s.upd.boot.copy }, other := .held s.upd.boot } }

/-- The record with slot `b` changed. -/
def BootRec.modSlot (r : BootRec) (b : Bool) (f : Slot → Slot) : BootRec :=
  if b then { r with slotB := f r.slotB } else { r with slotA := f r.slotA }

/-- The record after a fallback from slot `b`: the slot is FAILED and the other is active (R678, R680, R692). -/
def BootRec.fallBack (r : BootRec) (b : Bool) (cause : Nat) : BootRec :=
  { r.modSlot b (fun x => { x with state := 4 }) with active := !b, fallback := cause }

/-- The record of a confirmation (R690). -/
def BootRec.confirm (r : BootRec) (b : Bool) : BootRec :=
  { r.modSlot b (fun x => { x with state := 3 }) with trialBoots := 0 }

/-! ### Settings (R683, R684) -/

/-- Replace half `h`. -/
def Settings.setPlaces (x : Settings) (h : Bool) (ps : List (Option SetRec)) : Settings :=
  if h then { x with high := ps } else { x with low := ps }

/-- The copy with a place for the next record: when the half in use is full, the other half is erased, takes the current record first
and is the half in use. -/
def Settings.roomy (x : Settings) : Settings :=
  if x.records < 128 then x
  else { (x.setPlaces (!x.half) [x.cur]) with half := !x.half, writes := min (x.writes + 1) (2 ^ 32 - 1) }

/-- Append a record, which is then in force. -/
def Settings.append (x : Settings) (r : SetRec) : Settings :=
  let x := x.roomy
  { (x.setPlaces x.half (x.places x.half ++ [some r])) with cur := some r, writes := min (x.writes + 1) (2 ^ 32 - 1) }

/-- A record write cut short: its place holds no valid record, and the record in force stays (R154, R677). -/
def Settings.tear (x : Settings) : Settings :=
  let x := x.roomy
  x.setPlaces x.half (x.places x.half ++ [none])

/-- The record with the higher seq. -/
def SetRec.later (a b : Option SetRec) : Option SetRec :=
  match a, b with
  | some x, some y => if x.seq < y.seq then b else a
  | none, _ => b
  | _, none => a

/-- The record that a start finds: the one with a correct CRC-32 and the highest seq in either half. -/
def Settings.chosen (x : Settings) : Settings := { x with cur := (x.low ++ x.high).foldl SetRec.later none }

/-- What the next record carries of operating hours, trips and updates. -/
def State.setBody (s : State) (policy : Word) : SetBody :=
  ⟨policy, s.upd.hours + (s.clk - s.upd.bootAt) / 3600000000000, s.upd.trips, s.upd.updates⟩

/-- Append a record with body `body`, whose bytes are those of number `key`, to the copy of slot `b`. -/
def State.appendSettings (s : State) (b : Bool) (epoch : Nat) (sealWord : Word) (body : SetBody) (key : Nat) : State :=
  let x := s.settingsOf b
  s.setSettings b (x.append ⟨(x.seq + 1) % 2 ^ 32, (s.slotOf b).version, epoch, sealWord, body, key⟩)

/-- Write the settings to the copy of slot `b`. -/
def State.writeSettings (s : State) (b : Bool) (c : Commit) : State :=
  let (k, s) := s.takeFree
  s.appendSettings b c.epoch c.sealWord (s.setBody c.policy) k

/-- What a start reads of the records (R677, R683): of the boot record copies the one with a correct CRC-32 and the higher seq, and the record
of each settings copy. -/
def State.readRecords (s : State) : State :=
  let s := (s.setSettings false s.upd.copy0.chosen).setSettings true s.upd.copy1.chosen
  match s.upd.other with
  | .held r => if s.upd.boot.seq < r.seq then { s with upd := { s.upd with boot := r, other := .held s.upd.boot } } else s
  | .blank => s
  | .torn _ => s

/-- A settings record is complete (R150, R153): it is in force, and an admission leads to Safe by row 11. A pending seal and epoch are
then discarded, those written meanwhile among them (DESIGN CHOICE, log entry 25: R155 names only Boot and rows 29 and 30). -/
def State.commitDone (s : State) : State :=
  match s.upd.commit with
  | none => s
  | some c =>
    let s := s.writeSettings s.upd.running c
    let s := { s with upd := { s.upd with commit := none } }
    if c.admission ∧ s.hub.mode = .quarantine then s.discardPending.setMode .safe 11 else s

/-! ### Staging area -/

/-- Erase the staging area and the journal (R128, R669). -/
def State.eraseStaging (s : State) : State :=
  let t := s.eraseFlash stagingBase (stagingBase + 0x400000)
  { t with upd := { t.upd with journal := [], blocks := [], stagingUndef := [] } }

/-- The contents of the staging area become undefined (R133). -/
def State.undefineStaging (s : State) : State :=
  let (k, s) := s.takeFree
  let s := s.eraseFlash stagingBase (stagingBase + 0x400000)
  { s with
    upd := { s.upd with
      blocks := [], stagingUndef := (List.range 64).foldl (fun m c => mput none m c (some k)) [] } }

/-- Program the words of a put (R129). -/
def State.programPut (s : State) (p : Put) : State :=
  let t := s.putFlash (stagingBase + 256 * p.block) (p.words.flatMap wordBytes)
  { t with upd := { t.upd with blocks := mput false t.upd.blocks p.block true } }

/-! ### Power failure and reset (R154, R693) -/

/-- What a power failure or a reset leaves of the flash writes in progress: a record is the previous one or the new one whole,
the place of one cut short holds no valid record; a block being programmed holds bytes the manual does not state, and a staging
erase cut short leaves the journal empty. -/
def State.cutWrites (s : State) : State :=
  let (k, s) := s.takeFree
  let whole := decide (Config.freeNat k % 2 = 1)
  let s : State := match s.upd.commit with
    | some c =>
      if whole then s.writeSettings s.upd.running c else s.setSettings s.upd.running (s.settingsOf s.upd.running).tear
    | none => s
  let s : State := if s.upd.confirming ∧ !s.upd.confirmEnded ∧ whole then
      s.writeBoot (fun r => r.confirm s.upd.running)
    else if s.bootWriting then { s with upd := { s.upd with other := .torn k } }
    else s
  let s : State := match s.upd.put with
    | some p =>
      let t := s.putFlash (stagingBase + 256 * p.block)
        ((List.range (8 * p.words.length)).map (fun i => Config.freeByte k (stagingBase + 256 * p.block + i)))
      { t with upd := { t.upd with blocks := mput false t.upd.blocks p.block false } }
    | none => s
  if s.upd.erasing then s.undefineStaging else s

end Sys2Proof.Machine
end

