-- ==== Sys2Proof/Machine/Supply.lean ====
section
/-!
DEFINITION. Supplies and reset (R47-R51, R55, R82, R85, R574-R577): power-on, RST_N, the hold-up reserve, the group supplies and
their isolators, and overloads of bay groups and port groups.
-/

namespace Sys2Proof.Machine

/-! ### Reset -/

/-- The pin cells after a reset: nothing drives, and the levels at the pads are what they were. -/
def State.padLevels (s : State) : SMap Pin :=
  s.bays.pins.foldl (fun m kv => mput {} m kv.1 { level := kv.2.level }) []

/-- The ports after a reset keep the readings of their thermometers. -/
def State.portReadings (s : State) : SMap Port :=
  s.power.ports.foldl (fun m kv =>
    mput {} m kv.1 { diode := kv.2.diode, estimate := kv.2.estimate, delayed := kv.2.delayed }) []

/-- The group supplies do not follow the hub's own supply. -/
def State.groupSupplies (s : State) : SMap Group :=
  s.power.groups.foldl (fun m kv => mput {} m kv.1 { supply := kv.2.supply, since := kv.2.since }) []

/-- The links after a reset: down, listening. -/
def State.freshLinks (s : State) : SMap Link :=
  (List.range 4).foldl (fun m p => mput {} m p { downSince := some s.clk, huntSince := s.clk }) []

/-- The readings that the sensors go on giving: temperatures and group supplies. -/
def State.sensorRegs (s t : State) : State :=
  let t := ((t.wr R.PWR_TEMP_hub (s.rd R.PWR_TEMP_hub)).wr R.PWR_TEMP_power (s.rd R.PWR_TEMP_power)).wr R.PWR_TEMP_regulator
    (s.rd R.PWR_TEMP_regulator)
  let t := t.wr R.PWR_TEMP_hub_peak (s.rd R.PWR_TEMP_hub)
  if !s.hasPower then t
  else
    (List.range 2).foldl (fun (u : State) g =>
      u.wr (R.PWP_GROUP_present g) (bit01 (s.group g).supply)) t

/-- The state of the housekeeper that flash keeps over a reset. -/
def Upd.kept (u : Upd) : Upd :=
  { journal := u.journal, blocks := u.blocks, stagingUndef := u.stagingUndef, boot := u.boot, other := u.other, running := u.running,
    copy0 := u.copy0, copy1 := u.copy1, fallbackDue := u.fallbackDue }

/-- The hub as a reset leaves it, in Boot by row 1 (R9, R20, R37): flash, the readings of sensors and lines, the supplies, and
the model's own fields stay. A verification or building cut short reads RECEIVING (R675). -/
def State.resetWith (s : State) (h : Hub) : State :=
  let cut := !s.upd.erasing && decide (1 ≤ s.rd R.UPD_STATUS_state ∧ s.rd R.UPD_STATUS_state ≤ 3)
  let s := s.cutWrites
  let t : State := { State.reset with
    pending := s.pending
    variant := s.variant
    rootKey := s.rootKey
    clk := s.clk
    flash := s.flash
    eccMarks := s.eccMarks.filter (fun x => decide (x.1 = .flash))
    hub := { h with enteredAt := s.clk, heardAt := s.clk }
    upd := s.upd.kept
    ring := { links := s.freshLinks, cpl := { line := s.ring.cpl.line, pad := s.ring.cpl.pad, padSince := s.ring.cpl.padSince }, restartAt := s.clk }
    time := { resStart := s.clk }
    bays := { pins := s.padLevels }
    power := { ports := s.portReadings, groups := s.groupSupplies }
    fresh := s.fresh }
  ((s.sensorRegs t).wr R.UPD_STATUS_state (bit01 cut)).vsiRequest ⟨850, 2, false⟩

/-- POWER_ON: US rises into range (R48, R49, row 1 of R20). -/
def State.powerOn (s : State) (strap : Bool) : State := s.resetWith { poweredAt := s.clk, strap := strap, rstLow := s.hub.rstLow }

def execPowerOn (strap : Bool) (s : State) : Host.Outcome State Fault Refusal := done (s.powerOn strap)

/-- A low on RST_N of 10 µs or more: the hub is in reset until the release (R82). -/
def State.rstHold (s : State) : State :=
  s.resetWith
    { usLowSince := s.hub.usLowSince, poweredAt := s.hub.poweredAt, reserve := s.hub.reserve, held := s.hub.held, rstLow := true,
      strap := s.hub.strap }

/-- RST_N_LOW, by the length of the low in ns (R82). -/
def execRstNLow (ns : Nat) (s : State) : Host.Outcome State Fault Refusal :=
  if ns < 2000 then done s
  else if ns < 10000 then .fault .rstNWidth
  else done s.rstHold

/-- RST_N_RELEASE: Boot by row 1, and the strap is sampled (R37, R85). -/
def State.rstRelease (s : State) (strap : Bool) : State :=
  if s.hub.rstLow then
    s.resetWith
      { usLowSince := s.hub.usLowSince, poweredAt := s.hub.poweredAt, reserve := s.hub.reserve, held := s.hub.held, strap := strap }
  else s

def execRstNRelease (strap : Bool) (s : State) : Host.Outcome State Fault Refusal := done (s.rstRelease strap)

/-! ### US and the hold-up reserve (R49, R51) -/

/-- The reserve is charged, at latest 50 ms after power-on. -/
def State.reserveCharged (s : State) : State := { s with hub := { s.hub with reserve := true } }

def execReserveCharged (s : State) : Host.Outcome State Fault Refusal := done s.reserveCharged

/-- US falls below 15.5 V. -/
def State.usFall (s : State) : State := { s with hub := { s.hub with usLowSince := some (s.hub.usLowSince.getD s.clk) } }

def execUsFall (s : State) : Host.Outcome State Fault Refusal := done s.usFall

/-- US rises again before the hub is held in reset: nothing else happens (R51). -/
def State.usReturn (s : State) : State := if s.hub.held then s else { s with hub := { s.hub with usLowSince := none } }

def execUsReturn (s : State) : Host.Outcome State Fault Refusal := done s.usReturn

/-- US has been low for long enough to hold the hub in reset: 1.2 ms, or 20 µs before the reserve is charged. -/
def State.holdDue (s : State) : Bool :=
  match s.hub.usLowSince with
  | some t => decide ((if s.hub.reserve then 1200000 else 20000) ≤ s.clk - t)
  | none => false

/-- US_HOLD_EXPIRE (R49, R50). -/
def State.usHold (s : State) : State :=
  if s.holdDue ∧ !s.hub.held then
    s.resetWith
      { usLowSince := s.hub.usLowSince, poweredAt := s.hub.poweredAt, held := true, rstLow := s.hub.rstLow, strap := s.hub.strap }
  else s

def execUsHoldExpire (s : State) : Host.Outcome State Fault Refusal := done s.usHold

/-! ### Group supplies and isolators (R574-R577) -/

/-- The supply of group `g` falls below its presence threshold. -/
def State.supplyLoss (s : State) (g mv : Nat) : State :=
  if !s.hasPower then s
  else
    let s := s.setGroup g { s.group g with supply := false, overSince := none }
    let s := (s.wr (R.PWP_GROUP_present g) 0).wr (R.PWP_GROUP_supply g) mv
    (s.openIsolator g 1).raise (0x064 + g) mv

def execGroupSupplyLoss (g : Fin 2) (mv : BitVec 16) (s : State) : Host.Outcome State Fault Refusal :=
  done (s.supplyLoss g.val mv.toNat)

/-- The supply of group `g` rises above 17.0 V. -/
def State.supplyReturn (s : State) (g mv : Nat) : State :=
  if !s.hasPower ∨ (s.group g).supply then s
  else
    let s := s.setGroup g { s.group g with supply := true, since := s.clk }
    let s := (s.wr (R.PWP_GROUP_present g) 1).wr (R.PWP_GROUP_supply g) mv
    s.letClose g

def execGroupSupplyReturn (g : Fin 2) (mv : BitVec 16) (s : State) : Host.Outcome State Fault Refusal :=
  done (s.supplyReturn g.val mv.toNat)

/-- The 10 ms after the supply's return are over: the soft start begins. -/
def State.closeDelayOver (s : State) (g : Nat) : State :=
  let x := s.group g
  if x.iso = .delay ∧ 10000000 ≤ s.clk - x.since then s.startClose g else s

def execIsolatorCloseDelayExpire (g : Fin 2) (s : State) : Host.Outcome State Fault Refusal := done (s.closeDelayOver g.val)

/-- The soft start of 1 ms is over: the isolator is closed, and R558 applies to its ports. -/
def State.isolatorClosed (s : State) (g : Nat) : State :=
  let x := s.group g
  if x.iso = .closing ∧ 1000000 ≤ s.clk - x.closeAt then
    let s := s.setGroup g { x with iso := .closed }
    let s := (s.wr (R.PWP_GROUP_closed g) 1).wr (R.PWP_GROUP_opened_by g) 0
    (groupPorts g).foldl (fun (t : State) k => (t.refreshPort k).noteDamageCond k) s
  else s

def execIsolatorClosed (g : Fin 2) (s : State) : Host.Outcome State Fault Refusal := done (s.isolatorClosed g.val)

/-! ### Overloads (R55, R577) -/

/-- When the outputs of bay group `k` came to source more than 2.0 A, and whether that has been raised. -/
def State.overSince (s : State) (k : Nat) : Option (Nat × Bool) := mget none s.bays.overSince k

def State.setOverSince (s : State) (k : Nat) (v : Option (Nat × Bool)) : State :=
  { s with bays := { s.bays with overSince := mput none s.bays.overSince k v } }

/-- BAYGRP_OUTPUT_CURRENT: the outputs of bay group `k` come to source more than 2.0 A, or cease to. -/
def State.groupCurrent (s : State) (k : Nat) (above : Bool) : State :=
  s.setOverSince k (if above then some ((s.overSince k).getD (s.clk, false)) else none)

def execBaygrpOutputCurrent (k : Fin 4) (above : Bool) (s : State) : Host.Outcome State Fault Refusal :=
  done (if k.val < s.nGroups then s.groupCurrent k.val above else s)

/-- BAYGRP_OVERLOAD: they have done so for 10 ms (R55). -/
def State.groupOverload (s : State) (k : Nat) : State :=
  match s.overSince k with
  | some (t, raised) => if !s.asleep ∧ 10000000 ≤ s.clk - t ∧ !raised then (s.setOverSince k (some (t, true))).raise (0x060 + k) else s
  | none => s

def execBaygrpOverload (k : Fin 4) (s : State) : Host.Outcome State Fault Refusal := done (s.groupOverload k.val)

/-- PP_GROUP_OVERLOAD: the current of group `g` has exceeded 8.0 A for 10 ms (R577). -/
def State.portOverload (s : State) (g ma : Nat) : State :=
  match (s.group g).overSince with
  | some t =>
    if !s.asleep ∧ 10000000 ≤ s.clk - t ∧ !s.on (R.PWP_GROUP_overload g) then
      ((s.wr (R.PWP_GROUP_overload g) 1).wr (R.PWP_GROUP_current g) ma).raise (0x066 + g) ma
    else s
  | none => s

def execPpGroupOverload (g : Fin 2) (ma : BitVec 16) (s : State) : Host.Outcome State Fault Refusal :=
  done (s.portOverload g.val ma.toNat)

end Sys2Proof.Machine
end

