-- ==== Sys2Proof/Machine/Ring.lean ====
section
/-!
DEFINITION. The ring: links and rates (R217-R222, R246, R704), node numbers and the Strainer's resets (R240-R245), Steam messages
(R248-R255) and the coupler (R261-R268).
-/

namespace Sys2Proof.Machine

/-! ### Rates and links -/

/-- The port carries a link: it is present and its function is not off (R216). -/
def State.linked (s : State) (p : Nat) : Bool := p < 4 && s.portPresent p && s.portFunction p != 0

/-- Rate `r` is permitted by the bit-stream (R217). -/
def State.rateOk (s : State) (r : Nat) : Bool := 1 ≤ r && s.bitOn R.RING_RATE_allowed (r - 1)

/-- From Boot until the end of Steep the rates and the enables of the bit-stream do not count (R77, R218); Update by row 7 and Test by
row 32 are entered from Boot, before any Steep has ended. -/
def State.unsteeped (s : State) : Bool :=
  match s.hub.mode with
  | .boot => true
  | .steep => true
  | .update => s.hub.row == 7
  | .test => s.hub.testFromBoot
  | _ => false

/-- RING_RATE.rate: the rate of a locked ring port, port 0 first; 0 while none is locked. -/
def State.noteRate (s : State) : State :=
  s.wr R.RING_RATE_rate
    (if (s.link 0).lockSince.isSome then (s.link 0).lastRate else if (s.link 1).lockSince.isSome then (s.link 1).lastRate else 0)

/-- The transmitter of port `p` is on (R18, R271, R628). -/
def State.txOn (s : State) (p : Nat) : Bool :=
  (s.unsteeped || s.bitOn R.RING_CTRL_tx_enable p) && (s.link p).txOffSince.isNone

/-- Port `p` is looped back at its PCS, which acts in Test only. -/
def State.loopedBack (s : State) (p : Nat) : Bool := s.hub.mode == .test && s.bitOn R.RING_CTRL_loopback p

/-- A port whose lock is at a rate that the bit-stream does not permit counts as down after Steep (R219). Ports 2 and 3 have one
rate. -/
def State.rateMismatch (s : State) (p : Nat) : Bool :=
  decide (p < 2) && !s.unsteeped && (s.link p).lockSince.isSome && !s.rateOk (s.link p).lastRate

/-- The rate that a port without lock listens at first, where it locked last at `last` (0: never): 25.78125 GBd before the end of
Steep, then the rate of its last lock where that is permitted, else a permitted one (R218). -/
def State.firstHunt (s : State) (last : Nat) : Nat :=
  if s.unsteeped then 1 else if s.rateOk last then last else if s.rateOk 1 then 1 else 2

/-- LINK_LOSS (R246): loss of signal or of block lock, or, with `highBer`, the high-BER condition, through which the lock
stands. -/
def State.linkLoss (s : State) (p : Nat) (highBer : Bool) : State :=
  if s.inReset ∨ !s.linked p then s
  else if highBer then (s.setLink p { s.link p with berAt := some s.clk }).linkDown p
  else
    let l := s.link p
    let s := s.setLink p { l with
      lockSince := none, hunt := if p < 2 ∧ s.optical then s.firstHunt l.lastRate else l.hunt, huntSince := s.clk }
    let s := (s.wr (R.RING_PORT_locked p) 0).noteRate
    (s.linkDown p).refreshClock

def execLinkLoss (fault : LinkFault) (s : State) : Host.Outcome State Fault Refusal := done (s.linkLoss fault.port.val fault.highBer)

/-- After Steep, a port that is locked at a rate that is not permitted counts as down and is reported (R219), with the code of that rate
as the report's data (DESIGN CHOICE, log entry 76). -/
def State.noteMismatch (s : State) (p : Nat) : State :=
  let l := s.link p
  if s.rateMismatch p then ((s.linkDown p).raise (0x01C + p) l.lastRate).failReport 5 l.lastRate else s

/-- BLOCK_LOCK (R218): at the rate listened for, or by the PHY on 1000BASE-T1. -/
def State.blockLock (s : State) (p : Nat) : State :=
  let l := s.link p
  if s.inReset ∨ !s.linked p ∨ l.lockSince.isSome then s
  else
    let rate := if p < 2 ∧ s.optical then l.hunt else 3
    let s := s.setLink p { l with lockSince := some s.clk, lastRate := rate }
    (((s.wr (R.RING_PORT_locked p) 1).noteRate).noteMismatch p).refreshClock

def execBlockLock (p : Fin 4) (s : State) : Host.Outcome State Fault Refusal := done (s.blockLock p.val)

/-- Port `p` has been locked for 1 ms, without the high-BER condition, and nothing keeps its link down (R18, R219, R246). -/
def State.mayComeUp (s : State) (p : Nat) : Bool :=
  !s.inReset && s.linked p && s.txOn p && !s.loopedBack p && !s.rateMismatch p &&
  (match (s.link p).lockSince with
    | some t => decide (1000000 ≤ s.clk - max t ((s.link p).berAt.getD 0))
    | none => false)

/-- LINK_UP (R246, R247, R303). -/
def State.linkUp (s : State) (p : Nat) : State :=
  if s.on (R.RING_PORT_up p) ∨ !s.mayComeUp p then s
  else
    let s := (s.wr (R.RING_PORT_up p) 1).setLink p { s.link p with downSince := none, berAt := none }
    let s := s.setOutp p { s.outp p with downSince := none, holdEnded := false }
    (s.noteRing p).refreshClock

def execLinkUp (p : Fin 4) (s : State) : Host.Outcome State Fault Refusal := done (s.linkUp p.val)

/-- The other rate that port `p` listens at: among both rates before the end of Steep, then among the permitted ones (R218). -/
def State.otherRate (s : State) (r : Nat) : Nat :=
  let o := if r = 1 then 2 else 1
  if s.unsteeped ∨ s.rateOk o then o else r

/-- RATE_HUNT_SWITCH (R218): 4 ms without lock. -/
def State.huntSwitch (s : State) (p : Nat) : State :=
  let l := s.link p
  if s.inReset ∨ !s.optical ∨ l.lockSince.isSome ∨ s.clk - l.huntSince < 4000000 then s
  else s.setLink p { l with hunt := s.otherRate l.hunt, huntSince := s.clk }

def execRateHuntSwitch (p : Fin 2) (s : State) : Host.Outcome State Fault Refusal := done (s.huntSwitch p.val)

/-- The end of Steep: a locked port at a rate that is not permitted counts as down (R219), one without lock begins to listen among
the permitted rates (R218). -/
def State.checkRates (s : State) : State :=
  (List.range 2).foldl (fun (t : State) p =>
    let l := t.link p
    if l.lockSince.isSome ∨ !t.optical then t.noteMismatch p
    else t.setLink p { l with hunt := t.firstHunt l.lastRate, huntSince := t.clk }) s

/-- The slowest rate that the bit-stream permits on port `p`, coded as RING_RATE.rate. -/
def State.slowestRate (s : State) (p : Nat) : Nat := if 2 ≤ p ∨ !s.optical then 3 else if s.rateOk 2 then 2 else 1

/-- LINK_MARGIN_CHECK (R221): the invalid sync headers of the last second. -/
def State.marginCheck (s : State) (p invalid : Nat) : State :=
  if s.inReset ∨ s.asleep ∨ !s.ringPort p then s
  else
    let s := s.wr (R.RING_PORT_invalid p) (min invalid 65535)
    if 1000 < invalid then
      let s := (s.wr (R.RING_PORT_margin_low p) 1).raise (0x014 + p) (min invalid 65535)
      let l := s.link p
      if l.lastRate = s.slowestRate p then
        ((s.wr (R.RING_PORT_at_risk p) 1).setLink p { l with riskSince := some (l.riskSince.getD s.clk) }).raise (0x018 + p)
      else (s.wr (R.RING_PORT_at_risk p) 0).setLink p { l with riskSince := none }
    else
      ((s.wr (R.RING_PORT_margin_low p) 0).wr (R.RING_PORT_at_risk p) 0).setLink p { s.link p with riskSince := none }

def execLinkMarginCheck (p : Fin 4) (invalid : Nat) (s : State) : Host.Outcome State Fault Refusal :=
  done (s.marginCheck p.val invalid)

/-- The effect of a write to RING_RATE (R220, R393): in Safe and for a permitted rate; a time that has passed leaves no switch. -/
def State.writeRate (s : State) (next t : Nat) : State :=
  if s.hub.mode ≠ .safe ∨ !s.rateOk next then s
  else
    let s := s.wr R.RING_RATE_switch_time t
    match resolve s.now t 0 with
    | .pending due => ({ s with ring := { s.ring with rateDue := some due } }).wr R.RING_RATE_next next
    | _ => s.pastRate

def execRingRateWrite (r : Requester) (next : BitVec 3) (t : BitVec 40) (s : State) : Host.Outcome State Fault Refusal :=
  done (s.asWrite r R.RING_RATE (fun u => u.writeRate next.toNat t.toNat))

/-- RATE_SWITCH (R220): at the switch time both ring ports change rate together. -/
def State.rateSwitch (s : State) : State :=
  match s.ring.rateDue with
  | none => s
  | some due =>
    if 0 < tdiff due s.now then s
    else
      let n := s.rd R.RING_RATE_next
      let s : State := { s with ring := { s.ring with rateDue := none } }
      let s := (List.range 2).foldl (fun (t : State) p =>
        t.setLink p { t.link p with lastRate := n, hunt := n, huntSince := t.clk }) s
      (s.wr R.RING_RATE_next 0).noteRate

def execRateSwitch (s : State) : Host.Outcome State Fault Refusal := done s.rateSwitch

/-- The bits of tx_enable name built ports only, and those of lpi spur ports in tap or analysis function (R704). -/
def State.txBitsOk (s : State) (v : Nat) : Bool := (List.range 4).all (fun p => !bitAt v p || s.linked p)
def State.lpiBitsOk (s : State) (v : Nat) : Bool :=
  (List.range 2).all (fun n => !bitAt v n || (s.portPresent (2 + n) && decide (2 ≤ s.portFunction (2 + n))))

/-- The effect of a write to RING_CTRL (R18, R704). A transmitter that is turned on starts the 1 ms of R246 anew. -/
def State.writeRingCtrl (s : State) (r : Requester) (v : Word) : State :=
  let old := s
  let s := (s.wr R.RING_CTRL_loopback (fget v 4 4)).tune r R.RING_CTRL
    [⟨R.RING_CTRL_lpi, fget v 8 2, s.lpiBitsOk (fget v 8 2)⟩, ⟨R.RING_CTRL_tx_enable, fget v 0 4, s.txBitsOk (fget v 0 4)⟩]
  (List.range 4).foldl (fun (t : State) p =>
    if !t.txOn p ∨ t.loopedBack p then t.linkDown p
    else if !old.txOn p ∨ old.loopedBack p then
      t.setLink p { t.link p with lockSince := (t.link p).lockSince.map (fun _ => t.clk) }
    else t) s

def execRingCtrlWrite (r : Requester) (v : Word) (s : State) : Host.Outcome State Fault Refusal :=
  done (s.asWrite r R.RING_CTRL (fun t => t.writeRingCtrl r v))

/-- KETTLE_TX_OFF_EXPIRE (R628): the transmitter of a block reset is on again after 1 ms. -/
def State.txBack (s : State) (p : Nat) : State :=
  let l := s.link p
  match l.txOffSince with
  | some t =>
    if 1000000 ≤ s.clk - t then s.setLink p { l with txOffSince := none, lockSince := l.lockSince.map (fun _ => s.clk) } else s
  | none => s

def execKettleTxOffExpire (p : Fin 4) (s : State) : Host.Outcome State Fault Refusal := done (s.txBack p.val)

/-! ### The Strainer's resets (R240) -/

/-- The entries from `lo` to `hi` become STALE. -/
def staleRange (m : SMap StrEntry) (lo hi : Nat) : SMap StrEntry :=
  m.filter (fun kv => decide (kv.1 < lo)) ++
    ((List.range (hi - lo)).map (fun i => (lo + i, { mget {} m (lo + i) with st := .stale })) ++ m.filter (fun kv => decide (hi ≤ kv.1)))

def State.staleEntries (s : State) (lo hi : Nat) : State :=
  ({ s with ring := { s.ring with strainer := staleRange s.ring.strainer lo hi } }).bump R.STR_STATUS_resets

/-- The effect of a write of 1 to STR_CTRL.reset. -/
def State.resetStrainer (s : State) : State := s.staleEntries 0 1024

def execStrainerReset (r : Requester) (s : State) : Host.Outcome State Fault Refusal :=
  done (s.asWrite r R.STR_CTRL State.resetStrainer)

/-! ### Node numbers (R242-R245) -/

/-- Adopt node number `n` on the ring of port `p` (R240, R243). -/
def State.adoptNode (s : State) (p n : Nat) : State :=
  let s : State := if p < 2 then { s with hub := { s.hub with node := n } } else s.wr R.RING_NODE_sub_node n
  s.staleEntries (256 * s.ringOf p) (256 * s.ringOf p + 256)

/-- The effect of a write of 1 to RING_NODE.adopt, or of adopt_sub with `p` 2. -/
def State.adoptOffer (s : State) (r : Requester) (p : Nat) : State :=
  let offer := if p < 2 then s.rd R.RING_NODE_offer else s.rd R.RING_NODE_sub_offer
  if r.level = .supervisor ∧ (s.hub.mode = .safe ∨ s.hub.mode = .quarantine) ∧ offer ≠ 0 then s.adoptNode p offer else s

def execNodeAdopt (r : Requester) (s : State) : Host.Outcome State Fault Refusal :=
  done (s.asWrite r R.RING_NODE (fun t => t.adoptOffer r 0))

def execNodeAdoptSub (r : Requester) (s : State) : Host.Outcome State Fault Refusal :=
  done (s.asWrite r R.RING_NODE (fun t => t.adoptOffer r 2))

/-- The offer that an ENUM with anchor `a` and length `l` makes to the `k`-th node of its direction; none where it makes none
(R242). -/
def enumOffer (a l k : Nat) (east : Bool) : Option Int :=
  if east then some (if l = 0 then (a + k : Nat) else ((a : Int) - 1 + k) % (l : Int) + 1)
  else if l = 0 then none
  else some (((a : Int) - 1 - k) % (l : Int) + 1)

def State.setRingLen (s : State) (p l : Nat) : State :=
  if p < 2 then s.wr R.RING_STATUS_ring_len l else s.wr R.RING_STATUS_sub_len l

/-- Act on an offer of 1 to 250 (R243). -/
def State.takeOffer (s : State) (p n l : Nat) : State :=
  let own := s.nodeOf p
  if own = 0 then (s.adoptNode p n).setRingLen p l
  else if own = n then (if l = 0 then s else s.setRingLen p l)
  else
    let s := if p < 2 then s.wr R.RING_NODE_offer n else s.wr R.RING_NODE_sub_offer n
    (s.raise (0x020 + p / 2) n).failReport 4 n

/-! ### Steam messages (R252-R254) -/

/-- The key of a source whose message came to port `p`: the node numbers of the two rings of a coupler stand apart. -/
def steamKey (p : Nat) (m : SteamMsg) : Nat := 256 * (p / 2) + m.src.toNat

/-- The message was acted on within the last 100 ms (R253). -/
def State.steamActed (s : State) (p : Nat) (m : SteamMsg) : Bool :=
  s.ring.steamSeen.any (fun x => x.1 == steamKey p m && x.2.1 == m.seq.toNat && decide (s.clk < x.2.2 + 100000000))

def State.markActed (s : State) (p : Nat) (m : SteamMsg) : State :=
  let kept := s.ring.steamSeen.filter (fun x => decide (s.clk < x.2.2 + 100000000))
  { s with ring := { s.ring with steamSeen := kept ++ [(steamKey p m, m.seq.toNat, s.clk)] } }

/-- The last eastbound ENUM on the ring of port `p`. -/
def State.lastEast (s : State) (p : Nat) : Option Nat := if p < 2 then s.ring.enumEast else s.ring.enumEastSub

def State.noteEast (s : State) (p : Nat) : State :=
  if p < 2 then { s with ring := { s.ring with enumEast := some s.clk } }
  else { s with ring := { s.ring with enumEastSub := some s.clk } }

/-- A westbound offer does not count while an eastbound ENUM has arrived within 100 ms (R242). -/
def State.eastRecent (s : State) (p : Nat) : Bool :=
  match s.lastEast p with
  | some t => decide (s.clk < t + 100000000)
  | none => false

/-- Act on an ENUM that arrived at port `p` (R242-R245). A message stays on its ring, and its ring number is not looked at: before
the end of Steep the hub has none of its own (log entry 15). -/
def State.actEnum (s : State) (p : Nat) (m : SteamMsg) : State :=
  let b (i : Nat) : Nat := (m.body.getD i 0).toNat
  let east := decide (p % 2 = 1)
  if 2 ≤ p ∧ s.isCoupler then s
  else
    let anew := !s.steamActed p m
    let s : State := if east then s.noteEast p else s
    if !anew ∨ (!east ∧ s.eastRecent p) then s
    else
      match enumOffer (b 0) (b 1) (m.hops.toNat + 1) east with
      | none => s
      | some n => if 1 ≤ n ∧ n ≤ 250 then (s.markActed p m).takeOffer p n.toNat (b 1) else s

/-- Act on a WAKE (R604). -/
def State.actWake (s : State) (p : Nat) (m : SteamMsg) : State :=
  let t := m.body.getD 0 0
  if s.steamActed p m then s
  else
    let s := s.markActed p m
    if t = 0xFF ∨ (s.nodeOf p ≠ 0 ∧ t.toNat = s.nodeOf p) then s.wake ⟨1, 0, m.body.getD 1 0 == 6⟩ else s

/-- An own BEACON has come back through port `p`: the ring is closed while both ports' beacons do so (R248). -/
def State.beaconReturned (s : State) (p : Nat) : State :=
  let q := opposite p
  let s := s.setLink q { s.link q with beaconBack := some s.clk }
  let recent (i : Nat) : Bool := match (s.link i).beaconBack with
    | some t => decide (s.clk ≤ t + 30000000)
    | none => false
  if recent p ∧ recent q then s.wr (if p < 2 then R.RING_STATUS_closed else R.RING_STATUS_sub_closed) 1 else s

/-- What comes back of the hub's own messages: a BEACON (R248), and on a gateway's sub-ring the ENUM, whose hop count gives the
length of the ring. -/
def State.ownReturned (s : State) (p : Nat) (m : SteamMsg) : State :=
  if m.type = 1 then s.beaconReturned p
  else if m.type = 2 ∧ 2 ≤ p then s.setRingLen p (m.hops.toNat + 1)
  else s

/-- Forward a message through the opposite port, with its hop count and its check word brought up to date; a message that fails its
check keeps the check word it came with (R253, log entry 16). -/
def State.forwardSteam (s : State) (p : Nat) (m : SteamMsg) : State :=
  let own := s.nodeOf p
  if (own ≠ 0 ∧ m.src.toNat = own) ∨ 250 ≤ m.hops.toNat ∨ (own ≠ 0 ∧ m.dst.toNat = own) then s
  else
    let n : SteamMsg := { m with hops := m.hops + 1 }
    s.queueSteam (opposite p) (if m.intact then n.seal else n) false

/-- A Steam message arrives at port `p` (R248, R253-R255). -/
def State.receiveSteam (s : State) (p : Nat) (m : SteamMsg) : State :=
  if s.inReset ∨ !s.ringPort p then s
  else if !m.intact then (s.bump R.RING_STEAM_bad).forwardSteam p m
  else
    let own := s.nodeOf p
    let s := (s.bump R.RING_STEAM_rx).pmcEv 2 6 p
    let s := s.forwardSteam p m
    if own ≠ 0 ∧ m.src.toNat = own then s.ownReturned p m
    else if m.type = 2 then s.actEnum p m
    else if m.type = 3 then s.actWake p m
    else s

def execSteamEnumReceived (p : Fin 4) (m : SteamMsg) (s : State) : Host.Outcome State Fault Refusal :=
  done (s.receiveSteam p.val { m with type := 2 })

def execSteamWakeReceived (p : Fin 4) (m : SteamMsg) (s : State) : Host.Outcome State Fault Refusal :=
  done (s.receiveSteam p.val { m with type := 3 })

def execSteamMessageForward (p : Fin 4) (m : SteamMsg) (s : State) : Host.Outcome State Fault Refusal :=
  done (s.receiveSteam p.val m)

/-- The body of a BEACON (R254). -/
def State.beaconBody (s : State) : List Byte :=
  let flags := bit01 (s.sealWord != 0) + 2 * bit01 (s.on R.RING_STATUS_closed) + 4 * bit01 (s.ring.cpl.state == 2) +
    8 * bit01 (s.hub.node != 0)
  leBytes 1 s.hub.mode.code ++ leBytes 1 s.hub.row ++ leBytes 1 flags ++ leBytes 1 s.hub.lastFail ++
    leBytes 1 (s.rd R.STP_STATUS_last_cause) ++ leBytes 3 (s.rd R.STP_LOADED_epoch)

/-- BEACON_SEND: every 10 ms, and every 100 ms in Hibernate. -/
def State.sendBeacon (s : State) : State :=
  let period := if s.hub.mode = .hibernate then 100000000 else 10000000
  if s.inReset ∨ s.clk < s.ring.beaconAt + period then s
  else
    let s := s.sendSteam 1 0xFF s.beaconBody s.steamPorts
    { s with ring := { s.ring with beaconAt := s.clk } }

def execBeaconSend (s : State) : Host.Outcome State Fault Refusal := done s.sendBeacon

/-- ENUM_SEND: every 100 ms the gateway coupler enumerates its sub-ring (R242, R254). -/
def State.sendEnum (s : State) : State :=
  if s.inReset ∨ s.ring.cpl.state ≠ 2 ∨ s.clk < s.ring.enumAt + 100000000 then s
  else
    let s := s.sendSteam 2 0xFF
      (leBytes 1 (s.rd R.RING_NODE_sub_node) ++ leBytes 1 (s.rd R.RING_STATUS_sub_len) ++ leBytes 1 (s.rd R.RING_CFG_sub_ring)) [2, 3]
    { s with ring := { s.ring with enumAt := s.clk } }

def execEnumSend (s : State) : Host.Outcome State Fault Refusal := done s.sendEnum

/-- RING_CLOSED_TIMEOUT (R248): a beacon has been missing for 30 ms. -/
def State.closedTimeout (s : State) (sub : Bool) : State :=
  let f := if sub then R.RING_STATUS_sub_closed else R.RING_STATUS_closed
  let base := if sub then 2 else 0
  let missing (i : Nat) : Bool := match (s.link i).beaconBack with
    | some t => decide (t + 30000000 < s.clk)
    | none => true
  if s.on f ∧ (missing base ∨ missing (base + 1)) then (s.wr f 0).raise (0x022 + bit01 sub) else s

def execRingClosedTimeout (sub : Bool) (s : State) : Host.Outcome State Fault Refusal := done (s.closedTimeout sub)

/-! ### The coupler (R261-R268) -/

def State.modCpl (s : State) (f : Cpl → Cpl) : State := { s with ring := { s.ring with cpl := f s.ring.cpl } }

/-- HEARTBEAT_RECEIVED: a heartbeat of the partner on the main ring or the sub-ring is noted (R262). -/
def State.heartbeat (s : State) (sub : Bool) (f : Frame) : State :=
  let partner := if sub then s.rd R.RING_CPL_partner_sub else s.rd R.RING_CPL_partner_main
  if !s.coreUp ∨ s.ring.cpl.state = 0 ∨ f.ftype ≠ 4 ∨ f.src ≠ partner ∨ f.srcRing ≠ s.ringOf (if sub then 2 else 0) then s
  else
    let gw := f.payload.getD 0 0 == 2
    s.modCpl (fun c =>
      if sub then { c with hbSub := some s.clk, gwSub := if gw then some s.clk else c.gwSub }
      else { c with hbMain := some s.clk, gwMain := if gw then some s.clk else c.gwMain })

def execHeartbeatReceived (sub : Bool) (f : Frame) (s : State) : Host.Outcome State Fault Refusal := done (s.heartbeat sub f)

/-- Payload of a heartbeat (R261). -/
def State.heartbeatBody (s : State) : List Byte :=
  leBytes 1 s.ring.cpl.state ++ leBytes 1 s.hub.mode.code ++ leBytes 2 s.ring.cpl.count ++ leBytes 4 0

/-- HEARTBEAT_SEND: every period a coupler sends a heartbeat to its partner on each ring (R261). -/
def State.sendHeartbeats (s : State) : State :=
  let c := s.ring.cpl
  if !s.coreUp ∨ c.state = 0 ∨ s.clk < c.lastSent + s.rd R.RING_CPL_period * 1000 then s
  else
    let body := s.heartbeatBody
    let main := ({ ftype := 4, dst := s.rd R.RING_CPL_partner_main, dstRing := s.rd R.RING_CFG_ring } : Head).frame body
    let sub := ({ ftype := 4, dst := s.rd R.RING_CPL_partner_sub, dstRing := s.rd R.RING_CFG_sub_ring } : Head).frame body
    let s := (((s.originate { unit := 8 } main).1).originate { unit := 8 } sub).1
    s.modCpl (fun c => { c with count := (c.count + 1) % 65536, lastSent := s.clk, yielded := false })

def execHeartbeatSend (s : State) : Host.Outcome State Fault Refusal := done s.sendHeartbeats

/-- A gateway heartbeat that arrived at `t` is valid (R262). -/
def State.gwValid (s : State) (t : Option Nat) : Bool :=
  match t with
  | some t => !s.ring.cpl.line && decide (s.clk < t + s.rd R.RING_CPL_miss_limit * s.rd R.RING_CPL_period * 1000)
  | none => false

def State.anyGateway (s : State) : Bool := s.gwValid s.ring.cpl.gwMain || s.gwValid s.ring.cpl.gwSub

/-- The coupler drives CPL_ILK low and is gateway (R264). -/
def State.becomeGateway (s : State) : State :=
  (s.setCpl 2 true).modCpl (fun c => { c with gwMain := none, gwSub := none, syncDue := s.clk })

/-- The coupler logic sees the level `high` at the pad of CPL_ILK. Its filter takes the level over once it has been seen for 1 µs (R81). -/
def State.seeLine (s : State) (high : Bool) : State :=
  s.modCpl (fun c =>
    if high ≠ c.pad then { c with pad := high, padSince := s.clk }
    else if s.clk < c.padSince + 1000 then c
    else { c with line := high })

/-- What the filtered level of CPL_ILK does: heartbeats end with a high line (R262), and a high line while driving is timed (R268). -/
def State.noteLine (s : State) : State :=
  s.modCpl (fun c =>
    if c.line then { c with gwMain := none, gwSub := none, highSince := if c.drive then some (c.highSince.getD s.clk) else none }
    else { c with highSince := none, faulted := false })

/-- The time counter is at a whole microsecond: in the 2 ns in which it comes to one (R96, R263). -/
def State.wholeMicrosecond (s : State) : Bool := decide (s.now.toNat % 1000 < 2)

/-- COUPLER_EVALUATE: at a whole microsecond, with the level of CPL_ILK at its pad (R263-R266). A hub that has released the line does not
take it again before its heartbeat has declared its new role (R267, log entry 77). -/
def State.evaluateCoupler (s : State) (high : Bool) : State :=
  let conflict := s.ring.cpl.gwMain.isSome || s.ring.cpl.gwSub.isSome
  let t := (s.seeLine high).noteLine
  if !s.wholeMicrosecond then s
  else if s.inReset then t
  else if t.ring.cpl.state = 1 then
    if t.anyGateway ∨ t.ring.cpl.yielded then t else (t.becomeGateway.bump R.RING_CPL_STATUS_takeovers).raise 0x024
  else if t.ring.cpl.state = 2 ∧ conflict then
    let (k, t) := t.takeFree
    let t := ((t.setCpl 3 false).bump R.RING_CPL_STATUS_conflicts).raise 0x025
    t.modCpl (fun c => { c with backoffEnd := t.clk + (Config.jitter k).toNat * 1000 })
  else t

def execCouplerEvaluate (lineHigh : Bool) (s : State) : Host.Outcome State Fault Refusal := done (s.evaluateCoupler lineHigh)

/-- CPL_BACKOFF_END (R266). -/
def State.backoffOver (s : State) : State :=
  if s.ring.cpl.state ≠ 3 ∨ s.clk < s.ring.cpl.backoffEnd then s
  else if s.ring.cpl.line ∧ !s.anyGateway then s.becomeGateway
  else s.setCpl 1 false

def execCplBackoffEnd (s : State) : Host.Outcome State Fault Refusal := done s.backoffOver

/-- CPL_LINE_FAULT_DETECT (R268). -/
def State.lineFault (s : State) : State :=
  let c := s.ring.cpl
  match c.highSince with
  | some t =>
    if c.state = 2 ∧ c.drive ∧ !c.faulted ∧ 10000 ≤ s.clk - t then (s.modCpl (fun c => { c with faulted := true })).raise 0x026 else s
  | none => s

def execCplLineFaultDetect (s : State) : Host.Outcome State Fault Refusal := done s.lineFault

/-- The effect of a write of 1 to RING_CPL.release (R267). -/
def State.releaseGateway (s : State) (r : Requester) : State :=
  if r.level = .supervisor ∧ s.ring.cpl.state = 2 then s.releaseLine 1 else s

def execCplRelease (r : Requester) (s : State) : Host.Outcome State Fault Refusal :=
  done (s.asWrite r R.RING_CPL (fun t => t.releaseGateway r))

end Sys2Proof.Machine
end

