-- ==== Sys2Proof/Machine/Boot.lean ====
section
/-!
DEFINITION. Boot and Steep (R20-R24, R37, R115-R123, R677-R680, R682-R692): choosing a slot, the end of a Steep, the reboot
window, settings migration, and the trial of a new image.
-/

namespace Sys2Proof.Machine

/-! ### Failed Steeps (R22, R23, R122, R123, R680) -/

/-- Record a failed Steep attempt (R122). -/
def State.noteSteepFailure (s : State) (src : Nat) (c : Cause) : State :=
  ((s.wr R.STP_STATUS_last_cause c.code).wr R.STP_STATUS_last_source src).bump R.STP_STATUS_fail_count

/-- The fallback of a slot in TRIAL whose Steep has failed (R680). -/
def State.steepFallback (s : State) (b : Bool) : State :=
  if (s.slotOf b).state = 2 then
    let s := s.writeBoot (fun r => r.fallBack b 4)
    { s with upd := { s.upd with fallbackDue := true } }
  else s

/-- An attempt from slot `b` has failed: the other slot is tried once, then the hub stays in Boot (R23). -/
def State.slotFailed (s : State) (b : Bool) (c : Cause) : State :=
  let s := s.steepFallback b
  if s.hub.retried then s.failBoot 2 (c.code + 2 ^ 8 * bit01 b)
  else { s with hub := { s.hub with retried := true, nextSlot := some (!b) } }

/-- A Steep in progress fails: row 5, with STP_STATUS recorded before TOP_MODE reads Boot (R122). A failure from the staging area
does not use up the retry (R123). -/
def State.steepFailed (s : State) (c : Cause) : State :=
  let src := s.hub.steepSrc
  let s := (s.noteSteepFailure src c).enterBoot 5
  if src = 2 then { s with hub := { s.hub with retried := false, nextSlot := none } } else s.slotFailed (src == 1) c

/-! ### Selecting a slot (R37, R678, R679) -/

/-- The slot that the start boots, and the boot record that it leaves (R678). A retry boots the slot that R23 names. -/
def State.selectSlot (s : State) : Bool × State :=
  let s := s.readRecords
  match s.hub.nextSlot with
  | some b => (b, s)
  | none =>
    let act := s.upd.boot.active
    if s.hub.strap then (!act, s)
    else if (s.slotOf act).state = 2 then
      if s.upd.boot.trialBoots = 2 then
        let s := s.writeBoot (fun r => r.fallBack act 2)
        (!act, { s with upd := { s.upd with fallbackDue := true } })
      else (act, s.writeBoot (fun r => { r with trialBoots := r.trialBoots + 1 }))
    else (act, s)

/-- The firmware of slot `b` matches the digest of the boot record (R679); an EMPTY slot has none (R676). -/
def State.firmwareOk (s : State) (b : Bool) : Bool :=
  (s.slotOf b).state != 0 && digestNat (sha256 (s.component b 16 2097152)) == (s.slotOf b).fwDigest

/-- The boot ROM reads the firmware of slot `b` (R663, R679). -/
def State.noteFirmware (s : State) (b : Bool) : State :=
  if (s.slotOf b).state = 0 then s else s.noteComponent b 16 2097152

/-- The housekeeper goes on from the body of the settings record of slot `b` (R683, R684). -/
def State.takeBody (s : State) (b : Bool) : State :=
  let x := (s.settingsOf b).body
  { s with upd := { s.upd with hours := x.hours, trips := x.trips, updates := x.updates, bootAt := s.clk } }

/-- Boot slot `b`: a migration begins with the own copy erased, for its first record (R685, R687). What counts in one boot starts anew, and row 6 or row 7 follows (R678, R685, R688). -/
def State.bootSlot (s : State) (b : Bool) : State :=
  let s := (s.wr R.UPD_STATUS_migration_fail 0).wr R.UPD_STATUS_abandon_late 0
  let s : State := { s with upd := { s.upd with
    running := b, trialNs := 0, abandoned := false, confirming := false, confirmEnded := false, migrationDue := false } }
  if s.upd.boot.migration ∧ (s.slotOf b).state = 2 then
    ((s.setSettings b { writes := (s.settingsOf b).writes }).takeBody (!b)).setMode .update 7
  else (s.takeBody b).startSteep (bit01 b) 6

/-- SELFTEST_DONE: select a slot, check its firmware, and boot it; firmware that does not match counts as a failed Steep from its
slot (R679). -/
def State.selftestDone (s : State) : State :=
  if s.hub.mode ≠ .boot ∨ s.inReset ∨ s.hub.bootFail then s
  else
    let (b, s) := s.selectSlot
    let s := s.noteFirmware b
    if s.firmwareOk b then s.bootSlot b
    else
      let s := (s.noteSteepFailure (bit01 b) .signature).slotFailed b .signature
      if s.hub.bootFail then s
      else
        let s := s.noteFirmware (!b)
        if s.firmwareOk (!b) then s.bootSlot (!b)
        else (s.noteSteepFailure (bit01 (!b)) .signature).slotFailed (!b) .signature

def execSelftestDone (s : State) : Host.Outcome State Fault Refusal := done s.selftestDone

/-- SELFTEST_FAIL (R24). -/
def State.selftestFail (s : State) : State := if s.hub.mode = .boot ∧ !s.inReset then s.failBoot 1 0 else s

def execSelftestFail (s : State) : Host.Outcome State Fault Refusal := done s.selftestFail

/-! ### The end of a Steep (R121, R122, R686, R692) -/

/-- Checks 1 to 6 on the source of the Steep (R116). -/
def State.steepFault (s : State) : Option Cause :=
  imageFault (s.sourceBytes s.hub.steepSrc) s.rootKey s.variant.code s.storedEpoch

/-- Raise what a fallback or a failed migration left to report at the end of the next Steep. -/
def State.reportDue (s : State) : State :=
  let s := if s.upd.fallbackDue then s.raise 0x00A s.upd.boot.fallback else s
  let s := if s.upd.migrationDue then
    s.raise 0x00B ((s.slotOf (!s.upd.running)).version * 65536 + (s.slotOf s.upd.running).version) else s
  { s with upd := { s.upd with fallbackDue := false, migrationDue := false } }

/-- Step 5 of R121: the loaded bit-stream is recorded, and row 9 or row 10 follows. -/
def State.steepEnds (s : State) (g : Image) : State :=
  let s := (s.cfg R.STP_LOADED_build g.build).cfg R.STP_LOADED_epoch g.epoch
  let s := (List.range 4).foldl (fun (t : State) i => t.cfg (R.STP_DIGEST_digest i) (leAt g.digest (8 * i) 8)) s
  let s := (s.wr R.STP_STATUS_source s.hub.steepSrc).wr R.STP_STATUS_duration (min ((s.clk - s.hub.steepAt) / 1000) (2 ^ 32 - 1))
  let s : State := { s with hub := { s.hub with retried := false, nextSlot := none } }
  let s := s.fillBuckets.reportDue
  (if s.sealWord = 0 then s.setMode .quarantine 9 else s.setMode .safe 10).checkRates

/-- STEEP_COMPLETE: the source is checked and applied; a check that fails ends the Steep by row 5. -/
def State.steepComplete (s : State) : State :=
  if s.hub.mode ≠ .steep then s
  else
    let fault := s.steepFault
    let s := s.noteSource s.hub.steepSrc
    match fault with
    | some c => s.steepFailed c
    | none =>
      let g := imageOf (s.sourceBytes s.hub.steepSrc)
      match s.applyImage g with
      | (t, some c) => t.steepFailed c
      | (t, none) => t.steepEnds g

def execSteepComplete (s : State) : Host.Outcome State Fault Refusal := done s.steepComplete

/-- STEEP_FAIL: the check that fails, or, when word `storeError` of the configuration store does not read back, cause STORE and
CFG_ECC (R116, R618). -/
def State.steepFail (s : State) (storeError : Option (BitVec 32)) : State :=
  if s.hub.mode ≠ .steep then s
  else
    let fault := s.steepFault
    let read := s.noteSource s.hub.steepSrc
    match fault with
    | some c => read.steepFailed c
    | none =>
      match read.applyImage (imageOf (s.sourceBytes s.hub.steepSrc)) with
      | (t, some c) => t.steepFailed c
      | (t, none) =>
        match storeError with
        | some w => (t.raise 0x008 w.toNat).steepFailed .store
        | none => s

def execSteepFail (storeError : Option (BitVec 32)) (s : State) : Host.Outcome State Fault Refusal := done (s.steepFail storeError)

/-! ### Activation (R682, R696) -/

/-- Step 2 and 3 of R682: the record is written and the reboot window opens. -/
def State.activate (s : State) : State :=
  if s.hub.mode ≠ .update ∨ s.hub.row ≠ 30 ∨ s.hub.window then s
  else
    let b := !s.upd.running
    let s := s.writeBoot (fun r =>
      { r.modSlot b (fun x => { x with state := 2 }) with active := b, trialBoots := 0, migration := true })
    let s : State := { s with
      upd := { s.upd with journal := [] }
      hub := { s.hub with window := true } }
    (s.applyPins.refreshIsolators.refreshPorts).emptyCaddy true

def execActivationRecordWritten (s : State) : Host.Outcome State Fault Refusal := done s.activate

/-- REBOOT_WINDOW_CLOSE: row 2. -/
def State.windowClose (s : State) : State := if s.hub.mode = .update ∧ s.hub.window then s.enterBoot 2 else s

def execRebootWindowClose (s : State) : Host.Outcome State Fault Refusal := done s.windowClose

/-! ### Migration (R685, R686) -/

/-- A migration is running. -/
def State.migrating (s : State) : Bool := s.hub.mode == .update && s.hub.row == 7

/-- The migrated settings: the previous slot's record with the own version, the first record of the own copy; what its body says stays,
and where the versions are equal every byte of it (R685). The update that it ends joins the history that the next record will carry (R684,
log entry 73). -/
def State.migrateSettings (s : State) : State :=
  let b := s.upd.running
  let old := s.settingsOf (!b)
  let (k, t) := s.takeFree
  let t := match old.cur with
    | some r => t.appendSettings b old.epoch old.sealWord r.body (if r.version = (s.slotOf b).version then r.key else k)
    | none => t.appendSettings b old.epoch old.sealWord { policy := defaultPolicy } k
  { t with upd := { t.upd with updates := (t.slotOf b :: t.upd.updates).take 16 } }

/-- Migration has ended (R685) or failed (R686): migration pending clears, and row 8 follows. -/
def State.migrationEnds (s : State) (ok : Bool) : State :=
  let s := if ok then s.migrateSettings
    else
      let t := s.wr R.UPD_STATUS_migration_fail 1
      { t with upd := { t.upd with migrationDue := true } }
  let s := s.writeBoot (fun r => { r with migration := false })
  s.startSteep (bit01 s.upd.running) 8

def execMigrationEnd (ok : Bool) (s : State) : Host.Outcome State Fault Refusal :=
  done (if s.migrating then s.migrationEnds ok else s)

/-- MIGRATION_TIMEOUT: 10 s have passed. -/
def execMigrationTimeout (s : State) : Host.Outcome State Fault Refusal :=
  done (if s.migrating ∧ 10000000000 ≤ s.clk - s.hub.enteredAt then s.migrationEnds false else s)

/-! ### Trial (R688-R692) -/

/-- Row 3: the running slot is FAILED and the other slot active, then Boot. -/
def State.trialFails (s : State) (cause : Nat) : State :=
  let s := s.writeBoot (fun r => r.fallBack s.upd.running cause)
  ({ s with upd := { s.upd with fallbackDue := true } }).enterBoot 3

/-- The confirming record write has begun in this boot (R691). -/
def State.confirmBegun (s : State) : Bool := s.upd.confirming

/-- The conditions of R689. The dwell counts from entry to Trial or from the last Kettle event of the confirming severity. -/
def State.confirmConditions (s : State) : Bool :=
  s.hub.mode == .trial &&
  decide (fget s.policy 16 16 * 1000000000 ≤ s.clk - max s.hub.enteredAt s.upd.lastSevere) &&
  !s.on R.KET_STATUS_self_fault && !s.on R.UPD_STATUS_migration_fail &&
  (fget s.policy 41 1 == 0 || decide (s.clk - s.hub.heardAt ≤ 1000000000)) && !s.upd.abandoned

/-- TRIAL_CONFIRM_CHECK (R689): the confirming record write begins. -/
def State.confirmCheck (s : State) : State :=
  if s.confirmConditions then { s with upd := { s.upd with confirming := true } } else s

/-- TRIAL_WINDOW_EXPIRE (R688, R692). Confirmation comes before expiry at the same millisecond (R689). -/
def State.trialExpire (s : State) : State :=
  if s.hub.mode = .trial ∧ !s.confirmBegun ∧ fget s.policy 48 8 * 60000000000 ≤ s.upd.trialNs then
    if s.confirmConditions then s.confirmCheck else s.trialFails 1
  else s

def execTrialWindowExpire (s : State) : Host.Outcome State Fault Refusal := done s.trialExpire

def execTrialConfirmCheck (s : State) : Host.Outcome State Fault Refusal := done s.confirmCheck

/-- TRIAL_CONFIRMED (R690): the record is written, and row 14 follows from Trial. -/
def State.confirmed (s : State) : State :=
  if s.confirmBegun ∧ !s.upd.confirmEnded then
    let s := s.writeBoot (fun r => r.confirm s.upd.running)
    let s : State := { s with upd := { s.upd with confirmEnded := true } }
    if s.hub.mode = .trial then (s.setMode .run 14).askRing else s
  else s

def execTrialConfirmed (s : State) : Host.Outcome State Fault Refusal := done s.confirmed

/-- The effect of a write of 1 to UPD_CTRL.abandon (R691). -/
def State.abandon (s : State) (r : Requester) : State :=
  if r.level ≠ .supervisor then s
  else if s.confirmBegun then s.wr R.UPD_STATUS_abandon_late 1
  else if (s.slotOf s.upd.running).state ≠ 2 then s
  else
    let s : State := { s with upd := { s.upd with abandoned := true } }
    if s.hub.mode = .trial then s.trialFails 3 else s.writeBoot (fun x => { x with trialBoots := 2 })

def execUpdAbandon (r : Requester) (s : State) : Host.Outcome State Fault Refusal :=
  done (s.asWrite r R.UPD_CTRL (fun t => t.abandon r))

end Sys2Proof.Machine
end

