-- ==== Sys2Proof/Machine/Update.lean ====
section
/-!
DEFINITION. The housekeeper's commands: seal, epoch and trial policy (R146-R156, R695), loading over the ring (R126-R134,
R668-R671), and verifying and building an update package (R665-R667, R672-R676).
-/

namespace Sys2Proof.Machine

/-! ### Seal, epoch, trial policy -/

/-- Supervisor, in Quarantine or Safe (R126, R148, R671, R676, R695). -/
def State.housekeeping (s : State) (r : Requester) : Bool :=
  decide (r.level = .supervisor) && (s.hub.mode == .quarantine || s.hub.mode == .safe)

/-- A settings record is to be written. -/
def State.startCommit (s : State) (c : Commit) : State := { s with upd := { s.upd with commit := some c } }

/-- The effect of a write to TOP_SEAL (R148-R150, R686). -/
def State.writeSeal (s : State) (r : Requester) (v : Word) : State :=
  if !s.housekeeping r ∨ s.on R.UPD_STATUS_migration_fail then s
  else if s.hub.mode = .quarantine then { s with hub := { s.hub with pendSeal := some v } }
  else
    let c := s.nextCommit
    s.startCommit { c with sealWord := v, epoch := if v = 0 then 0 else c.epoch }

def execSealWrite (r : Requester) (v : Word) (s : State) : Host.Outcome State Fault Refusal :=
  done (s.asWrite r R.TOP_SEAL (fun t => t.writeSeal r v))

/-- The effect of a write to TOP_EPOCH.stored (R148, R149, R151, R686). -/
def State.writeEpoch (s : State) (r : Requester) (v : Nat) : State :=
  if !s.housekeeping r ∨ s.on R.UPD_STATUS_migration_fail then s
  else if s.hub.mode = .quarantine then { s with hub := { s.hub with pendEpoch := some v } }
  else
    let c := s.nextCommit
    if c.sealWord ≠ 0 ∧ c.epoch ≤ v ∧ v ≤ s.rd R.STP_LOADED_epoch then s.startCommit { c with epoch := v } else s

def execEpochWrite (r : Requester) (v : BitVec 24) (s : State) : Host.Outcome State Fault Refusal :=
  done (s.asWrite r R.TOP_EPOCH (fun t => t.writeEpoch r v.toNat))

def execSettingsCommitDone (s : State) : Host.Outcome State Fault Refusal := done s.commitDone

/-- The effect of a write to TOP_SEAL_CHAL (R148, R156). -/
def State.writeChallenge (s : State) (r : Requester) (v : Word) : State :=
  if !s.housekeeping r then s
  else
    let s := s.setWord R.TOP_SEAL_CHAL v
    { s with hub := { s.hub with sealCalc := some v } }

def execSealChallenge (r : Requester) (v : Word) (s : State) : Host.Outcome State Fault Refusal :=
  done (s.asWrite r R.TOP_SEAL_CHAL (fun t => t.writeChallenge r v))

/-- The response to a challenge: the first 8 bytes of the digest over the committed seal, the challenge and the node number
(R156). -/
def State.sealResponse (s : State) (c : Word) : Word :=
  bytesWord ((sha256 (wordBytes s.sealWord ++ wordBytes c ++ leBytes 1 s.hub.node)).take 8)

/-- SEAL_RESP_READY: the response is computed from the challenge with the seal and the node number of this moment (DESIGN CHOICE, log entry
25: R156 does not say when they are taken). -/
def State.sealReady (s : State) : State :=
  match s.hub.sealCalc with
  | some c =>
    if s.asleep then s else
    let s := s.setWord R.TOP_SEAL_RESP (s.sealResponse c)
    { s with hub := { s.hub with sealCalc := none } }
  | none => s

def execSealRespReady (s : State) : Host.Outcome State Fault Refusal := done s.sealReady

/-- The fields of UPD_TRIAL with the ranges of R694: lowest bit, width, and whether a value is permitted. -/
def trialFields : List (Nat × Nat × (Nat → Bool)) :=
  [(48, 8, fun v => decide (1 ≤ v ∧ v ≤ 60)), (42, 2, fun v => decide (1 ≤ v)), (41, 1, fun _ => true),
   (16, 16, fun v => decide (10 ≤ v ∧ v ≤ 600))]

/-- The effect of a write to UPD_TRIAL (R137, R686, R695). -/
def State.writeTrial (s : State) (r : Requester) (v : Word) : State :=
  if !s.housekeeping r ∨ s.on R.UPD_STATUS_migration_fail then s
  else
    let c := s.nextCommit
    let good := trialFields.filter (fun f => f.2.2 (fget v f.1 f.2.1))
    let p := good.foldl (fun p f => fset p f.1 f.2.1 (fget v f.1 f.2.1)) c.policy
    let s := s.startCommit { c with policy := p }
    if good.length = trialFields.length then s else s.refuseTune r R.UPD_TRIAL

def execUpdTrialWrite (r : Requester) (v : Word) (s : State) : Host.Outcome State Fault Refusal :=
  done (s.asWrite r R.UPD_TRIAL (fun t => t.writeTrial r v))

/-! ### Loads (R126-R134) -/

/-- Set STP_LOAD_STATUS.state; a cause stands with FAILED only. -/
def State.loadState (s : State) (n cause : Nat) : State :=
  (s.wr R.STP_LOAD_STATUS_state n).wr R.STP_LOAD_STATUS_cause cause

/-- Open a load for a master: RECEIVING, with no verification running (R127, R132). -/
def State.openLoad (s : State) (r : Requester) (received : Nat) : State :=
  let s : State := { s with upd := { s.upd with loadOpen := true, loadVerifying := false } }
  ((s.wr R.STP_LOAD_STATUS_owner r.master.val).wr R.STP_LOAD_STATUS_received received).loadState 1 0

/-- Close the load (R133, R672). -/
def State.closeLoad (s : State) : State :=
  let s : State := { s with upd := { s.upd with loadOpen := false, loadVerifying := false } }
  (s.wr R.STP_LOAD_STATUS_owner 0).loadState 0 0

/-- A write of 1 to start, with or without discard_staged (R127, R128, R669). -/
def State.loadStart (s : State) (r : Requester) (discard : Bool) : State :=
  if !s.housekeeping r ∨ s.upd.loadOpen ∨ (s.stagedImage ∧ !discard) then s
  else
    let s := s.eraseStaging
    let s : State := { s with upd := { s.upd with erasing := true } }
    ((s.wr R.STP_LOAD_STATUS_busy 1).wr R.UPD_STATUS_state 0).openLoad r 0

def execLoadStart (r : Requester) (s : State) : Host.Outcome State Fault Refusal :=
  done (s.asWrite r R.STP_LOAD_CTRL (fun t => t.loadStart r false))

def execLoadDiscardStaged (r : Requester) (s : State) : Host.Outcome State Fault Refusal :=
  done (s.asWrite r R.STP_LOAD_CTRL (fun t => t.loadStart r true))

/-- A write of 1 to abort (R133). -/
def State.loadAbort (s : State) (r : Requester) : State :=
  if !s.housekeeping r ∨ !s.upd.loadOpen then s else s.closeLoad.undefineStaging

def execLoadAbort (r : Requester) (s : State) : Host.Outcome State Fault Refusal :=
  done (s.asWrite r R.STP_LOAD_CTRL (fun t => t.loadAbort r))

/-- The master owns the open load. -/
def State.ownsLoad (s : State) (r : Requester) : Bool :=
  s.housekeeping r && s.upd.loadOpen && s.rd R.STP_LOAD_STATUS_owner == r.master.val

/-- A write of 1 to verify (R131). -/
def State.loadVerify (s : State) (r : Requester) : State :=
  if !s.ownsLoad r ∨ s.rd R.STP_LOAD_STATUS_state ≠ 1 then s
  else ({ s with upd := { s.upd with loadVerifying := true } }).loadState 2 0

def execLoadVerify (r : Requester) (s : State) : Host.Outcome State Fault Refusal :=
  done (s.asWrite r R.STP_LOAD_CTRL (fun t => t.loadVerify r))

/-- LOAD_VERIFY_DONE: checks 1 to 6 on the staging area (R131). A put still in progress goes on and is programmed at its end (DESIGN CHOICE,
log entry 32: R132 does not speak of one). -/
def State.loadVerifyDone (s : State) : State :=
  if !s.upd.loadVerifying then s
  else
    let s : State := { s with upd := { s.upd with loadVerifying := false } }
    let fault := imageFault (s.sourceBytes 2) s.rootKey s.variant.code s.storedEpoch
    let s := s.noteSource 2
    match fault with
    | none => s.loadState 3 0
    | some c => s.loadState 4 c.code

def execLoadVerifyDone (s : State) : Host.Outcome State Fault Refusal := done s.loadVerifyDone

/-- The effect of a write to STP_LOAD_CTRL as a whole: source, then abort, start and verify (DESIGN CHOICE, log entry 32: R127 gives
no order for bits set together). -/
def State.writeLoadCtrl (s : State) (r : Requester) (v : Word) : State :=
  if !s.housekeeping r then s
  else
    let s := s.wr R.STP_LOAD_CTRL_source (fget v 8 1)
    let s := if fget v 6 1 = 1 then s.loadAbort r else s
    let s := if fget v 4 1 = 1 then s.loadStart r (fget v 7 1 == 1) else s
    if fget v 5 1 = 1 then s.loadVerify r else s

/-- The effect of a write to STP_LOAD_BUF[i] (R127, R129). -/
def State.writeLoadBuf (s : State) (r : Requester) (i : Nat) (v : Word) : State :=
  if !s.ownsLoad r then s
  else if s.on R.STP_LOAD_STATUS_busy then s.wr R.STP_LOAD_STATUS_overrun 1
  else s.setWord (R.STP_LOAD_BUF i) v

def execLoadBufWrite (r : Requester) (i : Fin 32) (v : Word) (s : State) : Host.Outcome State Fault Refusal :=
  done (s.asWrite r (R.STP_LOAD_BUF i.val) (fun t => t.writeLoadBuf r i.val v))

/-- The effect of a write to STP_LOAD_PUT (R127, R129, R132). -/
def State.writeLoadPut (s : State) (r : Requester) (block words : Nat) : State :=
  if !s.ownsLoad r then s
  else if s.on R.STP_LOAD_STATUS_busy then s.wr R.STP_LOAD_STATUS_overrun 1
  else if words = 0 ∨ 32 < words then s
  else
    let ws := (List.range words).map (fun i => s.word (R.STP_LOAD_BUF i))
    let s : State := { s with upd := { s.upd with put := some ⟨block, ws⟩, loadVerifying := false } }
    (s.wr R.STP_LOAD_STATUS_busy 1).loadState 1 0

def execLoadPut (r : Requester) (block : BitVec 14) (words : BitVec 6) (s : State) : Host.Outcome State Fault Refusal :=
  done (s.asWrite r R.STP_LOAD_PUT (fun t => t.writeLoadPut r block.toNat words.toNat))

/-! ### The journal (R668, R670, R671) -/

/-- Bytes of a chunk of the staging area. -/
def State.chunkBytes (s : State) (c : Nat) : List Byte := s.readFlash (stagingBase + 65536 * c) 65536

/-- Length of the package in the staging area, from block 0; 0 while block 0 holds none. -/
def State.packageLength (s : State) : Nat :=
  if mget false s.upd.blocks 0 ∧ leNat (s.flashBytes stagingBase 4) = 0x5A575550 then leNat (s.flashBytes (stagingBase + 8) 4) else 0

/-- Every block of chunk `c` that counts has been programmed: all 256, or those up to the last byte of the package (R668). A
journaled chunk has been. -/
def State.chunkComplete (s : State) (c : Nat) : Bool :=
  let len := s.packageLength
  let last := len - 1
  let need := if len ≠ 0 ∧ last / 65536 = c then last % 65536 / 256 + 1 else 256
  (mget none s.upd.journal c).isSome || (List.range need).all (fun i => mget false s.upd.blocks (256 * c + i))

/-- Journal chunk `c` if it is complete. -/
def State.journalChunk (s : State) (c : Nat) : State :=
  if s.chunkComplete c then
    let t := s.noteFlashRead (stagingBase + 65536 * c) 65536
    { t with upd := { t.upd with journal := mput none t.upd.journal c (some (crc32 (s.chunkBytes c))) } }
  else s

/-- LOAD_PUT_DONE (R129, R130, R668). A put whose load has been aborted is dropped, but is programmed where another load is open by then
(DESIGN CHOICE, log entry 32: R133 is silent on a put in progress). -/
def State.putDone (s : State) : State :=
  match s.upd.put with
  | none => s
  | some p =>
    let s : State := { s with upd := { s.upd with put := none } }
    let s := s.wr R.STP_LOAD_STATUS_busy (bit01 s.upd.erasing)
    if !s.upd.loadOpen then s
    else
      let s := s.programPut p
      let top := 256 * p.block + 8 * p.words.length
      let s := if s.rd R.STP_LOAD_STATUS_received < top then s.wr R.STP_LOAD_STATUS_received top else s
      let s := s.journalChunk (p.block / 256)
      if p.block = 0 ∧ s.packageLength ≠ 0 then s.journalChunk ((s.packageLength - 1) / 65536 % 64) else s

def execLoadPutDone (s : State) : Host.Outcome State Fault Refusal := done s.putDone

/-- STAGING_ERASE_DONE (R669). -/
def State.eraseDone (s : State) : State :=
  if !s.upd.erasing then s
  else
    let s : State := { s with upd := { s.upd with erasing := false } }
    s.wr R.STP_LOAD_STATUS_busy (bit01 s.upd.put.isSome)

def execStagingEraseDone (s : State) : Host.Outcome State Fault Refusal := done s.eraseDone

/-- The chunk is journaled and its CRC-32 still matches (R671). -/
def State.chunkKept (s : State) (c : Nat) : Bool :=
  match mget none s.upd.journal c with
  | some x => x == crc32 (s.chunkBytes c)
  | none => false

/-- Erase chunk `c` and its journal entry. -/
def State.eraseChunk (s : State) (c : Nat) : State :=
  let s := s.eraseFlash (stagingBase + 65536 * c) (stagingBase + 65536 * (c + 1))
  { s with
    upd := { s.upd with
      journal := mdel s.upd.journal c, blocks := mcut s.upd.blocks (256 * c) (256 * (c + 1))
      stagingUndef := mdel s.upd.stagingUndef c } }

/-- The effect of a write of 1 to UPD_CTRL.resume (R671). -/
def State.resumeLoad (s : State) (r : Requester) : State :=
  if !s.housekeeping r ∨ s.upd.loadOpen then s
  else
    let read := s.upd.journal.foldl (fun (t : State) kv => t.noteFlashRead (stagingBase + 65536 * kv.1) 65536) s
    let t := (List.range 64).foldl (fun (t : State) c => if s.chunkKept c then t else t.eraseChunk c) read
    let top := t.upd.journal.foldl (fun n kv => max n (65536 * (kv.1 + 1))) 0
    t.openLoad r top

def execUpdResume (r : Requester) (s : State) : Host.Outcome State Fault Refusal :=
  done (s.asWrite r R.UPD_CTRL (fun t => t.resumeLoad r))

/-! ### Packages (R665-R667) -/

/-- A record of a package (R666). -/
inductive PkgRec where
  | copy (src len : Nat)
  | data (bytes : List Byte)
  | fill (len : Nat) (v : Byte)
  deriving DecidableEq, Repr

/-- The record at the head of the bytes and the bytes behind it (R666). -/
def pkgRecord (bs : List Byte) : Option (PkgRec × List Byte) :=
  let len := leAt bs 4 4
  let body := bs.drop 8
  if bs.length < 8 ∨ leAt bs 1 3 ≠ 0 then none
  else
    match leAt bs 0 1 with
    | 1 => if body.length < 8 ∨ leAt body 4 4 ≠ 0 then none else some (.copy (leAt body 0 4) len, body.drop 8)
    | 2 =>
      let n := (len + 7) / 8 * 8
      if body.length < n ∨ !allZero ((body.take n).drop len) then none else some (.data (body.take len), body.drop n)
    | 3 => if body.length < 8 ∨ !allZero ((body.take 8).drop 1) then none else some (.fill len (body.getD 0 0), body.drop 8)
    | _ => none

/-- The records of a package; none where one is malformed. The first argument bounds the walk. -/
def pkgRecords : Nat → List Byte → Option (List PkgRec)
  | 0, bs => if bs.isEmpty then some [] else none
  | n + 1, bs =>
    if bs.isEmpty then some []
    else
      match pkgRecord bs with
      | none => none
      | some (r, rest) => (pkgRecords n rest).map (r :: ·)

/-- Bytes that a record writes. -/
def PkgRec.size : PkgRec → Nat
  | .copy _ len => len
  | .data bs => bs.length
  | .fill len _ => len

/-- The package in the staging area and its records. -/
def State.packageBytes (s : State) : List Byte := s.readFlash stagingBase (leNat (s.readFlash (stagingBase + 8) 4))

def packageRecords (p : List Byte) : Option (List PkgRec) := pkgRecords p.length ((p.take (p.length - 64)).drop 96)

/-- Length of the image in slot `b` (R664). -/
def State.imageLength (s : State) (b : Bool) : Nat := leNat (s.readFlash (slotBase b + 12) 4)

/-- Check 6 of R673. -/
def State.recordsOk (s : State) (p : List Byte) : Bool :=
  let delta := bitAt (leAt p 6 2) 0
  let len := leAt p 20 4
  match packageRecords p with
  | none => false
  | some rs =>
    decide (len ≤ 12582912) && rs.foldl (fun n r => n + r.size) 0 == len &&
    rs.all (fun r => match r with
      | .copy src n => delta && decide (src + n ≤ s.imageLength s.upd.running)
      | _ => true)

/-- Checks 1 to 6 of R673: the cause of the first that fails. -/
def State.packageFault (s : State) : Option Nat :=
  let h := s.readFlash stagingBase 96
  let len := leAt h 8 4
  if leAt h 0 4 ≠ 0x5A575550 ∨ leAt h 4 2 ≠ 1 then some 0x1
  else if len % 8 ≠ 0 ∨ 4194304 < len ∨ len < 160 ∨
      !(List.range ((len + 65535) / 65536)).all (fun c => (mget none s.upd.journal c).isSome) then some 0x2
  else
    let p := s.packageBytes
    firstFailing
      [(verifies s.rootKey (p.take (len - 64)) (p.drop (len - 64)), 0x3),
       (leAt p 12 2 == s.variant.code, 0x4),
       (!bitAt (leAt p 6 2) 0 || digestNat (slice p 24 32) == (s.slotOf s.upd.running).imageDigest, 0xA),
       (s.recordsOk p, 0xB)]

/-- The image that the records of a package build. -/
def State.buildImage (s : State) (p : List Byte) : List Byte :=
  ((packageRecords p).getD []).flatMap (fun r => match r with
    | .copy src n => s.readFlash (slotBase s.upd.running + src) n
    | .data bs => bs
    | .fill n v => List.replicate n v)

/-- The checks of a package read its header, and all of it where its length is one that R665 permits (R663). -/
def State.notePackage (s : State) : State :=
  let len := leNat (s.readFlash (stagingBase + 8) 4)
  s.noteFlashRead stagingBase (if 4194304 < len then 96 else max 96 len)

/-- Its building reads it, and what its records copy from the running slot (R663). -/
def State.noteBuild (s : State) (p : List Byte) : State :=
  ((packageRecords p).getD []).foldl (fun (t : State) r => match r with
    | .copy src n => t.noteFlashRead (slotBase s.upd.running + src) n
    | .data _ => t
    | .fill _ _ => t) s.notePackage

/-- A component of an image lies at a multiple of 4 KiB within the image and is no longer than `cap` (R664). -/
def componentOk (img : List Byte) (at_ cap : Nat) : Bool :=
  leAt img at_ 4 % 4096 == 0 && decide (leAt img (at_ + 4) 4 ≤ cap) && decide (leAt img at_ 4 + leAt img (at_ + 4) 4 ≤ leAt img 12 4)

/-- The header of a built image meets R664. -/
def imageHeaderOk (img : List Byte) : Bool :=
  leAt img 0 4 == 0x5A57494D && leAt img 4 2 == 1 && leAt img 12 4 == img.length && decide (4096 ≤ img.length) &&
  componentOk img 16 2097152 && componentOk img 24 4194304 && componentOk img 32 2097152 &&
  allZero ((img.take 4096).drop 72)

/-- Checks 7 and 8 of R673: the cause, with the cause of R116 in bits [7:4]. -/
def State.builtFault (s : State) (p img : List Byte) : Option Nat :=
  let comp (at_ : Nat) : List Byte := slice img (leAt img at_ 4) (leAt img (at_ + 4) 4)
  if sha256 img ≠ slice p 56 32 then some 0xC
  else if !imageHeaderOk img ∨ sha256 (comp 16) ≠ slice img 40 32 then some 0xD
  else
    match imageFault (comp 24) s.rootKey s.variant.code s.storedEpoch with
    | some c => some (0xD + 16 * c.code)
    | none => none

/-! ### Verification and building (R672-R676) -/

/-- The effect of a write of 1 to UPD_CTRL.verify (R672). -/
def State.updVerify (s : State) (r : Requester) : State :=
  if !s.ownsLoad r ∨ s.rd R.STP_LOAD_STATUS_state ≠ 1 ∨ !s.stagedImage ∨ (s.slotOf s.upd.running).state ≠ 3 then s
  else
    let h := s.readFlash stagingBase 96
    let s := s.noteFlashRead stagingBase 96
    let s := ((s.closeLoad.wr R.UPD_STATUS_state 2).wr R.UPD_STATUS_cause 0).wr R.UPD_STATUS_progress 0
    let s := ((s.wr R.UPD_PKG_build (leAt h 16 4)).wr R.UPD_PKG_settings_version (leAt h 14 2)).wr R.UPD_PKG_delta (leAt h 6 1)
    s.bump R.UPD_STATUS_verifies

def execUpdVerify (r : Requester) (s : State) : Host.Outcome State Fault Refusal :=
  done (s.asWrite r R.UPD_CTRL (fun t => t.updVerify r))

/-- A check of R673 fails. `cause` carries the cause of R116 in bits [7:4]. -/
def State.updFails (s : State) (cause : Nat) : State :=
  (((s.wr R.UPD_STATUS_state 5).wr R.UPD_STATUS_cause (cause % 16)).bump R.UPD_STATUS_failures).raise 0x009 cause

/-- UPD_CHECKS_DONE: checks 1 to 6 are over; when they pass, the inactive slot is marked EMPTY and erased (R674). The progress
shown while building is not stated. -/
def State.checksDone (s : State) : State :=
  if s.rd R.UPD_STATUS_state ≠ 2 then s
  else
    let fault := s.packageFault
    let s := s.notePackage
    match fault with
    | some c => s.updFails c
    | none =>
      let b := !s.upd.running
      let (k, s) := s.takeFree
      let s := s.writeBoot (fun r => r.modSlot b (fun x => { x with state := 0 }))
      let s := s.eraseFlash (slotBase b) (slotBase b + 12582912)
      (s.wr R.UPD_STATUS_state 3).wr R.UPD_STATUS_progress (Config.freeNat k % 101)

def execUpdChecksDone (s : State) : Host.Outcome State Fault Refusal := done s.checksDone

/-- UPD_BUILD_DONE: the records are applied and checks 7 to 9 made; `storeError` is the flash word that check 9 finds uncorrectable,
which is counted and raised (R663, R673, R674). -/
def State.buildDone (s : State) (storeError : Option (BitVec 32)) : State :=
  if s.rd R.UPD_STATUS_state ≠ 3 then s
  else
    let b := !s.upd.running
    let p := s.packageBytes
    let img := s.buildImage p
    let s := (s.noteBuild p).putFlash (slotBase b) img
    match s.builtFault p img with
    | some c => s.updFails c
    | none =>
      match storeError with
      | some i => ((s.bump R.UPD_FLASH_ECC_uncorrectable).raise 0x007 i.toNat).updFails 0x9
      | none =>
        let built : Slot := ⟨1, leAt img 8 4, leAt img 6 2, digestNat (sha256 img), digestNat (slice img 40 32)⟩
        let s := s.writeBoot (fun r => r.modSlot b (fun _ => built))
        (s.wr R.UPD_STATUS_state 0).wr R.UPD_STATUS_progress 100

def execUpdBuildDone (storeError : Option (BitVec 32)) (s : State) : Host.Outcome State Fault Refusal := done (s.buildDone storeError)

/-- The effect of a write of 1 to UPD_CTRL.cancel (R676). -/
def State.updCancel (s : State) (r : Requester) : State :=
  if !s.housekeeping r ∨ s.updState = 2 ∨ s.updState = 3 then s
  else
    let back := s.updState = 4 ∨ s.updState = 5
    let b := !s.upd.running
    let s : State := if (s.slotOf b).state = 1 then s.writeBoot (fun x => x.modSlot b (fun y => { y with state := 0 })) else s
    if back then (s.wr R.UPD_STATUS_state 1).wr R.UPD_STATUS_cause 0 else s

def execUpdCancel (r : Requester) (s : State) : Host.Outcome State Fault Refusal :=
  done (s.asWrite r R.UPD_CTRL (fun t => t.updCancel r))

/-- The effect of a write to UPD_CTRL as a whole: cancel, verify, resume, abandon. -/
def State.writeUpdCtrl (s : State) (r : Requester) (v : Word) : State :=
  let s := if fget v 0 1 = 1 then s.updCancel r else s
  let s := if fget v 1 1 = 1 then s.updVerify r else s
  let s := if fget v 2 1 = 1 then s.resumeLoad r else s
  if fget v 3 1 = 1 then s.abandon r else s

end Sys2Proof.Machine
end

