-- ==== Sys2Proof/Machine/Cyclic.lean ====
section
/-!
DEFINITION. The cyclic unit: sample and apply points, cups, commits, the exchange of a passing pour frame and returns to the
master (08_cyclic_exchange.md, R329-R359).
-/

namespace Sys2Proof.Machine

/-! ### Points (R331) -/

/-- The effect of a write to CYC_POINT that is allowed. -/
def State.setPoint (s : State) (i : Nat) (w : Word) : State :=
  let k := s.cycleAt i s.now.toNat
  let old := (mget [] s.cyc.oldPoints i).filter (fun o => decide (k < o.1 + 3))
  let old := if old.any (fun o => decide (k < o.1)) then old else old ++ [(k + 1, s.word (R.CYC_POINT i))]
  let s : State := { s with cyc := { s.cyc with oldPoints := mput [] s.cyc.oldPoints i old } }
  (s.wr (R.CYC_POINT_apply_offset i) (fget w 32 27)).wr (R.CYC_POINT_sample_offset i) (fget w 0 26)

/-- The points of stream `i` run now: the unit is in service. In Steep the cyclic section is not yet applied. -/
def State.pointsRun (s : State) (i : Nat) : Bool := s.coreUp && s.hub.mode != .steep && s.streamOn i

/-- The cycles whose point is covered by the present grid tick, and which is not over (R331, R393). -/
def State.cyclesDue (s : State) (apply : Bool) (i : Nat) : List Nat :=
  (s.cyclesNear i).filter (fun n =>
    decide (s.pointAt apply i n ≤ s.now.toNat ∧ s.now.toNat < s.pointAt apply i n + 2) && !(s.overOf apply i).has n)

/-! ### Cups (R335, R346, R352, R353) -/

/-- The cup entries in use of one direction and stream. -/
def State.cups (s : State) (out : Bool) (i : Nat) : List Nat :=
  (s.regs.filter (fun kv => R.CYC_CUP 0 ≤ kv.1 ∧ kv.1 ≤ R.CYC_CUP 127 ∧ fget kv.2 62 2 = 2 + bit01 out ∧ fget kv.2 60 2 = i)).map
    (fun kv => (kv.1 - R.CYC_CUP 0) / 8)

/-- Data bytes of a cup. -/
def State.cupData (s : State) (j : Nat) : Nat := s.rd (R.CYC_CUP_length j) - 1

/-- The cup belongs to a gated bay group (R346). -/
def State.cupGated (s : State) (j : Nat) : Bool :=
  s.rd (R.CYC_CUP_gate j) < 4 && s.groupGated (s.rd (R.CYC_CUP_gate j))

/-- What the mode makes of cups (R15, R346): the input cups, and whether output cups are committed and applied. -/
inductive CupRule where
  | passed | cleared | valid
  deriving DecidableEq, Repr

def State.cupRule (s : State) : CupRule :=
  match s.hub.mode with
  | .run => .valid
  | .runDegraded => .valid
  | .doze => .valid
  | .trial => .valid
  | .safe => .valid
  | .quarantine => .cleared
  | .boot => .passed
  | .steep => .passed
  | .island => .passed
  | .hibernate => .passed
  | .update => .passed
  | .test => .passed

/-- Output cups are committed and applied (R346). -/
def State.cupsApply (s : State) : Bool := s.cupRule == .valid && s.hub.mode != .safe

/-- Bytes of process image memory that the cyclic unit reads. The manual does not state what a word with an uncorrectable
error gives. -/
def State.cupRead (s : State) (o n : Nat) : State × List Byte :=
  let (s, good, bs) := s.memRead o n
  if good then (s, bs)
  else
    let (k, s) := s.takeFree
    (s, (List.range n).map (fun i => if s.eccOf .pimem ((o + i) / 8) = .bad then Config.freeByte k (o + i) else s.memByte (o + i)))

/-- The levels of the bays of a PINS cup (R353). -/
def State.cupLevels (s : State) (j : Nat) : List Byte :=
  (List.range (s.cupData j)).map (fun k => BitVec.ofNat 8 (s.bayLevels (s.rd (R.CYC_CUP_source j) % 64 + k)))

/-- The snapshots worth keeping: the latest three, and for a copy that waits in the hub the one of its arrival and the one before
(R336, R337). -/
def State.shotsKept (s : State) (shots : List Shot) : List Shot :=
  let waits := s.switch.frames.filter (fun f => f.frame.ftype == 2 && decide (f.ingress < 2) && f.exchanged.isNone)
  let newer := (shots.filter (fun a => waits.any (fun f => decide (tdiff f.start a.at_ < 2000)))).length
  shots.take (max 3 (newer + 2))

/-- Take the snapshot of input cup `j` for cycle `n` (R336, R352-R354). A MEM snapshot is complete with CYC_SNAPSHOT_DONE. -/
def State.snapshotCup (s : State) (n j : Nat) : State :=
  let pins := s.rd (R.CYC_CUP_kind j) == 1
  let (s, data) := if pins then (s, s.cupLevels j) else s.cupRead (s.rd (R.CYC_CUP_source j)) (s.cupData j)
  let point := BitVec.ofNat 64 (s.samplePoint (s.rd (R.CYC_CUP_stream j)) n)
  let shot : Shot := ⟨data, n, point, if pins then some point else none⟩
  { s with cyc := { s.cyc with snaps := mmod {} s.cyc.snaps j (fun x => { shots := s.shotsKept (shot :: x.shots) }) } }

/-- CYC_SAMPLE_POINT (R331, R353). -/
def State.sampleStream (s : State) (i : Nat) : State :=
  if !s.pointsRun i then s
  else
    (s.cyclesDue false i).foldl (fun (t : State) n =>
      let t := (t.pointOver false i n).pmcEv 5 1 0
      (t.cups false i).foldl (fun (u : State) j => u.snapshotCup n j) t) s

def execCycSamplePoint (i : Fin 4) (s : State) : Host.Outcome State Fault Refusal := done (s.sampleStream i.val)

/-- CYC_SNAPSHOT_DONE (R354): the MEM snapshots of the latest sample point are complete. -/
def State.snapshotsDone (s : State) (i : Nat) : State :=
  (s.cups false i).foldl (fun (t : State) j =>
    { t with cyc := { t.cyc with snaps := mmod {} t.cyc.snaps j (fun x =>
        match x.shots with
        | [] => x
        | a :: rest => { shots := { a with done := a.done.orElse (fun _ => some s.now) } :: rest }) } }) s

def execCycSnapshotDone (i : Fin 4) (s : State) : Host.Outcome State Fault Refusal := done (s.snapshotsDone i.val)

/-! ### Apply points (R340, R341, R348, R349) -/

/-- Drive pin `p` of bay `n`, where its routing gives it to the cyclic unit. -/
def State.cupDrive (s : State) (n p : Nat) (d : State → Nat → Drive) : State :=
  let g := 8 * n + p
  if s.rd (R.BAY_PIN_owner g) = 2 then s.drivePin g (d s g) else s

/-- Apply the data of output cup `j` (R352, R353). -/
def State.applyCup (s : State) (j : Nat) (data : List Byte) : State :=
  if s.rd (R.CYC_CUP_kind j) = 1 then
    (List.range (s.cupData j)).foldl (fun (t : State) k =>
      (List.range 8).foldl (fun (u : State) p =>
        u.cupDrive (s.rd (R.CYC_CUP_source j) % 64 + k) p (fun _ _ => if (data.getD k 0).getLsbD p then .high else .low)) t) s
  else (s.memWrite (s.rd (R.CYC_CUP_source j)) data).1

/-- The safe drive state of pin `g`, on the logic side. -/
def State.safeOf (s : State) (g : Nat) : Drive :=
  (safeDrive (s.rd (R.BAY_PIN_safe g)) (s.pin g).pad).through (s.on (R.BAY_PIN_invert g))

/-- The freshness of output cup `j` trips (R348). -/
def State.tripCup (s : State) (i j : Nat) : State :=
  let s := (s.wrBit (R.CYC_STALE_stale (j / 64)) (j % 64) true).bump (R.CYC_CNT_count (16 * i + 8))
  let s := (s.raise (0x044 + i) j).pmcEv 4 4 i
  if s.rd (R.CYC_CUP_kind j) = 1 then
    (List.range (s.cupData j)).foldl (fun (t : State) k =>
      (List.range 8).foldl (fun (u : State) p => u.cupDrive (s.rd (R.CYC_CUP_source j) % 64 + k) p State.safeOf) t) s
  else s

/-- Output cup `j` of stream `i` is not applied at an apply point (R348). -/
def State.missCup (s : State) (i j : Nat) : State :=
  let n := mget 0 s.cyc.misses j + 1
  let limit := s.rd (R.CYC_STATUS_fresh_limit i)
  let s : State := { s with cyc := { s.cyc with misses := mput 0 s.cyc.misses j (min n 255) } }
  if limit ≤ n ∧ !s.bitOn (R.CYC_STALE_stale (j / 64)) (j % 64) then s.tripCup i j else s

/-- The cup is to be applied for cycle `n` (R341). -/
def cupGood (n : Nat) (bytes : List Byte) : Bool :=
  2 < bytes.length && (bytes.getD 0 0).getLsbD 7 && (bytes.getD 1 0).toNat == n % 256

/-- One output cup at the apply point of cycle `n`, with the bytes committed for it. -/
def State.cupAtApply (s : State) (i n j : Nat) (bytes : Option (List Byte)) : State :=
  match bytes with
  | none => s.missCup i j
  | some b =>
    if cupGood n b then
      let s : State := { s with cyc := { s.cyc with misses := mput 0 s.cyc.misses j 0 } }
      (s.wrBit (R.CYC_STALE_stale (j / 64)) (j % 64) false).applyCup j (b.drop 2)
    else (s.bump (R.CYC_CNT_count (16 * i + 2))).missCup i j

/-- The commits of stream `i` for cycle `n` at a port. -/
def State.committedAt (s : State) (i n p : Nat) : Option Commits :=
  s.cyc.commits.find? (fun c => c.stream == i && c.cycle == n && c.port == p)

/-- The apply point of cycle `n` (R340). The choice and its counts do not depend on the mode; the cups are applied where the
mode applies them, and those of gated groups are held. -/
def State.applyCycle (s : State) (i n : Nat) : State :=
  let chosen := (s.committedAt i n 0).orElse (fun _ => s.committedAt i n 1)
  let s := (s.pointOver true i n).pmcEv 5 1 0
  let s : State := { s with cyc := { s.cyc with
    commits := s.cyc.commits.filter (fun c => !(c.stream == i && c.cycle == n)) } }
  let s : State := if chosen.isSome then (s.bump (R.CYC_CNT_count (16 * i))).wr (R.CYC_STATUS_misses i) 0
    else ((s.bump (R.CYC_CNT_count (16 * i + 1))).bump (R.CYC_STATUS_misses i)).pmcEv 4 1 i
  if !s.cupsApply then s
  else
    ((s.cups true i).filter (fun j => !s.cupGated j)).foldl (fun (t : State) j =>
      t.cupAtApply i n j (chosen.bind (fun c => (c.cups.find? (fun x => x.1 == j)).map (·.2)))) s

/-- CYC_APPLY_POINT (R331, R340). -/
def State.applyStream (s : State) (i : Nat) : State :=
  if !s.pointsRun i then s
  else (s.cyclesDue true i).foldl (fun (t : State) n => t.applyCycle i n) s

def execCycApplyPoint (i : Fin 4) (s : State) : Host.Outcome State Fault Refusal := done (s.applyStream i.val)

/-! ### Pour frames (R333-R343) -/

end Sys2Proof.Machine

namespace Sys2Proof

/-- The fields of tinfo in a pour frame (R333). -/
def Frame.pourIndex (f : Frame) : Nat := f.tinfo / 2 ^ 42
def Frame.pourRet (f : Frame) : Bool := f.tinfo / 2 ^ 41 % 2 == 1
def Frame.pourStream (f : Frame) : Nat := f.tinfo / 2 ^ 38 % 4
def Frame.pourCycle (f : Frame) : Nat := f.tinfo % 2 ^ 32

end Sys2Proof

namespace Sys2Proof.Machine

/-- An outbound copy of a stream in service, on port 0 or 1 of its own ring (R332, R344, R358). -/
def State.ownPour (s : State) (f : Frame) (p : Nat) : Bool :=
  p < 2 && f.ftype == 2 && !f.pourRet && f.srcRing == s.ringOf 0 && f.dstRing == s.ringOf 0 && s.pointsRun f.pourStream

/-- The cyclic unit writes into the copy: the mode exchanges cups (R345, R346). -/
def State.servesPour (s : State) (f : Frame) (p : Nat) : Bool := s.ownPour f p && s.cupRule != .passed

/-- An outbound copy that fails a check of R230 is not committed (R338). -/
def State.badPour (s : State) (f : Frame) (p : Nat) : State :=
  if s.ownPour f p then s.bump (R.CYC_CNT_count (16 * f.pourStream + 6)) else s

/-- Put bytes into a payload from offset `o` on, as far as the payload reaches. -/
def splice (bs : List Byte) (o : Nat) (new : List Byte) : List Byte :=
  let new := new.take (bs.length - o)
  if bs.length ≤ o then bs else bs.take o ++ new ++ bs.drop (o + new.length)

/-- The snapshots among which R336 chooses for a copy whose start block arrived at `start`. -/
def eligible (x : Snap) (start : Word) : List Shot := x.shots.dropWhile (fun a => decide (tdiff start a.at_ < 2000))

/-- The snapshot written into an input cup, and whether it is late (R336, R337). -/
def chooseShot (x : Snap) (start : Word) : Option Shot × Bool :=
  match eligible x start with
  | [] => (none, false)
  | a :: rest => if a.done.isSome then (some a, false) else (rest.find? (·.done.isSome), true)

/-- A late input cup is counted and reported (R98, R337). -/
def State.lateCup (s : State) (i j : Nat) : State :=
  let s := (((s.bump (R.CYC_CNT_count (16 * i + 5))).raise (0x040 + i) j).pmcEv 4 2 i)
  { s with power := { s.power with missed := true } }

/-- The margin of a cup at its hand-over feeds the voltage loop (R98, R594). -/
def State.cupSlack (s : State) (a : Shot) : State :=
  match a.done with
  | some t => { s with power := { s.power with slack := min s.power.slack (tdiff s.now t) } }
  | none => s

/-- The bytes of input cup `j` as they go into a copy (R335, R346). -/
def State.cupBytes (s : State) (j : Nat) (a : Shot) (late : Bool) : List Byte :=
  let valid := s.cupRule == .valid && !s.cupGated j
  leBytes 1 (bit01 valid * 128 + bit01 late * 64 + s.hub.mode.code) ++ leBytes 1 (a.cycle % 256) ++ a.data

/-- Write the hub's input cups of its frame index into a copy (R336, R337). -/
def State.exchange (s : State) (f : Frame) (start : Word) : State × Frame :=
  let i := f.pourStream
  ((s.cups false i).filter (fun j => s.rd (R.CYC_CUP_index j) == f.pourIndex)).foldl (fun (acc : State × Frame) j =>
    let (shot, late) := chooseShot (mget {} acc.1.cyc.snaps j) start
    let t := if late then acc.1.lateCup i j else ((shot.map acc.1.cupSlack).getD acc.1)
    match shot with
    | none => (t, acc.2)
    | some a => (t, { acc.2 with payload := splice acc.2.payload (t.rd (R.CYC_CUP_offset j)) (t.cupBytes j a late) })) (s, f)

/-- The cycle for which a copy stands (R339): of the cycles with its low 32 bits, the one whose apply point is nearest to the
arrival of the tail. -/
def State.pourCycleOf (s : State) (f : Frame) (tail : Word) : Int :=
  let i := f.pourStream
  let c := s.cycleNs i
  let base : Int := (tail.toNat : Int) - (s.rd (R.CYC_CYCLE_phase i) : Int) - (s.rd (R.CYC_POINT_apply_offset i) : Int) + (c : Int) / 2
  let near : Int := Int.fdiv base c
  near + sext 32 (unsext 32 ((f.pourCycle : Int) - near))

/-- The output cups of a copy. A cup that the payload does not hold whole is not a good cup. -/
def State.outCups (s : State) (f : Frame) : List (Nat × List Byte) :=
  ((s.cups true f.pourStream).filter (fun j => s.rd (R.CYC_CUP_index j) == f.pourIndex && !s.cupGated j)).map (fun j =>
    let o := s.rd (R.CYC_CUP_offset j)
    let n := s.rd (R.CYC_CUP_length j) + 1
    (j, if o + n ≤ f.payload.length then slice f.payload o n else []))

/-- Add committed cups for a cycle at a port (R338, R340). A port holds those of two cycles: a third takes the place of the lowest (log
entry 31). -/
def State.addCommit (s : State) (i p n : Nat) (cups : List (Nat × List Byte)) : State :=
  let was := ((s.cyc.commits.find? (fun c => c.stream == i && c.cycle == n && c.port == p)).map (·.cups)).getD []
  let kept := was.filter (fun x => !cups.any (fun y => y.1 == x.1))
  let rest := s.cyc.commits.filter (fun c => !(c.stream == i && c.cycle == n && c.port == p))
  let others := (rest.filter (fun c => c.stream == i && c.port == p)).map (·.cycle)
  let lowest := others.foldl min (others.headD 0)
  let rest := if 2 ≤ others.length then rest.filter (fun c => !(c.stream == i && c.port == p && c.cycle == lowest)) else rest
  { s with cyc := { s.cyc with commits := rest ++ [⟨i, p, n, kept ++ cups⟩] } }

/-- Decide a copy that has passed every check, on its tail arrival (R338, R339). What the mode does not apply is not committed
(R346). -/
def State.commitPour (s : State) (f : Frame) (p : Nat) (tail : Word) : State :=
  let i := f.pourStream
  let n := s.pourCycleOf f tail
  let at_ : Int := n * (s.cycleNs i : Int) + (s.applyPoint i n.toNat : Int) - (s.cycleStart i n.toNat : Int) +
    (s.rd (R.CYC_CYCLE_phase i) : Int)
  let t : Int := tail.toNat
  if at_ < t + 1000 then s.bump (R.CYC_CNT_count (16 * i + 3))
  else if t + 2 * (s.cycleNs i : Int) < at_ then s.bump (R.CYC_CNT_count (16 * i + 4))
  else
    let cups := if s.cupsApply then s.outCups f else []
    let s := if s.cupsApply then s.pmcEv 4 0 i else s
    if cups.isEmpty ∨ n < 0 then s else s.addCommit i p n.toNat cups

/-- Record the arrival of an outbound copy (R355). -/
def State.noteArrival (s : State) (f : Frame) (p : Nat) (start tail : Word) : State :=
  let i := f.pourStream
  let n := s.pourCycleOf f tail
  let key := 128 * i + 64 * p + f.pourIndex
  let r := 2 * i + p
  let s := match mget none s.cyc.arrivals key with
    | some (m, t) =>
      if (m : Int) + 1 = n then
        let dev := (tdiff start (t + BitVec.ofNat 64 (s.cycleNs i))).natAbs
        if s.rd (R.CYC_ARRIVAL_spread r) < dev then s.wr (R.CYC_ARRIVAL_spread r) (min dev 65535) else s
      else s
    | none => s
  let s : State := if f.pourIndex = 0 then
      s.wrIntSat (R.CYC_ARRIVAL_offset r) ((start.toNat : Int) - n * (s.cycleNs i : Int) - (s.rd (R.CYC_CYCLE_phase i) : Int))
    else s
  if n < 0 then s else { s with cyc := { s.cyc with arrivals := mput none s.cyc.arrivals key (some (n.toNat, start)) } }

/-- The return for an exchanged copy (R342, R343). -/
def State.sendReturn (s : State) (g : Frame) : State :=
  let i := g.pourStream
  let f : Frame := { g with
    w0 := fset (fset g.w0 32 8 g.src) 52 1 1
    w3 := g.w3 ||| BitVec.ofNat 64 (2 ^ 41) }
  let s := ((s.originate { unit := 4 } f).1.bump (R.CYC_CNT_count (16 * i + 7)))
  s.pmcEv 4 3 i

/-- A return is due for an outbound copy at its hub (R342, R345): the path ends here, or the port that would forward it is
down. -/
def State.returnDue (s : State) (f : Frame) (p : Nat) : Bool :=
  s.ringLen p != 0 && (s.endsPath f p || (s.forwardsRound f p && s.portDown (opposite p)))

end Sys2Proof.Machine
end

