-- ==== Sys2Proof/Machine/SwitchCmds.lean ====
section
/-!
DEFINITION. The commands of the switch core: reception with the checks of R230 and the Strainer, cut-through, read-out at an
output, hold times, the resequencer, the auditor and the pour guard (R226-R241, R273-R316, R338-R345).
-/

namespace Sys2Proof.Machine

/-! ### The Strainer (R236-R239) -/

/-- Entry `k` of the Strainer. -/
def State.strEntry (s : State) (k : Nat) : StrEntry := mget {} s.ring.strainer k

def State.setStrEntry (s : State) (k : Nat) (e : StrEntry) : State :=
  { s with ring := { s.ring with strainer := mput {} s.ring.strainer k e } }

/-- A new window that starts with `seq`. -/
def strInit (seq : Nat) (clk : Nat) : StrEntry := ⟨.live, BitVec.ofNat 16 seq, 1, clk⟩

/-- What the Strainer makes of sequence number `seq` against a window (R238): the entry after, the counter, whether it
accepts. -/
def strJudge (e : StrEntry) (seq clk : Nat) : StrEntry × Nat × Bool :=
  let d := seqDiff seq e.top.toNat
  let e := { e with last := clk }
  if e.st = .empty then (strInit seq clk, 0, true)
  else if d ≤ 0 ∧ -d < 128 ∧ e.map.getLsbD (-d).toNat then (e, 1, false)
  else if e.st = .stale then (strInit seq clk, 0, true)
  else if 0 < d then
    ({ e with map := (if 128 ≤ d then 0 else e.map <<< d.toNat) ||| 1, top := BitVec.ofNat 16 seq }, 0, true)
  else if 128 ≤ -d then (e, 2, false)
  else ({ e with map := e.map ||| ((1 : BitVec 128) <<< (-d).toNat) }, 0, true)

/-- The entry of a frame's source (R237), and whether it has aged (R238). -/
def strKey (f : Frame) : Nat := 256 * f.srcRing + f.src

def State.strAged (s : State) (f : Frame) : Bool :=
  let e := s.strEntry (strKey f)
  e.st != .empty && decide (10000000 ≤ s.clk - e.last)

/-- Whether the Strainer would accept the frame now. A frame that fails at its tail is judged so and leaves its entry alone (log
entry 18). -/
def State.strainOk (s : State) (f : Frame) : Bool :=
  let e := s.strEntry (strKey f)
  (strJudge (if s.strAged f then { e with st := .empty } else e) f.seqNo s.clk).2.2

/-- The Strainer decides a dual frame that arrived on port `i` (R238). -/
def State.strain (s : State) (i : Nat) (f : Frame) : State × Bool :=
  let k := strKey f
  let e := s.strEntry k
  let aged := s.strAged f
  let s := if aged then s.bump (R.STR_CNT_count 3) else s
  let (e, c, ok) := strJudge (if aged then { e with st := .empty } else e) f.seqNo s.clk
  (((s.setStrEntry k e).bump (R.STR_CNT_count c)).pmcEv 2 (if ok then 4 else 5) i, ok)

/-! ### Receive checks (R230) -/

/-- The rings that a header may name on a ring port; at a hub with coupler role 0 that of the port alone (DESIGN CHOICE, log entry 46). -/
def State.ringNamed (s : State) (p r : Nat) : Bool :=
  r == s.ringOf p || (s.isCoupler && (r == s.ringOf 0 || r == s.ringOf 2))

/-- Checks 2 to 5: the cause of the first that fails. -/
def State.headFault (s : State) (p : Nat) (f : Frame) : Option Nat :=
  if f.hcs ≠ f.hcsOf then some 1
  else if f.version ≠ 1 ∨ f.ftype = 0 ∨ 5 < f.ftype ∨ !f.reservedZero ∨
      (s.ringPort p ∧ (!s.ringNamed p f.srcRing ∨ !s.ringNamed p f.dstRing)) then some 4
  else if 250 ≤ f.hops then some 5
  else if s.portFunction p = 2 ∧ f.dst ≠ 0 then some 6
  else none

/-- The check sequence over the frame matches: on a tap port, where the frame carries no CRC-32 of its own, that of the Ethernet frame
(R230 check 8, R256). -/
def State.crcMatches (s : State) (rx : RxFrame) : Bool :=
  if s.portFunction rx.port.val = 2 then rx.fcs == ethernetFcs rx.toMac rx.mac rx.etherType rx.frame
  else rx.frame.crc == rx.frame.crcOf

/-- Checks 6 to 8. On a tap port the payload is at most 1,464 bytes (R256). -/
def State.tailFault (s : State) (rx : RxFrame) : Option Nat :=
  let f := rx.frame
  if f.payload.length ≠ f.length ∨ 2048 < f.length ∨ (s.tapPort rx.port.val ∧ tapLimit < f.length) then some 3
  else if rx.poisoned then some 2
  else if !s.crcMatches rx then some 0
  else none

/-- A frame is dropped for cause `c` (R230). -/
def State.dropFrame (s : State) (p c : Nat) : State := (s.bump (R.RING_DROP_count (8 * p + c))).pmcEv 2 1 p

/-- PDREQ and PDRESP frames, which a node neither forwards nor strains (R370). -/
def peerFrame (f : Frame) : Bool := f.ftype == 3 && (f.tinfo / 2 ^ 44 == 2 || f.tinfo / 2 ^ 44 == 3)

/-! ### Cut-through (R292, R293, R295, R299) -/

/-- A frame is stale (R289). -/
def State.frameStale (s : State) (f : Frame) : Bool :=
  f.deadline != 0 && decide (0 ≤ sext 32 (unsext 32 (((s.now.toNat % 2 ^ 32 : Nat) : Int) - (f.deadline : Int))))

/-- The class in which output `p` holds a frame (R274, R290). -/
def Stored.classAt (f : Stored) (p : Nat) : Nat := if p = 22 then 0 else f.cls

/-- When the head of a frame that has now come in came (R374). -/
def State.headAt (s : State) (rx : RxFrame) : Nat := s.clk - (rx.tail - rx.start).toNat

/-- When output `q` could start a frame that has now come in: its head had come, and the transmitter was free. -/
def State.couldStart (s : State) (q : Nat) (rx : RxFrame) : Nat := max (s.outp q).busyUntil (s.headAt rx)

/-- The state with its clocks set back to `t`: a deadline, a guard and a launch are judged at the start of a frame, not at its tail. -/
def State.clocksAt (s : State) (t : Nat) : State := { s with clk := t, now := s.now - BitVec.ofNat 64 (s.clk - t) }

/-- Output `q` can start the frame before its tail has arrived, but for a pour guard (R289, R292, R399). -/
def State.couldCut (s : State) (f : Stored) (q : Nat) (rx : RxFrame) : Bool :=
  let h := s.clocksAt (s.couldStart q rx)
  q < 2 && f.outs.contains q && !s.portDown q && decide (60 ≤ 32 + f.frame.payload.length) &&
  decide ((s.outp q).busyUntil ≤ s.clk) && !f.held.any (fun h => h.1 == q) && !h.frameStale f.frame &&
  !h.launchBlocks q f.cls (s.lineTime q f.frame.size) &&
  (s.outp q).queue.all (fun id => id == f.id || (match s.stored? id with
    | some g => decide (g.cls < f.cls)
    | none => true))

/-- A pour guard holds the frame back at output `q`, which could start it before its tail has arrived (R301). -/
def State.guardStops (s : State) (f : Stored) (q : Nat) (rx : RxFrame) : Bool :=
  (s.clocksAt (s.couldStart q rx)).guardBlocks q f.cls (s.lineTime q f.frame.size)

/-- The output's transmitter was idle when the head of the frame had come, and its length field is one that R292 permits: the frame
is cut through. Otherwise it leaves from its queue, though still without waiting for its tail (R292). -/
def State.idleAtHead (s : State) (q : Nat) (rx : RxFrame) : Bool :=
  decide ((s.outp q).busyUntil ≤ s.headAt rx) && decide (rx.frame.length ≤ 2048)

/-- The transmitter of output `q` is busy with a frame that it started before the tail came: since that frame's head came, or since it
was free. -/
def State.startedEarly (s t : State) (q : Nat) (rx : RxFrame) : State :=
  t.setOutp q { t.outp q with busyUntil := max s.clk (s.couldStart q rx + s.lineTime q rx.frame.size) }

/-- A time frame that the hub's own time unit sends: message kind `msg` of R366. -/
def Stored.ownTime (f : Stored) (msg : Nat) : Bool := f.ingress == 7 && f.frame.ftype == 3 && f.frame.tinfo / 2 ^ 44 == msg

/-- The tseq of a time frame (R366). -/
def tseqOf (f : Frame) : Nat := f.tinfo / 2 ^ 16 % 65536

/-- What happens to a frame at its read-out at output `p`: the cups are written into a pour copy (R336), a SYNC of the time gateway
takes its departure as its origin (R367, R387), the departure of a PDREQ is stamped (R371), and a PDRESP takes the turnaround (R370). -/
def State.readOut (s : State) (f : Stored) (p : Nat) : State × Stored :=
  if 4 ≤ p then (s, f)
  else if p < 2 ∧ s.servesPour f.frame f.ingress then
    match f.exchanged with
    | some g => (s, { f with frame := g })
    | none =>
      let (s, g) := s.exchange f.frame f.start
      (s, { f with frame := g })
  else if f.ownTime 1 then (s, { f with frame := { f.frame with payload := wordBytes s.now ++ f.frame.payload.drop 8 } })
  else if f.ownTime 2 then
    ({ s with time := { s.time with pdelay := mmod {} s.time.pdelay p (fun d =>
        { d with pending := d.pending.map (fun x => if x.1 = tseqOf f.frame then (x.1, s.now) else x) }) } }, f)
  else if f.ownTime 3 then
    (s, { f with frame := { f.frame with payload := wordBytes (BitVec.ofInt 64 (tdiff s.now f.start * 65536)) } })
  else (s, f)

/-- The frame is one of the hub's own that is dual (R235). -/
def State.ownDual (s : State) (f : Stored) : Bool := f.frame.dual && !(f.ingress < 4 && s.ringPort f.ingress)

/-- The key under which the cyclic unit predicts a pour frame that leaves by output `p` (R300, R355). -/
def guardKey (f : Frame) (p : Nat) : Nat := 128 * f.pourStream + 64 * opposite p + f.pourIndex

/-- Start a frame at output `p` and give up its queue entry; `bad` says that it will be closed as poisoned. A pour frame closes the
guard interval that was opened for it (R300). -/
def State.startFrame (s : State) (f : Stored) (p : Nat) (bad : Bool) : State :=
  let id := f.id
  let (s, f) := s.readOut f p
  let g := s.sendForm f p
  let s := s.transmit p (if bad then Frame.poisonClosed g else g) bad
  let s := if bad then s.bump (R.SWC_XCNT_count 1) else s
  let s := if f.waited.contains p then s.bump (R.SWC_XCNT_count 2) else s
  let s := if p < 2 ∧ g.ftype = 2 ∧ !g.pourRet then
      s.setOutp p { s.outp p with guards := (s.outp p).guards.filter (fun x => x.2 != guardKey g p) } else s
  let s := if s.ringPort p ∧ s.ownDual f then s.setOutp p { s.outp p with lastDual := some s.clk } else s
  s.release p id true

/-- Cut the stored frame through at output `q`. -/
def State.cut (s : State) (f : Stored) (q : Nat) (bad : Bool) : State :=
  ((s.bump (R.SWC_XCNT_count 0)).pmcEv 3 2 q).startFrame f q bad

/-! ### FRAME_RECEIVE and POUR_FRAME -/


/-- The cyclic unit and an outbound copy that has passed every check (R338-R342): also the copy with its cups written, where a return
was sent. -/
def State.takePour (s : State) (rx : RxFrame) : State × Option Frame :=
  let p := rx.port.val
  let f := rx.frame
  if s.ownPour f p then
    let s := (s.noteArrival f p rx.start rx.tail).commitPour f p rx.tail
    if s.servesPour f p ∧ s.returnDue f p then
      let (s, g) := s.exchange f rx.start
      (s.sendReturn g, some g)
    else (s, none)
  else (s, none)

/-- The frame that a command brings to a port. -/
def frameIn (c : Instr) : Option RxFrame :=
  match c with
  | .frameReceive rx => some rx
  | .pourFrame rx => some rx
  | _ => none

/-- The other copy of the frame waits at the lower port of its ring, whose link is up, with an arrival within the 1 ns of the
Strainer's arbiter: the two are concurrent, and the copy of this port loses (R102, R239). -/
def State.rivalCopy (s : State) (rx : RxFrame) : Bool :=
  let f := rx.frame
  rx.port.val % 2 == 1 && s.on (R.RING_PORT_up (rx.port.val - 1)) && (s.pending.filterMap frameIn).any (fun y =>
    y.port.val + 1 == rx.port.val && strKey y.frame == strKey f && y.frame.seqNo == f.seqNo && y.frame.dual && !y.aborted &&
    (s.headFault y.port.val y.frame).isNone && (s.tailFault y).isNone && decide ((tdiff y.start rx.start).natAbs ≤ 1))

/-- The Strainer on a frame that has come in whole. A copy that loses is counted as what it is behind the other one: a duplicate where
that is accepted; the entry is left to the other copy. -/
def State.strainCopy (s : State) (rx : RxFrame) : State × Bool :=
  let f := rx.frame
  if s.rivalCopy rx then
    let e := s.strEntry (strKey f)
    let (_, c, ok) := strJudge (if s.strAged f then { e with st := .empty } else e) f.seqNo s.clk
    ((s.bump (R.STR_CNT_count (if ok then 1 else c))).pmcEv 2 5 rx.port.val, false)
  else s.strain rx.port.val f

/-- What R231, R232, R236 and R259 make of a frame: its outputs and those of delivery before the Sieve, and the way it came.
`good` says that it has passed every check. PDREQ and PDRESP are for the time unit alone (R370). -/
def State.choose (s : State) (rx : RxFrame) (good : Bool) : State × List Nat × List Nat × Way :=
  let p := rx.port.val
  let f := rx.frame
  let ring := s.ringPort p
  if ring ∧ peerFrame f then
    let mine := s.takesPeer f p
    (s, [], if mine then s.deliverPorts f else [], { delivers := mine, wants := mine })
  else
    let fwd := ring && s.forwardsRound f p
    let wants := if ring then s.addressed f p && (f.dst != 0xFF || !(s.deliverPorts f).isEmpty) else true
    let crosses := ring && s.crosses f p
    let judged := ring && f.dual && (wants || crosses)
    let (s, ok) := if !judged then (s, true) else if good then s.strainCopy rx else (s, s.strainOk f)
    let out := (if fwd then [opposite p] else []) ++ (if crosses ∧ ok then (if p < 2 then [2, 3] else [0, 1]) else [])
    (s, out, if wants ∧ ok then s.deliverPorts f else [],
      { strained := judged && ok, forwards := fwd, delivers := ring && wants && ok, wants := wants && ok })

/-- A pour guard holds a frame back at output `q`, which is counted once (R301). -/
def State.deferFrame (s : State) (f : Stored) (q : Nat) : State :=
  if f.deferred.contains q then s
  else ((s.setStored { f with deferred := f.deferred ++ [q] }).bump (R.SWC_XCNT_count 3)).pmcEv 3 4 q

/-- A stored frame that has come in whole: the opposite ring port starts it at once where it can (R292). A frame that a pour guard
alone holds back is counted (R301). -/
def State.cutGood (s : State) (f : Stored) (rx : RxFrame) : State :=
  let q := opposite rx.port.val
  if 2 ≤ rx.port.val ∨ !s.couldCut f q rx then s
  else if s.guardStops f q rx then s.deferFrame f q
  else if s.idleAtHead q rx then s.startedEarly (s.cut f q false) q rx
  else s

/-- A stored frame that fails a check at its tail: the copy of the opposite ring port has left by then where it could, and is closed as
poisoned (R292, R295); every other copy is freed (R293), and a mirror copy counted (R291). -/
def State.cutBad (s : State) (f : Stored) (rx : RxFrame) : State :=
  let q := opposite rx.port.val
  let s := if 2 ≤ rx.port.val ∨ !s.couldCut f q rx then s
    else if s.guardStops f q rx then s.deferFrame f q
    else s.startedEarly ((if s.idleAtHead q rx then s.cut f q true else s.startFrame f q true).pmcEv 2 3 rx.port.val) q rx
  (((s.stored? f.id).map (·.outs)).getD []).foldl (fun (t : State) p =>
    let t := t.release p f.id
    if p = 22 then t.countDrop 22 8 else t) s

/-- A frame whose head has passed its checks goes on to the Strainer, the Sieve and its outputs (R231-R241, R259, R277); `good` says
that its tail has passed as well. The Sieve reads the frame as it was received (R320). -/
def State.accept (s : State) (rx : RxFrame) (good : Bool) : State :=
  let p := rx.port.val
  let (s, out, del, way) := s.choose rx good
  let (s, routing) := s.route rx.frame p out del way
  let (s, exchanged) := if good then s.takePour rx else (s, none)
  match routing with
  | none => s
  | some r =>
    let (s, st) := s.enqueue
      { id := 0, frame := rx.frame, ingress := p, cls := r.cls, start := rx.start, exchanged := exchanged, claim := r.verdict.claim }
      r.outs r.reseq
    if st.outs.isEmpty then s
    else if good then (if st.outs.contains (opposite p) ∧ way.forwards then s.pmcEv 2 3 p else s).cutGood st rx
    else s.cutBad st rx

/-- The ring core is out of service but the hub is not in reset: Boot, Hibernate and the reboot window of Update (R15, R18). -/
def State.retimersOnly (s : State) : Bool := !s.coreUp && !s.hub.held && !s.hub.rstLow

/-- The retimers pass a frame on between ports 0 and 1 as it came (R15, R18, R19, R373). -/
def State.retime (s : State) (rx : RxFrame) : State :=
  let p := rx.port.val
  let q := opposite p
  if p < 2 ∧ s.on (R.RING_PORT_up p) ∧ s.on (R.RING_PORT_up q) ∧ !rx.aborted then
    s.setOutp q { s.outp q with lastSent := some { frame := rx.frame, poisoned := rx.poisoned } }
  else s

/-- A tap frame has its own EtherType (R256); what another one carries is no Zwiwin frame. -/
def State.foreign (s : State) (rx : RxFrame) : Bool :=
  s.tapPort rx.port.val && rx.etherType.toNat != s.rd R.RING_CFG_tap_ethertype

/-- A frame as the hub takes it in: one from a tap port is never dual (R256, log entry 17). -/
def State.untapped (s : State) (rx : RxFrame) : RxFrame :=
  if s.tapPort rx.port.val then { rx with frame := rx.frame.withDual false } else rx

/-- A frame arrives at a ring or spur port (R230). A port in analysis function receives nothing (R257). -/
def State.receiveFrame (s : State) (rx : RxFrame) : State :=
  let p := rx.port.val
  let f := rx.frame
  if s.retimersOnly then s.retime rx
  else if !s.coreUp ∨ !s.linked p ∨ s.portFunction p = 3 ∨ (!s.on (R.RING_PORT_up p) ∧ !rx.aborted) ∨ s.foreign rx then s
  else
    let s : State := if s.tapPort p then s.setLink p { s.link p with mac := rx.mac } else s
    let s := s.pmcBy 2 7 p (36 + f.payload.length)
    let head := s.headFault p f
    let bad := if rx.aborted then some 7 else head.orElse (fun _ => s.tailFault rx)
    match bad with
    | some c =>
      let s := s.dropFrame p c
      let s := if f.ftype = 2 then s.badPour f p else s
      if head.isSome then s else s.accept (s.untapped rx) false
    | none =>
      let s := s.pmcEv 2 0 p
      let s := if f.ftype = 2 ∧ !f.pourRet then s.heard else s
      s.accept (s.untapped rx) true

def execFrameReceive (rx : RxFrame) (s : State) : Host.Outcome State Fault Refusal := done (s.receiveFrame rx)

def execPourFrame (rx : RxFrame) (s : State) : Host.Outcome State Fault Refusal :=
  done (if rx.frame.ftype = 2 then s.receiveFrame rx else s)

/-! ### OUTPUT_START_FRAME (R275, R288-R301, R399, R400) -/

/-- Output `p` has a transmitter that can start a frame now. Port 22 sends on the spur ports in analysis function, which must be
idle too. -/
def analysisPorts (s : State) : List Nat := [2, 3].filter (fun q => s.portPresent q && s.portFunction q == 3 && s.on (R.RING_PORT_up q))

def State.outputIdle (s : State) (p : Nat) : Bool :=
  s.coreUp && s.portPresent p && !s.portDown p && decide ((s.outp p).busyUntil ≤ s.clk) &&
  !(10 ≤ p && p ≤ 21 && (mget none s.bays.held (p - 10)).isSome) &&
  (p != 22 || (analysisPorts s).all (fun q => decide ((s.outp q).busyUntil ≤ s.clk)))

/-- The pace since the last dual frame of the hub's own that left by `p` has passed (R235). -/
def State.paced (s : State) (p : Nat) : Bool :=
  match (s.outp p).lastDual with
  | some t => decide (t + s.rd R.RING_CFG_pace ≤ s.clk)
  | none => true

/-- The frame may be selected at output `p` now: it is not held by the resequencer, its pacing interval has passed, and the due
time of a launch has come. -/
def State.selectable (s : State) (f : Stored) (p : Nat) : Bool :=
  !f.held.any (fun h => h.1 == p) &&
  (!s.ringPort p || (decide (f.notBefore ≤ s.clk) && (!s.ownDual f || s.paced p))) &&
  (match f.launch with
    | some (_, due) => decide (0 ≤ tdiff s.now due)
    | none => true)

/-- The next frame of output `p`: the highest class, in queue order (R275). -/
def State.nextFrame (s : State) (p : Nat) : Option Stored :=
  ((s.outp p).queue.filterMap s.stored?).foldl (fun (best : Option Stored) f =>
    if !s.selectable f p then best
    else
      match best with
      | none => some f
      | some b => if b.classAt p < f.classAt p then some f else best) none

/-- A launch frame leaves by output `p` (R399, R400): it is late where the output was still sending at the due time. -/
def State.launchSent (s : State) (i : Nat) (due : Word) (p : Nat) : State :=
  let lag := (tdiff s.now due).toNat
  let late := decide (s.clk < (s.outp p).busyUntil + lag)
  let first := s.rd (R.TIM_LAUNCH_CTL_state i) != 4
  if late then
    let s := s.wr (R.TIM_LAUNCH_CTL_state i) 4
    let s := s.wr (R.TIM_LAUNCH_CTL_lag i) (max (min lag 65535) (if first then 0 else s.rd (R.TIM_LAUNCH_CTL_lag i)))
    if first then (s.bump (R.TIM_CNT_count 8)).raise 0x055 (i * 2 ^ 30 + min lag 65535) else s
  else if first then s.wr (R.TIM_LAUNCH_CTL_state i) 3
  else s

/-- A frame read out to the transaction target: malformed records are discarded and counted (R181), a request is a master heard
(R31), and the CLAIMs of the frame stand for its records until these are performed (R321). A broadcast is addressed to no hub
(log entry 19). -/
def State.toTarget (s : State) (f : Stored) : State :=
  let g := f.frame
  let (rs, bad) := records (g.payload.take g.length)
  let s := s.bumpBy (R.TOP_TXN_CNT_count 0) bad
  let asks := rs.filter (fun r => fget r.w0 60 4 ≤ 6)
  let s := if asks.isEmpty ∨ g.dst = 0xFF then s else s.heard
  match f.claim with
  | none => s
  | some c =>
    let marks : List Claimed := asks.map (fun r => ⟨g.srcRing, g.src, fget r.w0 58 2, fget r.w0 48 8, c⟩)
    { s with switch := { s.switch with claimed := s.switch.claimed ++ marks } }

/-- The port by which a frame came: for one that port 23 returns the port before that. -/
def Stored.origin (f : Stored) : Nat := f.came.getD f.ingress

/-- A frame that port 23 returns runs through the core again, with the class of the port (R274, R280). -/
def State.loopFrame (s : State) (f : Stored) : State :=
  let g := { f.frame with w0 := fset f.frame.w0 53 3 (s.rd (R.SWC_PORT_orig_class 23)) }.seal
  let del := if g.dst = 0 then s.deliverPorts g else []
  match s.route g 23 ((s.originPorts g none).filter (fun p => !s.timeBarred g f.origin p)) del
      { wants := g.dst == 0, came := some f.origin } with
  | (s, none) => s
  | (s, some r) =>
    (s.enqueue { id := 0, frame := g, ingress := 23, came := some f.origin, cls := r.cls, start := s.now, claim := r.verdict.claim } r.outs r.reseq).1

/-- Send the selected frame at output `p`; one that is `bad` is closed as poisoned, and nobody inside the hub takes it. -/
def State.sendFrame (s : State) (f : Stored) (p : Nat) (bad : Bool) : State :=
  let s : State := match f.launch with
    | some (i, due) => s.launchSent i due p
    | none => s
  let t := if p = 22 then
      ((analysisPorts s).foldl (fun (t : State) q =>
        t.putLine q (if bad then Frame.poisonClosed f.frame else f.frame) bad) s).startFrame f 22 bad
    else s.startFrame f p bad
  if bad then t else if p = 23 then t.loopFrame f else if p = 5 then t.toTarget f else t

/-- What the Caddy's errors make of a frame at an output (R299, R314): 0 nothing, 1 it is freed before it starts, since its first
word cannot be read, 2 it has started by then and is closed as poisoned. -/
def State.eccFate (s : State) (f : Stored) : Nat :=
  let bad := (s.frameMarks f).filter (fun x => s.eccOf .caddy x.2 == .bad)
  if bad.any (fun x => x.1 == 0) then 1
  else if !bad.isEmpty ∨ f.cut ∨ (s.reached f.leaves).length < f.leaves.length then 2
  else 0

/-- The errors that an output meets as it reads a frame are counted (R314). -/
def State.noteFrameEcc (s : State) (f : Stored) : State :=
  let n := (s.reached f.leaves).length
  (s.noteCaddyEcc (((s.frameMarks f).filter (fun x => decide (x.1 < 32 * n))).map (·.2))).noteLinks f

/-- A SYNC of the coupler's own, which it does not send at ports 2 and 3 while it does not drive CPL_ILK low (R388). -/
def State.syncBarred (s : State) (f : Stored) (p : Nat) : Bool :=
  !s.ring.cpl.drive && (p == 2 || p == 3) && f.ownTime 1

/-- Select and start the next frame of output `p`; a SYNC that may not leave is freed uncounted. The first argument bounds the
frames passed over. -/
def State.startNext : Nat → State → Nat → State
  | 0, s, _ => s
  | n + 1, s, p =>
    match s.nextFrame p with
    | none => s
    | some f =>
      let time := s.lineTime p f.frame.size
      if s.syncBarred f p then State.startNext n (s.release p f.id) p
      else if s.frameStale f.frame then State.startNext n ((s.release p f.id).countDrop p 4) p
      else if s.guardBlocks p (f.classAt p) time then s.deferFrame f p
      else if s.launchBlocks p (f.classAt p) time then s
      else
        match s.eccFate f with
        | 0 => (s.noteFrameEcc f).sendFrame f p false
        | 1 => State.startNext n (((s.noteFrameEcc f).release p f.id true).countDrop p 7) p
        | _ => (s.noteFrameEcc f).sendFrame f p true

def execOutputStartFrame (p : Fin 24) (s : State) : Host.Outcome State Fault Refusal :=
  done (if s.outputIdle p.val then State.startNext ((s.outp p.val).queue.length + 1) (s.steamFirst p.val) p.val else s)

/-! ### Hold times, resequencer, auditor, guard -/

/-- Since when output `p` has been down. -/
def State.downFrom (s : State) (p : Nat) : Option Nat := if p < 4 then (s.link p).downSince else (s.outp p).downSince

/-- HOLD_TIME_EXPIRE (R303, R304). -/
def State.holdExpire (s : State) (p : Nat) : State :=
  match s.downFrom p with
  | some t =>
    if !s.portDown p ∨ (s.outp p).holdEnded ∨ s.clk - t ≤ s.rd (R.SWC_PORT_hold p) * 1000 then s
    else
      let s := s.setOutp p { s.outp p with holdEnded := true }
      (s.outp p).queue.foldl (fun (u : State) id => (u.release p id).countDrop p 5) s
  | none => s

def execHoldTimeExpire (p : Fin 24) (s : State) : Host.Outcome State Fault Refusal := done (s.holdExpire p.val)

/-- RESEQ_HOLD_EXPIRE (R308). -/
def State.reseqExpire (s : State) (p id : Nat) : State :=
  match s.stored? id with
  | none => s
  | some f =>
    match f.held.find? (fun h => h.1 == p), s.switch.keys.find? (fun k => k.is p f.frame) with
    | some h, some k => if s.rd R.SWC_RESEQ_window * 1000 ≤ s.clk - h.2 then s.reseqRelease k f else s
    | _, _ => s

def execReseqHoldExpire (p : Fin 24) (id : Nat) (s : State) : Host.Outcome State Fault Refusal := done (s.reseqExpire p.val id)

/-- RESEQ_KEY_AGE (R310). -/
def State.reseqAge (s : State) (p src flow : Nat) : State :=
  let goes (k : Key) : Bool :=
    k.out == p && k.srcRing == src / 256 && k.src == src % 256 && k.flow == flow && (s.keyHeld k).isEmpty &&
    decide (10000000 ≤ s.clk - k.idleSince)
  { s with switch := { s.switch with keys := s.switch.keys.filter (fun k => !goes k) } }

def execReseqKeyAge (p : Fin 24) (src : BitVec 10) (flow : BitVec 16) (s : State) : Host.Outcome State Fault Refusal :=
  done (s.reseqAge p.val src.toNat flow.toNat)

/-- Leaf `l` passes the auditor's check (R311): it is on the free list, or link words lead to it from a queued frame. -/
def State.leafOk (s : State) (l : Nat) : Bool :=
  !s.leavesUsed.contains l || s.switch.frames.any (fun f => (s.reached f.leaves).contains l)

/-- Free leaf `l`, which nothing reaches (R312). -/
def State.freeLeaf (s : State) (l : Nat) : State :=
  let s : State := { s with switch := { s.switch with
    leaked := s.switch.leaked.filter (· != l)
    frames := s.switch.frames.map (fun f => 
      if f.leaves.contains l then { f with leaves := f.leaves.filter (· != l), cut := true } else f) } }
  (s.bump R.CAD_AUDIT_leaked).raise 0x030 l

/-- CADDY_AUDIT (R311-R313): once per millisecond every leaf is checked, and one that fails twice in succession is freed. A second
free of a leaf that is on the free list is refused. -/
def State.audit (s : State) (doubleFreed : Option Nat) : State :=
  if !s.coreUp ∨ s.clk < s.switch.auditAt + 1000000 then s
  else
    let fails := s.leavesUsed.filter (fun l => !s.leafOk l)
    let gone := fails.filter s.switch.failed.contains
    let s := s.bumpWrap R.CAD_AUDIT_passes
    let s : State := { s with switch := { s.switch with
      auditAt := s.clk, failed := fails.filter (fun l => !gone.contains l) } }
    let s := (gone.foldl State.freeLeaf s).checkRisks
    match doubleFreed with
    | some l => if s.leavesUsed.contains l then s else (s.bump R.CAD_AUDIT_double_free).raise 0x031 l
    | none => s

def execCaddyAudit (doubleFreed : Option (Fin 16384)) (s : State) : Host.Outcome State Fault Refusal :=
  done (s.audit (doubleFreed.map (·.val)))

/-- POUR_GUARD_OPEN (R300): the intervals open whose opening time the tick covers. -/
def State.guardOpen (s : State) (p : Nat) : State :=
  if s.coreUp ∧ s.bitOn R.SWC_GUARD_enable p then
    let due := (s.guardOpenings p).filter (fun t => decide (t.1 ≤ s.now.toNat ∧ s.now.toNat < t.1 + 2) &&
      !(s.outp p).guards.any (fun x => x.2 == t.2))
    s.setOutp p { s.outp p with guards := (s.outp p).guards ++ due.map (fun t => (s.clk, t.2)) }
  else s

def execPourGuardOpen (p : Fin 2) (s : State) : Host.Outcome State Fault Refusal := done (s.guardOpen p.val)

/-- POUR_GUARD_TIMEOUT (R300): an interval closes 20 µs after it opened. -/
def State.guardTimeout (s : State) (p : Nat) : State :=
  s.setOutp p { s.outp p with guards := (s.outp p).guards.filter (fun x => decide (s.clk - x.1 < 20000)) }

def execPourGuardTimeout (p : Fin 2) (s : State) : Host.Outcome State Fault Refusal := done (s.guardTimeout p.val)

end Sys2Proof.Machine
end

