-- ==== Sys2Proof/Machine/TimeCmds.lean ====
section
/-!
DEFINITION. The commands of the time unit: peer delay, the choice of the source and the servo, the clock of the counter, the time
gateway and gPTP, schedule entries, timed launches and TIME_IO pins (R360-R406).
-/

namespace Sys2Proof.Machine

/-- 2^`log` s in ns. -/
def logNs (log : Int) : Nat := if log < 0 then 1000000000 / 2 ^ log.natAbs else 1000000000 * 2 ^ log.natAbs

/-- The sync interval (R376). -/
def State.syncNs (s : State) : Nat := logNs (s.rdInt R.TIM_SYNC_CFG_sync_log)

/-! ### Peer delay (R370, R371) -/

def State.pdelay (s : State) (p : Nat) : PDelay := mget {} s.time.pdelay p

def State.setPdelay (s : State) (p : Nat) (d : PDelay) : State :=
  { s with time := { s.time with pdelay := mput {} s.time.pdelay p d } }

/-- tinfo of a time frame (R366). -/
def timeInfo (msg tseq : Nat) : Nat := msg * 2 ^ 44 + tseq % 65536 * 2 ^ 16

/-- A port that exchanges peer delay: a ring or sub-ring port with its ring core in service. -/
def State.pdelayPort (s : State) (p : Nat) : Bool := s.coreUp && s.ringPort p

/-- Send a peer-delay frame through port `p` alone; `arrived` is the stamp of the request that a PDRESP answers. -/
def State.sendPeer (s : State) (p dst msg tseq : Nat) (arrived : Word) : State :=
  let h : Head :=
    { ftype := 3
      tclass := s.rd (R.SWC_PORT_orig_class 7)
      dual := false
      src := s.nodeOf p
      dst := dst
      srcRing := s.ringOf p
      dstRing := s.ringOf p
      tinfo := timeInfo msg tseq }
  let f := h.frame (wordBytes 0)
  match s.route f 7 [p] [] {} with
  | (s, none) => s
  | (s, some r) =>
    ((s.enqueue { id := 0, frame := f, ingress := 7, cls := r.cls, start := arrived, notBefore := s.ringQuietUntil }
      r.outs r.reseq).1).pmcEv 2 2 p

/-- PDREQ_RECEIVED, with the stamp t2 of its arrival: it is answered through the same port with the turnaround measured (R370). -/
def State.pdreqReceived (s : State) (p : Nat) (f : Frame) (stamp : Word) : State :=
  if !s.pdelayPort p ∨ s.portDown p ∨ f.ftype ≠ 3 ∨ f.tinfo / 2 ^ 44 ≠ 2 ∨ !s.takesPeer f p then s
  else s.sendPeer p f.src 3 (tseqOf f) stamp

def execPdreqReceived (p : Fin 4) (f : Frame) (stamp : Word) (s : State) : Host.Outcome State Fault Refusal :=
  done (s.pdreqReceived p.val f stamp)

/-- PDELAY_REQ_SEND: every 2^pdelay_log s (R370). On a port that is down the exchange is begun as well, and fails. -/
def State.pdelaySend (s : State) (p : Nat) : State :=
  let d := s.pdelay p
  if !s.pdelayPort p ∨ s.clk < d.sentAt + logNs (s.rdInt R.TIM_SYNC_CFG_pdelay_log) then s
  else
    let n := s.time.pdSeq
    let s := s.setPdelay p { d with pending := some (n, s.now), sentAt := s.clk }
    ({ s with time := { s.time with pdSeq := (n + 1) % 65536 } }).sendPeer p 0xFF 2 n s.now

def execPdelayReqSend (p : Fin 4) (s : State) : Host.Outcome State Fault Refusal := done (s.pdelaySend p.val)

/-- The link delay of an exchange in ps (R371): departure and arrival stamps, and the turnaround in units of 2^-16 ns. -/
def linkDelay (t1 t4 turnaround : Word) : Int := (tdiff t4 t1 * 65536 - turnaround.toInt) * 1000 / 131072

/-- PDRESP_RECEIVED (R371). -/
def State.pdrespReceived (s : State) (p : Nat) (f : Frame) (stamp : Word) : State :=
  let d := s.pdelay p
  match d.pending with
  | none => s
  | some (tseq, t1) =>
    if !s.pdelayPort p ∨ f.ftype ≠ 3 ∨ f.tinfo / 2 ^ 44 ≠ 3 ∨ tseqOf f ≠ tseq ∨ !s.takesPeer f p then s
    else
      let r := linkDelay t1 stamp (bytesWord (slice f.payload 0 8))
      let rs := (d.results ++ [r]).drop (d.results.length - 7)
      let mean := (rs.foldl (· + ·) 0) / (rs.length : Int)
      let s := s.setPdelay p { d with pending := none, results := rs, fails := 0 }
      let s := s.wr (R.TIM_PDELAY_delay p) (min mean.toNat (2 ^ 32 - 1))
      if rs.length = 8 then s.wr (R.TIM_PDELAY_valid p) 1 else s

def execPdrespReceived (p : Fin 4) (f : Frame) (stamp : Word) (s : State) : Host.Outcome State Fault Refusal :=
  done (s.pdrespReceived p.val f stamp)

/-- PDELAY_TIMEOUT (R371): the exchange fails 10 ms after its request. -/
def State.pdelayTimeout (s : State) (p : Nat) : State :=
  let d := s.pdelay p
  if s.asleep ∨ d.pending.isNone ∨ s.clk < d.sentAt + 10000000 then s
  else
    let s := (s.bump (R.TIM_CNT_count 5)).setPdelay p { d with pending := none, fails := min (d.fails + 1) 9 }
    if d.fails = 7 then
      ((s.setPdelay p { s.pdelay p with results := [] }).wr (R.TIM_PDELAY_valid p) 0).raise (0x056 + p)
    else s

def execPdelayTimeout (p : Fin 4) (s : State) : Host.Outcome State Fault Refusal := done (s.pdelayTimeout p.val)

/-! ### The source and the servo (R375-R382) -/

/-- The fields of a SYNC payload (R367). -/
structure SyncBody where
  origin : Word
  frac : Nat
  utc : Nat
  cls : Nat
  gateway : Bool
  deriving DecidableEq, Repr

def syncBody (f : Frame) : SyncBody :=
  let p1 := bytesWord (slice f.payload 8 8)
  ⟨bytesWord (slice f.payload 0 8), fget p1 0 16, fget p1 48 16, fget p1 40 8, fget p1 32 1 == 1⟩

/-- The offset of R375 in units of 2^-16 ns. -/
def State.syncOffset (s : State) (p : Nat) (f : Frame) (stamp : Word) : Int :=
  let b := syncBody f
  tdiff stamp b.origin * 65536 - (b.frac : Int) - f.w2.toInt -
    ((s.rd (R.TIM_PDELAY_delay p) : Int) + s.rdInt (R.TIM_ASYM_asym p)) * 65536 / 1000

/-- The source followed has been silent for three sync intervals. -/
def State.sourceSilent (s : State) : Bool := decide (3 * s.syncNs ≤ s.clk - s.time.lastHeard)

/-- What the hub makes of a SYNC by its sender (R376, R377, R406): follow it as the present source, follow it as a new source, or
ignore it. -/
inductive Follow where
  | same | change | ignore
  deriving DecidableEq, Repr

def State.follow (s : State) (n : Nat) (gateway : Bool) : Follow :=
  let now := s.rd R.TIM_STATUS_gm_node
  let prim := s.rd R.TIM_SYNC_CFG_gm_primary
  let back := s.rd R.TIM_SYNC_CFG_gm_backup
  if !s.loaded.sections.contains 9 then
    if now = 0 ∨ now = n then .same else if n < now ∨ s.sourceSilent then .change else .ignore
  else if n ≠ prim ∧ (n ≠ back ∨ back = 0) then .ignore
  else if s.on R.TIM_SYNC_CFG_gateway_only then
    if !gateway then .ignore else if now = 0 ∨ now = n then .same else if s.sourceSilent then .change else .ignore
  else if n = prim then
    if now = 0 ∨ now = n then .same else if 8 ≤ s.time.primaryRun then .change else .ignore
  else if now = n then .same
  else if 3 * s.syncNs ≤ s.clk - s.time.lastPrimary then .change
  else .ignore

/-- A SYNC of gm_primary has arrived: eight in succession, each within two intervals of the one before, bring the hub back to
it (R376). -/
def State.notePrimary (s : State) (n : Nat) : State :=
  if n ≠ s.rd R.TIM_SYNC_CFG_gm_primary then s
  else
    let near := decide (s.clk - s.time.lastPrimary < 2 * s.syncNs) && s.time.primaryRun != 0
    { s with time := { s.time with lastPrimary := s.clk, primaryRun := if near then min (s.time.primaryRun + 1) 8 else 1 } }

/-- Set the ratio of the PLL, in units of 0.1 ppb and within ±200 ppm (R361). -/
def State.setRate (s : State) (v : Int) : State := s.wrInt R.TIM_RATE_rate (max (-2000000) (min v 2000000))

/-- The ratio of the PLL as the servo steers it: by at most ±100 ppm (R382). The manual does not give the control law. -/
def State.steer (s : State) : State :=
  let (k, s) := s.takeFree
  s.setRate (s.rdInt R.TIM_RATE_rate + ((Config.freeNat k % 2000001 : Nat) : Int) - 1000000)

/-- The rate is taken from the stamps and offsets of the first and the last of the four SYNC frames of ACQUIRE (R379). -/
def State.measureRate (s : State) (o : Int) (stamp : Word) : State :=
  match s.time.acquired with
  | none => s
  | some (first, o1) =>
    let t := tdiff stamp first * 65536
    if t ≤ 0 then s else s.setRate (s.rdInt R.TIM_RATE_rate - (o - o1) * 10000000000 / t)

/-- The counter is set to the source's time (R379). -/
def State.setCounter (s : State) (o : Int) : State := (s.moveCounter (-(wholeNs o))).wr R.TIM_STATUS_set 1

/-- Change the run of SYNC frames that the present state of the servo counts. -/
def State.setRun (s : State) (n : Nat) : State := { s with time := { s.time with run := n } }

/-- 1 µs in units of 2^-16 ns. -/
def oneMicro : Int := 65536000

/-- A jump in LOCKING, LOCKED or HOLDOVER (R379). -/
def State.servoJump (s : State) (o : Int) : State :=
  if o < 0 ∧ s.on R.TIM_CTRL_auto_step_fwd then (s.stepCounter (-(wholeNs o))).setServo 2 else s.enterTimeHold

/-- The servo acts on an accepted SYNC of offset `o` that was stamped `stamp` (R379). -/
def State.servoStep (s : State) (o : Int) (stamp : Word) : State :=
  let jump := decide (oneMicro < o ∨ o < -oneMicro)
  match s.time.servo with
  | 0 => (s.setCounter o).setServo 1
  | 1 =>
    if jump then (s.setCounter o).setServo 1
    else if 3 ≤ s.time.run then (s.setServo 2).measureRate o stamp
    else
      let s := s.setRun (s.time.run + 1)
      if s.time.run = 1 then { s with time := { s.time with acquired := some (stamp, o) } } else s
  | 2 =>
    if jump then s.servoJump o
    else
      let s := s.steer
      if o.natAbs ≤ 50 * 65536 then (if 7 ≤ s.time.run then s.setServo 3 else s.setRun (s.time.run + 1)) else s.setRun 0
  | 3 =>
    if jump then s.servoJump o
    else
      let s := s.steer
      if 200 * 65536 < o.natAbs then (if 3 ≤ s.time.run then s.setServo 2 else s.setRun (s.time.run + 1)) else s.setRun 0
  | 4 => if jump then s.servoJump o else (s.setServo 2).steer
  | _ => if jump then s else (s.setServo 2).steer

/-- Accept a SYNC: its fields, its offset, and what the servo makes of it. -/
def State.acceptSync (s : State) (p : Nat) (f : Frame) (stamp : Word) : State :=
  let b := syncBody f
  let o := s.syncOffset p f stamp
  let s := (s.bump (R.TIM_CNT_count 0)).pmcEv 5 0 0
  let s := ((s.wr R.TIM_STATUS_gm_node f.src).wr R.TIM_STATUS_gm_class b.cls).wr R.TIM_STATUS_path_hops f.hops
  let s := (s.wr R.TIM_STATUS_rx_port p).wr R.TIM_STATUS_utc_offset b.utc
  let s : State := { s with time := { s.time with lastSync := s.clk, lastHeard := s.clk, tried := false, offset := o } }
  (s.wrInt R.TIM_OFFSET_offset (wholeNs o)).servoStep o stamp

/-- SYNC_RECEIVED: a SYNC that the Strainer has accepted reaches the time unit (R375-R377). A hub follows its own ring 0/1. -/
def State.syncReceived (s : State) (p : Nat) (f : Frame) (stamp : Word) : State :=
  if !s.coreUp ∨ !s.ringPort p ∨ f.ftype ≠ 3 ∨ f.tinfo / 2 ^ 44 ≠ 1 ∨
      (s.nodeOf p ≠ 0 ∧ f.src = s.nodeOf p ∧ f.srcRing = s.ringOf p) then s
  else if 2 ≤ p ∨ f.srcRing ≠ s.ringOf 0 then s.bump (R.TIM_CNT_count 1)
  else
    let s := if s.loaded.sections.contains 9 then s.notePrimary f.src else s
    match s.follow f.src (syncBody f).gateway with
    | .ignore => s.bump (R.TIM_CNT_count 1)
    | .same =>
      let s : State := { s with time := { s.time with lastHeard := s.clk, tried := false } }
      if s.on (R.TIM_PDELAY_valid p) then s.acceptSync p f stamp else s.bump (R.TIM_CNT_count 1)
    | .change =>
      if s.on (R.TIM_PDELAY_valid p) then (s.bump (R.TIM_CNT_count 12)).acceptSync p f stamp else s.bump (R.TIM_CNT_count 1)

def execSyncReceived (p : Fin 4) (f : Frame) (stamp : Word) (s : State) : Host.Outcome State Fault Refusal :=
  done (s.syncReceived p.val f stamp)

/-- The source to which the hub changes when the one it follows has been silent (R376, R377); 0 for none. A hub with gateway_only set
changes either way, but not away from a source that it has not yet heard. -/
def State.otherSource (s : State) : Nat :=
  let now := s.rd R.TIM_STATUS_gm_node
  let prim := s.rd R.TIM_SYNC_CFG_gm_primary
  let back := s.rd R.TIM_SYNC_CFG_gm_backup
  if !s.loaded.sections.contains 9 ∨ back = 0 then 0
  else if s.on R.TIM_SYNC_CFG_gateway_only ∧ s.time.tried then 0
  else if now = prim then back
  else if now = back ∧ s.on R.TIM_SYNC_CFG_gateway_only then prim
  else 0

/-- SYNC_TIMEOUT (R376, R379): three sync intervals without a SYNC from the source, or none accepted and no source left. -/
def State.syncTimeout (s : State) : State :=
  if !s.coreUp ∨ !s.sourceSilent then s
  else if s.otherSource ≠ 0 then
    { (s.bump (R.TIM_CNT_count 12)).wr R.TIM_STATUS_gm_node s.otherSource with
      time := { s.time with lastHeard := s.clk, tried := true } }
  else if 1 ≤ s.time.servo ∧ s.time.servo ≤ 3 ∧ 3 * s.syncNs ≤ s.clk - s.time.lastSync then s.enterHoldover true
  else s

def execSyncTimeout (s : State) : Host.Outcome State Fault Refusal := done s.syncTimeout

/-- The effect of a write of 1 to TIM_CTRL.step (R379, R381). -/
def State.timeStep (s : State) (r : Requester) : State :=
  if r.level = .supervisor ∧ s.time.servo = 5 then (s.stepCounter (-(wholeNs s.time.offset))).setServo 2 else s

def execTimeStepCmd (r : Requester) (s : State) : Host.Outcome State Fault Refusal :=
  done (s.asWrite r R.TIM_CTRL (fun t => t.timeStep r))

/-! ### The clock of the counter (R361-R364) -/

/-- RESONATOR_FAIL (R363). -/
def State.resonatorFail (s : State) : State :=
  ({ s with time := { s.time with resonator := false, starting := false } }).refreshClock

def execResonatorFail (s : State) : Host.Outcome State Fault Refusal := done s.resonatorFail

/-- The resonator is stopped: in Hibernate, until a wake has powered the hub again (R603, R606). -/
def State.resonatorOff (s : State) : Bool :=
  match s.power.hib with
  | some h => h.off && h.phase != .powered
  | none => false

/-- RESONATOR_READY (R363). -/
def State.resonatorReady (s : State) : State :=
  if s.resonatorOff ∨ s.hub.held then s
  else ({ s with time := { s.time with resonator := true, starting := false } }).refreshClock

def execResonatorReady (s : State) : Host.Outcome State Fault Refusal := done s.resonatorReady

/-- RESONATOR_START_TIMEOUT: 5 ms after a start (R363). In a wake the clock is decided by WAKE_CLOCK_DECIDE (R607). -/
def State.resonatorTimeout (s : State) : State :=
  if !s.time.starting ∨ s.clk < s.time.resStart + 5000000 ∨ s.hub.mode = .hibernate then s
  else ({ s with time := { s.time with starting := false } }).refreshClock

def execResonatorStartTimeout (s : State) : Host.Outcome State Fault Refusal := done s.resonatorTimeout

/-- TIMEBASE_LOSS (R364): neither the resonator nor a recovered ring clock is available. -/
def State.timebaseLoss (s : State) : State := if s.clockNow = 3 ∧ !s.time.starting then s.timebaseLost else s

def execTimebaseLoss (s : State) : Host.Outcome State Fault Refusal := done s.timebaseLoss

/-! ### The time gateway and gPTP (R387-R392) -/

/-- gm_class of what this hub sends (R387). -/
def State.gmClass (s : State) : Nat := if s.time.servo = 3 then 6 else if s.time.servo = 4 ∨ s.time.servo = 5 then 7 else 248

/-- The coupler is a time gateway (R387). -/
def State.timeGateway (s : State) : Bool :=
  s.coreUp && s.isCoupler && s.ring.cpl.state == 2 && s.on R.TIM_SYNC_CFG_gateway_eligible

/-- GATEWAY_SYNC_SEND (R387, R388). -/
def State.gatewaySync (s : State) : State :=
  let c := s.ring.cpl
  if !s.timeGateway ∨ s.clk < c.syncDue then s
  else
    let p1 := s.rd R.TIM_STATUS_utc_offset * 2 ^ 48 + s.gmClass * 2 ^ 40 + 2 ^ 32
    let f := ({ ftype := 3, dst := 0xFF, dstRing := s.rd R.RING_CFG_sub_ring, tinfo := timeInfo 1 c.syncSeq + bit01 s.time.stepped * 2 ^ 15 } : Head).frame
      (wordBytes s.now ++ leBytes 8 p1)
    let s := (s.originate { unit := 7 } f).1.modCpl (fun c =>
      { c with syncDue := s.clk + s.syncNs, syncSeq := (c.syncSeq + 1) % 65536 })
    { s with time := { s.time with stepped := false } }

def execGatewaySyncSend (s : State) : Host.Outcome State Fault Refusal := done s.gatewaySync

/-- Spur A (0) or Spur B (1) runs gPTP (R390). -/
def State.gptpPort (s : State) (p : Nat) : Bool :=
  s.coreUp && s.portPresent (2 + p) && s.portFunction (2 + p) == 2 && s.bitOn R.TIM_SYNC_CFG_gptp p

/-- The state of a spur port in the gPTP profile: the external port configuration fixes it (R390). -/
inductive GptpRole where
  | none | master
  deriving DecidableEq, Repr

/-- The state that Spur A (0) or Spur B (1) is fixed in. -/
def State.gptpRole (s : State) (p : Nat) : GptpRole := if s.gptpPort p then .master else .none

/-- GPTP_SYNC_SEND (R390, R392): a port in the MasterPort state sends a two-step Sync, and a Follow_Up, which carries plant time. The peer
delay messages of IEEE 802.1AS, for which the table has no command, are left out (log entry 39). -/
def State.gptpSync (s : State) (p : Nat) : State :=
  let due := match mget none s.time.gptp p with
    | some x => decide (x.sentAt + logNs (s.rdInt R.TIM_SYNC_CFG_gptp_log) ≤ s.clk)
    | none => true
  if s.gptpRole p ≠ .master ∨ !s.on R.TIM_STATUS_valid ∨ s.portDown (2 + p) ∨ !due then s
  else { s with time := { s.time with
    gptp := mput none s.time.gptp p (some { sentAt := s.clk })
    followUp := mput none s.time.followUp p (some { sentAt := s.clk, origin := s.now }) } }

def execGptpSyncSend (p : Fin 2) (s : State) : Host.Outcome State Fault Refusal := done (s.gptpSync p.val)

/-- GPTP_ANNOUNCE_SEND (R390-R392). -/
def State.gptpAnnounce (s : State) (p : Nat) : State :=
  let due := match mget none s.time.announce p with
    | some a => decide (a.sentAt + 1000000000 ≤ s.clk)
    | none => true
  if s.gptpRole p ≠ .master ∨ !s.on R.TIM_STATUS_valid ∨ s.portDown (2 + p) ∨ !due then s
  else
    let id := BitVec.ofNat 64 (0x025A57FFFE000000 + s.ringOf 0 * 256 + s.hub.node)
    let a : Announce := { sentAt := s.clk, clockClass := s.gmClass, utcOffset := s.rd R.TIM_STATUS_utc_offset, clockIdentity := id }
    { s with time := { s.time with announce := mput none s.time.announce p (some a) } }

def execGptpAnnounceSend (p : Fin 2) (s : State) : Host.Outcome State Fault Refusal := done (s.gptpAnnounce p.val)

def execGptpSyncReceived (p : Fin 2) (s : State) : Host.Outcome State Fault Refusal :=
  done (if s.gptpPort p.val then s.bump (R.TIM_CNT_count 11) else s)

/-! ### Schedule entries (R393-R396) -/

def State.setSched (s : State) (i : Nat) (x : Option Sched) : State :=
  { s with time := { s.time with sched := mput none s.time.sched i x } }

/-- Entry `i` no longer stands armed; a launch slot that it had armed is LOADED again. -/
def State.disarm (s : State) (i : Nat) : State :=
  match mget none s.time.sched i with
  | none => s
  | some e =>
    let s := s.setSched i none
    let slot := fget e.fields 24 4
    if fget e.fields 28 4 = 4 ∧ slot < 4 ∧ s.armedFor slot = some e.due then
      (s.setArmed slot none).wr (R.TIM_LAUNCH_CTL_state slot) 1
    else s

/-- The launch slot that the fields name is ARMED for a due time (R399). -/
def State.armSlot (s : State) (fields : Word) (due : Word) : State :=
  if fget fields 28 4 = 4 then (s.setArmed (fget fields 24 4) (some due)).wr (R.TIM_LAUNCH_CTL_state (fget fields 24 4)) 2 else s

/-- The effect of a write of a schedule time to TIM_SCHED_T (R393). -/
def State.schedArm (s : State) (i t : Nat) : State :=
  let s := (s.disarm i).wr (R.TIM_SCHED_T_time i) t
  let fields := s.word (R.TIM_SCHED_A i)
  if !s.schedActs fields then s.pastSched i fields s.now
  else
    match resolve s.now t (fget fields 32 20) with
    | .pending due =>
      ((s.wr (R.TIM_SCHED_A_status i) 1).wr (R.TIM_SCHED_A_late i) 0).setSched i (some ⟨due, fields⟩) |>.armSlot fields due
    | .late due _ => (s.armSlot fields due).runSched i fields due true
    | .past due => s.pastSched i fields due

def execSchedArm (r : Requester) (i : Fin 32) (t : BitVec 40) (s : State) : Host.Outcome State Fault Refusal :=
  done (s.asWrite r (R.TIM_SCHED_T i.val) (fun u => u.schedArm i.val t.toNat))

/-- The effect of a write of cancel to TIM_SCHED_T. -/
def State.schedCancel (s : State) (i : Nat) : State :=
  if s.rd (R.TIM_SCHED_A_status i) = 1 then (s.disarm i).wr (R.TIM_SCHED_A_status i) 4 else s

def execSchedCancel (r : Requester) (i : Fin 32) (s : State) : Host.Outcome State Fault Refusal :=
  done (s.asWrite r (R.TIM_SCHED_T i.val) (fun u => u.schedCancel i.val))

/-- How many ticks ago the tick was that covers a due time (R96, R393): the tick of now covers now and the ns after it. -/
def State.ticksPast (s : State) (due : Word) : Int := tdiff (s.now + 1) due / 2

/-- The tick that covers the due time of `x` is not after that of `y`. -/
def State.upTo (s : State) (x y : Sched) : Bool := decide (s.ticksPast y.due ≤ s.ticksPast x.due)

/-- The entries that are due, in the order in which they run: by tick, and among those of one tick by ascending index (R393, R396). -/
def State.dueEntries (s : State) : List (Nat × Sched) :=
  let due : List (Nat × Sched) := s.time.sched.filterMap (fun kv =>
    match kv.2 with
    | some e => if 0 ≤ s.ticksPast e.due then some (kv.1, e) else none
    | none => none)
  due.foldl (fun l x => l.takeWhile (fun y => s.upTo y.2 x.2) ++ [x] ++ l.dropWhile (fun y => s.upTo y.2 x.2)) []

/-- SCHED_DUE (R393, R396): entry `i` is due, and every entry that is due runs. In Hibernate none does (log entry 14). -/
def State.schedDue (s : State) (i : Nat) : State :=
  if s.asleep ∨ !s.dueEntries.any (fun x => x.1 == i) then s
  else s.dueEntries.foldl (fun (t : State) x => t.runSched x.1 x.2.fields x.2.due false) s

def execSchedDue (i : Fin 32) (s : State) : Host.Outcome State Fault Refusal := done (s.schedDue i.val)

/-! ### Timed launches (R397-R399) -/

/-- The effect of a write to TIM_LAUNCH_CTL.words (R397). -/
def State.launchLoad (s : State) (i words : Nat) : State :=
  ((s.setArmed i none).wr (R.TIM_LAUNCH_CTL_words i) words).wr (R.TIM_LAUNCH_CTL_state i) 1

def execLaunchLoad (r : Requester) (i : Fin 4) (words : BitVec 6) (s : State) : Host.Outcome State Fault Refusal :=
  done (s.asWrite r (R.TIM_LAUNCH_CTL i.val) (fun u => u.launchLoad i.val words.toNat))

/-- A write to the buffer of a launch slot (R397). -/
def State.writeLaunchBuf (s : State) (i : Nat) (v : Word) : State :=
  if s.rd (R.TIM_LAUNCH_CTL_state (i / 32)) = 2 then s else s.setWord (R.TIM_LAUNCH_BUF i) v

/-- LAUNCH_HANDOVER: 2 µs before the due time (R399). -/
def State.launchHandover (s : State) (i : Nat) : State :=
  match s.armedFor i with
  | none => s
  | some due => if s.asleep ∨ tdiff s.now due < -2000 then s else s.handOver i due

def execLaunchHandover (i : Fin 4) (s : State) : Host.Outcome State Fault Refusal := done (s.launchHandover i.val)

/-! ### TIME_IO pins (R401-R404) -/

/-- Period and phase in force on pin `k`: those of a write count from the next active edge that the old ones give (R404). -/
def State.ioTiming (s : State) (k : Nat) : Nat × Nat :=
  let w := (s.tio k).old.getD (s.word (R.TIM_IO_PER k))
  (if s.rd (R.TIM_IO_function k) = 1 then 1000000000 else fget w 32 32, fget w 0 32)

/-- The active edge of a PPS or periodic output that the present tick covers (R401). -/
def State.edgeNow (s : State) (k : Nat) : Option Nat :=
  let (period, phase) := s.ioTiming k
  if period = 0 then none
  else [s.now.toNat, s.now.toNat - 1].find? (fun t =>
    decide (s.now.toNat < t + 2) && ((t : Int) - (phase : Int)) % (period : Int) == 0)

/-- A PPS or periodic output. -/
def State.tioPeriodic (s : State) (k : Nat) : Bool := s.rd (R.TIM_IO_function k) == 1 || s.rd (R.TIM_IO_function k) == 2

/-- TIMEIO_PERIODIC_EDGE (R401, R402, R404): the output becomes active where valid is 1; the values of a write govern from here. -/
def State.periodicEdge (s : State) (k : Nat) : State :=
  if !s.coreUp ∨ !s.tioPeriodic k then s
  else
    match s.edgeNow k with
    | none => s
    | some t =>
      let x : TimeIo := { s.tio k with old := none }
      s.setTio k (if s.on R.TIM_STATUS_valid then
        { x with level := true, pulseEnd := some (s.clk + s.rd (R.TIM_IO_width k) - (s.now.toNat - t)) } else x)

def execTimeioPeriodicEdge (k : Fin 4) (s : State) : Host.Outcome State Fault Refusal := done (s.periodicEdge k.val)

/-- TIMEIO_PULSE_END (R401, R402). -/
def State.pulseOver (s : State) (k : Nat) : State :=
  match (s.tio k).pulseEnd with
  | none => s
  | some t => if s.asleep ∨ s.clk < t then s else s.setTio k { s.tio k with level := false, pulseEnd := none }

def execTimeioPulseEnd (k : Fin 4) (s : State) : Host.Outcome State Fault Refusal := done (s.pulseOver k.val)

/-- Whether an edge at TIME_IO pin `k` is one that the pin captures (R401). -/
def State.captures (s : State) (k : Nat) (rising : Bool) : Bool :=
  s.rd (R.TIM_IO_function k) == 4 && s.bitOn (R.TIM_IO_edges k) (if rising then 0 else 1)

/-- The FIFO of a capture pin takes a stamp (R403). -/
def State.storeCapture (s : State) (k : Nat) (rising : Bool) (stamp : Word) : State :=
  if !s.coreUp then s
  else
    let x := s.tio k
    if 16 ≤ x.fifo.length then (s.setTio k { x with lost := true }).bump (R.TIM_CNT_count 10)
    else (s.setTio k { x with fifo := x.fifo ++ [⟨rising, x.lost, stamp⟩], lost := false }).pmcEv 5 4 0

/-- TIMEIO_CAPTURE: the edge is stamped (R403), and wakes the hub where the pin is a wake source, in Hibernate too (R604). -/
def State.capture (s : State) (k : Nat) (rising : Bool) (stamp : Word) : State :=
  if s.captures k rising then (s.storeCapture k rising stamp).wake ⟨4, BitVec.ofNat 8 k, false⟩ else s

def execTimeioCapture (k : Fin 4) (rising : Bool) (stamp : Word) (s : State) : Host.Outcome State Fault Refusal :=
  done (s.capture k.val rising stamp)

def execTimeioCapturePop (r : Requester) (k : Fin 4) (s : State) : Host.Outcome State Fault Refusal :=
  done (s.asRead r (R.TIM_CAPTURE k.val))

/-- The settings of a TIME_IO pin are within R405. -/
def State.ioOk (s : State) (k : Nat) : Bool :=
  timeIoOk (s.rd (R.TIM_IO_function k)) (s.rd (R.TIM_IO_edges k)) (s.rd (R.TIM_IO_width k)) (s.rd (R.TIM_IO_PER_period k))
    (s.rd (R.TIM_IO_PER_phase k))

/-- The effect of a write to TIM_IO_PER (R136, R404, R405). The period of a PPS output stays 1 s; the old values of an output that
gives no edges govern nothing. -/
def State.writePeriod (s : State) (r : Requester) (k : Nat) (v : Word) : State :=
  let period := if s.rd (R.TIM_IO_function k) = 1 then 1000000000 else fget v 32 32
  let was := s.word (R.TIM_IO_PER k)
  let t := s.tuneWhole r (R.TIM_IO_PER k)
    [⟨R.TIM_IO_PER_period k, period, true⟩, ⟨R.TIM_IO_PER_phase k, fget v 0 32, true⟩] (fun u => u.ioOk k)
  if t.word (R.TIM_IO_PER k) = was ∨ !t.tioPeriodic k then t else t.setTio k { t.tio k with old := some ((t.tio k).old.getD was) }

def execTimeioPeriodWrite (r : Requester) (k : Fin 4) (v : Word) (s : State) : Host.Outcome State Fault Refusal :=
  done (s.asWrite r (R.TIM_IO_PER k.val) (fun u => u.writePeriod r k.val v))

end Sys2Proof.Machine
end

