-- ==== Sys2Proof/Machine/BayCmds.lean ====
section
/-!
DEFINITION. Commands of the pin cells and the bay FIFOs (10_bays_pins_fifos.md): accepted edges, driver overload, BAY_OUT, register
access to the FIFOs, and bay data segments in both directions.
-/

namespace Sys2Proof.Machine

/-! ### Edges (R410-R413, R508) -/

/-- A 24 V input (R61). -/
def State.input24 (s : State) (g : Nat) : Bool := s.pinMode g == 1 || s.pinMode g == 2

/-- The comparator has stayed in the new state for the filter time of a 24 V input since it switched at `crossing` (R412). -/
def State.filtered (s : State) (g : Nat) (crossing : Word) : Bool :=
  !s.input24 g || decide ((s.rd (R.BAY_PIN_filter g) * 1000 : Int) ≤ tdiff s.now crossing)

/-- The stamp of an edge whose receiver switched at `crossing`: 45 ns earlier on a 24 V input (R61, R412). -/
def State.edgeStamp (s : State) (g : Nat) (crossing : Word) : Word := if s.input24 g then crossing - 45 else crossing

/-- Pin `g` accepts an edge to `level` at the pad, whose receiver switched at plant time `crossing`. An edge that has not outlasted
the filter is none (R412). A pin in mode 0x0, the odd pin of a pair and a pin of a bay group without power stamp none, nor does a pair
whose line the hub's own driver holds (R410). -/
def State.acceptEdge (s : State) (g : Nat) (level : Bool) (crossing : Word) : State :=
  let p := s.pin g
  if !decide (g < s.nPins) ∨ !s.filtered g crossing then s
  else
    let t := s.setPin g { p with level := some level }
    if s.acceptedLevel g = level ∨ (s.ownLine g).isSome ∨ s.pinMode g = 0 ∨ s.pairOdd g ∨ s.groupGated (groupOfPin g) ∨ s.asleep then t
    else t.recordEdge g (s.edgeStamp g crossing) (level != s.on (R.BAY_PIN_invert g))

def execPinEdgeAccept (g : Fin 384) (level : Bool) (crossing : Word) (s : State) : Host.Outcome State Fault Refusal :=
  done (s.acceptEdge g.val level crossing)

/-! ### Driver overload (R414-R417) -/

/-- The driver of pin `g` limits its current under R414, and its cell has power (R12). -/
def State.limits (s : State) (g : Nat) : Bool :=
  decide (g < s.nPins) && [3, 4, 5, 8].contains (s.pinMode g) && !s.groupGated (groupOfPin g) && !s.asleep

/-- DRIVER_CURRENT_LIMIT: the driver enters or leaves its current limit (R415). While it limits, the level at the pad is what
PIN_EDGE_ACCEPT tells, and until then the one that it had (R408). -/
def State.currentLimit (s : State) (g : Nat) (on : Bool) : State :=
  if !s.limits g then s
  else
    let p := s.pin g
    let since : Option Nat := if on then some (p.limitSince.getD s.clk) else none
    let t := s.setPin g { p with limitSince := since, level := if on ∧ p.limitSince.isNone then some (s.lineLevel g) else p.level }
    (t.wrBit (R.BAY_PINSTAT_in_limit (g / 8)) (g % 8) on).followLine s g

def execDriverCurrentLimit (g : Fin 384) (on : Bool) (s : State) : Host.Outcome State Fault Refusal :=
  done (s.currentLimit g.val on)

/-- The driver has been in its current limit for 1 ms without a break (R415). -/
def State.tripDue (s : State) (g : Nat) : Bool :=
  s.limits g && (match (s.pin g).limitSince with
    | some t => decide (t + 1000000 ≤ s.clk)
    | none => false)

/-- The pin cell releases the driver (R415). -/
def State.tripPin (s : State) (g : Nat) : State :=
  let n := g / 8
  let t := s.setPin g { s.pin g with limitSince := none }
  let t := (t.wrBit (R.BAY_PINSTAT_in_limit n) (g % 8) false).wrBit (R.BAY_PINSTAT_overload n) (g % 8) true
  let t := ((t.bump (R.BAY_PINCNT_overloads n)).raise (0x080 + n) (2 ^ (g % 8))).pmcEv 8 6 (n / 4)
  (t.applyPad g).followLine s g

def execPinOverloadTrip (g : Fin 384) (s : State) : Host.Outcome State Fault Refusal :=
  done (if s.tripDue g.val then s.tripPin g.val else s)

/-- Bits set in a mask of `n` bits. -/
def popCount (n v : Nat) : Nat := ((List.range n).filter (bitAt v)).length

/-- Writes of 1 that meet the hardware's own change of the bit are counted, with the block of the latest (R105, R106, R108,
R214). -/
def State.countOverlap (s : State) (n block : Nat) : State :=
  if n = 0 then s else (s.bumpBy R.TOP_W1C_OVERLAP_count n).wr R.TOP_W1C_OVERLAP_last_block block

/-- A write of `mask` to BAY_PINSTAT.overload, while the hardware sets the bits of `hwSet` concurrently (R416, R417). -/
def State.overloadClear (s : State) (n mask hwSet : Nat) : State :=
  let hw := (List.range 8).filter (fun p => bitAt hwSet p && s.tripDue (8 * n + p))
  let both := hw.filter (bitAt mask)
  let rest := ((List.range 8).filter (fun p => bitAt mask p && !hw.contains p)).foldl (fun v p => v + 2 ^ p) 0
  let s := hw.foldl (fun (t : State) p => t.tripPin (8 * n + p)) s
  (s.clearOverload n rest).countOverlap both.length (0x10 + n)

def execOverloadClear (r : Requester) (n : Fin 48) (mask hwSet : Byte) (s : State) : Host.Outcome State Fault Refusal :=
  done (s.asWrite r (R.BAY_PINSTAT n.val) (fun t => t.overloadClear n.val mask.toNat hwSet.toNat))

/-! ### Register access (R420, R435, R441, R442) -/

/-- A write of `v` to BAY_OUT (R420, R422). -/
def State.writeBayOut (s : State) (n : Nat) (v : Word) : State :=
  ((s.wr (R.BAY_OUT_enable n) (fget v 8 8)).wr (R.BAY_OUT_value n) (fget v 0 8)).applyBayOut n

def execBayOutWrite (r : Requester) (n : Fin 48) (v : Word) (s : State) : Host.Outcome State Fault Refusal :=
  done (s.asWrite r (R.BAY_OUT n.val) (fun t => t.writeBayOut n.val v))

def execRxPop (r : Requester) (n : Fin 48) (s : State) : Host.Outcome State Fault Refusal := done (s.asRead r (R.BAY_RXPOP n.val))

/-- A register push (R442, R434): with the tags of BAY_TXTAG, which returns to 0. A word that finds no room is lost. -/
def State.pushReg (s : State) (n : Nat) (v : Word) : State :=
  let tags := s.rd (R.BAY_TXTAG_tags n)
  let s := s.wr (R.BAY_TXTAG_tags n) 0
  match s.txPush n { data := v, sop := bitAt tags 0, eop := bitAt tags 1, err := bitAt tags 2 } with
  | (t, .full) => t.bump (R.BAY_TXCNT_overflows n)
  | (t, _) => t

def execTxPush (r : Requester) (n : Fin 48) (v : Word) (s : State) : Host.Outcome State Fault Refusal :=
  done (s.asWrite r (R.BAY_TXPUSH n.val) (fun t => t.pushReg n.val v))

def execRxFlush (r : Requester) (n : Fin 48) (s : State) : Host.Outcome State Fault Refusal :=
  done (s.asWrite r (R.BAY_RXCTL n.val) (fun t => t.rxFlush n.val))

def execTxFlush (r : Requester) (n : Fin 48) (s : State) : Host.Outcome State Fault Refusal :=
  done (s.asWrite r (R.BAY_TXCTL n.val) (fun t => t.txFlush n.val))

/-! ### Segments to the ring (R444, R445) -/

/-- Take released words from the RX FIFO, up to 64 and up to the first delivered EOP: the words as delivered. -/
def State.takeSegment : Nat → State → Nat → State × List FWord
  | 0, s, _ => (s, [])
  | k + 1, s, n =>
    match s.rxPop n with
    | none => (s, [])
    | some (t, _, d) =>
      if d.eop then (t, [d])
      else
        let (u, rest) := State.takeSegment k t n
        (u, d :: rest)

/-- The segment header of R444. -/
def segHeader (n : Nat) (ws : List FWord) (pseq sseq : Nat) : Word :=
  let last := ws.getLast?.getD { data := 0 }
  let sop := (ws.head?.map (·.sop)).getD false
  pack [(58, n), (55, bit01 sop), (54, bit01 last.eop), (53, bit01 last.err), (52, bit01 last.flushed), (40, ws.length),
    (16, pseq), (0, sseq)]

/-- The bay-group port sends a segment of bay `n` (R445). `pseq` counts the packets begun, so that a segment that continues a
packet carries the one before it. -/
def State.sendSegment (s : State) (n : Nat) : State :=
  if !s.on (R.BAY_ROUTE_rx_consumer n) ∨ !(s.rx n).ready ∨ s.groupGated (n / 12) ∨ !s.coreUp ∨ !decide (n < s.nBays) then s
  else
    let (s, ws) := State.takeSegment 64 s n
    let f := s.rx n
    let sop := (ws.head?.map (·.sop)).getD false
    let pseq := if sop then f.pseq else f.pseq - 1
    let sseq := if sop then 0 else f.sseq
    let s := s.setRx n { f with pseq := pseq + 1, sseq := sseq + 1 }
    let head : Head := { ftype := 5, dst := s.rd (R.BAY_ROUTE_dst_node n), dstRing := s.rd (R.BAY_ROUTE_dst_ring n),
                         flow := s.rd (R.BAY_ROUTE_flow n) }
    let payload := wordBytes (segHeader n ws pseq.toNat sseq.toNat) ++ ws.flatMap (fun w => wordBytes w.data)
    (s.originate { unit := 10 + n / 4 } (head.frame payload)).1

def execBaySegmentSend (n : Fin 48) (s : State) : Host.Outcome State Fault Refusal := done (s.sendSegment n.val)

/-! ### Segments from the ring (R446, R447) -/

/-- A received segment: its header and data words. -/
structure Segment where
  bay : Nat
  words : List FWord
  sop : Bool
  eop : Bool
  pseq : Nat
  deriving DecidableEq, Repr

/-- The segment of a bay data frame, its tags placed as R447 says. -/
def Frame.segment (f : Frame) : Segment :=
  let h := bytesWord (f.payload.take 8)
  let n := fget h 40 8
  let sop := fget h 55 1 == 1
  let eop := fget h 54 1 == 1
  let data := bytesWords n (f.payload.drop 8)
  let words := (List.range n).map (fun i =>
    let last := i + 1 == n
    ({ data := data.getD i 0, sop := i == 0 && sop, eop := last && eop, err := last && fget h 53 1 == 1,
       flushed := last && fget h 52 1 == 1 } : FWord))
  ⟨fget h 58 6, words, sop, eop || fget h 53 1 == 1, fget h 16 16⟩

/-- Port `10 + p` passes the frame (R446): its bay is served by the port, whose TX producer is the port, its words match its
length, and its reserved fields are zero. -/
def State.segmentOk (s : State) (p : Nat) (f : Frame) : Bool :=
  let h := bytesWord (f.payload.take 8)
  let n := fget h 40 8
  decide (fget h 58 6 / 4 = p) && s.on (R.BAY_ROUTE_tx_producer (fget h 58 6)) && decide (1 ≤ n ∧ n ≤ 64) &&
  decide (8 ≤ f.payload.length) && decide (f.length = 8 * (n + 1)) && decide (f.payload.length = f.length) &&
  fget h 56 2 == 0 && fget h 48 4 == 0 && fget h 32 8 == 0

/-- Places that the segment needs in the TX FIFO (R447, R699). -/
def Fifo.segmentRoom (f : Fifo) (g : Segment) : Nat :=
  let open_ := f.opened && !f.skipPush
  if g.sop then g.words.length + bit01 (open_ || f.markDue)
  else if open_ then g.words.length + bit01 f.markDue
  else 0

/-- Push the segment into the TX FIFO of its bay, after the marker that is due (R447). A marker that a flush has left without a
packet to close is an orphan (R429). -/
def State.putSegment (s : State) (g : Segment) : State :=
  let n := g.bay
  let f := s.tx n
  let s := s.setTx n { f with dropping := false, markDue := false }
  let s : State := if f.markDue then (s.txPush n errMarker).1 else s
  let s := g.words.foldl (fun (t : State) w => (t.txPush n w).1) s
  s.setTx n { s.tx n with pseq := BitVec.ofNat 16 g.pseq, partPushed := !g.eop }

/-- A bay data frame comes to bay-group port `10 + p` (R446, R447). -/
def State.dataFrame (s : State) (p : Nat) (f : Frame) : State :=
  if !s.portPresent (10 + p) ∨ s.groupGated (p / 3) ∨ !s.coreUp ∨ (mget none s.bays.held p).isSome then s
  else if !s.segmentOk p f then
    let n := fget (bytesWord (f.payload.take 8)) 58 6
    s.bump (R.BAY_TXCNT_bad (if n / 4 = p then n else 4 * p))
  else
    let g := Frame.segment f
    let t := s.tx g.bay
    if t.dropping ∧ !g.sop then s
    else if t.words.length + t.segmentRoom g ≤ fifoPlaces then s.putSegment g
    else { s with bays := { s.bays with held := mput none s.bays.held p (some ⟨f, s.clk⟩) } }

def execBayDataFrame (p : Fin 12) (f : Frame) (s : State) : Host.Outcome State Fault Refusal := done (s.dataFrame p.val f)

/-- Room has appeared for the segment held at port `10 + p` (R447). -/
def State.segmentPush (s : State) (p : Nat) : State :=
  match mget none s.bays.held p with
  | none => s
  | some h =>
    let g := Frame.segment h.frame
    let t := s.tx g.bay
    if s.groupGated (p / 3) ∨ fifoPlaces < t.words.length + t.segmentRoom g then s
    else ({ s with bays := { s.bays with held := mput none s.bays.held p none } }).putSegment g

def execSegmentPush (p : Fin 12) (s : State) : Host.Outcome State Fault Refusal := done (s.segmentPush p.val)

/-- The 100 µs of a held segment have passed: it is discarded, and what follows of its packet will be (R447). -/
def State.segmentTimeout (s : State) (p : Nat) : State :=
  match mget none s.bays.held p with
  | none => s
  | some h =>
    if s.asleep ∨ s.clk < h.since + 100000 then s
    else
      let g := Frame.segment h.frame
      let t := s.tx g.bay
      let s : State := { s with bays := { s.bays with held := mput none s.bays.held p none } }
      (s.setTx g.bay { t with dropping := true, markDue := t.markDue || (t.partPushed && !g.sop) }).bump
        (R.BAY_TXCNT_seg_drops g.bay)

def execSegmentHoldTimeout (p : Fin 12) (s : State) : Host.Outcome State Fault Refusal := done (s.segmentTimeout p.val)

end Sys2Proof.Machine
end

