-- ==== Sys2Proof/Machine/Operands.lean ====
section
/-!
DEFINITION. The operands of the Infuser instructions: shifters and counters of a context, the level of a pin now and at a plant
time, and the edge that a WPIN looks for (R452, R480, R481, R515).
-/

namespace Sys2Proof.Machine

/-- A shifter of the context: the out shifter, else the in shifter. -/
def Ctx.shifter (x : Ctx) (out : Bool) : Word := if out then x.outSh else x.inSh

/-- Its count of valid bits. -/
def Ctx.shCount (x : Ctx) (out : Bool) : Nat := if out then x.outCnt else x.inCnt

/-- Set a shifter and its count. -/
def Ctx.setShifter (x : Ctx) (out : Bool) (w : Word) (n : Nat) : Ctx :=
  if out then { x with outSh := w, outCnt := n } else { x with inSh := w, inCnt := n }

/-- Counter C1, else C0. -/
def Ctx.counter (x : Ctx) (c1 : Bool) : BitVec 16 := if c1 then x.c1 else x.c0

/-- Set a counter. -/
def Ctx.setCounter (x : Ctx) (c1 : Bool) (v : BitVec 16) : Ctx := if c1 then { x with c1 := v } else { x with c0 := v }

/-- The level that an agent read on pin `g` at plant time `t`, by the edges accepted. -/
def State.levelAt (s : State) (g : Nat) (t : Word) : Bool :=
  if s.pinBlind g then false
  else
    match (s.pin g).edges with
    | [] => s.latestLevel g
    | (u, rose) :: rest =>
      if 0 ≤ tdiff t u then s.latestLevel g
      else
        match rest.find? (fun x => decide (0 ≤ tdiff t x.1)) with
        | some (_, r) => r
        | none => !((rest.getLast?.map (·.2)).getD rose)

/-- The edge has the sense that WPIN condition `cond` asks for (R515). -/
def senseOk (cond : Nat) (rose : Bool) : Bool :=
  match cond with
  | 0 => rose
  | 1 => !rose
  | 2 => true
  | 4 => !rose
  | _ => rose

/-- The first accepted edge of pin `g` at or after `t` that satisfies `cond`. -/
def State.edgeFrom (s : State) (g cond : Nat) (t : Word) : Option Word :=
  (((s.pin g).edges.reverse).find? (fun x => senseOk cond x.2 && decide (0 ≤ tdiff x.1 t))).map (·.1)

/-- The time at which a WPIN on `slot` that watches from `t` is satisfied, if it is by now (R481, R515). -/
def State.watchHit (s : State) (e c slot cond timeout : Nat) (t : Word) : Option Word :=
  match s.slotRead e c slot with
  | none => none
  | some g =>
    if 4 ≤ cond ∧ 0 ≤ tdiff s.now t ∧ s.levelAt g t = (cond == 5) then some t
    else
      match s.edgeFrom g cond t with
      | none => none
      | some u => if timeout ≠ 0 ∧ (2 * timeout : Int) < tdiff u t then none else some u

end Sys2Proof.Machine
end

