-- ==== Sys2Proof/Machine/Flags.lean ====
section
/-!
DEFINITION. Event flags and the condition state of a context, and the conditions of JMP with their side effects (R508, R524,
R533-R537).
-/

namespace Sys2Proof.Machine

/-- Event flag `f` is set. -/
def Ctx.flag (x : Ctx) (f : Nat) : Bool := x.flags.getLsbD f

/-- Set event flag `f` with a flag time. -/
def Ctx.setFlag (x : Ctx) (f : Nat) (t : Word) : Ctx :=
  { x with flags := x.flags ||| BitVec.ofNat 8 (2 ^ f), flagTime := mput 0 x.flagTime f t }

/-- Clear event flag `f` and discard its flag time. -/
def Ctx.clearFlag (x : Ctx) (f : Nat) : Ctx :=
  { x with flags := x.flags &&& ~~~(BitVec.ofNat 8 (2 ^ f)), flagTime := mput 0 x.flagTime f 0 }

/-- The later of two plant times. -/
def laterOf (a b : Word) : Word := if a.toNat ≤ b.toNat then b else a

/-- A signal to flag `f` (R534): it is set, and its flag time is the greater of the two. -/
def Ctx.signal (x : Ctx) (f : Nat) (t : Word) : Ctx := x.setFlag f (laterOf t (mget 0 x.flagTime f))

/-- Consume flag `f` (R535): with `adopt`, τ becomes the greater of τ and the flag time. -/
def Ctx.consume (x : Ctx) (f : Nat) (adopt : Bool) : Ctx :=
  let t := if adopt then laterOf x.tau (mget 0 x.flagTime f) else x.tau
  { x.clearFlag f with tau := t }

/-- A latch of slot `k`. -/
def latchBit (k : Nat) : BitVec 16 := BitVec.ofNat 16 (2 ^ k)

/-- The TX FIFO of bay `n` holds a word that an engine can take (R506, R530). -/
def State.txReady (s : State) (n : Nat) : Bool := !s.groupGated (n / 12) && (mget {} s.bays.tx n).ready

/-- The RX FIFO of bay `n` is full to an engine (R524, R530). -/
def State.rxFull (s : State) (n : Nat) : Bool :=
  s.groupGated (n / 12) || decide (fifoPlaces ≤ (mget {} s.bays.rx n).words.length)

/-- Whether JMP condition `cond` is met, and the context after its side effects (R524). -/
def State.jmpTest (s : State) (x : Ctx) (e c cond operand : Nat) : Bool × Ctx :=
  let level : Bool := match s.slotRead e c operand with
    | some g => s.levelOf g
    | none => false
  match cond with
  | 0x00 => (true, x)
  | 0x01 => (x.c0 == 0, x)
  | 0x02 => (x.c0 - 1 != 0, { x with c0 := x.c0 - 1 })
  | 0x03 => (x.c1 == 0, x)
  | 0x04 => (x.c1 - 1 != 0, { x with c1 := x.c1 - 1 })
  | 0x05 => (x.c0 != x.c1, x)
  | 0x06 => (level, x)
  | 0x07 => (!level, x)
  | 0x08 => (x.riseL.getLsbD operand, { x with riseL := x.riseL &&& ~~~(latchBit operand) })
  | 0x09 => (x.fallL.getLsbD operand, { x with fallL := x.fallL &&& ~~~(latchBit operand) })
  | 0x0A => (x.outCnt == 0, x)
  | 0x0B => (decide (x.outCnt < operand), x)
  | 0x0C => (decide (operand ≤ x.inCnt), x)
  | 0x0D => if x.flag operand then (true, x.clearFlag operand) else (false, x)
  | 0x0E => (!x.flag operand, x)
  | 0x0F => (x.laneErr, { x with laneErr := false })
  | 0x10 => (s.txReady operand, x)
  | 0x11 => (s.rxFull operand, x)
  | 0x12 => (s.cupStale operand, x)
  | 0x13 => (x.reqFailed, x)
  | _ => (x.lastTags.toNat &&& operand != 0, x)

/-- The fault that a condition's operand meets (R524). -/
def State.jmpFault (s : State) (e c cond operand : Nat) : Option Nat :=
  if (cond = 0x0B ∨ cond = 0x0C) ∧ 64 < operand then some 11
  else if 0x06 ≤ cond ∧ cond ≤ 0x09 ∧ s.slotRead e c operand = none then some 11
  else if (cond = 0x10 ∨ cond = 0x11) ∧ !s.serves e operand then some 8
  else none

end Sys2Proof.Machine
end

