-- ==== Sys2Proof/Machine/Ops.lean ====
section
/-!
DEFINITION. The operations that the Infuser instructions share: 16-bit arithmetic (R531), the CRC register (R532), the stamp word
(R516), the reach of an engine (R542) and the transaction initiator (R209, R544).
-/

namespace Sys2Proof.Machine

/-- ALU ops 0x0 to 0x7 on 16 bits (R531). -/
def aluOp (op : Nat) (d s : BitVec 16) : BitVec 16 :=
  match op with
  | 0 => d + s
  | 1 => d - s
  | 2 => d &&& s
  | 3 => d ||| s
  | 4 => d ^^^ s
  | 5 => d <<< (s.toNat % 16)
  | 6 => d >>> (s.toNat % 16)
  | _ => s

/-- The context after a CRC over the `n` least significant bits of a shifter (R532). -/
def Ctx.crcOver (x : Ctx) (out : Bool) (n poly : Nat) : Ctx :=
  let (w, p) := crcPoly poly
  let src := (x.shifter out).toNat
  if w ≤ 16 then { x with c1 := BitVec.ofNat 16 (crcFeed w p src n x.c1.toNat) }
  else
    let r := crcFeed w p src n (x.c0.toNat * 2 ^ 16 + x.c1.toNat)
    { x with c0 := BitVec.ofNat 16 (r / 2 ^ 16), c1 := BitVec.ofNat 16 r }

/-- The stamp word of pin `g` for a context whose repeat bit is `rep` (R516). -/
def State.stampOf (s : State) (g : Nat) (rep : Bool) : Word :=
  match (if s.groupGated (groupOfPin g) then none else (s.pin g).edges.head?) with
  | none => BitVec.ofNat 64 (2 ^ 62)
  | some (t, rose) => BitVec.ofNat 64 (bit01 rose * 2 ^ 63 + bit01 rep * 2 ^ 62 + t.toNat % 2 ^ 62)

/-- A local address that engine `e` reaches by RDREG (R542): aligned, in the TOP, TIM or CYC block, its own window or the window of
a bay it serves, and no register that holds a POP field. -/
def State.reaches (s : State) (e a : Nat) : Bool :=
  a % 8 == 0 && (s.popAt a).isNone &&
  (match blockOf a with
    | some b => b == 0 || b == 4 || b == 5 || b == 0x40 + e || (decide (0x10 ≤ b ∧ b < 0x40) && s.serves e (b - 0x10))
    | none => false)

/-- The requester of an engine's and the housekeeper's own accesses. -/
def localReq : Requester := ⟨0, .localLevel⟩

/-! ### The transaction initiator -/

/-- Slots of the initiator that hold no request (R209). -/
def State.freeSlots (s : State) : List Nat := (List.range 256).filter (fun k => (mget none s.initReqs k).isNone)

/-- A free slot, chosen freely among them, and the state in which it is chosen. -/
def State.pickSlot (s : State) : Option (Nat × State) :=
  match s.freeSlots with
  | [] => none
  | fs =>
    let (k, t) := s.takeFree
    let slot := fs.getD (Config.freeNat k % fs.length) 0
    some (slot, t.initPeak)

/-- Send one request of 8 bytes to master `m` (R544). Type: 1 RD, 2 WR, 3 WRA. -/
def State.sendRequest (s : State) (m type slot : Nat) (addr : BitVec 32) (data : List Byte) : State :=
  let node := s.rd (R.TOP_MASTER_node m)
  let ring := s.masterRing m
  let own := if s.isCoupler ∧ ring = s.rd R.RING_CFG_sub_ring then s.nodeOf 2 else s.hub.node
  let f := ({ ftype := 1, dst := node, dstRing := ring } : Head).frame
    (recordHead type m 2 slot own (node * 2 ^ 32 + addr.toNat) 8 ++ data)
  (s.originate { unit := 6 } f).1.pmcEv 1 0 0 (toMaster m)

end Sys2Proof.Machine
end

