-- ==== Sys2Proof/Machine/Infuser.lean ====
section
/-!
DEFINITION. The instructions of the Infuser instruction set (12_infuser_isa.md). Each `run…` says what the instruction makes of its
context when it issues; `State.finish` completes the issue. The commands that issue them stand at the end.
-/

namespace Sys2Proof.Machine

/-! ### The time grid (R509-R515, R517-R523) -/

/-- WAIT (R509): τ + 2 × count. -/
def runWait (e c : Nat) (reg : Bool) (count : Nat) (s : State) : State × IRes :=
  let x := s.ctx e c
  let n := if reg then x.c0.toNat * 65536 + x.c1.toNat else count
  (s, .grid (x.tau + BitVec.ofNat 64 (2 * n)))

/-- The least time after `tau` that period `p` and `phase` give (R512). -/
def alignAfter (tau : Word) (p phase : Nat) : Word :=
  let d := (phase + p - tau.toNat % p) % p
  tau + BitVec.ofNat 64 (if d = 0 then p else d)

/-- AT (R510-R512). -/
def runAt (e c : Nat) (onpast : Bool) (src phase : Nat) (s : State) : State × IRes :=
  let x := s.ctx e c
  if src = 2 then
    let p := 1000 * x.c0.toNat
    if p ≤ phase then (s, .fault 11) else (s, .grid (alignAfter x.tau p phase))
  else if src = 1 ∧ x.inBusy then (s, .stay 4)
  else
    let late (t : State) : State := t.bump (R.INF_CTX_SLACK_late e c)
    match resolve s.now ((x.shifter (src == 0)).toNat % 2 ^ 40) (s.rd (R.INF_CTX_CFG_late_window e c)) with
    | .pending due => (s, .grid due)
    | .late due _ => (late s, .grid due)
    | .past _ =>
      if onpast then
        let t := late s
        (t.setCtx e c { t.ctx e c with tau := s.startTau }, .skip)
      else (late s, .fault 7)

/-- OUT (R513). -/
def runOut (e c : Nat) (bank rel : Bool) (mask value k : Nat) (s : State) : State × IRes :=
  if rel ∧ value ≠ 0 then (s, .fault 11)
  else if (s.outDrives e c bank rel mask value).isNone then (s, .fault 6)
  else (s, .grid ((s.ctx e c).tau + BitVec.ofNat 64 (2 * k)))

/-- IN (R514). -/
def runIn (e c first nm1 k : Nat) (s : State) : State × IRes :=
  let x := s.ctx e c
  if 15 < first + nm1 ∨ (List.range (nm1 + 1)).any (fun j => (s.slotRead e c (first + j)).isNone) then (s, .fault 11)
  else if x.inBusy then (s, .stay 4)
  else if 64 < x.inCnt + nm1 + 1 then (s, .fault 10)
  else (s, .grid (x.tau + BitVec.ofNat 64 (2 * k)))

/-- SHO and SHI (R517-R519, R489). -/
def runShift (e c : Nat) (inLane : Bool) (nm1 stuff k : Nat) (s : State) : State × IRes :=
  let x := s.ctx e c
  let w := (s.shiftCfg e c inLane).w
  let n := (nm1 + 1) * w
  if 64 < n ∨ (stuff ≠ 0 ∧ w ≠ 1) then (s, .fault 11)
  else if (if inLane then x.inLane else x.outLane).holds s.now then (s, .stay 4)
  else if (if inLane then decide (64 < x.inCnt + n) else decide (x.outCnt < n)) then (s, .fault 10)
  else (s, .grid (x.tau + BitVec.ofNat 64 (2 * k)))

/-- WPIN (R515, R481): an event already accepted at or after τ satisfies it at once. -/
def runWpin (e c slot cond timeout : Nat) (s : State) : State × IRes :=
  let x := s.ctx e c
  match s.slotRead e c slot with
  | none => (s, .fault 11)
  | some _ =>
    match s.watchHit e c slot cond timeout x.tau with
    | some t => (s.setCtx e c { x with tau := t }, .next)
    | none => (s, .watch)

/-! ### Control (R524-R526, R516) -/

/-- STAMP (R516). The stamp is read, and the repeat bit judged, at the first issue. -/
def runStamp (e c slot bay : Nat) (err eop sop load nowait : Bool) (s : State) : State × IRes :=
  match s.slotRead e c slot with
  | none => (s, .fault 11)
  | some g =>
    if !load ∧ !s.serves e bay then (s, .fault 8)
    else
      let x := s.ctx e c
      let w := x.stampWord.getD (s.stampOf g (x.stampRep.getLsbD slot))
      let x := if x.stampWord.isSome then x else { x with stampWord := some w, stampRep := x.stampRep ||| latchBit slot }
      let s := s.setCtx e c x
      if load then
        if x.inBusy then (s, .stay 4) else (s.setCtx e c (x.setShifter false w 64), .next)
      else if s.groupGated (bay / 12) then (s, if nowait then .skip else .stay 5)
      else
        match s.rxPush bay { data := w, sop := sop, eop := eop, err := err } with
        | (_, .full) => (s, if nowait then .skip else .stay 5)
        | (t, _) => (t, .next)

/-- JMP (R524). -/
def runJmp (e c cond operand target : Nat) (s : State) : State × IRes :=
  match s.jmpFault e c cond operand with
  | some f => (s, .fault f)
  | none =>
    let x := s.ctx e c
    if cond = 0x0C ∧ x.inBusy then (s, .stay 4)
    else
      let (taken, y) := s.jmpTest x e c cond operand
      (s.setCtx e c y, if taken then .jump target else .next)

/-- SET dest 0x3 (R525, R526, R491). -/
def Ctx.setLoop (x : Ctx) (start stop : Nat) (on : Bool) : Ctx :=
  if x.loopOn ∧ on then { x with loopPend := some (start, stop) }
  else { x with loopStart := start, loopEnd := stop, loopOn := on, loopPend := none }

/-- Event flags after SET dest 0x6: flags selected by bits [7:0] take bits [15:8] (R525). -/
def Ctx.setFlags (x : Ctx) (imm : Nat) : Ctx :=
  (List.range 8).foldl (fun (y : Ctx) j =>
    if !bitAt imm j then y else if bitAt imm (8 + j) then y.setFlag j x.tau else y.clearFlag j) x

/-- SET (R525). -/
def runSet (e c dest imm : Nat) (s : State) : State × IRes :=
  let x := s.ctx e c
  match dest with
  | 0 => (s.setCtx e c { x with c0 := BitVec.ofNat 16 imm }, .next)
  | 1 => (s.setCtx e c { x with c1 := BitVec.ofNat 16 imm }, .next)
  | 2 => if imm = 0 then (s, .fault 11) else (s.wr (R.INF_CTX_REGS_bit_timer e c) imm, .next)
  | 3 =>
    if nbits imm 10 10 < nbits imm 0 10 then (s, .fault 11)
    else (s.setCtx e c (x.setLoop (nbits imm 0 10) (nbits imm 10 10) (nbit imm 20)), .next)
  | 4 =>
    if 64 < nbits imm 16 7 then (s, .fault 11)
    else (s.setCtx e c { x with outSh := BitVec.ofNat 64 (nbits imm 0 16), outCnt := nbits imm 16 7 }, .next)
  | 5 => if x.inBusy then (s, .stay 4) else (s.setCtx e c { x with inSh := 0, inCnt := 0 }, .next)
  | _ => (s.setCtx e c (x.setFlags imm), .next)

/-! ### FIFO transfers (R528-R530) -/

/-- QPUT (R528). -/
def runQput (e c : Nat) (err eop sop keep : Bool) (bay : Nat) (nowait : Bool) (s : State) : State × IRes :=
  let x := s.ctx e c
  if !s.serves e bay then (s, .fault 8)
  else if x.inBusy then (s, .stay 4)
  else if s.groupGated (bay / 12) then (s, if nowait then .skip else .stay 5)
  else
    match s.rxPush bay { data := x.inSh, sop := sop, eop := eop, err := err } with
    | (_, .full) => (s, if nowait then .skip else .stay 5)
    | (t, _) => (if keep then t else t.setCtx e c { t.ctx e c with inSh := 0, inCnt := 0 }, .next)

/-- QGET (R529). -/
def runQget (e c bay : Nat) (nowait : Bool) (s : State) : State × IRes :=
  if !s.serves e bay then (s, .fault 8)
  else if s.groupGated (bay / 12) then (s, if nowait then .skip else .stay 6)
  else
    match s.txPop bay with
    | none => (s, if nowait then .skip else .stay 6)
    | some (t, _, d) => (t.setCtx e c { t.ctx e c with outSh := d.data, outCnt := 64, lastTags := d.tags }, .next)

/-- EXT FLUSH (R530, R541). -/
def runFlush (e bay : Nat) (tx : Bool) (s : State) : State × IRes :=
  if !s.serves e bay then (s, .fault 8)
  else if s.groupGated (bay / 12) then (s, .next)
  else (if tx then s.txFlush bay else s.rxFlush bay, .next)

/-! ### ALU (R531, R532) -/

/-- ALU ops 0x0 to 0x7. -/
def runAlu (e c op : Nat) (c1 other : Bool) (imm : Nat) (s : State) : State × IRes :=
  let x := s.ctx e c
  let v : BitVec 16 := if other then x.counter (!c1) else BitVec.ofNat 16 imm
  (s.setCtx e c (x.setCounter c1 (aluOp op (x.counter c1) v)), .next)

/-- CRC. -/
def runCrc (e c : Nat) (out : Bool) (n poly : Nat) (s : State) : State × IRes :=
  let x := s.ctx e c
  if n = 0 ∨ 64 < n then (s, .fault 11)
  else if !out ∧ x.inBusy then (s, .stay 4)
  else (s.setCtx e c (x.crcOver out n poly), .next)

/-- INS: the shifter takes a counter below its bits. -/
def runIns (e c : Nat) (c1 out : Bool) (s : State) : State × IRes :=
  let x := s.ctx e c
  if !out ∧ x.inBusy then (s, .stay 4)
  else if 48 < x.shCount out then (s, .fault 10)
  else (s.setCtx e c (x.setShifter out ((x.shifter out <<< 16) ||| (x.counter c1).zeroExtend 64) (x.shCount out + 16)), .next)

/-- EXTR: a counter takes the 16 least significant bits of the shifter. -/
def runExtr (e c : Nat) (c1 out : Bool) (s : State) : State × IRes :=
  let x := s.ctx e c
  if !out ∧ x.inBusy then (s, .stay 4)
  else
    let y := x.setCounter c1 (BitVec.ofNat 16 (x.shifter out).toNat)
    (s.setCtx e c (y.setShifter out (x.shifter out >>> 16) (x.shCount out - 16)), .next)

/-! ### Event flags and notes (R533-R540) -/

/-- SYNC signal (R534). -/
def runSignal (e c engine context flag : Nat) (s : State) : State × IRes :=
  if !s.on (R.INF_CTX_CFG_enabled engine context) then (s, .fault 11)
  else if s.quadGated (engine / 4) then (s, .next)
  else (s.setCtx engine context ((s.ctx engine context).signal flag (s.ctx e c).tau), .next)

/-- SYNC wait (R535). -/
def runAwait (e c : Nat) (adopt : Bool) (flag : Nat) (s : State) : State × IRes :=
  let x := s.ctx e c
  if x.flag flag then (s.setCtx e c (x.consume flag adopt), .next) else (s, .stay 7)

/-- NOTE (R538-R540). -/
def runNote (e c : Nat) (kettle : Bool) (masters code : Nat) (s : State) : State × IRes :=
  let x := s.ctx e c
  if kettle then (s.raise (0x140 + e) (c * 2 ^ 16 + code), .next)
  else (s.notices 6 masters ⟨0x40 + e, c, code, x.inSh, x.tau⟩, .next)

/-! ### Extended operations (R541-R544) -/

/-- The process image word that an LDM or STM names. -/
def Ctx.imageWord (x : Ctx) (idx : Bool) (word : Nat) : Nat := word + (if idx then x.c0.toNat else 0)

/-- The issue of LDM and STM: the context waits with reason 9 for its access. -/
def runImage (e c : Nat) (out idx : Bool) (word : Nat) (s : State) : State × IRes :=
  let x := s.ctx e c
  if 32768 ≤ x.imageWord idx word then (s, .fault 9)
  else if !out ∧ x.inBusy then (s, .stay 4)
  else (s, .stay 9)

/-- The access of LDM: the shifter takes a process image word. -/
def ldmAccess (e c : Nat) (out idx : Bool) (word : Nat) (s : State) : State × IRes :=
  match s.memRead (8 * (s.ctx e c).imageWord idx word) 8 with
  | (t, true, bs) => (t.setCtx e c ((t.ctx e c).setShifter out (bytesWord bs) 64), .next)
  | (t, false, _) => (t, .fault 12)

/-- The access of STM: a process image word takes the shifter, with fresh ECC. -/
def stmAccess (e c : Nat) (out idx : Bool) (word : Nat) (s : State) : State × IRes :=
  let x := s.ctx e c
  ((s.memWrite (8 * x.imageWord idx word) (wordBytes (x.shifter out))).1, .next)

/-- RQ (R544). Type: 0 WR, 1 WRA, 2 RD. A WR is posted; WRA and RD wait for their response. -/
def runRq (e c master type : Nat) (s : State) : State × IRes :=
  let x := s.ctx e c
  if x.inBusy then (s, .stay 4)
  else if !s.on (R.TOP_MASTER_known master) then (s.setCtx e c { x with reqFailed := true }, .next)
  else
    match s.pickSlot with
    | none => (s, .stay 8)
    | some (k, s) =>
      let addr : BitVec 32 := BitVec.ofNat 32 x.outSh.toNat
      let s := s.sendRequest master (if type = 2 then 1 else type + 2) k addr (if type = 2 then [] else wordBytes x.inSh)
      if type = 0 then (s.setCtx e c { s.ctx e c with reqFailed := false }, .next)
      else
        let s : State := { s with initReqs := mput none s.initReqs k (some ⟨e, c, master, type, s.clk⟩) }
        (s.setCtx e c { s.ctx e c with slot := some k }, .stay 8)

/-- GETT. -/
def runGett (e c : Nat) (counter : Bool) (s : State) : State × IRes :=
  let x := s.ctx e c
  if x.inBusy then (s, .stay 4) else (s.setCtx e c (x.setShifter false (if counter then s.now else x.tau) 64), .next)

/-- The register that an RDREG names. -/
def Ctx.regAddr (x : Ctx) : Nat := x.outSh.toNat % 2 ^ 32

/-- The issue of RDREG: the context waits with reason 9 for its access (R542). -/
def runRdreg (e c : Nat) (s : State) : State × IRes :=
  let x := s.ctx e c
  if !s.reaches e x.regAddr then (s, .fault 9)
  else if x.inBusy then (s, .stay 4)
  else (s, .stay 9)

/-- The access of RDREG (R543). -/
def rdregAccess (e c : Nat) (s : State) : State × IRes :=
  let (t, code, w) := s.readAs localReq (s.ctx e c).regAddr
  if code = .ecc then (t, .fault 12)
  else (t.setCtx e c { (t.ctx e c).setShifter false w 64 with reqFailed := code != .ok }, .next)

/-- The access for which an instruction waits with reason 9 (R541). -/
def runAccess (e c : Nat) (i : Insn) (s : State) : Option (State × IRes) :=
  match i with
  | .ldm out idx word => some (ldmAccess e c out idx word s)
  | .stm out idx word => some (stmAccess e c out idx word s)
  | .rdreg => some (rdregAccess e c s)
  | _ => none

/-! ### Issue -/

/-- What instruction `i` makes of context `c` of engine `e`. -/
def runInsn (e c : Nat) (i : Insn) (s : State) : State × IRes :=
  match i with
  | .wait reg count => runWait e c reg count s
  | .out bank rel mask value k => runOut e c bank rel mask value k s
  | .inp first nm1 k => runIn e c first nm1 k s
  | .shift inLane nm1 _ stuff _ k => runShift e c inLane nm1 stuff k s
  | .jmp cond operand target => runJmp e c cond operand target s
  | .set dest imm => runSet e c dest imm s
  | .qput err eop sop keep bay nowait => runQput e c err eop sop keep bay nowait s
  | .qget bay nowait => runQget e c bay nowait s
  | .wpin slot cond timeout => runWpin e c slot cond timeout s
  | .stamp slot bay err eop sop load nowait => runStamp e c slot bay err eop sop load nowait s
  | .at_ onpast src phase => runAt e c onpast src phase s
  | .alu op c1 other imm => runAlu e c op c1 other imm s
  | .crc out n poly => runCrc e c out n poly s
  | .ins c1 out => runIns e c c1 out s
  | .extr c1 out => runExtr e c c1 out s
  | .signal engine context flag => runSignal e c engine context flag s
  | .await adopt flag => runAwait e c adopt flag s
  | .note kettle masters code => runNote e c kettle masters code s
  | .nop => (s, .next)
  | .halt => (s, .halt)
  | .flush bay tx => runFlush e bay tx s
  | .ldm out idx word => runImage e c out idx word s
  | .stm out idx word => runImage e c out idx word s
  | .rq master type => runRq e c master type s
  | .gett counter => runGett e c counter s
  | .rdreg => runRdreg e c s

/-- The place of an instruction among those of its opcode, which commands of their own issue: op of ALU and EXT, dest of SET, and the
types of SYNC, NOTE and EXT RQ (R525, R531, R533, R538, R541, R544). -/
def Insn.place : Insn → Nat
  | .alu op _ _ _ => op
  | .crc _ _ _ => 8
  | .ins _ _ => 9
  | .extr _ _ => 10
  | .set dest _ => dest
  | .await _ _ => 1
  | .note kettle _ _ => bit01 kettle
  | .halt => 1
  | .flush _ _ => 2
  | .ldm _ _ _ => 3
  | .stm _ _ _ => 4
  | .rq _ type => 16 + type
  | .gett _ => 6
  | .rdreg => 7
  | _ => 0

/-- Context `c` of engine `e` issues its next instruction, if it is the one at `place` among those of opcode `opcode`. -/
def State.issue (s : State) (e c opcode place : Nat) : State :=
  s.issueAs e c opcode (fun i t => if i.place = place then some (runInsn e c i t) else none)

/-! ### The commands: one instruction each, issued by context `c` of engine `e` -/

def execInfWait (e c : Fin 16) (s : State) : Host.Outcome State Fault Refusal :=
  done (s.issue e.val c.val 0x0 0)

def execInfAt (e c : Fin 16) (s : State) : Host.Outcome State Fault Refusal :=
  done (s.issue e.val c.val 0xb 0)

def execInfOut (e c : Fin 16) (s : State) : Host.Outcome State Fault Refusal :=
  done (s.issue e.val c.val 0x1 0)

def execInfIn (e c : Fin 16) (s : State) : Host.Outcome State Fault Refusal :=
  done (s.issue e.val c.val 0x2 0)

def execInfSho (e c : Fin 16) (s : State) : Host.Outcome State Fault Refusal :=
  done (s.issue e.val c.val 0x3 0)

def execInfShi (e c : Fin 16) (s : State) : Host.Outcome State Fault Refusal :=
  done (s.issue e.val c.val 0x4 0)

def execInfWpin (e c : Fin 16) (s : State) : Host.Outcome State Fault Refusal :=
  done (s.issue e.val c.val 0x9 0)

def execInfStamp (e c : Fin 16) (s : State) : Host.Outcome State Fault Refusal :=
  done (s.issue e.val c.val 0xa 0)

def execInfJmp (e c : Fin 16) (s : State) : Host.Outcome State Fault Refusal :=
  done (s.issue e.val c.val 0x5 0)

def execSetC0 (e c : Fin 16) (s : State) : Host.Outcome State Fault Refusal :=
  done (s.issue e.val c.val 0x6 0)

def execSetC1 (e c : Fin 16) (s : State) : Host.Outcome State Fault Refusal :=
  done (s.issue e.val c.val 0x6 1)

def execSetBitTimer (e c : Fin 16) (s : State) : Host.Outcome State Fault Refusal :=
  done (s.issue e.val c.val 0x6 2)

def execSetLoop (e c : Fin 16) (s : State) : Host.Outcome State Fault Refusal :=
  done (s.issue e.val c.val 0x6 3)

def execSetOutShifter (e c : Fin 16) (s : State) : Host.Outcome State Fault Refusal :=
  done (s.issue e.val c.val 0x6 4)

def execSetClearIn (e c : Fin 16) (s : State) : Host.Outcome State Fault Refusal :=
  done (s.issue e.val c.val 0x6 5)

def execSetFlags (e c : Fin 16) (s : State) : Host.Outcome State Fault Refusal :=
  done (s.issue e.val c.val 0x6 6)

def execInfQput (e c : Fin 16) (s : State) : Host.Outcome State Fault Refusal :=
  done (s.issue e.val c.val 0x7 0)

def execInfQget (e c : Fin 16) (s : State) : Host.Outcome State Fault Refusal :=
  done (s.issue e.val c.val 0x8 0)

def execAluAdd (e c : Fin 16) (s : State) : Host.Outcome State Fault Refusal :=
  done (s.issue e.val c.val 0xc 0)

def execAluSub (e c : Fin 16) (s : State) : Host.Outcome State Fault Refusal :=
  done (s.issue e.val c.val 0xc 1)

def execAluAnd (e c : Fin 16) (s : State) : Host.Outcome State Fault Refusal :=
  done (s.issue e.val c.val 0xc 2)

def execAluOr (e c : Fin 16) (s : State) : Host.Outcome State Fault Refusal :=
  done (s.issue e.val c.val 0xc 3)

def execAluXor (e c : Fin 16) (s : State) : Host.Outcome State Fault Refusal :=
  done (s.issue e.val c.val 0xc 4)

def execAluShl (e c : Fin 16) (s : State) : Host.Outcome State Fault Refusal :=
  done (s.issue e.val c.val 0xc 5)

def execAluShr (e c : Fin 16) (s : State) : Host.Outcome State Fault Refusal :=
  done (s.issue e.val c.val 0xc 6)

def execAluMov (e c : Fin 16) (s : State) : Host.Outcome State Fault Refusal :=
  done (s.issue e.val c.val 0xc 7)

def execAluCrc (e c : Fin 16) (s : State) : Host.Outcome State Fault Refusal :=
  done (s.issue e.val c.val 0xc 8)

def execAluIns (e c : Fin 16) (s : State) : Host.Outcome State Fault Refusal :=
  done (s.issue e.val c.val 0xc 9)

def execAluExtr (e c : Fin 16) (s : State) : Host.Outcome State Fault Refusal :=
  done (s.issue e.val c.val 0xc 10)

def execSyncSignal (e c : Fin 16) (s : State) : Host.Outcome State Fault Refusal :=
  done (s.issue e.val c.val 0xd 0)

def execSyncWait (e c : Fin 16) (s : State) : Host.Outcome State Fault Refusal :=
  done (s.issue e.val c.val 0xd 1)

def execNoteNotice (e c : Fin 16) (s : State) : Host.Outcome State Fault Refusal :=
  done (s.issue e.val c.val 0xe 0)

def execNoteKettle (e c : Fin 16) (s : State) : Host.Outcome State Fault Refusal :=
  done (s.issue e.val c.val 0xe 1)

def execExtNop (e c : Fin 16) (s : State) : Host.Outcome State Fault Refusal :=
  done (s.issue e.val c.val 0xf 0)

def execExtHalt (e c : Fin 16) (s : State) : Host.Outcome State Fault Refusal :=
  done (s.issue e.val c.val 0xf 1)

def execExtFlush (e c : Fin 16) (s : State) : Host.Outcome State Fault Refusal :=
  done (s.issue e.val c.val 0xf 2)

def execExtLdm (e c : Fin 16) (s : State) : Host.Outcome State Fault Refusal :=
  done (s.issue e.val c.val 0xf 3)

def execExtStm (e c : Fin 16) (s : State) : Host.Outcome State Fault Refusal :=
  done (s.issue e.val c.val 0xf 4)

def execRqWr (e c : Fin 16) (s : State) : Host.Outcome State Fault Refusal :=
  done (s.issue e.val c.val 0xf 16)

def execRqWra (e c : Fin 16) (s : State) : Host.Outcome State Fault Refusal :=
  done (s.issue e.val c.val 0xf 17)

def execRqRd (e c : Fin 16) (s : State) : Host.Outcome State Fault Refusal :=
  done (s.issue e.val c.val 0xf 18)

def execExtGett (e c : Fin 16) (s : State) : Host.Outcome State Fault Refusal :=
  done (s.issue e.val c.val 0xf 6)

def execExtRdreg (e c : Fin 16) (s : State) : Host.Outcome State Fault Refusal :=
  done (s.issue e.val c.val 0xf 7)

end Sys2Proof.Machine
end

