-- ==== Sys2Proof/Machine/EngineCmds.lean ====
section
/-!
DEFINITION. Commands of the Infuser engines other than their instructions (11_infuser_engines.md): starts and stops, hot patch,
releases, actions and shifts on the time grid, and the ends of waits.
-/

namespace Sys2Proof.Machine

/-! ### Starts, stops, hot patch (R456-R460, R494, R495) -/

/-- A write to INF_CTRL: where a bit of both masks is set, only the stop acts (R460). -/
def State.writeInfCtrl (s : State) (e start stop : Nat) : State :=
  (s.stopMask e stop).startMask e (start - (start &&& stop))

def execContextStart (r : Requester) (e : Fin 16) (start stop : BitVec 16) (s : State) : Host.Outcome State Fault Refusal :=
  done (s.asWrite r (R.INF_CTRL e.val) (fun t => t.writeInfCtrl e.val start.toNat stop.toNat))

def execContextStop (r : Requester) (e : Fin 16) (stop : BitVec 16) (s : State) : Host.Outcome State Fault Refusal :=
  done (s.asWrite r (R.INF_CTRL e.val) (fun t => t.writeInfCtrl e.val 0 stop.toNat))

/-- Instruction 2i or 2i + 1 lies in the region of context `c`, and the context is running. -/
def State.touches (s : State) (e i c : Nat) : Bool :=
  (s.ctx e c).runs && (s.inRegion e c (2 * i) || s.inRegion e c (2 * i + 1))

/-- A write to INF_PROG[i] (R494, R495). A RUNNING context whose word is discarded waits for the new one (R506). -/
def State.writeProg (s : State) (e i : Nat) (v : Word) : State :=
  let hit := (List.range 16).filter (s.touches e i)
  if hit.any (fun c => !s.on (R.INF_CTX_CFG_hot_patch e c)) then
    (s.bump (R.INF_PATCH_refused e)).wr (R.INF_PATCH_last e) (2 * i)
  else
    let s := (s.setWord (R.INF_PROG e i) v).freshEcc .prog (512 * e + i)
    let s := (List.range 16).foldl (fun (t : State) c =>
      if (t.ctx e c).pre.map (·.1) ≠ some i then t
      else if (t.ctx e c).st = .running then (t.dropPre e c).ready e c
      else t.dropPre e c) s
    if hit.isEmpty then s else s.bump (R.INF_PATCH_patches e)

/-- A register write to INF_PROG[i]. One half outside its tuning limits leaves both halves (R136; DESIGN CHOICE, log entry 21: R137
speaks of the field, and a hot patch exchanges the whole word). -/
def State.patchProg (s : State) (r : Requester) (e i : Nat) (v : Word) : State :=
  if s.limitsAllow (R.INF_PROG_odd e i) (fget v 32 32) ∧ s.limitsAllow (R.INF_PROG_even e i) (fget v 0 32) then s.writeProg e i v
  else s.refuseTune r (R.INF_PROG e i)

def execProgWrite (r : Requester) (e : Fin 16) (i : Fin 512) (v : Word) (s : State) : Host.Outcome State Fault Refusal :=
  done (s.asWrite r (R.INF_PROG e.val i.val) (fun t => t.patchProg r e.val i.val v))

/-! ### The grid (R476-R478, R485, R486) -/

def execGridRelease (e c : Fin 16) (s : State) : Host.Outcome State Fault Refusal := done (s.gridRelease e.val c.val)

/-- The first action of a list that `p` takes and whose time has come, and the list without it. -/
def takeAct (now : Word) (p : PinAct → Bool) : List PinAct → Option (PinAct × List PinAct)
  | [] => none
  | a :: rest =>
    if p a then (if 0 ≤ tdiff now a.t then some (a, rest) else none)
    else (takeAct now p rest).map (fun r => (r.1, a :: r.2))

/-- A released OUT takes effect (R477). -/
def State.pinsEffect (s : State) (e c : Nat) : State :=
  let x := s.ctx e c
  match takeAct s.now (fun a => a.sample.isNone) x.acts with
  | none => s
  | some (a, rest) =>
    a.drives.foldl (fun (t : State) d => t.pinAction e c d.1 d.2 a.t true) (s.setCtx e c { x with acts := rest })

/-- A released IN samples its pins; the levels enter the in shifter, and the grid return that its context waits for is over (R477, R514).
One that was released before a stop samples (R459) and ends no wait of a later run. -/
def State.sampleEffect (s : State) (e c : Nat) : State :=
  let x := s.ctx e c
  match takeAct s.now (fun a => a.sample.isSome) x.acts with
  | none => s
  | some (a, rest) =>
    let (first, n) := a.sample.getD (0, 0)
    let level (j : Nat) : Bool := match s.slotRead e c (first + j) with
      | some g => s.levelAt g a.t
      | none => false
    let l := (List.range n).foldl (fun v j => v + bit01 (level j) * 2 ^ j) 0
    let s := s.setCtx e c
      { x with acts := rest, inSh := (x.inSh <<< n) ||| BitVec.ofNat 64 l, inCnt := min (x.inCnt + n) 64 }
    if x.st = .waiting ∧ x.wait = 2 ∧ !a.old then s.ready e c else s

/-- Drive slot `k` of a context at time `t` for its shift unit. -/
def State.laneDrive (s : State) (e c k : Nat) (high : Bool) (t : Word) : State :=
  match s.slotDrive e c k with
  | some g => s.pinAction e c g (if high then .high else .low) t false
  | none => s

/-- The next bit period of the out lane begins (R485). -/
def State.outBitEffect (s : State) (e c : Nat) : State :=
  let x := s.ctx e c
  match x.outLane.cur with
  | none => s
  | some sh =>
    let i := x.outLane.idx
    let t := sh.t + BitVec.ofNat 64 (i * sh.b)
    if x.outLane.outPeriods sh ≤ i ∨ tdiff s.now t < 0 then s
    else
      (List.range sh.w).foldl (fun (u : State) j => u.laneDrive e c (sh.slot + j) (sh.bits.getD (i * sh.w + j) false) t)
        (s.setCtx e c { x with outLane := { x.outLane with idx := i + 1 } })

/-- The in lane after it has sampled the levels of a bit period, and whether a stuff error was found (R520, R523). -/
def Lane.sampled (l : Lane) (sh : Shift) (bits : List Bool) : Lane × Bool :=
  let b := bits.headD false
  if sh.stuff ≠ 0 ∧ l.run.due sh.stuff then
    if b = l.run.last then ({ l with idx := l.idx + 1, full := true, broken := true }, true)
    else
      ({ l with idx := l.idx + 1, run := stuffAfter sh.stuff b, full := decide (sh.n * sh.w ≤ l.got.length) }, false)
  else
    let got := l.got ++ bits
    let run := if sh.stuff = 0 then l.run else l.run.add sh.stuff b
    let more := sh.stuff ≠ 0 && run.due sh.stuff
    ({ l with idx := l.idx + 1, got := got, run := run, full := decide (sh.n * sh.w ≤ got.length) && !more }, false)

/-- The in lane samples its next bit period (R485). -/
def State.inBitEffect (s : State) (e c : Nat) : State :=
  let x := s.ctx e c
  match x.inLane.cur with
  | none => s
  | some sh =>
    let t := sh.t + BitVec.ofNat 64 (x.inLane.idx * sh.b + sh.sample)
    if x.inLane.inDone ∨ tdiff s.now t < 0 then s
    else
      let level (j : Nat) : Bool := match s.slotRead e c (sh.slot + j) with
        | some g => s.levelAt g t
        | none => false
      let (l, bad) := x.inLane.sampled sh ((List.range sh.w).map level)
      s.setCtx e c { x with inLane := l, laneErr := x.laneErr || bad }

/-- Bit periods of the shift in a lane for its clock: those that it will run, as far as is known. -/
def Lane.clockPeriods (l : Lane) (sh : Shift) (inLane : Bool) : Nat :=
  if inLane then (if l.full then l.idx else l.limit.getD (2 * sh.n + 1)) else l.outPeriods sh

/-- The next clock edge of a lane (R486): half `k` of its bit periods. -/
def State.clockStep (s : State) (e c : Nat) (inLane : Bool) : State :=
  let x := s.ctx e c
  let l := if inLane then x.inLane else x.outLane
  match l.cur with
  | none => s
  | some sh =>
    let k := l.clk
    let t := sh.t + BitVec.ofNat 64 (k / 2 * sh.b + (if k % 2 = 1 then sh.b / 2 else 0))
    if sh.clkMode = 0 ∨ 2 * l.clockPeriods sh inLane ≤ k ∨ tdiff s.now t < 0 then s
    else
      let l' := { l with clk := k + 1 }
      let s := s.setCtx e c (if inLane then { x with inLane := l' } else { x with outLane := l' })
      s.laneDrive e c sh.clkSlot ((k % 2 == 1) == (sh.clkMode == 1)) t

/-- The next clock edge: the out lane's while it runs, else the in lane's (R486). -/
def State.clockEffect (s : State) (e c : Nat) : State :=
  let x := s.ctx e c
  let outRuns : Bool := match x.outLane.cur with
    | some sh => decide (0 ≤ tdiff s.now sh.t)
    | none => false
  s.clockStep e c (!outRuns)

def execActionEffect (e c : Fin 16) (k : Effect) (s : State) : Host.Outcome State Fault Refusal :=
  done (match k with
    | .pins => s.pinsEffect e.val c.val
    | .sample => s.sampleEffect e.val c.val
    | .outBit => s.outBitEffect e.val c.val
    | .inBit => s.inBitEffect e.val c.val
    | .clock => s.clockEffect e.val c.val)

/-- A lane whose shift ended at `fin` begins the shift that waits in it (R488): late when that falls after its planned time. -/
def State.nextShift (s : State) (e c : Nat) (inLane : Bool) (fin : Word) : State :=
  let x := s.ctx e c
  let l := if inLane then x.inLane else x.outLane
  let put (t : State) (l' : Lane) : State :=
    let y := t.ctx e c
    t.setCtx e c (if inLane then { y with inLane := l' } else { y with outLane := l' })
  match l.queued with
  | none => put s { l with cur := none, limit := none, full := false }
  | some sh =>
    let start := if 0 ≤ tdiff fin sh.t then fin else sh.t
    let late := (tdiff start sh.planned).toNat
    let empty : Lane := { l with cur := none, queued := none, limit := none, full := false }
    let s : State := if late = 0 then s else s.noteLate e c late
    if s.tooLate e c late then (put s empty).faultCtx e c 1 sh.pc else put s (empty.begin_ sh start inLane)

/-- The out lane ends its shift: its bit periods are over. -/
def State.outShiftEnd (s : State) (e c : Nat) : State :=
  let x := s.ctx e c
  match x.outLane.cur with
  | none => s
  | some sh =>
    let n := x.outLane.outPeriods sh
    let fin := sh.t + BitVec.ofNat 64 (n * sh.b)
    if x.outLane.idx < n ∨ tdiff s.now fin < 0 then s
    else
      let passed (l : Lane) : Lane := match l.cur with
        | some i => { l with clk := max l.clk (i.halvesBefore fin) }
        | none => l
      (s.setCtx e c { x with inLane := passed x.inLane }).nextShift e c false fin

/-- The in lane ends its shift: the sampled bits enter the in shifter, and a waiting τ takes the planned end, or, after a stuff error,
the end of the last bit period sampled (R478, R489, R519, R522, R523). -/
def State.inShiftEnd (s : State) (e c : Nat) : State :=
  let x := s.ctx e c
  match x.inLane.cur with
  | none => s
  | some sh =>
    let fin := sh.t + BitVec.ofNat 64 (x.inLane.idx * sh.b)
    if !x.inLane.inDone ∨ tdiff s.now fin < 0 then s
    else
      let (w, n) := enterBits sh.order x.inLane.got x.inSh x.inCnt
      let due := x.tauDue && sh.adv && sh.stuff != 0 && !(x.inLane.queued.any (fun q => q.adv && q.stuff != 0))
      let tau := if x.inLane.broken then fin else sh.planned + BitVec.ofNat 64 (x.inLane.idx * sh.b)
      (s.setCtx e c { x with inSh := w, inCnt := n, tau := if due then tau else x.tau, tauDue := x.tauDue && !due }).nextShift
        e c true fin

def execShiftEnd (e c : Fin 16) (out : Bool) (s : State) : Host.Outcome State Fault Refusal :=
  done (if out then s.outShiftEnd e.val c.val else s.inShiftEnd e.val c.val)

/-! ### Pin events (R481, R515) -/

/-- The WPIN that the context waits in: its operation, slot, condition and timeout. -/
def Ctx.watching (x : Ctx) : Option (GridOp × Nat × Nat × Nat) :=
  match x.grid with
  | none => none
  | some op =>
    match decodeInsn op.instr with
    | some (.wpin slot cond timeout) => if x.st = .waiting ∧ x.wait = 3 then some (op, slot, cond, timeout) else none
    | _ => none

/-- The event that a WPIN watches for has come: τ becomes its stamp. -/
def State.wpinEvent (s : State) (e c : Nat) : State :=
  match (s.ctx e c).watching with
  | none => s
  | some (op, slot, cond, timeout) =>
    match s.watchHit e c slot cond timeout op.t with
    | none => s
    | some t =>
      let s := s.retireHeld e c op.pc
      (s.setCtx e c { s.ctx e c with tau := t, grid := none }).ready e c

def execWpinEvent (e c : Fin 16) (s : State) : Host.Outcome State Fault Refusal := done (s.wpinEvent e.val c.val)

/-- A WPIN reaches its timeout without its event: τ becomes that time and the next instruction is skipped. -/
def State.wpinTimeout (s : State) (e c : Nat) : State :=
  match (s.ctx e c).watching with
  | none => s
  | some (op, slot, cond, timeout) =>
    let t := op.t + BitVec.ofNat 64 (2 * timeout)
    if timeout = 0 ∨ tdiff s.now t < 0 ∨ (s.watchHit e c slot cond timeout op.t).isSome then s
    else
      let s := s.retireHeld e c op.pc
      ((s.setCtx e c { s.ctx e c with tau := t, grid := none }).advance e c).ready e c

def execWpinTimeout (e c : Fin 16) (s : State) : Host.Outcome State Fault Refusal := done (s.wpinTimeout e.val c.val)

/-! ### Ends of waits (R506) -/

/-- The fetch for which a context waits is made. -/
def State.refetch (s : State) (e c : Nat) : State :=
  let pc := (s.ctx e c).pc
  let s := s.fetch e c
  if s.eccOf .prog (512 * e + pc / 2) = .bad then s.faultCtx e c 4 pc
  else s.setCtx e c { s.ctx e c with st := .running, wait := 0 }

/-- The wait of a context is satisfied: a fetch is made, the access of an LDM, STM or RDREG is granted, or the instruction that waits is
performed again. -/
def State.resume (s : State) (e c : Nat) : State :=
  let x := s.ctx e c
  if x.st ≠ .waiting ∨ x.slot.isSome then s
  else if x.wait = 9 then
    match x.cur with
    | none => s.refetch e c
    | some w =>
      match (decodeInsn w).bind (fun i => runAccess e c i s) with
      | none => s.refetch e c
      | some (t, r) => t.finish e c w r
  else if x.wait < 4 then s
  else
    match x.cur with
    | none => s.ready e c
    | some w =>
      match decodeInsn w with
      | none => s.faultCtx e c 3 x.pc
      | some i =>
        if i.onGrid ∧ x.tauDue then s
        else
          match runInsn e c i s with
          | (t, .stay r) => if r = x.wait then (if t.ctx e c = x then s else t) else t.finish e c w (.stay r)
          | (t, r) => t.finish e c w r

def execContextResume (e c : Fin 16) (s : State) : Host.Outcome State Fault Refusal := done (s.resume e.val c.val)

end Sys2Proof.Machine
end

