-- ==== Sys2Proof/Machine/KettleCmds.lean ====
section
/-!
DEFINITION. Commands of the Kettle (16_kettle_faults.md): the scrub of its configuration copies, the ends of masks, of the pulse on
ERR_N and of forces.
-/

namespace Sys2Proof.Machine

/-- The Kettle is powered and out of reset (R625). -/
def State.kettleUp (s : State) : Bool := !s.hub.held && !s.hub.rstLow && s.hub.mode != .hibernate

/-- Words of the configuration that hold an error or differ, in ascending order. -/
def State.markedCopies (s : State) : List Nat :=
  (List.range 576).filter (fun w => s.kettle.differs.contains w ||
    s.eccMarks.any (fun x => (decide (x.1 = .ketMain) || decide (x.1 = .ketShadow)) && x.2.1 == w))

/-- The source at which an error in word `w` is found: that of an entry, the first that names a list; the manual does not say which,
where none names it: a free value (log entry 28). -/
def State.copySource (s : State) (w : Nat) : Nat × State :=
  if w < 512 then (w, s)
  else
    match (List.range 512).find? (fun i => s.rd (R.KET_SRC_dep i) == w - 512) with
    | some i => (i, s)
    | none =>
      let (k, t) := s.takeFree
      (Config.freeNat k % 512, t)

/-- A scrub of both copies: every word that holds an error or differs is treated as at an event. Beside these, `corrected` errors were
rewritten, and `bad` tells a source with an uncorrectable error (true) or a mismatch (false) (R635, R636). -/
def State.kettleScrub (s : State) (corrected : Nat) (bad : Option (Nat × Bool)) : State :=
  if !s.kettleUp then s
  else
    let s := s.markedCopies.foldl (fun (t : State) w =>
      let (i, t) := t.copySource w
      t.checkCopy i w) s
    let s := s.bumpBy (R.KET_CNT_count 6) corrected
    match bad with
    | none => s
    | some (i, uncorrectable) => s.collectorFault (if uncorrectable then 1 else 2) i

def execKettleScrub (corrected : Nat) (bad : Option (Fin 512 × Bool)) (s : State) : Host.Outcome State Fault Refusal :=
  done (s.kettleScrub corrected (bad.map (fun b => (b.1.val, b.2))))

/-- The mask has ended (R631). -/
def Mask.over (m : Mask) (clk : Nat) : Bool :=
  match m.doneAt with
  | some t => decide (t + m.settle * 1000 ≤ clk)
  | none => false

/-- Masks of source `i` whose settle time is over are dropped (R631, R633). -/
def State.maskExpire (s : State) (i : Nat) : State :=
  { s with kettle := { s.kettle with masks := s.kettle.masks.filter (fun m => !(m.list.contains i && m.over s.clk)) } }

def execKettleMaskExpire (i : Fin 512) (s : State) : Host.Outcome State Fault Refusal := done (s.maskExpire i.val)

/-- The pulse on ERR_N ends 50-60 µs after it began (R638). -/
def State.errPulseOver (s : State) : State :=
  match s.kettle.pulseEnd with
  | none => s
  | some t => if t ≤ s.clk then { s with kettle := { s.kettle with pulseEnd := none } } else s

def execErrNPulseEnd (s : State) : Host.Outcome State Fault Refusal := done s.errPulseOver

/-- Writes of 1 to KET_FORCE.forced end forces: the outputs follow as on entry to a mode in which owners drive (R629). -/
def State.endForce (s : State) (mask : Nat) : State :=
  (List.range 48).foldl (fun (t : State) n =>
    if bitAt mask n ∧ t.bayForced n then (t.wrBit R.KET_FORCE_forced n false).applyBay n else t) s

def execForceEnd (r : Requester) (bays : BitVec 48) (s : State) : Host.Outcome State Fault Refusal :=
  done (s.asWrite r R.KET_FORCE (fun t => t.endForce bays.toNat))

end Sys2Proof.Machine
end

