-- ==== Sys2Proof/Machine/PmcCmds.lean ====
section
/-!
DEFINITION. Commands of the performance counters (17_performance_counters.md): freeze, clear, snapshot and samples.
-/

namespace Sys2Proof.Machine

/-- All 64 counters become 0 (R652). -/
def State.pmcClear (s : State) : State := (List.range 64).foldl (fun (t : State) i => t.wr (R.PMC_CNT_count i) 0) s

/-- The gate of a snapshot closes and the counts are copied; without effect while one is in progress (R653, R654). -/
def State.pmcSnap (s : State) : State :=
  if s.on R.PMC_STATUS_snap_busy then s
  else
    let s := (List.range 64).foldl (fun (t : State) i => t.wr (R.PMC_SHADOW_count i) (t.rd (R.PMC_CNT_count i))) s
    { s.wr R.PMC_STATUS_snap_busy 1 with pmc := { s.pmc with snapAt := s.now } }

/-- The order of a clear and a snapshot that one write requests. The manual does not state it. -/
def State.clearFirst (s : State) : Bool × State :=
  let (k, t) := s.takeFree
  (Config.freeNat k % 2 == 0, t)

/-- A write to PMC_CTRL (R651-R655). -/
def State.writePmcCtrl (s : State) (freeze clear snap : Bool) : State :=
  let s := s.wr R.PMC_CTRL_freeze (bit01 freeze)
  if clear ∧ snap then
    let (first, s) := s.clearFirst
    if first then s.pmcClear.pmcSnap else s.pmcSnap.pmcClear
  else if clear then s.pmcClear
  else if snap then s.pmcSnap
  else s

def execPmcFreeze (r : Requester) (snapshot : Bool) (s : State) : Host.Outcome State Fault Refusal :=
  done (s.asWrite r R.PMC_CTRL (fun t => t.writePmcCtrl true false snapshot))

def execPmcUnfreeze (r : Requester) (s : State) : Host.Outcome State Fault Refusal :=
  done (s.asWrite r R.PMC_CTRL (fun t => t.writePmcCtrl false false false))

/-- The write keeps the freeze bit as it stands. -/
def execPmcClearAll (r : Requester) (s : State) : Host.Outcome State Fault Refusal :=
  done (s.asWrite r R.PMC_CTRL (fun t => t.writePmcCtrl (t.on R.PMC_CTRL_freeze) true false))

def execPmcSnapshot (r : Requester) (s : State) : Host.Outcome State Fault Refusal :=
  done (s.asWrite r R.PMC_CTRL (fun t => t.writePmcCtrl (t.on R.PMC_CTRL_freeze) false true))

/-- The snapshot completes: the gate opens and the events held are added (R653). -/
def State.snapDone (s : State) : State :=
  if s.asleep ∨ !s.on R.PMC_STATUS_snap_busy then s
  else
    let s := ((s.wr R.PMC_STATUS_snap_busy 0).bumpWrap R.PMC_STATUS_snap_count).wr R.PMC_SNAP_TIME_time s.pmc.snapAt.toNat
    let held := s.pmc.heldCounts
    (held.foldl (fun (t : State) h => t.pmcAdd h) { s with pmc := { s.pmc with heldCounts := [] } }).pmcReady

def execPmcSnapshotDone (s : State) : Host.Outcome State Fault Refusal := done s.snapDone

def execPmcSamplePop (r : Requester) (s : State) : Host.Outcome State Fault Refusal := done (s.asRead r R.PMC_SAMPLE)

/-- 10 µs have passed since a wrap of counter `i` and its engine has issued nothing since the event: the record is written idle (R657);
while the counters are frozen, no sample is taken (R651). -/
def State.sampleIdle (s : State) (i : Nat) : State :=
  let idle (w : Wrap) : Bool :=
    w.tally.counter == i && decide (w.tally.seen.length ≤ w.tally.own) && decide (w.since + 10000 ≤ s.clk)
  let t : State := { s with pmc := { s.pmc with waiting := s.pmc.waiting.filter (fun w => !idle w) } }
  if s.asleep then s
  else if s.on R.PMC_CTRL_freeze then t
  else
    (s.pmc.waiting.filter idle).foldl
      (fun (t : State) w => t.pmcRecord ⟨w.tally.counter, w.tally.element, 0, 0, w.skid, false, true, w.time⟩) t

def execPmcSampleIdle (i : Fin 64) (s : State) : Host.Outcome State Fault Refusal := done (s.sampleIdle i.val)

end Sys2Proof.Machine
end

