-- ==== Sys2Proof/Machine/PortCmds.lean ====
section
/-!
DEFINITION. Commands of the power ports, their groups and the sequencer scripts (14_power_ports.md).
-/

namespace Sys2Proof.Machine

/-! ### Commands and settings (R555, R556, R565, R586) -/

/-- A write to PWP_CMD[k].on (R136, R556, R559). Without the power ports section a 1 is refused (R586). -/
def State.commandPort (s : State) (r : Requester) (k : Nat) (on : Bool) : State :=
  if s.tuneAllowed ⟨R.PWP_CMD_on k, bit01 on, !on || s.loaded.sections.contains 0xD⟩ then s.writePortCmd k on
  else s.refuseTune r (R.PWP_CMD k)

def execPortCmdWrite (r : Requester) (k : Fin 32) (on : Bool) (s : State) : Host.Outcome State Fault Refusal :=
  done (s.asWrite r (R.PWP_CMD k.val) (fun t => t.commandPort r k.val on))

/-- The settings of port `k` keep its pass transistor within its safe operating area (R565). -/
def State.portCfgOk (s : State) (k : Nat) : Bool :=
  decide (s.rd (R.PWP_CFG_fold k) ^ 2 * s.rd (R.PWP_CFG_timer k) ≤ 100000) &&
  decide (3 * s.rd (R.PWP_CFG_limit k) ≤ 2 * s.rd (R.PWP_CFG_fast k))

/-- A write of `v` to PWP_CFG[k], checked as a whole (R565, R587). -/
def State.writePortCfg (s : State) (r : Requester) (k : Nat) (v : Word) : State :=
  let fld (f : Fld) (lo hi : Nat) : TuneField := ⟨f, fget v f.lsb f.width, decide (lo ≤ fget v f.lsb f.width ∧ fget v f.lsb f.width ≤ hi)⟩
  s.tuneWhole r (R.PWP_CFG k)
    [fld (R.PWP_CFG_off_settle k) 1 10000, fld (R.PWP_CFG_timer k) 5 2000, fld (R.PWP_CFG_fold k) 2 30,
      fld (R.PWP_CFG_fast k) 150 600, fld (R.PWP_CFG_limit k) 10 200, fld (R.PWP_CFG_retry k) 1 63] (fun t => t.portCfgOk k)

def execPortCfgWrite (r : Requester) (k : Fin 32) (v : Word) (s : State) : Host.Outcome State Fault Refusal :=
  done (s.asWrite r (R.PWP_CFG k.val) (fun t => t.writePortCfg r k.val v))

/-! ### Trips (R563, R564, R566-R568) -/

def execPortFastTrip (k : Fin 32) (s : State) : Host.Outcome State Fault Refusal :=
  done (if s.portsLive then s.trip k.val 1 else s)

/-- The junction diode reads `tj` °C; at 160 or more the port trips (R567). -/
def State.diodeTrip (s : State) (k : Nat) (tj : Int) : State :=
  if !s.portsLive ∨ tj < 160 then s else (s.setPort k { s.port k with diode := tj }).trip k 3

def execPortDiodeTrip (k : Fin 32) (tj : Int) (s : State) : Host.Outcome State Fault Refusal := done (s.diodeTrip k.val tj)

/-- Bit 0 of the capability of the inventory unit of group `g`: the thermal model runs (R568). -/
def State.modelRuns (s : State) (g : Nat) : Bool :=
  s.portsLive && bitAt (fget (s.invWord (13 + g)) (R.TOP_INV_capability 0).lsb (R.TOP_INV_capability 0).width) 0

/-- One evaluation of the thermal model from the pass power in mW and the diode reading (R568). -/
def State.modelEval (s : State) (k mw : Nat) (tj : Int) : State :=
  if !s.modelRuns (groupOfPort k) then s
  else
    let p : Rat := (mw : Rat) / 1000
    let x := s.port k
    let d := x.delayed + (p - x.delayed) / 5
    let est : Rat := (tj : Rat) + (p - d) / 2
    let s := s.setPort k { x with diode := tj, delayed := d, estimate := est }
    if 160 ≤ est then s.trip k 4 else s

def execPortModelEval (k : Fin 32) (mw : Nat) (tj : Int) (s : State) : Host.Outcome State Fault Refusal :=
  done (s.modelEval k.val mw tj)

/-- The accumulator F after 10 µs (R563), in units of 1.25 µs. -/
def Port.timerStep (p : Port) : Nat := if !p.passOn then 0 else if p.inReg then p.acc + 8 else p.acc - 1

/-- F has reached the fault timer (R563). -/
def State.timerFull (s : State) (k : Nat) : Bool := decide (80 * s.rd (R.PWP_CFG_timer k) ≤ (s.port k).acc)

/-- One update of the fault timer (R563). -/
def State.timerUpdate (s : State) (k : Nat) : State :=
  if !s.portsLive then s
  else
    let s := s.setPort k { s.port k with acc := (s.port k).timerStep }
    if s.timerFull k then s.trip k 2 else s

def execPortFaultTimerUpdate (k : Fin 32) (s : State) : Host.Outcome State Fault Refusal := done (s.timerUpdate k.val)

def execPortTimerTrip (k : Fin 32) (s : State) : Host.Outcome State Fault Refusal :=
  done (if s.portsLive ∧ s.timerFull k.val then s.trip k.val 2 else s)

/-! ### Regulation and power-good (R562, R569, R570) -/

/-- The port enters regulation: power-good falls, and from ON it goes to LIMIT. -/
def State.regulationEnter (s : State) (k : Nat) : State :=
  let p := s.port k
  if !p.passOn ∨ p.inReg then s
  else
    let s := (s.setPort k { p with inReg := true }).setPg k false
    if s.rd (R.PWP_STAT_state k) = 2 then
      ((s.wr (R.PWP_STAT_state k) 3).bump (R.PWP_CNT_limits k)).pmcEv 10 1 (groupOfPort k)
    else s

def execPortRegulationEnter (k : Fin 32) (s : State) : Host.Outcome State Fault Refusal := done (s.regulationEnter k.val)

def execPortRegulationExit (k : Fin 32) (s : State) : Host.Outcome State Fault Refusal :=
  done (if (s.port k.val).passOn then s.setPort k.val { s.port k.val with inReg := false } else s)

/-- Full enhancement is reported with the output at `vout` mV: power-good rises when the conditions of R569 hold, and the port
goes from RAMP or LIMIT to ON (R570). A fault timer that is full at that moment is ordered first (R102, R571). -/
def State.pgRise (s : State) (k vout : Nat) : State :=
  let p := s.port k
  let st := s.rd (R.PWP_STAT_state k)
  let supply := s.rd (R.PWP_GROUP_supply (groupOfPort k))
  if !p.passOn ∨ p.inReg ∨ vout + 1000 < supply ∨ supply + 1000 < vout then s
  else if s.portsLive ∧ s.timerFull k then s.trip k 2
  else (if st = 1 ∨ st = 3 then s.wr (R.PWP_STAT_state k) 2 else s).setPg k true

def execPortPowerGoodRise (k : Fin 32) (vout : BitVec 16) (s : State) : Host.Outcome State Fault Refusal :=
  done (s.pgRise k.val vout.toNat)

/-- The output has fallen to `vout` mV: power-good falls when that is more than 1.5 V below the supply (R569). -/
def State.outputDrop (s : State) (k vout : Nat) : State :=
  if vout + 1500 < s.rd (R.PWP_GROUP_supply (groupOfPort k)) then s.setPg k false else s

def execPortOutputDrop (k : Fin 32) (vout : BitVec 16) (s : State) : Host.Outcome State Fault Refusal :=
  done (s.outputDrop k.val vout.toNat)

/-! ### Cooling, retry, damage (R558, R559, R572, R573) -/

/-- The diode of a port reads `tj` °C: a COOLING port whose two readings are low enough starts a ramp (R558). -/
def State.portCooled (s : State) (k : Nat) (tj : Int) : State :=
  if !s.portsLive then s
  else
    let s := s.setPort k { s.port k with diode := tj }
    if s.rd (R.PWP_STAT_state k) = 5 then s.refreshPort k else s

def execPortCooled (k : Fin 32) (tj : Int) (s : State) : Host.Outcome State Fault Refusal := done (s.portCooled k.val tj)

/-- The retry time of a LATCHED port that a block reset waits for is over (R559). -/
def execPortRetryExpire (k : Fin 32) (s : State) : Host.Outcome State Fault Refusal :=
  done (if !s.asleep ∧ (s.port k.val).resetDue then s.resetPort k.val else s)

/-- The pass transistor is declared damaged once the conditions of R572 have held for off_settle. -/
def State.declareDamage (s : State) (k : Nat) : State :=
  match (s.port k).condSince with
  | none => s
  | some t =>
    if s.on (R.PWP_STAT_damaged k) ∨ !s.damageCond k ∨ s.clk < t + s.rd (R.PWP_CFG_off_settle k) * 1000000 then s
    else
      let s := ((s.wr (R.PWP_STAT_damaged k) 1).bump (R.PWP_CNT_damaged k)).raise (0x1A0 + k) (s.rd (R.PWP_MEAS_vout k))
      s.refreshPort k

def execPortDamagedDeclare (k : Fin 32) (s : State) : Host.Outcome State Fault Refusal :=
  done (if s.portsLive then s.declareDamage k.val else s)

/-- A write of 1 to the damaged mark: only a Supervisor's clears it, and the time of R572 starts anew (R573). -/
def State.clearDamage (s : State) (r : Requester) (k : Nat) : State :=
  if r.level ≠ .supervisor ∨ !s.on (R.PWP_STAT_damaged k) then s
  else
    let s := s.wr (R.PWP_STAT_damaged k) 0
    let s := s.setPort k { s.port k with condSince := none }
    (s.noteDamageCond k).refreshPort k

def execPortDamagedClear (r : Requester) (k : Fin 32) (s : State) : Host.Outcome State Fault Refusal :=
  done (s.asWrite r (R.PWP_STAT k.val) (fun t => t.clearDamage r k.val))

/-! ### Measurement (R554, R568, R577) -/

/-- A temperature as an 8-bit signed field shows it; the manual does not say what it shows of one outside its range. -/
def State.showTemp (s : State) (v : Int) : Nat × State :=
  if -128 ≤ v ∧ v ≤ 127 then (unsext 8 v, s)
  else
    let (k, t) := s.takeFree
    (Config.freeNat k % 256, t)

/-- The whole number that shows an estimate: the one below it or the one above it. -/
def State.showEstimate (s : State) (v : Rat) : Int × State :=
  if v.den = 1 then (v.num, s)
  else
    let (k, t) := s.takeFree
    (v.floor + ((Config.freeNat k % 2 : Nat) : Int), t)

/-- The 100 µs update of port `k` and its group. -/
def State.measure (s : State) (k vout ma supply groupMa : Nat) (tj : Int) : State :=
  if !s.portsLive then s
  else
    let g := groupOfPort k
    let s := s.setPort k { s.port k with diode := tj }
    let (shownTj, s) := s.showTemp tj
    let (est, s) := s.showEstimate (s.port k).estimate
    let (shownEst, s) := if s.modelRuns g then s.showTemp est else (0, s)
    let s := ((s.wr (R.PWP_MEAS_vout k) vout).wr (R.PWP_MEAS_current k) ma).wr (R.PWP_MEAS_tj k) shownTj
    let s := (s.wr (R.PWP_MEAS_tmodel k) shownEst).wr (R.PWP_MEAS_peak k) (max ma (s.rd (R.PWP_MEAS_peak k)))
    let s := (s.wr (R.PWP_GROUP_supply g) supply).wr (R.PWP_GROUP_current g) groupMa
    let s := s.wr (R.PWP_GROUP_peak g) (max groupMa (s.rd (R.PWP_GROUP_peak g)))
    let above := decide (8000 < groupMa)
    let since : Option Nat := if above then some ((s.group g).overSince.getD s.clk) else none
    let s := s.setGroup g { s.group g with overSince := since }
    let s := if above then s else s.wr (R.PWP_GROUP_overload g) 0
    s.noteDamageCond k

def execPortMeasureUpdate (k : Fin 32) (vout ma supply groupMa : BitVec 16) (tj : Int) (s : State) :
    Host.Outcome State Fault Refusal :=
  done (s.measure k.val vout.toNat ma.toNat supply.toNat groupMa.toNat tj)

/-! ### Isolators by software (R574, R576) -/

/-- A write of 1 to PWP_GROUP[g].open. -/
def State.groupOpen (s : State) (r : Requester) (g : Nat) : State :=
  if r.level ≠ .supervisor then s else s.openIsolator g 3

def execGroupOpenCmd (r : Requester) (g : Fin 2) (s : State) : Host.Outcome State Fault Refusal :=
  done (s.asWrite r (R.PWP_GROUP g.val) (fun t => t.groupOpen r g.val))

/-- A write of 1 to PWP_GROUP[g].close. -/
def State.groupClose (s : State) (r : Requester) (g : Nat) : State :=
  let x := s.group g
  if r.level ≠ .supervisor ∨ !x.supply ∨ s.isolatorsForced ∨ x.iso ≠ .opened ∨
      (groupPorts g).any (fun k => s.on (R.PWP_STAT_damaged k)) then s
  else s.startClose g

def execGroupCloseCmd (r : Requester) (g : Fin 2) (s : State) : Host.Outcome State Fault Refusal :=
  done (s.asWrite r (R.PWP_GROUP g.val) (fun t => t.groupClose r g.val))

/-! ### The sequencer (R579-R583) -/

/-- A write to PWP_SEQ_CTRL: where both bits of a script are set, only the stop acts (R580). -/
def State.writeSeqCtrl (s : State) (start stop : Nat) : State :=
  (List.range 4).foldl (fun (t : State) i =>
    if bitAt stop i then t.stopScript i else if bitAt start i then t.startScript i else t) s

def execScriptStart (r : Requester) (start stop : BitVec 4) (s : State) : Host.Outcome State Fault Refusal :=
  done (s.asWrite r R.PWP_SEQ_CTRL (fun t => t.writeSeqCtrl start.toNat stop.toNat))

def execScriptStop (r : Requester) (stop : BitVec 4) (s : State) : Host.Outcome State Fault Refusal :=
  done (s.asWrite r R.PWP_SEQ_CTRL (fun t => t.writeSeqCtrl 0 stop.toNat))

/-- Index of a script's next instruction. -/
def State.seqPc (s : State) (i : Nat) : Nat := s.rd (R.PWP_SEQ_STAT_pc i)

/-- The instruction at index `n` of the script memory. -/
def State.seqInsn (s : State) (n : Nat) : Nat := fget (s.word (R.PWP_SEQ_PROG (n / 2))) (32 * (n % 2)) 32

/-- Ports that a mask of an instruction names. -/
def seqPorts (group mask : Nat) : List Nat := ((List.range 16).filter (bitAt mask)).map (16 * group + ·)

/-- The script goes on at index `n`. -/
def State.seqGoto (s : State) (i n : Nat) : State := s.wr (R.PWP_SEQ_STAT_pc i) n

/-- Script `i` has had its turn (R581). -/
def State.tookTurn (s : State) (i : Nat) : State := { s with power := { s.power with scriptTurn := i } }

/-- Script `i`, RUNNING with an instruction of opcode `op` next, executes it; `f` is given the instruction. -/
def State.seqStep (s : State) (i op : Nat) (f : Nat → State → State) : State :=
  let w := s.seqInsn (s.seqPc i)
  if s.hasPower ∧ s.rd (R.PWP_SEQ_STAT_state i) = 1 ∧ nbits w 28 4 = op then f w ((s.tookTurn i).seqGoto i (s.seqPc i + 1)) else s

/-- END: the script is DONE, and its pc stays. -/
def State.seqEnd (s : State) (i : Nat) : State :=
  s.seqStep i 0 (fun _ t => (t.seqGoto i (s.seqPc i)).wr (R.PWP_SEQ_STAT_state i) 3)

def execSeqEnd (i : Fin 4) (s : State) : Host.Outcome State Fault Refusal := done (s.seqEnd i.val)

/-- ON and OFF: Local writes to PWP_CMD (R581). The tuning limits bound masters' writes only (R527). -/
def State.seqSwitch (s : State) (i : Nat) (on : Bool) : State :=
  s.seqStep i (if on then 1 else 2) (fun w t =>
    (seqPorts (nbits w 16 1) (nbits w 0 16)).foldl (fun (u : State) k => u.writePortCmd k on) t)

def execSeqOn (i : Fin 4) (s : State) : Host.Outcome State Fault Refusal := done (s.seqSwitch i.val true)

def execSeqOff (i : Fin 4) (s : State) : Host.Outcome State Fault Refusal := done (s.seqSwitch i.val false)

/-- Every named port has power-good. -/
def State.allPg (s : State) (ports : List Nat) : Bool := ports.all (fun k => s.on (R.PWP_STAT_pg k))

/-- Ports of a waiting script: bit k names port k. -/
def Script.ports (x : Script) : List Nat := (List.range 32).filter (fun k => x.mask.getLsbD k)

/-- WAITPG. -/
def State.seqWaitpg (s : State) (i : Nat) : State :=
  s.seqStep i 3 (fun w t =>
    let ports := seqPorts (nbits w 16 1) (nbits w 0 16)
    if t.allPg ports then t
    else
      let ms := nbits w 17 11
      let mask : BitVec 32 := BitVec.ofNat 32 (nbits w 0 16 * 2 ^ (16 * nbits w 16 1))
      (t.setScript i ⟨if ms = 0 then none else some (t.clk + ms * 1000000), mask, true⟩).wr (R.PWP_SEQ_STAT_state i) 2)

def execSeqWaitpg (i : Fin 4) (s : State) : Host.Outcome State Fault Refusal := done (s.seqWaitpg i.val)

/-- Script `i` waits for power-good. -/
def State.waitsPg (s : State) (i : Nat) : Bool := s.rd (R.PWP_SEQ_STAT_state i) == 2 && (s.script i).onPg

def State.seqWaitpgDone (s : State) (i : Nat) : State :=
  if s.waitsPg i ∧ s.allPg (s.script i).ports then (s.setScript i {}).wr (R.PWP_SEQ_STAT_state i) 1 else s

def execSeqWaitpgDone (i : Fin 4) (s : State) : Host.Outcome State Fault Refusal := done (s.seqWaitpgDone i.val)

/-- The wait of script `i` has reached its end. -/
def State.waitOver (s : State) (i : Nat) : Bool :=
  match (s.script i).waitEnd with
  | some t => decide (t ≤ s.clk)
  | none => false

/-- The timeout of a WAITPG: the next instruction is skipped. -/
def State.seqWaitpgTimeout (s : State) (i : Nat) : State :=
  if s.waitsPg i ∧ s.waitOver i ∧ !s.allPg (s.script i).ports then
    ((s.setScript i {}).wr (R.PWP_SEQ_STAT_state i) 1).seqGoto i (s.seqPc i + 1)
  else s

def execSeqWaitpgTimeout (i : Fin 4) (s : State) : Host.Outcome State Fault Refusal := done (s.seqWaitpgTimeout i.val)

/-- WAIT. -/
def State.seqWait (s : State) (i : Nat) : State :=
  s.seqStep i 4 (fun w t =>
    (t.setScript i ⟨some (t.clk + nbits w 0 24 * 1000000), 0, false⟩).wr (R.PWP_SEQ_STAT_state i) 2)

def execSeqWait (i : Fin 4) (s : State) : Host.Outcome State Fault Refusal := done (s.seqWait i.val)

def State.seqWaitExpire (s : State) (i : Nat) : State :=
  if s.rd (R.PWP_SEQ_STAT_state i) = 2 ∧ !(s.script i).onPg ∧ s.waitOver i then
    (s.setScript i {}).wr (R.PWP_SEQ_STAT_state i) 1
  else s

def execSeqWaitExpire (i : Fin 4) (s : State) : Host.Outcome State Fault Refusal := done (s.seqWaitExpire i.val)

def execSeqJmp (i : Fin 4) (s : State) : Host.Outcome State Fault Refusal :=
  done (s.seqStep i.val 5 (fun w t => t.seqGoto i.val (nbits w 0 8)))

/-- JLATCH: taken when a named port is LATCHED or carries a damaged mark. -/
def State.seqJlatch (s : State) (i : Nat) : State :=
  s.seqStep i 6 (fun w t =>
    if (seqPorts (nbits w 24 1) (nbits w 8 16)).any (fun k => t.rd (R.PWP_STAT_state k) == 4 || t.on (R.PWP_STAT_damaged k)) then
      t.seqGoto i (nbits w 0 8)
    else t)

def execSeqJlatch (i : Fin 4) (s : State) : Host.Outcome State Fault Refusal := done (s.seqJlatch i.val)

/-- Power-good of the ports in bits [31:0], and which of them are LATCHED in bits [63:32] (R583). -/
def State.portMap (s : State) : Word :=
  BitVec.ofNat 64 ((List.range 32).foldl (fun v k =>
    v + bit01 (s.on (R.PWP_STAT_pg k)) * 2 ^ k + bit01 (s.rd (R.PWP_STAT_state k) == 4) * 2 ^ (32 + k)) 0)

/-- NOTE (R583). -/
def State.seqNote (s : State) (i : Nat) : State :=
  s.seqStep i 7 (fun w t => t.notices 6 (nbits w 16 4) ⟨0x09, i, nbits w 0 16, t.portMap, t.now⟩)

def execSeqNote (i : Fin 4) (s : State) : Host.Outcome State Fault Refusal := done (s.seqNote i.val)

end Sys2Proof.Machine
end

