-- ==== Sys2Proof/Machine/RegWrite.lean ====
section
/-!
DEFINITION. A write to one register (R7, R8, R103, R105-R109, R136, R137, R167, R185): the registers whose write is an
operation, and for all others the write of their fields by access code, with the ranges that the unit chapters permit.
-/

namespace Sys2Proof.Machine

/-- The index of address `a` in a family of `n` registers from `base` on. -/
def nth (a base n : Nat) : Option Nat :=
  if base ≤ a ∧ a < base + 8 * n ∧ (a - base) % 8 = 0 then some ((a - base) / 8) else none

/-- The engine whose window holds `a`, and the offset in the window. -/
def engineAt (a : Nat) : Option (Nat × Nat) :=
  if 0x200000 ≤ a ∧ a < 0x300000 then some ((a - 0x200000) / 0x10000, (a - 0x200000) % 0x10000) else none

/-- A number lies in a range. -/
def within (lo v hi : Nat) : Bool := decide (lo ≤ v ∧ v ≤ hi)

/-! ### What the unit chapters permit in a tunable field (R136) -/

/-- Fields of the RING, SWC, CYC and TIM blocks. `l` is the lowest bit of the field. -/
def State.unitOkCore (s : State) (a l v : Nat) : Bool :=
  if a = R.RING_ISLAND then l != 0 || within 1 v 10000
  else if a = R.RING_CPL then (if l = 32 then within 2 v 15 else within 100 v 50000)
  else if a = R.SWC_RESEQ then within 0 v 1000
  else if a = R.SWC_CTRL then l != 0 || v == 0 || s.portFunction 2 == 3 || s.portFunction 3 == 3
  else if a = R.SWC_GUARD then l != 0 || within 0 v 10000
  else if a = R.CYC_CTRL then
    (List.range 4).all (fun i => !bitAt v i || bitAt (fget (mget 0 s.store R.CYC_CTRL) 0 4) i)
  else
    ((nth a (R.SWC_ADMIT 0) 24).map (fun _ => if l = 16 then within 0 v 16384 else l != 0 || within 1 v 64)).getD
    (((nth a (R.SWC_FLOW 0) 4096).map (fun j => v == 0 || s.on (R.SWC_FLOW_valid j))).getD
    (((nth a (R.CYC_POINT 0) 4).map (fun i => decide (v < if l = 32 then 2 * s.cycleNs i else s.cycleNs i))).getD
    (((nth a (R.CYC_STATUS 0) 4).map (fun _ => within 1 v 255)).getD
    (((nth a (R.TIM_ASYM 0) 4).map (fun _ => decide (-1000000 ≤ sext 32 v ∧ sext 32 v ≤ 1000000))).getD true))))

/-- Fields of a pin cell (R71, R72, R412). -/
def State.pinFieldOk (s : State) (g l v : Nat) : Bool :=
  let mode := s.rd (R.BAY_PIN_mode g)
  v == 0 ||
  (if l = 28 then mode == 1 || mode == 2
   else if l = 19 then mode == 6 && g % 2 == 0
   else (mode == 6 || mode == 7) && g % 2 == 0)

/-- Fields of an engine (R456, R478, R487). -/
def State.engineFieldOk (s : State) (e o l v : Nat) : Bool :=
  if 0x100 ≤ o ∧ o < 0x180 then s.inRegion e ((o - 0x100) / 8) v
  else if 0x180 ≤ o ∧ o < 0x200 then within 0 v 1000000
  else if 0x280 ≤ o ∧ o < 0x300 then l != 0 || within 1 v 2097151
  else true

/-- The value is in the range that the unit chapter gives the field. -/
def State.unitOk (s : State) (a l v : Nat) : Bool :=
  if a < 0x10000 then
    ((nth a (R.TOP_NOTICE_RATE 0) 4).map (fun _ => decide (1 ≤ v))).getD true
  else if a < 0x60000 then s.unitOkCore a l v
  else if a = R.PWR_WAKE_CFG then l != 60 || v == 3 || v == 6
  else
    match engineAt a with
    | some (e, o) => s.engineFieldOk e o l v
    | none =>
      if 0x100000 ≤ a ∧ a < 0x160000 ∧ (a - 0x100000) % 0x2000 < 0x40 then
        s.pinFieldOk ((a - 0x100000) / 0x2000 * 8 + (a - 0x100000) % 0x2000 / 8) l v
      else true

/-- The tunable fields of a Kettle source are as R640 to R642 permit: those of a reserved one hold zeros; a temperature source has a
threshold of at most 150, an enabled source one above 0; masters are named where the reaction is 1 and not where it is 0; the dependency list of an
enabled source has a valid entry. R641 states the last for the Steep alone; a write at run time is refused for it too (DESIGN CHOICE, log entry
55). -/
def State.sourceOk (s : State) (i : Nat) : Bool :=
  let th := s.rd (R.KET_SRC_threshold i)
  let masters := s.rd (R.KET_SRC_masters i)
  let reaction := s.rd (R.KET_SRC_reaction i)
  let dep := s.rd (R.KET_SRC_dep i)
  let enable := s.on (R.KET_SRC_enable i)
  let live := (List.range 16).any (fun k => fget (s.word (R.KET_DEP (4 * dep + k / 4))) (16 * (k % 4) + 15) 1 == 1)
  (listedSource i || (masters == 0 && !enable && th == 0)) && (!tempSource i || decide (th ≤ 150)) && (!enable || th != 0) &&
  !(masters == 0 && reaction == 1) && !(masters != 0 && reaction == 0) && (!enable || decide (64 ≤ dep) || live)

/-- The register at `a` is sound as a whole. -/
def State.wholeOk (s : State) (a : Nat) : Bool :=
  if a = R.PWR_LOOP then
    decide (s.rd R.PWR_LOOP_slack_low ≤ 15 ∧ s.rd R.PWR_LOOP_slack_low < s.rd R.PWR_LOOP_slack_high ∧
      s.rd R.PWR_LOOP_slack_high ≤ 16)
  else
    ((nth a (R.SWC_ADMIT 0) 24).map (fun p => decide (s.rd (R.SWC_ADMIT_lo p) ≤ s.rd (R.SWC_ADMIT_hi p)))).getD
    (((nth a (R.TIM_IO 0) 4).map s.ioOk).getD
    (((nth a (R.KET_SRC 0) 512).map s.sourceOk).getD true))

/-! ### Writes by access code -/

/-- A field of the register at `a`. -/
def FieldDesc.at_ (f : FieldDesc) (a : Nat) : Fld := ⟨a, f.lsb, f.width⟩

/-- Write a W1C field, while the hardware sets the bits of `hw` (R105), or a W1S field, while the hardware clears them
(R106). -/
def State.writeOnes (s : State) (a : Nat) (v hw : Word) (f : FieldDesc) : State :=
  let x := f.at_ a
  let old := s.rd x
  let w := fget v f.lsb f.width
  let h := fget hw f.lsb f.width
  let new := (List.range f.width).foldl (fun n i =>
    let b := if f.acc = .w1c then (bitAt old i && !bitAt w i) || bitAt h i else (bitAt old i && !bitAt h i) || bitAt w i
    n + bit01 b * 2 ^ i) 0
  (s.wr x new).countOverlap (popCount f.width (w &&& h)) ((blockOf a).getD 0)

/-- Write the fields of the register at `a` by their access codes (R7, R136). PMC_ACCESS changes at Supervisor level only (R659). -/
def State.writeFields (s : State) (r : Requester) (a : Nat) (v hw : Word) : State :=
  match findReg a with
  | none => s
  | some (d, _) =>
    if a = R.PMC_ACCESS ∧ r.level ≠ .supervisor then s else
    let fs := d.fields.filter (fun f => !reservedField a f)
    let t := (fs.filter (fun f => f.acc = .rw && !f.bs)).foldl (fun (t : State) f => t.wr (f.at_ a) (fget v f.lsb f.width)) s
    let t := (fs.filter (fun f => f.acc = .w1c || f.acc = .w1s)).foldl (fun (t : State) f => t.writeOnes a v hw f) t
    let xs := (fs.filter (fun f => f.acc = .rw && f.bs)).map (fun f =>
      (⟨f.at_ a, fget v f.lsb f.width, s.unitOk a f.lsb (fget v f.lsb f.width)⟩ : TuneField))
    if xs.isEmpty then t else t.tuneWhole r a xs (fun t => t.wholeOk a)

/-! ### Registers whose write does more -/

/-- KET_FIRST_A: clearing `valid` opens the record. Where an event is granted concurrently, as `hw` tells and the history shows, the
record then holds that event and valid reads 1 (R105, R623). -/
def State.writeFirst (s : State) (v hw : Word) : State :=
  if fget v 63 1 = 0 then s
  else if fget hw 63 1 = 1 ∧ s.kettle.grantAt = some s.clk then
    let i := s.rd R.KET_HIST_HEAD_newest
    ((s.setWord R.KET_FIRST_A (s.word (R.KET_HIST_A i))).setWord R.KET_FIRST_T (s.word (R.KET_HIST_T i))).countOverlap 1 6
  else s.wr R.KET_FIRST_A_valid 0

/-- KET_ERRPIN: the drive, and the arming of the pulse, which the hardware's pulse may clear concurrently (R106, R638, R639). -/
def State.writeErrPin (s : State) (v hw : Word) : State :=
  let s := s.wr R.KET_ERRPIN_drive (fget v 0 1)
  let fires := s.on R.KET_ERRPIN_armed && fget hw 1 1 == 1
  let s : State := if fires then s.pulse 2 else s
  let s : State := if fget v 1 1 = 1 then s.wr R.KET_ERRPIN_armed 1 else s
  if fires then s.countOverlap (fget v 1 1) 6 else s

/-- KET_FORCE: clears end forces; a force that the hardware sets concurrently stays set (R105, R629). -/
def State.writeForce (s : State) (v hw : Word) : State :=
  let mask := fget v 0 48
  let h := fget hw 0 48
  let s := s.endForce (mask - (mask &&& h))
  let s := (List.range 48).foldl (fun (t : State) n =>
    if bitAt h n ∧ n < t.nBays ∧ !t.bayForced n then t.forceBay n else t) s
  s.countOverlap (popCount 48 (mask &&& h)) 6

/-- PWP_STAT: the tripped mark, and the damaged mark, which stays set where the hardware sets it concurrently (R105, R573). -/
def State.writePortStat (s : State) (r : Requester) (k : Nat) (v hw : Word) : State :=
  let s := s.writeOnes (R.PWP_STAT k) v hw ⟨57, 1, .w1c, 0, false⟩
  if fget hw 56 1 = 1 then (s.wr (R.PWP_STAT_damaged k) 1).countOverlap (fget v 56 1) 9
  else if fget v 56 1 = 1 then s.clearDamage r k
  else s

/-- CYC_POINT: an allowed write governs from the next cycle on (R359). -/
def State.writePoint (s : State) (r : Requester) (i : Nat) (v hw : Word) : State :=
  let a := R.CYC_POINT i
  let t := s.writeFields r a v hw
  let w := t.word a
  if w = s.word a then t else (t.setWord a (s.word a)).setPoint i w

/-- TOP_NOTICE_RATE: a bucket holds at most `depth` tokens (R206). -/
def State.writeNoticeRate (s : State) (r : Requester) (m : Nat) (v hw : Word) : State :=
  let t := s.writeFields r (R.TOP_NOTICE_RATE m) v hw
  let k := t.bucket m
  t.setBucket m { k with tokens := min k.tokens (t.rd (R.TOP_NOTICE_RATE_depth m)) }

/-- PWP_GROUP: the peak, and the isolator (R574, R576). -/
def State.writeGroup (s : State) (r : Requester) (g : Nat) (v hw : Word) : State :=
  let s := s.writeFields r (R.PWP_GROUP g) v hw
  let s := if fget v 0 1 = 1 then s.groupOpen r g else s
  if fget v 1 1 = 1 then s.groupClose r g else s

/-- BAY_RXCTL and BAY_TXCTL: the threshold, which may release a packet, and the flush (R430, R436). -/
def State.writeFifoCtl (s : State) (r : Requester) (n : Nat) (tx : Bool) (v hw : Word) : State :=
  if tx then
    let s := s.writeFields r (R.BAY_TXCTL n) v hw
    let s := s.setTx n ((s.tx n).note (s.rd (R.BAY_TXCTL_ct n)))
    if fget v 8 1 = 1 then s.txFlush n else s
  else
    let s := s.writeFields r (R.BAY_RXCTL n) v hw
    let s := s.putRx n ((s.rx n).note (s.rd (R.BAY_RXCTL_ct n)))
    if fget v 8 1 = 1 then s.rxFlush n else s

/-- Operations of the TOP, STP and UPD blocks. -/
def State.writeTop (s : State) (r : Requester) (a : Nat) (v hw : Word) : Option State :=
  if a = R.TOP_MODE_REQ then some (s.writeModeReq ⟨r, false⟩ v)
  else if a = R.TOP_SEAL then some (s.writeSeal r v)
  else if a = R.TOP_SEAL_CHAL then some (s.writeChallenge r v)
  else if a = R.TOP_EPOCH then some (s.writeEpoch r (fget v 0 24))
  else if a = R.STP_LOAD_STATUS then some (s.writeFields r a (if s.housekeeping r then v else 0) hw)
  else if a = R.STP_LOAD_CTRL then some (s.writeLoadCtrl r v)
  else if a = R.STP_LOAD_PUT then some (s.writeLoadPut r (fget v 8 14) (fget v 0 6))
  else if a = R.UPD_CTRL then some (s.writeUpdCtrl r v)
  else if a = R.UPD_TRIAL then some (s.writeTrial r v)
  else
    (nth a (R.STP_LOAD_BUF 0) 32).map (fun i => s.writeLoadBuf r i v) <|>
    (nth a (R.TOP_NOTICE_RATE 0) 4).map (fun m => s.writeNoticeRate r m v hw)

/-- Operations of the RING, STR and TIM blocks. -/
def State.writeRing (s : State) (r : Requester) (a : Nat) (v hw : Word) : Option State :=
  if a = R.RING_CTRL then some (s.writeRingCtrl r v)
  else if a = R.RING_RATE then some (s.writeRate (fget v 16 3) (fget v 24 40))
  else if a = R.RING_NODE then
    let s := if fget v 0 1 = 1 then s.adoptOffer r 0 else s
    some (if fget v 1 1 = 1 then s.adoptOffer r 2 else s)
  else if a = R.RING_CPL then
    let s := s.writeFields r a v hw
    some (if fget v 2 1 = 1 then s.releaseGateway r else s)
  else if a = R.STR_CTRL then some (if fget v 0 1 = 1 then s.resetStrainer else s)
  else if a = R.TIM_CTRL then
    let s := s.writeFields r a v hw
    some (if fget v 2 1 = 1 then s.timeStep r else s)
  else
    (nth a (R.TIM_SCHED_T 0) 32).map (fun i => if fget v 63 1 = 1 then s.schedCancel i else s.schedArm i (fget v 0 40)) <|>
    (nth a (R.TIM_LAUNCH_CTL 0) 4).map (fun i => s.launchLoad i (fget v 0 6)) <|>
    (nth a (R.TIM_LAUNCH_BUF 0) 128).map (fun i => s.writeLaunchBuf i v) <|>
    (nth a (R.TIM_IO_PER 0) 4).map (fun k => s.writePeriod r k v)

/-- Operations of the SWC, CYC, KET, PWR, PMC and PWP blocks. -/
def State.writeUnits (s : State) (r : Requester) (a : Nat) (v hw : Word) : Option State :=
  if a = R.KET_FIRST_A then some (s.writeFirst v hw)
  else if a = R.KET_ERRPIN then some (s.writeErrPin v hw)
  else if a = R.KET_FORCE then some (s.writeForce v hw)
  else if a = R.PWR_WINDOW then some (s.writeWindow r v)
  else if a = R.PWR_LOOP then
    let s := (s.writeFields r a v hw).noteRisk
    some (if fget v 59 1 = 1 then s.resumeLoop r else s)
  else if a = R.PWR_WAKE_AT then some (if fget v 61 1 = 1 then s.cancelWake else s.armWake (fget v 0 40))
  else if a = R.PMC_CTRL then some (s.writePmcCtrl (fget v 0 1 == 1) (fget v 2 1 == 1) (fget v 1 1 == 1))
  else if a = R.PWP_SEQ_CTRL then some (s.writeSeqCtrl (fget v 0 4) (fget v 16 4))
  else
    (nth a (R.KET_SRC 0) 512).map (fun i => (s.writeFields r a v hw).freshCopies i) <|>
    (nth a (R.SWC_ADMIT 0) 24).map (fun p => (s.writeFields r a v hw).checkRisk p) <|>
    (nth a (R.CYC_POINT 0) 4).map (fun i => s.writePoint r i v hw) <|>
    (nth a (R.PWP_GROUP 0) 2).map (fun g => s.writeGroup r g v hw) <|>
    (nth a (R.PWP_CMD 0) 32).map (fun k => s.commandPort r k (fget v 0 1 == 1)) <|>
    (nth a (R.PWP_CFG 0) 32).map (fun k => s.writePortCfg r k v) <|>
    (nth a (R.PWP_STAT 0) 32).map (fun k => s.writePortStat r k v hw)

/-- Operations of the bays and engines. -/
def State.writeBayEng (s : State) (r : Requester) (a : Nat) (v hw : Word) : Option State :=
  match engineAt a with
  | some (e, 0) => some (s.writeInfCtrl e (fget v 0 16) (fget v 32 16))
  | some (e, _) =>
    (nth a (R.INF_PROG e 0) 512).map (fun i => s.patchProg r e i v)
  | none =>
    (bayAt 0x48 a).map (fun n => s.writeBayOut n v) <|>
    (bayAt 0x50 a).map (fun n => s.overloadClear n (fget v 0 8) (fget hw 0 8)) <|>
    (bayAt 0x108 a).map (fun n => s.writeFifoCtl r n false v hw) <|>
    (bayAt 0x188 a).map (fun n => s.writeFifoCtl r n true v hw) <|>
    (bayAt 0x198 a).map (fun n => s.pushReg n v)

/-- The effect of a write of `v` to the register at `a`; `hw` names the bits of W1C fields that the hardware sets concurrently, and
those of W1S fields that it clears. -/
def State.writeReg (s : State) (r : Requester) (a : Nat) (v hw : Word) : State :=
  let special :=
    if a < 0x20000 then s.writeTop r a v hw
    else if a < 0x30000 ∨ (0x40000 ≤ a ∧ a < 0x50000) then s.writeRing r a v hw
    else if a < 0x100000 then s.writeUnits r a v hw
    else s.writeBayEng r a v hw
  special.getD (s.writeFields r a v hw)

end Sys2Proof.Machine
end

