-- ==== Sys2Proof/Machine/Target.lean ====
section
/-!
DEFINITION. The transaction target and the responses and timeouts of the initiator (R161-R164, R177-R211, R215, R321): request
records with their checks, accesses to registers and windows, atomics, and a register write as a command of its own.
-/

namespace Sys2Proof.Machine

/-! ### Where an access goes (check 2 of R194) -/

/-- What a range of local addresses lies in: registers of a block, a process image window, the Caddy or the flash window. -/
inductive Place where
  | regs (block n : Nat)
  | window (w : Window)
  | caddy | flash
  deriving DecidableEq, Repr

/-- The place of the range of `n` bytes from `a` on; none is a range or alignment error, an unmapped address or an absent unit
(R144, R165, R182, R184, R202). `atomic` says that the range must be aligned wherever it lies. Several registers that are all absent
are no place, whatever checks 3 to 6 would say (DESIGN CHOICE, log entry 34: R195 gives no order); the Caddy diagnostic window and
the flash window take any byte address and length (DESIGN CHOICE, log entry 35: R182 and R183 name neither). -/
def State.placeOf (s : State) (a n : Nat) (atomic : Bool) : Option Place :=
  if atomic ∧ a % 8 ≠ 0 then none
  else
    match s.windowAt a n with
    | some w => some (.window w)
    | none =>
      match blockOf a, blockOf (a + n - 1) with
      | some b, some c =>
        if b ≠ c then none
        else if b = 0x50 then some .caddy
        else if b = 0x51 then some .flash
        else if a % 8 ≠ 0 ∨ n % 8 ≠ 0 ∨ (List.range (n / 8)).all (fun i => s.absentReg (a + 8 * i)) then none
        else some (.regs b (n / 8))
      | _, _ => none

/-- The place is in block 0x00 or 0x01. -/
def Place.low : Place → Bool
  | .regs b _ => b ≤ 1
  | .window _ => false
  | .caddy => false
  | .flash => false

/-- `n` bytes of the pattern of a code. -/
def fillBytes (c : RCode) (n : Nat) : List Byte := ((List.replicate ((n + 7) / 8) (wordBytes c.pattern)).flatten).take n

/-! ### Reads, writes, atomics -/

/-- Checks 3 to 6 of R194 for a place. -/
def State.placeScreen (s : State) (r : Requester) (a : Nat) (k : Kind) (p : Place) : Option RCode :=
  match p with
  | .regs b n => if n = 1 then s.screenOne r a k else s.blockScreen r b k
  | .window w => s.windowScreen r w k
  | .caddy => s.blockScreen r 0x50 k
  | .flash => s.blockScreen r 0x51 k

/-- Read `n` bytes from `a` on for a requester whose checks 3 to 6 have passed. -/
def State.readPlace (s : State) (r : Requester) (a n : Nat) (p : Place) : State × RCode × List Byte :=
  match p with
  | .regs _ k =>
    let (t, c, ws) := s.readRegs r (k == 1) k a
    (t, c, ws.flatMap wordBytes)
  | .window w =>
    let o := w.memOffset + (a - w.base)
    let (t, ok, bs) := s.memRead o n
    if ok then (t, .ok, bs) else (t, .ecc, patched (fun k => s.eccOf .pimem ((o + k) / 8) == .bad) bs n)
  | .caddy => s.caddyRead (a - 0x1000000) n
  | .flash => s.flashWindowRead (a - 0x8000000) n

/-- Write words to the registers from `a` on, in ascending order, each by its own rules (R185, R195). -/
def State.writeRegs (s : State) (r : Requester) (hw : Word) : Nat → List Word → State × RCode
  | _, [] => (s, .ok)
  | a, v :: rest =>
    let (t, c) : State × RCode :=
      if s.absentReg a then (s, .absent) else if s.regPriv r a .write then (s, .priv) else (s.writeReg r a v hw, .ok)
    let (u, d) := State.writeRegs t r hw (a + 8) rest
    (u, c.join d)

/-- Write bytes from `a` on for a requester whose checks 3 to 6 have passed. `hw` is 0 but for the command REGISTER_WRITE. -/
def State.writePlace (s : State) (r : Requester) (a : Nat) (hw : Word) (bs : List Byte) (p : Place) : State × RCode :=
  match p with
  | .regs _ k => s.writeRegs r hw a (bytesWords k bs)
  | .window w =>
    let (t, ok) := s.memWrite (w.memOffset + (a - w.base)) bs
    (t, if ok then .ok else .ecc)
  | .caddy => (s, .priv)
  | .flash => (s, .priv)

/-- What an atomic writes, from the prior value; none when it writes nothing (R204). -/
inductive Atomic where
  | faa (addend : Word)
  | fao (mask : Word)
  | cas (compare swap : Word)
  deriving DecidableEq, Repr

def Atomic.new (x : Atomic) (prior : Word) : Option Word :=
  match x with
  | .faa addend => some (prior + addend)
  | .fao mask => some (prior ||| mask)
  | .cas compare swap => if prior = compare then some swap else none

/-- Perform an atomic on the word at `a` (R202-R204): the state, the code and the prior value. -/
def State.atomicPlace (s : State) (a : Nat) (x : Atomic) (p : Place) : State × RCode × Word :=
  match p with
  | .regs _ _ =>
    let prior := s.word a
    match x.new prior with
    | some v => (s.setWord a v, .ok, prior)
    | none => (s, .ok, prior)
  | .window w =>
    let o := w.memOffset + (a - w.base)
    let (t, ok, bs) := s.memRead o 8
    if !ok then (t, .ecc, RCode.ecc.pattern)
    else
      match x.new (bytesWord bs) with
      | some v => ((t.memWrite o (wordBytes v)).1, .ok, bytesWord bs)
      | none => (t, .ok, bytesWord bs)
  | .caddy => (s, .priv, 0)
  | .flash => (s, .priv, 0)

/-! ### Requests as they arrive -/

/-- The hub's own node number on a ring (R162, R163); 0 on a ring that it does not belong to. -/
def State.ownNode (s : State) (ring : Nat) : Nat :=
  if s.isCoupler ∧ ring = s.ringOf 2 then s.nodeOf 2 else if ring = s.ringOf 0 then s.nodeOf 0 else 0

/-- The node number that a response carries as its responder's (R177): the hub's own on the ring that the request named, and for one that
came by a tap port and named a ring that the hub is not on its number on its main ring. -/
def State.responderNode (s : State) (ring : Nat) : Nat :=
  if ring = s.ringOf 0 ∨ (s.isCoupler ∧ ring = s.ringOf 2) then s.ownNode ring else s.nodeOf 0

/-- The tap port on which a request came. -/
def State.tapOf (s : State) (t : Txn) : Option Nat :=
  match t.port with
  | some p => if 2 ≤ p.val ∧ s.portFunction p.val ≠ 1 then some p.val else none
  | none => none

/-- The request reaches this hub's target by its node number (R162-R164). -/
def State.nodeOk (s : State) (t : Txn) (posted : Bool) : Bool :=
  let n := t.node.toNat
  if n = 0 then t.port.isNone || (s.tapOf t).isSome
  else if n = 0xFF then posted
  else decide (n ≤ 0xFA ∧ n = s.ownNode t.dstRing.val)

/-- The request is not allowed to this requester at all, under check 5: Local from outside (R169), or a record that a CLAIM of the
Sieve does not permit (R321). -/
def txnDenied (t : Txn) : Bool :=
  t.port.isSome &&
  (t.who.level == .localLevel ||
    (match t.claim with
      | none => false
      | some c => !c.masters.getLsbD t.who.master.val ||
          (match t.who.level with
            | .supervisor => !c.supervisor
            | .operator => !c.operator
            | .localLevel => true)))

/-- A master and tag with a request in flight (R189). -/
def State.tagBusy (s : State) (t : Txn) : Bool :=
  t.port.isSome && s.switch.frames.any (fun f => f.answers == some (t.who.master.val, t.tag.toNat))

/-- Slots of the target that the answers to master `m` hold. -/
def State.slotsOfMaster (s : State) (m : Nat) : Nat := (s.switch.frames.filter (fun f => f.answers.map (·.1) == some m)).length

/-- No slot is left to the master: its 32 and the 128 shared ones are in use (R187, R188). -/
def State.slotsFull (s : State) (m : Nat) : Bool :=
  decide (32 ≤ s.slotsOfMaster m) && decide (128 ≤ ((List.range 4).map (fun k => s.slotsOfMaster k - 32)).sum)

/-- A master is noted when its request arrives, with the ring it came on (R31, R207, R212, R271). A broadcast request is not addressed
to the hub and keeps it from no Island (DESIGN CHOICE, log entry 19). -/
def State.noteMaster (s : State) (t : Txn) : State :=
  if t.port.isNone then s
  else
    let m := t.who.master.val
    let rings := s.rd R.RING_NODE_master_ring
    let s := (s.wr (R.TOP_MASTER_known m) 1).wr R.RING_NODE_master_ring (rings - s.masterRing m * 4 ^ m + t.srcRing.val * 4 ^ m)
    if t.node = 0xFF then s else s.heard

/-- Where a master was found last, from a request that passes check 2 (R215). -/
def State.noteNode (s : State) (t : Txn) : State :=
  if t.port.isNone then s else s.wr (R.TOP_MASTER_node t.who.master.val) t.from_.toNat

/-- The level to which a request counts in class 0x0 and by which it is checked. -/
def txnAttrs (t : Txn) : Attrs :=
  if t.port.isSome then
    { priv := some t.who.level.code, master := some t.who.master.val, addr := some t.addr.toNat }
  else reqAttrs t.who t.addr.toNat

/-- The bytes of an answer as whole words. -/
def answerWords (bs : List Byte) : List Word := bytesWords ((bs.length + 7) / 8) bs

/-- A request that holds a slot of the target is being performed, or not any more (R187). -/
def State.setServing (s : State) (b : Bool) : State := { s with hub := { s.hub with serving := b } }

/-- The CLAIM that limits a request: that of the frame read out to the target which brought it (R321). -/
def State.claimOf (s : State) (t : Txn) : Option Claimed :=
  if t.port.isNone then none
  else s.switch.claimed.find? (fun c =>
    c.srcRing == t.srcRing.val && c.src == t.src.toNat && c.master == t.who.master.val && c.tag == t.tag.toNat)

/-- The request with its CLAIM, and the state in which the frame's mark is used up. -/
def State.withClaim (s : State) (t : Txn) : State × Txn :=
  match s.claimOf t with
  | none => (s, t)
  | some c => ({ s with switch := { s.switch with claimed := s.switch.claimed.erase c } }, { t with claim := some c.claim })

/-- Answer a request: the response record goes back the way the request came (R180, R260, R279). A request of the hub's own has no
frame. `inSlot` says that the request holds a slot of the target until the response has left. -/
def State.respond (s : State) (t : Txn) (c : RCode) (data : List Byte) (inSlot : Bool) : State :=
  let s := (s.answered c (answerWords data)).setServing false
  if t.port.isNone then s
  else
    let tap := s.tapOf t
    let head : Head := { ftype := 1, dual := tap.isNone, dst := t.src.toNat, dstRing := t.srcRing.val }
    let rec_ := recordHead 8 t.who.master.val t.who.level.code t.tag.toNat (s.responderNode t.dstRing.val) (c.num * 2 ^ 36) data.length ++
      pad8 data
    (s.originate { unit := 5, tap := tap, answers := if inSlot then some (t.who.master.val, t.tag.toNat) else none }
      (head.frame rec_)).1

/-- What becomes of a request record when it arrives (R163, R164, R181, R188, R189, R195). -/
inductive Arrival where
  | gone | full | taken
  deriving DecidableEq, Repr

/-- A request record arrives: the state with what is counted and noted, and what becomes of it. `lengthOk` says that its length is
one its type permits. A tag in flight is looked at before the slots
(DESIGN CHOICE, log entry 33: R188 and R189 meet where no slot is free). -/
def State.arrive (s : State) (t : Txn) (lengthOk posted : Bool) : State × Arrival :=
  if !s.targetUp then (s, .gone)
  else if !lengthOk ∨ !s.nodeOk t posted then (s.bump (R.TOP_TXN_CNT_count 0), .gone)
  else
    let s := s.noteMaster t
    if s.tagBusy t then (s.bump (R.TOP_TXN_CNT_count 1), .gone)
    else if t.port.isSome ∧ s.slotsFull t.who.master.val then (s.bump (R.TOP_TXN_CNT_count 2), .full)
    else ((s.wr R.TOP_TXN_LEVEL_target_peak (max (s.rd R.TOP_TXN_LEVEL_target_peak) (s.targetNow + 1))).setServing true, .taken)

/-- Checks 2 to 6 of R194 for a request that has a slot: the place, or the code that answers it. -/
def State.checkTxn (s : State) (t : Txn) (n : Nat) (k : Kind) : Except RCode Place :=
  match s.placeOf t.addr.toNat n (k == .atomic) with
  | none => .error .absent
  | some p =>
    if txnDenied t then .error ((s.modeScreen t.who p.low).getD .priv)
    else
      match s.placeScreen t.who t.addr.toNat k p with
      | some c => .error c
      | none => .ok p

/-- Note the master's place when the request has passed check 2. -/
def State.afterCheck (s : State) (t : Txn) (n : Nat) (k : Kind) : State :=
  if (s.placeOf t.addr.toNat n (k == .atomic)).isSome then s.noteNode t else s

/-- Count a request by its answer (R647). -/
def State.countAnswer (s : State) (t : Txn) (c : RCode) (ev : Nat) (bytes : Option Nat) (n : Nat) : State :=
  if c ≠ .ok then s.pmcEv 0 c.event 0 (txnAttrs t)
  else
    let s := s.pmcEv 0 ev 0 (txnAttrs t)
    match bytes with
    | none => s
    | some b => s.pmcBy 0 b 0 n (txnAttrs t)

/-- TXN_RD. Where the checks of the block refuse it, every data word is their pattern, those of absent registers too (DESIGN CHOICE, log
entry 34: R195 speaks of a read that is performed). -/
def State.txnRead (s : State) (t : Txn) (n : Nat) : State :=
  let (s, x) := s.arrive t (within 1 n 256) false
  match x with
  | .gone => s
  | .full => (s.countAnswer t .busy 0 none n).respond t .busy (fillBytes .busy n) false
  | .taken =>
    let check := s.checkTxn t n .read
    let s := s.afterCheck t n .read
    match check with
    | .error c => (s.countAnswer t c 0 none n).respond t c (fillBytes c n) true
    | .ok p =>
      let (s, c, bs) := s.readPlace t.who t.addr.toNat n p
      (s.countAnswer t c 0 (some 8) n).respond t c bs true

/-- TXN_WR, and TXN_WRA, which alone is answered. -/
def State.txnWrite (s : State) (t : Txn) (data : List Byte) (posted : Bool) : State :=
  let n := data.length
  let (s, x) := s.arrive t (within 1 n 256) posted
  match x with
  | .gone => s
  | .full =>
    let s := s.countAnswer t .busy 1 none n
    if posted then s else s.respond t .busy [] false
  | .taken =>
    let check := s.checkTxn t n .write
    let s := s.afterCheck t n .write
    let (s, c) : State × RCode :=
      match check with
      | .error c => (s, c)
      | .ok p => s.writePlace t.who t.addr.toNat 0 data p
    let s := s.countAnswer t c 1 (some 9) n
    if posted then s.setServing false else s.respond t c [] true

/-- TXN_FAA, TXN_FAO and TXN_CAS. -/
def State.txnAtomic (s : State) (t : Txn) (x : Atomic) : State :=
  let (s, got) := s.arrive t true false
  match got with
  | .gone => s
  | .full => (s.countAnswer t .busy 2 none 8).respond t .busy (fillBytes .busy 8) false
  | .taken =>
    let check := s.checkTxn t 8 .atomic
    let s := s.afterCheck t 8 .atomic
    let (s, c, w) : State × RCode × Word :=
      match check with
      | .error c => (s, c, c.pattern)
      | .ok p => s.atomicPlace t.addr.toNat x p
    (s.countAnswer t c 2 none 8).respond t c (wordBytes w) true

def execTxnRd (t : Txn) (len : Nat) (s : State) : Host.Outcome State Fault Refusal := done ((s.withClaim t).1.txnRead (s.withClaim t).2 len)

def execTxnWr (t : Txn) (data : List Byte) (s : State) : Host.Outcome State Fault Refusal := done ((s.withClaim t).1.txnWrite (s.withClaim t).2 data true)

def execTxnWra (t : Txn) (data : List Byte) (s : State) : Host.Outcome State Fault Refusal := done ((s.withClaim t).1.txnWrite (s.withClaim t).2 data false)

def execTxnFaa (t : Txn) (addend : Word) (s : State) : Host.Outcome State Fault Refusal := done ((s.withClaim t).1.txnAtomic (s.withClaim t).2 (.faa addend))

def execTxnFao (t : Txn) (mask : Word) (s : State) : Host.Outcome State Fault Refusal := done ((s.withClaim t).1.txnAtomic (s.withClaim t).2 (.fao mask))

def execTxnCas (t : Txn) (compare swap : Word) (s : State) : Host.Outcome State Fault Refusal :=
  done ((s.withClaim t).1.txnAtomic (s.withClaim t).2 (.cas compare swap))

/-! ### A register write on its own -/

/-- REGISTER_WRITE: a write of one register by a requester inside or outside the hub, while the hardware changes the bits of `hw`
(R7, R105-R107, R194). -/
def State.registerWrite (s : State) (r : Requester) (a : Nat) (v hw : Word) : State :=
  if !s.targetUp then s
  else
    let (s, c) : State × RCode :=
      match s.placeOf a 8 false with
      | none => (s, .absent)
      | some p =>
        match s.placeScreen r a .write p with
        | some c => (s, c)
        | none => s.writePlace r a hw (wordBytes v) p
    (s.countTxn r a c 1 9 8).answered c []

def execRegisterWrite (r : Requester) (a : BitVec 32) (v hwSet : Word) (s : State) : Host.Outcome State Fault Refusal :=
  done (s.registerWrite r a.toNat v hwSet)

/-! ### The initiator and notices -/

/-- The request of slot `k` ends: its slot is free, and the context that waits for it goes on. `data` is what an RD that was
answered OK returned (R209-R211, R544). -/
def State.endRequest (s : State) (k : Nat) (q : InitReq) (ok : Bool) (data : Option Word) : State :=
  let s : State := { s with initReqs := mput none s.initReqs k none }
  let x := s.ctx q.engine q.ctx
  if x.slot ≠ some k then s
  else
    let x := { x with slot := none, reqFailed := !ok }
    let x := match data with
      | some w => x.setShifter false w 64
      | none => x
    (s.setCtx q.engine q.ctx x).finish q.engine q.ctx (x.cur.getD 0) .next

/-- The word that an RD answered OK returns. The manual does not say what one of another length than 8 bytes returns. -/
def State.respWord (s : State) (data : List Byte) : Word × State :=
  if data.length = 8 then (bytesWord data, s)
  else
    let (k, t) := s.takeFree
    (Config.freeWord k, t)

/-- TXN_RESP (R211, R544). -/
def State.txnResponse (s : State) (m : Nat) (level : Level) (tag code : Nat) (data : List Byte) : State :=
  if !s.targetUp then s
  else
    match mget none s.initReqs tag with
    | none => s.bump (R.TOP_TXN_CNT_count 0)
    | some q =>
      if q.master ≠ m ∨ level ≠ .localLevel then s.bump (R.TOP_TXN_CNT_count 0)
      else
        let ok := code == 0
        let s := s.pmcEv 1 (if ok then 1 else 2) 0 (toMaster m)
        if ok ∧ q.kind = 2 then
          let (w, s) := s.respWord data
          s.endRequest tag q true (some w)
        else s.endRequest tag q ok none

def execTxnResp (m : Fin 4) (level : Level) (tag : Byte) (code : BitVec 4) (data : List Byte) (s : State) :
    Host.Outcome State Fault Refusal :=
  done (s.txnResponse m.val level tag.toNat code.toNat data)

/-- INIT_TIMEOUT (R210): the slot's request has had no response within init_timeout. -/
def State.initTimedOut (s : State) (k : Nat) : State :=
  match mget none s.initReqs k with
  | none => s
  | some q =>
    if s.asleep ∨ s.clk < q.sentAt + s.loaded.initTimeout * 1000 then s
    else ((s.bump (R.TOP_TXN_CNT_count 3)).pmcEv 1 3 0 (toMaster q.master)).endRequest k q false none

def execInitTimeout (slot : Byte) (s : State) : Host.Outcome State Fault Refusal := done (s.initTimedOut slot.toNat)

/-- NOTICE_TOKEN_REFILL (R206): one token every interval until the bucket is full. -/
def State.refillToken (s : State) (m : Nat) : State :=
  let k := s.bucket m
  let due := k.lastFill + s.rd (R.TOP_NOTICE_RATE_interval m) * 1000
  if s.asleep ∨ s.clk < due ∨ s.rd (R.TOP_NOTICE_RATE_interval m) = 0 then s
  else s.setBucket m { k with tokens := min (k.tokens + 1) (s.rd (R.TOP_NOTICE_RATE_depth m)), lastFill := due }

def execNoticeTokenRefill (m : Fin 4) (s : State) : Host.Outcome State Fault Refusal := done (s.refillToken m.val)

end Sys2Proof.Machine
end

