-- ==== Sys2Proof/Machine/Dispatch.lean ====
section
/-!
DEFINITION. The meaning of each command: one arm for each constructor of Instr.
-/

namespace Sys2Proof.Machine

def exec (i : Instr) (s : State) : Host.Outcome State Fault Refusal :=
  match i with
  | .powerOn strap => Sys2Proof.Machine.execPowerOn strap s
  | .reserveCharged => Sys2Proof.Machine.execReserveCharged s
  | .rstNLow ns => Sys2Proof.Machine.execRstNLow ns s
  | .rstNRelease strap => Sys2Proof.Machine.execRstNRelease strap s
  | .usFall => Sys2Proof.Machine.execUsFall s
  | .usHoldExpire => Sys2Proof.Machine.execUsHoldExpire s
  | .groupSupplyLoss g mv => Sys2Proof.Machine.execGroupSupplyLoss g mv s
  | .groupSupplyReturn g mv => Sys2Proof.Machine.execGroupSupplyReturn g mv s
  | .isolatorCloseDelayExpire g => Sys2Proof.Machine.execIsolatorCloseDelayExpire g s
  | .isolatorClosed g => Sys2Proof.Machine.execIsolatorClosed g s
  | .baygrpOverload k => Sys2Proof.Machine.execBaygrpOverload k s
  | .ppGroupOverload g ma => Sys2Proof.Machine.execPpGroupOverload g ma s
  | .selftestDone => Sys2Proof.Machine.execSelftestDone s
  | .selftestFail => Sys2Proof.Machine.execSelftestFail s
  | .steepComplete => Sys2Proof.Machine.execSteepComplete s
  | .steepFail storeError => Sys2Proof.Machine.execSteepFail storeError s
  | .jtagTestInstruction => Sys2Proof.Machine.execJtagTestInstruction s
  | .reqBoot r => Sys2Proof.Machine.execReqBoot r s
  | .reqSteep r => Sys2Proof.Machine.execReqSteep r s
  | .reqRun r => Sys2Proof.Machine.execReqRun r s
  | .reqSafe r => Sys2Proof.Machine.execReqSafe r s
  | .reqDoze r groups quads => Sys2Proof.Machine.execReqDoze r groups quads s
  | .reqHibernate r => Sys2Proof.Machine.execReqHibernate r s
  | .reqUpdate r => Sys2Proof.Machine.execReqUpdate r s
  | .reqTest r => Sys2Proof.Machine.execReqTest r s
  | .dozeGatingDone d => Sys2Proof.Machine.execDozeGatingDone d s
  | .dozeExitDone lost => Sys2Proof.Machine.execDozeExitDone lost s
  | .hibernatePoweredDown => Sys2Proof.Machine.execHibernatePoweredDown s
  | .wakeSource w => Sys2Proof.Machine.execWakeSource w s
  | .wakePinEdge j rising ns => Sys2Proof.Machine.execWakePinEdge j rising ns s
  | .wakeTimeDue => Sys2Proof.Machine.execWakeTimeDue s
  | .wakeAtArm r t => Sys2Proof.Machine.execWakeAtArm r t s
  | .wakeAtCancel r => Sys2Proof.Machine.execWakeAtCancel r s
  | .wakeClockDecide lost => Sys2Proof.Machine.execWakeClockDecide lost s
  | .islandTimeout => Sys2Proof.Machine.execIslandTimeout s
  | .activationRecordWritten => Sys2Proof.Machine.execActivationRecordWritten s
  | .rebootWindowClose => Sys2Proof.Machine.execRebootWindowClose s
  | .migrationEnd ok => Sys2Proof.Machine.execMigrationEnd ok s
  | .migrationTimeout => Sys2Proof.Machine.execMigrationTimeout s
  | .trialWindowExpire => Sys2Proof.Machine.execTrialWindowExpire s
  | .trialConfirmCheck => Sys2Proof.Machine.execTrialConfirmCheck s
  | .trialConfirmed => Sys2Proof.Machine.execTrialConfirmed s
  | .txnRd t len => Sys2Proof.Machine.execTxnRd t len s
  | .txnWr t data => Sys2Proof.Machine.execTxnWr t data s
  | .txnWra t data => Sys2Proof.Machine.execTxnWra t data s
  | .txnFaa t addend => Sys2Proof.Machine.execTxnFaa t addend s
  | .txnFao t mask => Sys2Proof.Machine.execTxnFao t mask s
  | .txnCas t compare swap => Sys2Proof.Machine.execTxnCas t compare swap s
  | .txnResp m level tag code data => Sys2Proof.Machine.execTxnResp m level tag code data s
  | .initTimeout slot => Sys2Proof.Machine.execInitTimeout slot s
  | .noticeTokenRefill m => Sys2Proof.Machine.execNoticeTokenRefill m s
  | .sealWrite r v => Sys2Proof.Machine.execSealWrite r v s
  | .epochWrite r v => Sys2Proof.Machine.execEpochWrite r v s
  | .settingsCommitDone => Sys2Proof.Machine.execSettingsCommitDone s
  | .sealChallenge r v => Sys2Proof.Machine.execSealChallenge r v s
  | .sealRespReady => Sys2Proof.Machine.execSealRespReady s
  | .loadStart r => Sys2Proof.Machine.execLoadStart r s
  | .loadDiscardStaged r => Sys2Proof.Machine.execLoadDiscardStaged r s
  | .loadAbort r => Sys2Proof.Machine.execLoadAbort r s
  | .loadVerify r => Sys2Proof.Machine.execLoadVerify r s
  | .loadVerifyDone => Sys2Proof.Machine.execLoadVerifyDone s
  | .loadBufWrite r n v => Sys2Proof.Machine.execLoadBufWrite r n v s
  | .loadPut r block words => Sys2Proof.Machine.execLoadPut r block words s
  | .loadPutDone => Sys2Proof.Machine.execLoadPutDone s
  | .stagingEraseDone => Sys2Proof.Machine.execStagingEraseDone s
  | .updVerify r => Sys2Proof.Machine.execUpdVerify r s
  | .updChecksDone => Sys2Proof.Machine.execUpdChecksDone s
  | .updBuildDone storeError => Sys2Proof.Machine.execUpdBuildDone storeError s
  | .updResume r => Sys2Proof.Machine.execUpdResume r s
  | .updCancel r => Sys2Proof.Machine.execUpdCancel r s
  | .updAbandon r => Sys2Proof.Machine.execUpdAbandon r s
  | .updTrialWrite r v => Sys2Proof.Machine.execUpdTrialWrite r v s
  | .frameReceive rx => Sys2Proof.Machine.execFrameReceive rx s
  | .pourFrame rx => Sys2Proof.Machine.execPourFrame rx s
  | .syncReceived p f stamp => Sys2Proof.Machine.execSyncReceived p f stamp s
  | .pdreqReceived p f turnaround => Sys2Proof.Machine.execPdreqReceived p f turnaround s
  | .pdrespReceived p f stamp => Sys2Proof.Machine.execPdrespReceived p f stamp s
  | .pdelayReqSend p => Sys2Proof.Machine.execPdelayReqSend p s
  | .pdelayTimeout p => Sys2Proof.Machine.execPdelayTimeout p s
  | .syncTimeout => Sys2Proof.Machine.execSyncTimeout s
  | .timeStepCmd r => Sys2Proof.Machine.execTimeStepCmd r s
  | .resonatorFail => Sys2Proof.Machine.execResonatorFail s
  | .resonatorReady => Sys2Proof.Machine.execResonatorReady s
  | .timebaseLoss => Sys2Proof.Machine.execTimebaseLoss s
  | .heartbeatReceived sub f => Sys2Proof.Machine.execHeartbeatReceived sub f s
  | .heartbeatSend => Sys2Proof.Machine.execHeartbeatSend s
  | .couplerEvaluate lineHigh => Sys2Proof.Machine.execCouplerEvaluate lineHigh s
  | .cplBackoffEnd => Sys2Proof.Machine.execCplBackoffEnd s
  | .cplLineFaultDetect => Sys2Proof.Machine.execCplLineFaultDetect s
  | .cplRelease r => Sys2Proof.Machine.execCplRelease r s
  | .gatewaySyncSend => Sys2Proof.Machine.execGatewaySyncSend s
  | .gptpSyncSend p => Sys2Proof.Machine.execGptpSyncSend p s
  | .gptpAnnounceSend p => Sys2Proof.Machine.execGptpAnnounceSend p s
  | .gptpSyncReceived p => Sys2Proof.Machine.execGptpSyncReceived p s
  | .linkLoss fault => Sys2Proof.Machine.execLinkLoss fault s
  | .linkUp p => Sys2Proof.Machine.execLinkUp p s
  | .blockLock p => Sys2Proof.Machine.execBlockLock p s
  | .rateHuntSwitch p => Sys2Proof.Machine.execRateHuntSwitch p s
  | .linkMarginCheck p invalid => Sys2Proof.Machine.execLinkMarginCheck p invalid s
  | .ringRateWrite r next t => Sys2Proof.Machine.execRingRateWrite r next t s
  | .rateSwitch => Sys2Proof.Machine.execRateSwitch s
  | .ringCtrlWrite r v => Sys2Proof.Machine.execRingCtrlWrite r v s
  | .nodeAdopt r => Sys2Proof.Machine.execNodeAdopt r s
  | .nodeAdoptSub r => Sys2Proof.Machine.execNodeAdoptSub r s
  | .strainerReset r => Sys2Proof.Machine.execStrainerReset r s
  | .steamEnumReceived p m => Sys2Proof.Machine.execSteamEnumReceived p m s
  | .steamWakeReceived p m => Sys2Proof.Machine.execSteamWakeReceived p m s
  | .steamMessageForward p m => Sys2Proof.Machine.execSteamMessageForward p m s
  | .beaconSend => Sys2Proof.Machine.execBeaconSend s
  | .enumSend => Sys2Proof.Machine.execEnumSend s
  | .ringClosedTimeout sub => Sys2Proof.Machine.execRingClosedTimeout sub s
  | .outputStartFrame p => Sys2Proof.Machine.execOutputStartFrame p s
  | .holdTimeExpire p => Sys2Proof.Machine.execHoldTimeExpire p s
  | .reseqHoldExpire p id => Sys2Proof.Machine.execReseqHoldExpire p id s
  | .reseqKeyAge p src flow => Sys2Proof.Machine.execReseqKeyAge p src flow s
  | .caddyAudit doubleFreed => Sys2Proof.Machine.execCaddyAudit doubleFreed s
  | .pourGuardOpen p => Sys2Proof.Machine.execPourGuardOpen p s
  | .pourGuardTimeout p => Sys2Proof.Machine.execPourGuardTimeout p s
  | .cycSamplePoint n => Sys2Proof.Machine.execCycSamplePoint n s
  | .cycSnapshotDone n => Sys2Proof.Machine.execCycSnapshotDone n s
  | .cycApplyPoint n => Sys2Proof.Machine.execCycApplyPoint n s
  | .schedArm r n t => Sys2Proof.Machine.execSchedArm r n t s
  | .schedCancel r n => Sys2Proof.Machine.execSchedCancel r n s
  | .schedDue n => Sys2Proof.Machine.execSchedDue n s
  | .launchLoad r n words => Sys2Proof.Machine.execLaunchLoad r n words s
  | .launchHandover n => Sys2Proof.Machine.execLaunchHandover n s
  | .timeioPeriodicEdge k => Sys2Proof.Machine.execTimeioPeriodicEdge k s
  | .timeioPulseEnd k => Sys2Proof.Machine.execTimeioPulseEnd k s
  | .timeioCapture k rising stamp => Sys2Proof.Machine.execTimeioCapture k rising stamp s
  | .timeioCapturePop r k => Sys2Proof.Machine.execTimeioCapturePop r k s
  | .timeioPeriodWrite r k v => Sys2Proof.Machine.execTimeioPeriodWrite r k v s
  | .pinEdgeAccept g level stamp => Sys2Proof.Machine.execPinEdgeAccept g level stamp s
  | .pinOverloadTrip g => Sys2Proof.Machine.execPinOverloadTrip g s
  | .overloadClear r n mask hwSet => Sys2Proof.Machine.execOverloadClear r n mask hwSet s
  | .bayOutWrite r n v => Sys2Proof.Machine.execBayOutWrite r n v s
  | .rxPop r n => Sys2Proof.Machine.execRxPop r n s
  | .txPush r n v => Sys2Proof.Machine.execTxPush r n v s
  | .rxFlush r n => Sys2Proof.Machine.execRxFlush r n s
  | .txFlush r n => Sys2Proof.Machine.execTxFlush r n s
  | .baySegmentSend n => Sys2Proof.Machine.execBaySegmentSend n s
  | .bayDataFrame p f => Sys2Proof.Machine.execBayDataFrame p f s
  | .segmentPush p => Sys2Proof.Machine.execSegmentPush p s
  | .segmentHoldTimeout p => Sys2Proof.Machine.execSegmentHoldTimeout p s
  | .contextStart r e start stop => Sys2Proof.Machine.execContextStart r e start stop s
  | .contextStop r e stop => Sys2Proof.Machine.execContextStop r e stop s
  | .progWrite r e n v => Sys2Proof.Machine.execProgWrite r e n v s
  | .gridRelease e c => Sys2Proof.Machine.execGridRelease e c s
  | .actionEffect e c k => Sys2Proof.Machine.execActionEffect e c k s
  | .shiftEnd e c out => Sys2Proof.Machine.execShiftEnd e c out s
  | .wpinEvent e c => Sys2Proof.Machine.execWpinEvent e c s
  | .wpinTimeout e c => Sys2Proof.Machine.execWpinTimeout e c s
  | .contextResume e c => Sys2Proof.Machine.execContextResume e c s
  | .infWait e c => Sys2Proof.Machine.execInfWait e c s
  | .infAt e c => Sys2Proof.Machine.execInfAt e c s
  | .infOut e c => Sys2Proof.Machine.execInfOut e c s
  | .infIn e c => Sys2Proof.Machine.execInfIn e c s
  | .infSho e c => Sys2Proof.Machine.execInfSho e c s
  | .infShi e c => Sys2Proof.Machine.execInfShi e c s
  | .infWpin e c => Sys2Proof.Machine.execInfWpin e c s
  | .infStamp e c => Sys2Proof.Machine.execInfStamp e c s
  | .infJmp e c => Sys2Proof.Machine.execInfJmp e c s
  | .setC0 e c => Sys2Proof.Machine.execSetC0 e c s
  | .setC1 e c => Sys2Proof.Machine.execSetC1 e c s
  | .setBitTimer e c => Sys2Proof.Machine.execSetBitTimer e c s
  | .setLoop e c => Sys2Proof.Machine.execSetLoop e c s
  | .setOutShifter e c => Sys2Proof.Machine.execSetOutShifter e c s
  | .setClearIn e c => Sys2Proof.Machine.execSetClearIn e c s
  | .setFlags e c => Sys2Proof.Machine.execSetFlags e c s
  | .infQput e c => Sys2Proof.Machine.execInfQput e c s
  | .infQget e c => Sys2Proof.Machine.execInfQget e c s
  | .aluAdd e c => Sys2Proof.Machine.execAluAdd e c s
  | .aluSub e c => Sys2Proof.Machine.execAluSub e c s
  | .aluAnd e c => Sys2Proof.Machine.execAluAnd e c s
  | .aluOr e c => Sys2Proof.Machine.execAluOr e c s
  | .aluXor e c => Sys2Proof.Machine.execAluXor e c s
  | .aluShl e c => Sys2Proof.Machine.execAluShl e c s
  | .aluShr e c => Sys2Proof.Machine.execAluShr e c s
  | .aluMov e c => Sys2Proof.Machine.execAluMov e c s
  | .aluCrc e c => Sys2Proof.Machine.execAluCrc e c s
  | .aluIns e c => Sys2Proof.Machine.execAluIns e c s
  | .aluExtr e c => Sys2Proof.Machine.execAluExtr e c s
  | .syncSignal e c => Sys2Proof.Machine.execSyncSignal e c s
  | .syncWait e c => Sys2Proof.Machine.execSyncWait e c s
  | .noteNotice e c => Sys2Proof.Machine.execNoteNotice e c s
  | .noteKettle e c => Sys2Proof.Machine.execNoteKettle e c s
  | .extNop e c => Sys2Proof.Machine.execExtNop e c s
  | .extHalt e c => Sys2Proof.Machine.execExtHalt e c s
  | .extFlush e c => Sys2Proof.Machine.execExtFlush e c s
  | .extLdm e c => Sys2Proof.Machine.execExtLdm e c s
  | .extStm e c => Sys2Proof.Machine.execExtStm e c s
  | .rqWr e c => Sys2Proof.Machine.execRqWr e c s
  | .rqWra e c => Sys2Proof.Machine.execRqWra e c s
  | .rqRd e c => Sys2Proof.Machine.execRqRd e c s
  | .extGett e c => Sys2Proof.Machine.execExtGett e c s
  | .extRdreg e c => Sys2Proof.Machine.execExtRdreg e c s
  | .portCmdWrite r k on => Sys2Proof.Machine.execPortCmdWrite r k on s
  | .portFastTrip k => Sys2Proof.Machine.execPortFastTrip k s
  | .portDiodeTrip k tj => Sys2Proof.Machine.execPortDiodeTrip k tj s
  | .portModelEval k mw tj => Sys2Proof.Machine.execPortModelEval k mw tj s
  | .portFaultTimerUpdate k => Sys2Proof.Machine.execPortFaultTimerUpdate k s
  | .portTimerTrip k => Sys2Proof.Machine.execPortTimerTrip k s
  | .portRegulationEnter k => Sys2Proof.Machine.execPortRegulationEnter k s
  | .portRegulationExit k => Sys2Proof.Machine.execPortRegulationExit k s
  | .portPowerGoodRise k vout => Sys2Proof.Machine.execPortPowerGoodRise k vout s
  | .portOutputDrop k vout => Sys2Proof.Machine.execPortOutputDrop k vout s
  | .portCooled k tj => Sys2Proof.Machine.execPortCooled k tj s
  | .portRetryExpire k => Sys2Proof.Machine.execPortRetryExpire k s
  | .portDamagedDeclare k => Sys2Proof.Machine.execPortDamagedDeclare k s
  | .portDamagedClear r k => Sys2Proof.Machine.execPortDamagedClear r k s
  | .portCfgWrite r k v => Sys2Proof.Machine.execPortCfgWrite r k v s
  | .portMeasureUpdate k vout ma supply groupMa tj => Sys2Proof.Machine.execPortMeasureUpdate k vout ma supply groupMa tj s
  | .groupOpenCmd r g => Sys2Proof.Machine.execGroupOpenCmd r g s
  | .groupCloseCmd r g => Sys2Proof.Machine.execGroupCloseCmd r g s
  | .scriptStart r start stop => Sys2Proof.Machine.execScriptStart r start stop s
  | .scriptStop r stop => Sys2Proof.Machine.execScriptStop r stop s
  | .seqEnd n => Sys2Proof.Machine.execSeqEnd n s
  | .seqOn n => Sys2Proof.Machine.execSeqOn n s
  | .seqOff n => Sys2Proof.Machine.execSeqOff n s
  | .seqWaitpg n => Sys2Proof.Machine.execSeqWaitpg n s
  | .seqWaitpgDone n => Sys2Proof.Machine.execSeqWaitpgDone n s
  | .seqWaitpgTimeout n => Sys2Proof.Machine.execSeqWaitpgTimeout n s
  | .seqWait n => Sys2Proof.Machine.execSeqWait n s
  | .seqWaitExpire n => Sys2Proof.Machine.execSeqWaitExpire n s
  | .seqJmp n => Sys2Proof.Machine.execSeqJmp n s
  | .seqJlatch n => Sys2Proof.Machine.execSeqJlatch n s
  | .seqNote n => Sys2Proof.Machine.execSeqNote n s
  | .vsiAck => Sys2Proof.Machine.execVsiAck s
  | .vsiTimeout => Sys2Proof.Machine.execVsiTimeout s
  | .windowWrite r v => Sys2Proof.Machine.execWindowWrite r v s
  | .loopResume r => Sys2Proof.Machine.execLoopResume r s
  | .avsLoopEval canary => Sys2Proof.Machine.execAvsLoopEval canary s
  | .tempUpdate hub power regulator => Sys2Proof.Machine.execTempUpdate hub power regulator s
  | .kettleScrub corrected bad => Sys2Proof.Machine.execKettleScrub corrected bad s
  | .kettleMaskExpire n => Sys2Proof.Machine.execKettleMaskExpire n s
  | .kettleTxOffExpire p => Sys2Proof.Machine.execKettleTxOffExpire p s
  | .errNPulseEnd => Sys2Proof.Machine.execErrNPulseEnd s
  | .forceEnd r bays => Sys2Proof.Machine.execForceEnd r bays s
  | .pmcFreeze r snapshot => Sys2Proof.Machine.execPmcFreeze r snapshot s
  | .pmcUnfreeze r => Sys2Proof.Machine.execPmcUnfreeze r s
  | .pmcClearAll r => Sys2Proof.Machine.execPmcClearAll r s
  | .pmcSnapshot r => Sys2Proof.Machine.execPmcSnapshot r s
  | .pmcSnapshotDone => Sys2Proof.Machine.execPmcSnapshotDone s
  | .pmcSamplePop r => Sys2Proof.Machine.execPmcSamplePop r s
  | .pmcSampleIdle n => Sys2Proof.Machine.execPmcSampleIdle n s
  | .registerWrite r a v hwSet => Sys2Proof.Machine.execRegisterWrite r a v hwSet s
  | .usReturn => Sys2Proof.Machine.execUsReturn s
  | .resonatorStartTimeout => Sys2Proof.Machine.execResonatorStartTimeout s
  | .driverCurrentLimit g on => Sys2Proof.Machine.execDriverCurrentLimit g on s
  | .baygrpOutputCurrent k above => Sys2Proof.Machine.execBaygrpOutputCurrent k above s
  | .jtagEndOfTest => Sys2Proof.Machine.execJtagEndOfTest s

end Sys2Proof.Machine
end

