-- ==== Sys2Proof/Machine/Tick.lean ====
section
/-!
DEFINITION. One tick of the time grid, 2 ns of plant time (R96, R361): the counter, the issue slots of the engines (R649), the
edges that the hub's own drivers make (R410), the times that registers count in milliseconds (R221, R287, R595), the trial window (R688) and the Steam words (R251). It is what
a step does when no command waits (log entry 2).
-/

namespace Sys2Proof.Machine

/-- Category of a slot of an engine: 0 retired, 1 wasted, 2 front-starved, 3 back-starved (R649). -/
def Engine.slotOf (x : Engine) : Nat :=
  let fetching (again : Bool) : Bool := x.ctxs.any (fun kv => kv.2.st == .waiting && kv.2.wait == 9 && kv.2.refetch == again)
  if !x.issued.isEmpty then 0 else if x.wasted ∨ fetching true then 1 else if fetching false then 2 else 3

/-- The tick was a slot of the engine. -/
def Engine.hasSlot (x : Engine) : Bool := x.live || x.ctxs.any (fun kv => kv.2.active)

/-- Whether the instructions that issued in the tick will stand is not known yet: each is a grid instruction of its context that waits for
its release or its event, so that the slot is charged when that has come (R649). -/
def Engine.undecided (x : Engine) : Bool :=
  !x.issued.isEmpty && decide x.issued.Nodup && x.issued.all (fun c => (mget {} x.ctxs c).grid.isSome)

/-- Charge the tick that ends to engine `e`. -/
def State.chargeSlot (s : State) (e : Nat) : State :=
  let x := s.engine e
  let held := x.undecided
  let s : State := if !x.hasSlot ∨ held then s else s.chargeAs e x.slotOf
  if x.live ∨ x.wasted ∨ !x.issued.isEmpty then
    s.setEngine e { s.engine e with
      issued := [], wasted := false, live := false, owed := if held then x.owed ++ [x.issued] else x.owed }
  else s

/-- A millisecond since `t` ends with the tick that ends at `clk`. -/
def msEnds (t clk : Nat) : Bool := decide ((clk - 2 - t) / 1000000 < (clk - t) / 1000000)

/-- Milliseconds at risk of ring ports, of the Caddy and of the voltage loop. -/
def State.countRisk (s : State) : State :=
  let s := (List.range 4).foldl (fun (t : State) p =>
    match (mget {} t.ring.links p).riskSince with
    | some since => if t.on (R.RING_PORT_at_risk p) ∧ msEnds since t.clk then t.bump (R.RING_PORT_risk_ms p) else t
    | none => t) s
  let s := s.switch.outputs.foldl (fun (t : State) kv =>
    match kv.2.riskSince with
    | some since => if msEnds since t.clk then t.bump R.CAD_RISK_clamp_ms else t
    | none => t) s
  match s.power.riskSince with
  | some since => if msEnds since s.clk then s.bump R.PWR_LOOP_clamp_ms else s
  | none => s

/-- One tick. In reset nothing passes but time. -/
def State.tick (s : State) : State :=
  let s : State := { s with clk := s.clk + 2 }
  if s.inReset then s
  else
    let s : State := { s with now := s.now + 2 }
    let s : State := if s.hub.mode = .trial then { s with upd := { s.upd with trialNs := s.upd.trialNs + 2 } } else s
    let s := ((List.range 16).foldl State.chargeSlot s).acceptComings
    s.steamPorts.foldl State.drainSteam s.countRisk

end Sys2Proof.Machine
end

