-- ==== Sys2Proof/Machine/Arbiter.lean ====
section
/-!
DEFINITION. The arbiters before the queue (R99-R102): `State.offer` puts commands that are concurrent, having come within the window of an
arbiter, behind the waiting ones in the order of its tie-break. What a command asks of the arbiters is read off its operands where these
say it, and otherwise off what it does in the state that the waiting commands leave. Commands that meet at no arbiter keep the order in
which they are given. Pin drives and the Strainer settle their own ties within the commands (log entry 1).
-/

namespace Sys2Proof.Machine

/-- Operations on a bay FIFO (R439); a push with the places that it needs (R699). -/
inductive FifoOp where
  | push (places : Nat)
  | pop | flush
  deriving DecidableEq, Repr

/-- What a command asks of an arbiter. -/
inductive Ask where
  /-- the transaction target: the master (R102, R189) -/
  | tag (master : Nat)
  /-- a block, with 0x52 for the process image memory: masters 0 to 3, then Local as 4 (R102, R186, R191, R545) -/
  | access (block rank : Nat)
  /-- a register word: a write, or a change by the hardware (R105-R107) -/
  | field (addr : Nat) (hardware : Bool)
  /-- the mode: the order of R35, and the rank of a request -/
  | mode (order rank : Nat)
  /-- the regulator link: the order of R590 -/
  | vsi (order : Nat)
  /-- the free list: whether it takes leaves (R284) -/
  | leaves (takes : Bool)
  /-- a write of the Caddy for an ingress port (R102, R276) -/
  | caddy (port : Nat)
  /-- an RX or TX FIFO of a bay -/
  | fifo (rx : Bool) (bay : Nat) (op : FifoOp)
  /-- the turn of a context (R467) -/
  | turn (engine ctx : Nat)
  /-- the turn of a script of the sequencer (R581) -/
  | script (i : Nat)
  /-- the flags of an engine: the order of R537 -/
  | flags (engine order : Nat)
  /-- the events of a power port: the order of R571 -/
  | port (k order : Nat)
  /-- the Kettle: an event of a source, with its severity (R622) -/
  | kettle (severity src : Nat)
  deriving DecidableEq, Repr

/-! ### Register accesses -/

/-- Rank of a requester at the block access arbiter. -/
def accessRank (r : Requester) : Nat := if r.level = .localLevel then 4 else r.master.val

/-- The access to one register that a command is: who makes it, where, and what it writes, as far as an arbiter looks at it; none of it
for a read. -/
def regOf (i : Instr) : Option (Requester × Nat × Option Word) :=
  match i with
  | .reqBoot r | .reqSteep r | .reqRun r | .reqSafe r | .reqDoze r _ _ | .reqHibernate r | .reqUpdate r | .reqTest r =>
    some (r.who, R.TOP_MODE_REQ, some 0)
  | .sealWrite r _ => some (r, R.TOP_SEAL, some 0)
  | .epochWrite r _ => some (r, R.TOP_EPOCH, some 0)
  | .sealChallenge r _ => some (r, R.TOP_SEAL_CHAL, some 0)
  | .loadStart r | .loadDiscardStaged r | .loadAbort r | .loadVerify r => some (r, R.STP_LOAD_CTRL, some 0)
  | .loadBufWrite r i _ => some (r, R.STP_LOAD_BUF i.val, some 0)
  | .loadPut r _ _ => some (r, R.STP_LOAD_PUT, some 0)
  | .updVerify r | .updResume r | .updCancel r | .updAbandon r => some (r, R.UPD_CTRL, some 0)
  | .updTrialWrite r _ => some (r, R.UPD_TRIAL, some 0)
  | .windowWrite r _ => some (r, R.PWR_WINDOW, some 0)
  | .loopResume r => some (r, R.PWR_LOOP, some 0)
  | .wakeAtArm r _ | .wakeAtCancel r => some (r, R.PWR_WAKE_AT, some 0)
  | .ringRateWrite r _ _ => some (r, R.RING_RATE, some 0)
  | .ringCtrlWrite r _ => some (r, R.RING_CTRL, some 0)
  | .strainerReset r => some (r, R.STR_CTRL, some 0)
  | .nodeAdopt r | .nodeAdoptSub r => some (r, R.RING_NODE, some 0)
  | .cplRelease r => some (r, R.RING_CPL, some 0)
  | .timeStepCmd r => some (r, R.TIM_CTRL, some 0)
  | .schedArm r i _ | .schedCancel r i => some (r, R.TIM_SCHED_T i.val, some 0)
  | .launchLoad r i _ => some (r, R.TIM_LAUNCH_CTL i.val, some 0)
  | .timeioCapturePop r k => some (r, R.TIM_CAPTURE k.val, none)
  | .timeioPeriodWrite r k _ => some (r, R.TIM_IO_PER k.val, some 0)
  | .overloadClear r n _ _ => some (r, R.BAY_PINSTAT n.val, some 0)
  | .bayOutWrite r n _ => some (r, R.BAY_OUT n.val, some 0)
  | .rxPop r n => some (r, R.BAY_RXPOP n.val, none)
  | .txPush r n v => some (r, R.BAY_TXPUSH n.val, some v)
  | .rxFlush r n => some (r, R.BAY_RXCTL n.val, some 0x100)
  | .txFlush r n => some (r, R.BAY_TXCTL n.val, some 0x100)
  | .contextStart r e start stop => some (r, R.INF_CTRL e.val, some (pack [(0, start.toNat), (32, stop.toNat)]))
  | .contextStop r e stop => some (r, R.INF_CTRL e.val, some (pack [(32, stop.toNat)]))
  | .progWrite r e i v => some (r, R.INF_PROG e.val i.val, some v)
  | .forceEnd r _ => some (r, R.KET_FORCE, some 0)
  | .pmcFreeze r _ | .pmcUnfreeze r | .pmcClearAll r | .pmcSnapshot r => some (r, R.PMC_CTRL, some 0)
  | .pmcSamplePop r => some (r, R.PMC_SAMPLE, none)
  | .portCmdWrite r k on => some (r, R.PWP_CMD k.val, some (BitVec.ofNat 64 (bit01 on)))
  | .portCfgWrite r k v => some (r, R.PWP_CFG k.val, some v)
  | .portDamagedClear r k => some (r, R.PWP_STAT k.val, some 0)
  | .groupOpenCmd r g => some (r, R.PWP_GROUP g.val, some 1)
  | .groupCloseCmd r g => some (r, R.PWP_GROUP g.val, some 2)
  | .scriptStart r _ _ | .scriptStop r _ => some (r, R.PWP_SEQ_CTRL, some 0)
  | .registerWrite r a v _ => some (r, a.toNat, some v)
  | _ => none

/-- The request record that a command brings, and what it writes; none of it for a read. An atomic writes a scratch word or the memory. -/
def txnOf (i : Instr) : Option (Txn × Nat × Option (List Byte)) :=
  match i with
  | .txnRd t n => some (t, n, none)
  | .txnWr t d | .txnWra t d => some (t, d.length, some d)
  | .txnFaa t v | .txnFao t v | .txnCas t _ v => some (t, 8, some (wordBytes v))
  | _ => none

/-- The isolator of a group opens, at each of its ports (R571). -/
def isolatorAsks (g : Nat) : List Ask := (List.range 16).map (fun j => .port (16 * g + j) 4)

/-- What a requester asks with an access to the register at `a`, beside its block: `v` is written, or it is read. A write of KET_ERRPIN
sets a bit, which wins over its clearing by the hardware (R106): it is the later of the two. -/
def State.regAsks (s : State) (r : Requester) (a : Nat) (v : Option Word) : List Ask :=
  match v with
  | none => ((bayAt 0x110 a).map (fun n => Ask.fifo true n .pop)).toList
  | some v =>
    .field a false ::
    (if a = R.TOP_MODE_REQ then [.mode 5 (accessRank r)]
     else if a = R.RING_CTRL then [.mode 4 0]
     else if a = R.PWR_WINDOW then [.vsi 1]
     else if a = R.PMC_CTRL then (List.range 64).map (fun i => .field (R.PMC_CNT i) false)
     else match nth a (R.PWP_CMD 0) 32, nth a (R.PWP_GROUP 0) 2, engineAt a with
      | some k, _, _ => [.port k (if fget v 0 1 = 1 then 9 else 6)]
      | _, some g, _ => if fget v 0 1 = 1 then isolatorAsks g else []
      | _, _, some (e, 0) => if fget v 0 16 = 0 then [] else [.flags e 0]
      | _, _, _ =>
        ((bayAt 0x108 a).filter (fun _ => fget v 8 1 == 1)).toList.map (fun n => .fifo true n .flush) ++
        ((bayAt 0x188 a).filter (fun _ => fget v 8 1 == 1)).toList.map (fun n => .fifo false n .flush) ++
        (bayAt 0x198 a).toList.map (fun n =>
          .fifo false n (.push ((s.tx n).placesFor (bitAt (s.rd (R.BAY_TXTAG_tags n)) 0)))))

/-- The registers of a range, with what is written to each. -/
def wordsAt (a n : Nat) (d : Option (List Byte)) : List (Nat × Option Word) :=
  match d with
  | none => (List.range n).map (fun i => (a + 8 * i, none))
  | some bs => (List.range n).zip (bytesWords n bs) |>.map (fun x => (a + 8 * x.1, some x.2))

/-- The registers that a command of a requester reads or writes. -/
def State.touched (s : State) (i : Instr) : List (Nat × Option Word) :=
  match regOf i, txnOf i with
  | some (_, a, v), _ => [(a, v)]
  | _, some (t, n, d) =>
    match s.placeOf t.addr.toNat n false with
    | some (.regs _ k) => wordsAt t.addr.toNat k d
    | _ => []
  | _, _ => []

/-- Block number of the process image memory at its access arbiter. -/
def imageBlock : Nat := 0x52

/-- What a requester asks with a command of its own. -/
def State.requestAsks (s : State) (i : Instr) : List Ask :=
  let (who, place) : Option Requester × Option Nat :=
    match regOf i, txnOf i with
    | some (r, a, _), _ => (some r, blockOf a)
    | _, some (t, n, _) => (some t.who, (s.placeOf t.addr.toNat n false).map (fun p =>
        match p with
        | .regs b _ => b
        | .window _ => imageBlock
        | .caddy => 0x50
        | .flash => 0x51))
    | _, _ => (none, none)
  match who with
  | none => []
  | some r =>
    (if r.level = .localLevel then [] else [.tag r.master.val]) ++ place.toList.map (fun b => .access b (accessRank r)) ++
    (s.touched i).flatMap (fun x => s.regAsks r x.1 x.2)

/-! ### Engines -/

/-- What a context asks with the instruction of a word. -/
def State.wordAsks (s : State) (e : Nat) (w : Option (BitVec 32)) : List Ask :=
  match w.bind decodeInsn with
  | some (.qput _ _ sop _ bay _) => [.fifo true bay (.push ((s.rx bay).placesFor sop))]
  | some (.stamp _ bay _ _ sop false _) => [.fifo true bay (.push ((s.rx bay).placesFor sop))]
  | some (.qget bay _) => [.fifo false bay .pop]
  | some (.flush bay tx) => [.fifo (!tx) bay .flush]
  | some (.signal engine _ _) => [.flags engine (1 + e)]
  | some (.await _ _) => [.flags e 17]
  | some (.jmp cond _ _) => if cond = 0xD ∨ cond = 0xE then [.flags e 17] else []
  | _ => []

/-- The fetch of a next word, a Local request to the engine's block (R493). -/
def fetchAsk (e : Nat) : Ask := .access (0x40 + e) 4

/-- What a context asks with the instruction that it issues. -/
def State.insnAsks (s : State) (e c : Fin 16) : List Ask :=
  .turn e.val c.val :: fetchAsk e.val :: s.wordAsks e.val (s.wordAt e.val c.val)

/-- What a context asks as its wait ends: for the access that an LDM, STM or RDREG waits for, or for the instruction again (R506). -/
def State.resumeAsks (s : State) (e c : Fin 16) : List Ask :=
  let x := s.ctx e.val c.val
  fetchAsk e.val ::
  (if x.wait ≠ 9 then s.wordAsks e.val x.cur
   else match x.cur.bind decodeInsn with
    | some (.ldm _ _ _) => [.access imageBlock 4]
    | some (.stm _ _ _) => [.access imageBlock 4]
    | some .rdreg => (blockOf x.regAddr).toList.map (fun b => .access b 4) ++ s.regAsks localReq x.regAddr none
    | _ => [])

/-! ### What the operands of a command say -/

/-- The push of a segment into the TX FIFO of its bay (R447). -/
def State.segmentAsks (s : State) (f : Frame) : List Ask :=
  let g := Frame.segment f
  [.fifo false g.bay (.push ((s.tx g.bay).segmentRoom g))]

/-- What the command itself asks. -/
def State.ownAsks (s : State) (i : Instr) : List Ask :=
  match i with
  | .islandTimeout | .ringClosedTimeout _ => [.mode 3 0]
  | .linkLoss _ | .linkUp _ => [.mode 4 0]
  | .dozeExitDone _ | .wakeSource _ | .wakePinEdge _ _ _ | .wakeTimeDue | .steamWakeReceived _ _ | .selftestDone | .selftestFail
  | .steepComplete | .steepFail _ | .wakeClockDecide _ | .rebootWindowClose | .migrationEnd _ | .migrationTimeout | .trialWindowExpire
  | .trialConfirmed | .settingsCommitDone => [.mode 6 0]
  | .kettleScrub _ _ => [.mode 1 0]
  | .avsLoopEval _ => [.vsi 3]
  | .outputStartFrame _ | .holdTimeExpire _ | .reseqKeyAge _ _ _ | .caddyAudit _ => [.leaves false]
  | .frameReceive rx | .pourFrame rx => [.leaves true, .caddy rx.port.val]
  | .cycSamplePoint _ | .cycSnapshotDone _ | .cycApplyPoint _ => [.access imageBlock 4]
  | .baySegmentSend n => [.fifo true n.val .pop]
  | .bayDataFrame _ f => s.segmentAsks f
  | .segmentPush p => ((mget none s.bays.held p.val).map (fun h => s.segmentAsks h.frame)).getD []
  | .gridRelease e _ | .wpinEvent e _ | .wpinTimeout e _ => [fetchAsk e.val]
  | .contextResume e c => s.resumeAsks e c
  | .infWait e c | .infAt e c | .infOut e c | .infIn e c | .infSho e c | .infShi e c | .infWpin e c | .infStamp e c | .infJmp e c
  | .setC0 e c | .setC1 e c | .setBitTimer e c | .setLoop e c | .setOutShifter e c | .setClearIn e c | .setFlags e c | .infQput e c
  | .infQget e c | .aluAdd e c | .aluSub e c | .aluAnd e c | .aluOr e c | .aluXor e c | .aluShl e c | .aluShr e c | .aluMov e c
  | .aluCrc e c | .aluIns e c | .aluExtr e c | .syncSignal e c | .syncWait e c | .noteNotice e c | .noteKettle e c | .extNop e c
  | .extHalt e c | .extFlush e c | .extLdm e c | .extStm e c | .rqWr e c | .rqWra e c | .rqRd e c | .extGett e c | .extRdreg e c =>
    s.insnAsks e c
  | .portFastTrip k => [.port k.val 0]
  | .portDiodeTrip k _ => [.port k.val 1]
  | .portModelEval k _ _ => [.port k.val 2]
  | .portFaultTimerUpdate k | .portTimerTrip k => [.port k.val 3]
  | .groupSupplyLoss g _ => isolatorAsks g.val
  | .portDamagedDeclare k => [.port k.val 5]
  | .portRegulationEnter k => [.port k.val 7]
  | .portPowerGoodRise k _ => [.port k.val 8]
  | .seqEnd i | .seqWaitpg i | .seqWait i | .seqJmp i | .seqJlatch i | .seqNote i => [.script i.val]
  | .seqOn i | .seqOff i => .script i.val :: (blockOf (R.PWP_CMD 0)).toList.map (fun b => .access b 4)
  | i => s.requestAsks i

/-! ### What a command is seen to do -/

/-- The keys at which two maps differ. The first argument bounds the number of steps. -/
def diffKeys : Nat → SMap Word → SMap Word → List Nat
  | _, [], n => n.map (·.1)
  | _, o, [] => o.map (·.1)
  | 0, _, _ => []
  | k + 1, (a, v) :: o, (b, w) :: n =>
    if a < b then a :: diffKeys k o ((b, w) :: n)
    else if b < a then b :: diffKeys k ((a, v) :: o) n
    else if v = w then diffKeys k o n
    else a :: diffKeys k o n

/-- Order of R35 of a row of R20. -/
def rowOrder (row : Nat) : Option Nat :=
  if row = 27 then some 1 else if row = 26 then some 2 else if 17 ≤ row ∧ row ≤ 19 then some 3
  else if row = 15 ∨ row = 16 then some 4 else none

/-- The trigger of R35 by which a command has changed the mode, or begun the exit from Doze. -/
def modeSeen (s t : State) : List Ask :=
  let row : Option Nat :=
    if t.hub.transitions ≠ s.hub.transitions then some t.hub.row
    else if t.power.exit ≠ s.power.exit then t.power.exit.map (·.row)
    else none
  ((row.bind rowOrder).map (fun o => Ask.mode o 0)).toList

/-- A request on the regulator link by a change of mode. -/
def vsiSeen (s t : State) : List Ask :=
  if (t.power.vsi ≠ s.power.vsi ∧ t.power.vsi.any (·.source == 2)) ∨
      t.power.vsiWait.any (fun x => x.source == 2 && !s.power.vsiWait.contains x) then [.vsi 2] else []

/-- Leaves freed and taken, and writes of the Caddy; a frame that found no leaf has asked for one (R285). -/
def caddySeen (s t : State) (changed : List Nat) : List Ask :=
  let fresh := t.switch.frames.filter (fun f => decide (s.switch.nextId ≤ f.id))
  let refused := changed.filter (fun a => (nth a (R.SWC_DROP 0) 384).any (fun i => i % 16 == 3))
  (if s.switch.frames.any (fun f => !t.switch.frames.any (fun g => g.id == f.id)) then [.leaves false] else []) ++
  (if t.switch.nextId ≠ s.switch.nextId ∨ !refused.isEmpty then [.leaves true] else []) ++ fresh.map (fun f => .caddy f.ingress)

/-- Starts of contexts, which clear their flags (R456). -/
def startsSeen (s t : State) : List Ask :=
  t.engines.flatMap (fun kv =>
    if kv.2.ctxs.any (fun x => x.2.runs && !(s.ctx kv.1 x.1).runs) then [.flags kv.1 0] else [])

/-- Commands of ports that change and isolators that open. -/
def portsSeen (s t : State) : List Ask :=
  if !s.hasPower then []
  else
    (List.range 2).flatMap (fun g => if (s.group g).iso ≠ .opened ∧ (t.group g).iso = .opened then isolatorAsks g else []) ++
    (List.range 32).flatMap (fun k =>
      match s.effective k, t.effective k with
      | true, false => [Ask.port k 6]
      | false, true => [Ask.port k 9]
      | _, _ => [])

/-- Events that the Kettle has counted or recorded. -/
def eventsSeen (s t : State) (changed : List Nat) : List Ask :=
  let srcs := changed.filterMap (fun a =>
    match nth a (R.KET_SRC 0) 512, nth a (R.KET_HIST_A 0) 16 with
    | some i, _ => if s.rd (R.KET_SRC_events i) = t.rd (R.KET_SRC_events i) then none else some i
    | _, some _ => some (fget (t.word a) 48 9)
    | _, _ => none)
  srcs.map (fun i => .kettle (s.rd (R.KET_SRC_severity i)) i)

/-- What the command is seen to ask as it takes `s` to `t`. -/
def State.seenAsks (s t : State) (own : List Nat) : List Ask :=
  let changed := diffKeys (s.regs.length + t.regs.length) s.regs t.regs
  (changed.filter (fun a => !own.contains a)).map (fun a => .field a true) ++
  modeSeen s t ++ vsiSeen s t ++ caddySeen s t changed ++ startsSeen s t ++ portsSeen s t ++ eventsSeen s t changed ++
  (if own.isEmpty ∧ t.pimem ≠ s.pimem then [.access imageBlock 4] else [])

/-- What a command asks of the arbiters in state `s`. -/
def State.asks (s : State) (i : Instr) : List Ask :=
  s.ownAsks i ++
  (match exec i s with
    | .next t => s.seenAsks t ((s.touched i).filterMap (fun x => x.2.map (fun _ => x.1)))
    | _ => [])

/-! ### Order -/

/-- Whether a push of `places` meets a full FIFO (R439, R699). -/
def State.fifoFull (s : State) (rx : Bool) (n places : Nat) : Bool :=
  decide (fifoPlaces < (if rx then s.rx n else s.tx n).words.length + places)

/-- Place of an operation among the concurrent ones on one FIFO, `ops` (R439). -/
def State.fifoPlace (s : State) (rx : Bool) (n : Nat) (ops : List FifoOp) (op : FifoOp) : Nat :=
  let empty := (if rx then s.rx n else s.tx n).words.isEmpty
  let pushes := ops.filter (fun o => o != .pop && o != .flush)
  let full := pushes.any (fun o => match o with
    | .push k => s.fifoFull rx n k
    | .pop => false
    | .flush => false)
  if ops.contains .flush ∧ ops.contains .pop ∧ !pushes.isEmpty ∧ empty then
    (match op with
      | .flush => 0
      | .push _ => 1
      | .pop => 2)
  else if ops.contains .flush then
    (match op with
      | .pop => 0
      | .flush => 1
      | .push _ => 2)
  else
    match op with
    | .pop => 1
    | .flush => 1
    | .push _ => if full then 2 else 0

/-- Of two asks at one arbiter, the tie-break orders the first before the second; `all` are the concurrent asks. -/
def State.askFirst (s : State) (all : List Ask) (a b : Ask) : Bool :=
  let onFifo (rx : Bool) (n : Nat) : List FifoOp := all.filterMap (fun x => match x with
    | .fifo rx' n' o => if rx' = rx ∧ n' = n then some o else none
    | _ => none)
  match a, b with
  | .tag m, .tag n => decide (m < n)
  | .access k m, .access l n => k == l && decide (m < n)
  | .field x h, .field y g => x == y && (if x = R.KET_ERRPIN then h && !g else !h && g)
  | .mode o m, .mode o' m' => decide (o < o') || (o == o' && decide (m < m'))
  | .vsi o, .vsi o' => decide (o < o')
  | .leaves t, .leaves t' => !t && t'
  | .caddy p, .caddy q => decide ((p + 23 - s.switch.writer) % 24 < (q + 23 - s.switch.writer) % 24)
  | .fifo rx n x, .fifo rx' n' y =>
    rx == rx' && n == n' && decide (s.fifoPlace rx n (onFifo rx n) x < s.fifoPlace rx n (onFifo rx n) y)
  | .turn e c, .turn e' c' =>
    e == e' && decide ((c + 15 - (s.engine e).turn) % 16 < (c' + 15 - (s.engine e).turn) % 16)
  | .script i, .script j => decide ((i + 3 - s.power.scriptTurn) % 4 < (j + 3 - s.power.scriptTurn) % 4)
  | .flags e o, .flags e' o' => e == e' && decide (o < o')
  | .port k o, .port k' o' => k == k' && decide (o < o')
  | .kettle v i, .kettle w j => decide (w < v) || (v == w && decide (i < j))
  | _, _ => false

/-- The arbiters in the order in which a command passes them: the target, the block, the word, the mode, the units, the Kettle. -/
def Ask.stage (a : Ask) : Nat :=
  match a with
  | .tag _ => 0
  | .access _ _ => 1
  | .field _ _ => 2
  | .mode _ _ => 3
  | .leaves _ => 4
  | .caddy _ => 5
  | .vsi _ => 6
  | .fifo _ _ _ => 6
  | .turn _ _ => 6
  | .script _ => 6
  | .flags _ _ => 6
  | .port _ _ => 6
  | .kettle _ _ => 7

/-- One of the asks `xs` goes before one of `ys` that goes before none of them. -/
def State.leads (s : State) (all xs ys : List Ask) : Bool :=
  xs.any (fun a => ys.any (fun b => s.askFirst all a b && !xs.any (fun c => s.askFirst all b c)))

/-- The asks `xs` of a command come before the asks `ys` of another: the first arbiter at which the two meet and that orders them
decides. -/
def State.comesFirst (s : State) (all xs ys : List Ask) : Bool :=
  (List.range 8).foldr (fun k later =>
    let p := s.leads all (xs.filter (·.stage == k)) (ys.filter (·.stage == k))
    let q := s.leads all (ys.filter (·.stage == k)) (xs.filter (·.stage == k))
    if p = q then later else p) false

/-- Concurrent commands, each with its asks, in the order of the arbiters: the next is always the first before which none that is left
comes. Where each has another before it, the first of them is next (log entry 1). The first argument is their number. -/
def State.inOrder (s : State) (all : List Ask) : Nat → List (Instr × List Ask) → List Instr
  | 0, _ => []
  | n + 1, cs =>
    match (cs.find? (fun c => !cs.any (fun d => s.comesFirst all d.2 c.2))).or cs.head? with
    | none => []
    | some c => c.1 :: s.inOrder all n (cs.erase c)

/-- Concurrent commands in the order of the arbiters. -/
def State.arbitrate (s : State) (cs : List Instr) : List Instr :=
  let asked := cs.map (fun i => (i, s.asks i))
  s.inOrder (asked.flatMap (·.2)) cs.length asked

/-- The state that the waiting commands leave. -/
def State.ahead (s : State) : State :=
  s.pending.foldl (fun t i =>
    match exec i t with
    | .next u => u
    | _ => t) (s.withPending [])

/-- Concurrent commands join the queue. -/
def State.offer (s : State) (cs : List Instr) : State := s.withPending (s.pending ++ s.ahead.arbitrate cs)

end Sys2Proof.Machine
end

