-- ==== Sys2Proof/Safety.lean ====
section
/-!
DEFINITION. What the statements mean by a sound state, by a command that completes, by a register access that the target
accepts, and by what a command leaves alone.
-/

namespace Sys2Proof.Machine

/-- Process image memory and flash are in their canonical form: what an unlisted byte reads as, 0 and 0xFF, is never listed. -/
def State.memOk (s : State) : Bool := Memory.wf 0 s.pimem && Memory.wf 0xFF s.flash

/-- Between commands no event waits for the Kettle and no change of a link for the ring link monitor: each command hands over what it
raised before it ends. -/
def State.quiet (s : State) : Bool := s.raised.isEmpty && !s.hub.ringDue

/-- A command that completes: it ends in a next state. -/
def Completes (c : Instr) (s : State) : Prop := ∃ t, exec c s = .next t

/-- A command that changes nothing. -/
def Idle (c : Instr) (s : State) : Prop := exec c s = .next s

/-- The command completes, and the state its own effect leaves has `P`; the Kettle then takes in what the effect raised
(`State.settle`, R618 to R636), which is what every command ends with. -/
def Leaves (c : Instr) (s : State) (P : State → Prop) : Prop := ∃ u, exec c s = .next u.settle ∧ P u

/-- The command completes in a state that has `P`. -/
def Ends (c : Instr) (s : State) (P : State → Prop) : Prop := ∃ t, exec c s = .next t ∧ P t

/-- The target is in service and the access of a requester to the register at `a` passes the checks of R194. -/
abbrev Grants (s : State) (r : Requester) (a : Nat) (k : Kind) : Prop := s.targetUp = true ∧ s.screenOne r a k = none

/-- What the target adds to the effect of an accepted write: the counted events of R647 and the answer OK. -/
def State.wrote (u : State) (r : Requester) (a : Nat) : State := (u.countTxn r a .ok 1 9 8).answered .ok []

/-- What the target adds to a read: the counted events of R647 and the answer. -/
def State.gave (u : State) (r : Requester) (a : Nat) (c : RCode) (w : Word) : State := (u.countTxn r a c 0 8 8).answered c [w]

/-- The write completes with answer OK, and the state its own effect leaves has `P`. -/
def Writes (c : Instr) (s : State) (r : Requester) (a : Nat) (P : State → Prop) : Prop :=
  ∃ u, exec c s = .next (u.wrote r a).settle ∧ P u

/-- The read completes with answer `k` and word `w`, and the state its own effect leaves has `P`. -/
def Reads (c : Instr) (s : State) (r : Requester) (a : Nat) (k : RCode) (w : Word) (P : State → Prop) : Prop :=
  ∃ u, exec c s = .next (u.gave r a k w).settle ∧ P u

/-- A mode request of a master that passes the checks of R194, at Supervisor, while no admission is being written (R153). -/
abbrev Asks (s : State) (r : ModeReq) : Prop :=
  Grants s r.who R.TOP_MODE_REQ .write ∧ r.who.level = .supervisor ∧ s.admitting = false

/-- TOP_MODE has changed to `m` by row `row` of R20, from the mode of `s`: what TOP_MODE and TOP_MODE_TIME show. -/
def Entered (s u : State) (m : Mode) (row : Nat) : Prop :=
  u.hub.mode = m ∧ u.hub.row = row ∧ u.hub.prev = s.hub.mode ∧ u.hub.modeTime = s.now ∧
  u.hub.transitions = min (s.hub.transitions + 1) (2 ^ 32 - 1)

/-- What follows the commands once the Kettle has taken in their events (`State.intake`): the ring link monitor acts, which leaves a
state that has `P`, and the Kettle takes in what it raised in turn (R35, R247). -/
def Monitored (s : State) (P : State → Prop) : Prop :=
  ∃ u, s.settle = (State.ringSettle 3 (State.intake 16 u)).noteDone ∧ P u

/-- What no change of mode, no change of a link and no action of a port touches: every byte of process image memory and of
flash, the ECC marks, the bit-stream's values, the variant, the mask ROM, the queue of commands and the time. -/
def Keeps (s u : State) : Prop :=
  u.pimem = s.pimem ∧ u.flash = s.flash ∧ u.eccMarks = s.eccMarks ∧ u.store = s.store ∧ u.loaded = s.loaded ∧
  u.variant = s.variant ∧ u.rootKey = s.rootKey ∧ u.pending = s.pending ∧ u.now = s.now ∧ u.clk = s.clk

/-- The hub right after a reset (R9, R20 row 1, R48, R50): Boot, the counter at 0, every pin high-impedance, every power port off,
both isolators open, FIFOs, queues and memory empty, and every register outside the power blocks at its reset value, but for UPD_STATUS,
which reads RECEIVING where a verification was cut short (R675). -/
def AfterReset (s t : State) : Prop :=
  t.hub.mode = .boot ∧ t.hub.row = 1 ∧ t.now = 0 ∧ t.clk = s.clk ∧ t.pending = s.pending ∧ t.variant = s.variant ∧ t.rootKey = s.rootKey ∧
  t.pimem = [] ∧ t.store = [] ∧ t.loaded = {} ∧ t.engines = [] ∧ t.switch = {} ∧ t.cyc = {} ∧ t.kettle = {} ∧ t.pmc = {} ∧
  t.bays.rx = [] ∧ t.bays.tx = [] ∧ t.raised = [] ∧ t.answer = none ∧
  (∀ g, (t.pin g).pad = .released) ∧ (∀ k, (t.port k).passOn = false) ∧ (∀ g, (t.group g).iso = .opened) ∧
  (∀ a, ¬(0x70000 ≤ a ∧ a < 0x80000) → ¬(0x90000 ≤ a ∧ a < 0xA0000) → a ≠ R.UPD_STATUS →
    t.word a = resetWord a)

/-! ### Requests at the transaction target -/

/-- A request record reaches the target and gets a slot: the target is in service, the record names this hub, its tag is not in
flight and a slot is free (R163, R188, R189, R195). -/
abbrev Arrives (s : State) (t : Txn) (posted : Bool) : Prop :=
  s.targetUp = true ∧ s.nodeOk t posted = true ∧ s.tagBusy t = false ∧
  (t.port.isSome = true → s.slotsFull t.who.master.val = false)

/-- What a request does besides its access: the hub notes the master and its place, the level of the slots and the counts; nothing
else changes. -/
def Noted (s u : State) : Prop :=
  Keeps s u ∧ u.hub = { s.hub with heardAt := u.hub.heardAt, serving := u.hub.serving } ∧ u.upd = s.upd ∧ u.bays = s.bays ∧ u.engines = s.engines ∧
  u.switch = s.switch ∧ u.power = s.power ∧ u.time = s.time ∧ u.ring = s.ring ∧ u.cyc = s.cyc ∧ u.kettle = s.kettle ∧
  (∀ a, (∀ m, m < 4 → a ≠ R.TOP_MASTER m) → (∀ i, i < 4 → a ≠ R.TOP_TXN_CNT i) → a ≠ R.TOP_TXN_LEVEL → a ≠ R.RING_NODE →
    ¬(0x80000 ≤ a ∧ a < 0x90000) → u.word a = s.word a)

/-- No word of process image memory has an uncorrectable error. -/
def CleanMem (s : State) : Prop := ∀ i, s.eccOf .pimem i ≠ .bad

/-- No word of flash has an ECC error. -/
def CleanFlash (s : State) : Prop := ∀ x ∈ s.eccMarks, x.1 ≠ .flash

/-- The bytes stand in process image memory from offset `o` on, and every other byte of it, flash and the rest of the hub are as
before. -/
def Stores (s u : State) (o : Nat) (bs : List Byte) : Prop :=
  (∀ a, a < o ∨ o + bs.length ≤ a → u.memByte a = s.memByte a) ∧ (∀ i, i < bs.length → u.memByte (o + i) = bs.getD i 0) ∧
  u.flash = s.flash ∧ u.upd = s.upd ∧ u.bays = s.bays ∧ u.engines = s.engines ∧ u.switch = s.switch ∧ u.power = s.power ∧
  u.time = s.time ∧ u.ring = s.ring ∧ u.cyc = s.cyc ∧ u.kettle = s.kettle ∧ u.now = s.now ∧ u.clk = s.clk ∧
  (∀ a, (∀ m, m < 4 → a ≠ R.TOP_MASTER m) → a ≠ R.TOP_TXN_LEVEL → a ≠ R.RING_NODE → ¬(0x80000 ≤ a ∧ a < 0x90000) →
    u.word a = s.word a)

/-! ### Counters and frames -/

/-- The saturating counter in field `f` has counted one event (R5). -/
def Counted (s u : State) (f : Fld) : Prop := u.rd f = min (s.rd f + 1) (2 ^ f.width - 1)

/-- A ring port in service whose link is up receives the frame to its end (R230, check 1). -/
abbrev Hears (s : State) (rx : RxFrame) : Prop :=
  s.coreUp = true ∧ s.ringPort rx.port.val = true ∧ s.on (R.RING_PORT_up rx.port.val) = true ∧ rx.aborted = false

/-- The Sieve of ingress port `p` is the single PASS, mirroring is off and the Caddy is empty (R290, R316). -/
abbrev PlainCore (s : State) (p : Nat) : Prop :=
  s.on (R.SIV_ENTRY_default p) = true ∧ s.on R.SWC_CTRL_mirror = false ∧ s.switch.frames = []

/-! ### Instructions of the engines -/

/-- It is the turn of context `c` of engine `e` (R467), which stands at a word it has fetched, in its region and without an uncorrectable error, and that word is
instruction `i`, which no shift holds back (R466, R475, R493, R523). -/
def Fetched (s : State) (e c : Nat) (i : Insn) : Prop :=
  s.nextTurn e = some c ∧ s.inRegion e c (s.ctx e c).pc = true ∧ s.eccOf .prog (512 * e + (s.ctx e c).pc / 2) ≠ .bad ∧
  (s.ctx e c).tauDue = false ∧ ∃ w, s.wordAt e c = some w ∧ decodeInsn w = some i

/-- The command issues the instruction: its own effect leaves `u`, and the issue completes with `r` (`State.finish`). -/
def Issues (k : Instr) (s : State) (e c : Nat) (u : State) (r : IRes) : Prop :=
  ∃ w, s.wordAt e c = some w ∧ exec k s = .next ((u.finish e c w r).turned e c).settle

/-! ### Power ports and scripts -/

/-- Port `k` has tripped with `cause` (R559): its pass transistor is off, it is LATCHED, the trip is recorded, counted and raised;
no other port, no byte of memory and nothing of the hub has changed. -/
def Tripped (s u : State) (k cause : Nat) : Prop :=
  (u.port k).passOn = false ∧ (u.port k).inReg = false ∧ (u.port k).acc = 0 ∧ (u.port k).latchedAt = s.clk ∧
  u.rd (R.PWP_STAT_state k) = 4 ∧ u.rd (R.PWP_STAT_pg k) = 0 ∧ u.rd (R.PWP_STAT_tripped k) = 1 ∧
  u.rd (R.PWP_STAT_cause k) = cause ∧ Counted s u (R.PWP_CNT_trips k) ∧ u.raised = s.raised ++ [⟨0x180 + k, cause⟩] ∧
  (∀ j, j ≠ k → u.port j = s.port j) ∧ u.hub = s.hub ∧ Keeps s u

/-- Script `i` is RUNNING, and the next instruction of it, in the index it names, is `w` (R579, R580). -/
abbrev ScriptAt (s : State) (i : Nat) (w : Nat) : Prop :=
  s.hasPower = true ∧ s.rd (R.PWP_SEQ_STAT_state i) = 1 ∧ s.seqInsn (s.seqPc i) = w

/-! ### Concurrent commands -/

/-- Two concurrent commands meet at the arbiters of stage `k`, where the one asks `xs` and the other `ys`, and no arbiter that they pass
before orders them. -/
abbrev MeetAt (s : State) (c d : Instr) (k : Nat) (xs ys : List Ask) : Prop :=
  (s.ahead.asks c).filter (·.stage == k) = xs ∧ (s.ahead.asks d).filter (·.stage == k) = ys ∧
  ∀ x ∈ s.ahead.asks c, ∀ y ∈ s.ahead.asks d, x.stage < k →
    s.ahead.askFirst (s.ahead.asks c ++ s.ahead.asks d) x y = false ∧ s.ahead.askFirst (s.ahead.asks c ++ s.ahead.asks d) y x = false

end Sys2Proof.Machine
end

