-- ==== Sys2Proof/Certificates/Slice0/Obligations.lean ====
section
/-!
DEFINITION. The statements for the provers. Each docstring names the rules that its statement formalises.
-/

open Sys2Proof Sys2Proof.Machine

/-! ### Supplies and reset -/

/-- R9, R20 row 1: right after power-on the hub is in Boot by row 1, the counter reads 0, every register holds its reset value,
no command waits and nothing is stored. Where the manual gives no value at power-on, the value is the model's choice: the fields that the
hardware sets and the levels outside (log entry 6), and process image memory, which reads 0 (log entry 8). -/
def Obligations.ResetStateHoldsTheResetValues : Prop :=
  State.reset.hub.mode = .boot ∧ State.reset.hub.row = 1 ∧ State.reset.now = 0 ∧ State.reset.pending = [] ∧
  State.reset.pimem = [] ∧ State.reset.raised = [] ∧ (∀ a, State.reset.word a = resetWord a) ∧
  (∀ g, (State.reset.pin g).pad = .released) ∧ (∀ k, (State.reset.port k).passOn = false) ∧
  (∀ g, (State.reset.group g).iso = .opened) ∧ State.reset.memOk = true ∧ State.reset.quiet = true

/-- R9, R37, R48 to R50, R82, R85: power-on, a low on RST_N of 10 µs or more, the release of RST_N, and US below 15.5 V for 1.2 ms,
or 20 µs before the reserve is charged, leave the hub as a reset leaves it. The release and power-on sample BOOT_SLOT. Flash
keeps its contents unless a write to it is in progress. That process image memory reads 0 after each of them is the model's choice (log
entry 8), and so are the values of fields that the hardware sets and to which the manual gives none (log entry 6). -/
def Obligations.EveryResetLeadsToBoot : Prop :=
  (∀ (s : State) (strap : Bool), Ends (.powerOn strap) s (fun t =>
    AfterReset s t ∧ t.hub.strap = strap ∧ t.hub.held = false ∧ t.hub.usLowSince = none ∧
    (s.upd.put = none → s.upd.erasing = false → t.flash = s.flash))) ∧
  (∀ (s : State) (ns : Nat), 10000 ≤ ns → Ends (.rstNLow ns) s (fun t => AfterReset s t ∧ t.hub.rstLow = true ∧
    (s.upd.put = none → s.upd.erasing = false → t.flash = s.flash))) ∧
  (∀ (s : State) (strap : Bool), s.hub.rstLow = true → Ends (.rstNRelease strap) s (fun t =>
    AfterReset s t ∧ t.hub.rstLow = false ∧ t.hub.strap = strap ∧
    (s.upd.put = none → s.upd.erasing = false → t.flash = s.flash))) ∧
  (∀ (s : State) (since : Nat), s.hub.usLowSince = some since → s.hub.held = false →
    (if s.hub.reserve = true then 1200000 else 20000) ≤ s.clk - since →
    Ends .usHoldExpire s (fun t => AfterReset s t ∧ t.hub.held = true ∧
      (s.upd.put = none → s.upd.erasing = false → t.flash = s.flash)))

/-- R49, R51, R82, R85: a low on RST_N of less than 2 µs has no effect; a low of 2 µs or more and less than 10 µs, which R82
forbids without an effect of it, stops the model by name, which is the model's choice (NOTES.md, Stops); one of 10 µs or more resets the hub; the fall of US only starts its time, its return ends it and the charged reserve is noted; the
hub is not reset before its hold time, and a release of RST_N that is not low changes nothing. -/
def Obligations.ShortLowsAndDipsLeaveTheHubAlone : Prop :=
  (∀ (s : State) (ns : Nat), ns < 2000 → exec (.rstNLow ns) s = .next s.settle) ∧
  (∀ (s : State) (ns : Nat), 2000 ≤ ns → ns < 10000 → exec (.rstNLow ns) s = .fault .rstNWidth) ∧
  (∀ (s : State) (ns : Nat), 10000 ≤ ns → Ends (.rstNLow ns) s (fun t => AfterReset s t ∧ t.hub.rstLow = true)) ∧
  (∀ (s : State) (strap : Bool), s.hub.rstLow = false → exec (.rstNRelease strap) s = .next s.settle) ∧
  (∀ s : State, exec .reserveCharged s = .next ({ s with hub := { s.hub with reserve := true } } : State).settle) ∧
  (∀ s : State, s.hub.usLowSince = none →
    exec .usFall s = .next ({ s with hub := { s.hub with usLowSince := some s.clk } } : State).settle) ∧
  (∀ s : State, s.hub.held = false →
    exec .usReturn s = .next ({ s with hub := { s.hub with usLowSince := none } } : State).settle) ∧
  (∀ (s : State) (since : Nat), s.hub.usLowSince = some since →
    s.clk - since < (if s.hub.reserve = true then 1200000 else 20000) → exec .usHoldExpire s = .next s.settle)

/-- R55, R574, R576, R577: a group supply below its threshold opens the isolator, turns every port of the group off into NO_SUPPLY (a
LATCHED port stays LATCHED) and raises PP_GROUP_SUPPLY with the reading. On its return, an isolator that the supply or the mode
opened waits 10 ms, closes over a soft start of 1 ms, and then R558 applies to each port. An isolator that the Kettle or
software opened stays open. Pin outputs of a bay group that source more than 2.0 A for 10 ms raise that group's overload source;
a port group whose current has exceeded 8.0 A for 10 ms has its overload bit set and raises its source with the current,
and nothing else follows. That each source fires once for one such condition is the model's choice (log entry 51). While the hub sleeps in
Hibernate, neither is watched (R12, R603). -/
def Obligations.GroupSuppliesDriveTheIsolatorsAndOverloadsAreRaised : Prop :=
  (∀ (s : State) (g : Fin 2) (mv : BitVec 16), s.hasPower = true → Leaves (.groupSupplyLoss g mv) s (fun u =>
    (u.group g.val).supply = false ∧ (u.group g.val).iso = .opened ∧ u.rd (R.PWP_GROUP_present g.val) = 0 ∧
    u.rd (R.PWP_GROUP_closed g.val) = 0 ∧ u.rd (R.PWP_GROUP_supply g.val) = mv.toNat ∧
    (∀ k ∈ groupPorts g.val, (u.port k).passOn = false ∧
      u.rd (R.PWP_STAT_state k) = if s.rd (R.PWP_STAT_state k) = 4 then 4 else 6) ∧
    u.raised = s.raised ++ [⟨0x064 + g.val, mv.toNat⟩] ∧ u.hub = s.hub ∧ Keeps s u)) ∧
  (∀ (s : State) (g : Fin 2) (mv : BitVec 16), s.hasPower = true → (s.group g.val).supply = false →
    (s.group g.val).iso = .opened → Leaves (.groupSupplyReturn g mv) s (fun u =>
    (u.group g.val).supply = true ∧ (u.group g.val).since = s.clk ∧ u.rd (R.PWP_GROUP_present g.val) = 1 ∧
    u.rd (R.PWP_GROUP_supply g.val) = mv.toNat ∧
    (u.group g.val).iso = (if s.isolatorsForced = false ∧ s.rd (R.PWP_GROUP_opened_by g.val) ≤ 1 then .delay else .opened) ∧
    u.raised = s.raised ∧ u.hub = s.hub ∧ Keeps s u)) ∧
  (∀ (s : State) (g : Fin 2), (s.group g.val).iso = .delay → 10000000 ≤ s.clk - (s.group g.val).since →
    exec (.isolatorCloseDelayExpire g) s =
      .next (s.setGroup g.val { s.group g.val with iso := .closing, closeAt := s.clk }).settle) ∧
  (∀ (s : State) (g : Fin 2), (s.group g.val).iso = .closing → 1000000 ≤ s.clk - (s.group g.val).closeAt →
    Leaves (.isolatorClosed g) s (fun u =>
    (u.group g.val).iso = .closed ∧ u.rd (R.PWP_GROUP_closed g.val) = 1 ∧ u.rd (R.PWP_GROUP_opened_by g.val) = 0 ∧
    (∀ k ∈ groupPorts g.val, s.rd (R.PWP_STAT_state k) = 6 → s.on (R.PWP_STAT_damaged k) = false →
      u.rd (R.PWP_STAT_state k) = (if s.effective k = false then 0 else if s.portCool k = true then 1 else 5) ∧
      (u.port k).passOn = (s.effective k && s.portCool k)) ∧
    u.raised = s.raised ∧ u.hub = s.hub ∧ Keeps s u)) ∧
  (∀ (s : State) (k : Fin 4), k.val < s.nGroups → exec (.baygrpOutputCurrent k true) s =
    .next (s.setOverSince k.val (some ((s.overSince k.val).getD (s.clk, false)))).settle) ∧
  (∀ (s : State) (k : Fin 4), k.val < s.nGroups →
    exec (.baygrpOutputCurrent k false) s = .next (s.setOverSince k.val none).settle) ∧
  (∀ (s : State) (k : Fin 4) (since : Nat), s.asleep = false → s.overSince k.val = some (since, false) → 10000000 ≤ s.clk - since →
    exec (.baygrpOverload k) s = .next ((s.setOverSince k.val (some (since, true))).raise (0x060 + k.val)).settle) ∧
  (∀ (s : State) (k : Fin 4) (since : Nat) (raised : Bool), s.overSince k.val = some (since, raised) → s.asleep = true ∨
    s.clk - since < 10000000 ∨ raised = true → exec (.baygrpOverload k) s = .next s.settle) ∧
  (∀ (s : State) (k : Fin 4), s.overSince k.val = none → exec (.baygrpOverload k) s = .next s.settle) ∧
  (∀ (s : State) (g : Fin 2) (ma : BitVec 16) (since : Nat), s.asleep = false → (s.group g.val).overSince = some since →
    10000000 ≤ s.clk - since → s.on (R.PWP_GROUP_overload g.val) = false → exec (.ppGroupOverload g ma) s =
    .next (((s.wr (R.PWP_GROUP_overload g.val) 1).wr (R.PWP_GROUP_current g.val) ma.toNat).raise (0x066 + g.val) ma.toNat).settle)


/-! ### Modes -/

/-- R20 rows 4, 12, 13, 23, 29, 30 and 31: what a master's request makes of Safe (and of Quarantine, where R20 lists it) when
nothing stands against it. -/
def Obligations.RequestsFromSafeFollowTheTable : Prop :=
  (∀ (s : State) (r : ModeReq), Asks s r → s.hub.mode = .safe → Writes (.reqTest r) s r.who R.TOP_MODE_REQ (fun u =>
    Entered s u .test 31 ∧ Keeps s u ∧ u.upd = s.upd)) ∧
  (∀ (s : State) (r : ModeReq), Asks s r → s.hub.mode = .safe ∨ s.hub.mode = .quarantine →
    s.on R.STP_LOAD_CTRL_source = false → Writes (.reqSteep r) s r.who R.TOP_MODE_REQ (fun u =>
    Entered s u .steep 29 ∧ u.hub.steepSrc = (if s.upd.running = true then 1 else 0) ∧ u.hub.pendSeal = none ∧
    u.hub.pendEpoch = none ∧ u.ring.strainer = [] ∧ u.switch.frames = [] ∧ u.bays.rx = [] ∧ u.bays.tx = [] ∧ Keeps s u)) ∧
  (∀ (s : State) (r : ModeReq), Asks s r → s.hub.mode = .safe ∨ s.hub.mode = .quarantine →
    s.on R.STP_LOAD_CTRL_source = true → s.rd R.STP_LOAD_STATUS_state = 3 →
    Writes (.reqSteep r) s r.who R.TOP_MODE_REQ (fun u => Entered s u .steep 29 ∧ u.hub.steepSrc = 2 ∧ Keeps s u)) ∧
  (∀ (s : State) (r : ModeReq), Asks s r → s.hub.mode = .safe ∨ s.hub.mode = .quarantine → s.updState = 4 →
    s.storedEpoch ≤ s.slotEpoch (!s.upd.running) → Writes (.reqUpdate r) s r.who R.TOP_MODE_REQ (fun u =>
    Entered s u .update 30 ∧ u.hub.pendSeal = none ∧ u.hub.pendEpoch = none ∧ Keeps s u ∧ u.upd = s.upd)) ∧
  (∀ (s : State) (r : ModeReq), Asks s r → s.hub.mode = .safe → s.on R.UPD_STATUS_migration_fail = false →
    s.on R.KET_STATUS_self_fault = false → s.on (R.RING_PORT_up 0) = true → s.on (R.RING_PORT_up 1) = true →
    Writes (.reqRun r) s r.who R.TOP_MODE_REQ (fun u =>
    (if (s.slotOf s.upd.running).state = 3 then Entered s u .run 12 else Entered s u .trial 13) ∧ Keeps s u ∧ u.upd = s.upd)) ∧
  (∀ (s : State) (r : ModeReq), Asks s r → s.hub.mode = .safe ∨ s.hub.mode = .run → s.hibernateRefuser = none →
    Writes (.reqHibernate r) s r.who R.TOP_MODE_REQ (fun u =>
    Entered s u .hibernate 23 ∧ u.switch.frames = [] ∧ u.power.hib = some ⟨.entering, false,
      (if s.hub.mode = .safe ∨ s.rd R.PWR_WAKE_CFG_target ≠ 3 then .safe else .run), s.coreMv, 0, s.clk⟩ ∧ Keeps s u)) ∧
  (∀ (s : State) (r : ModeReq), Asks s r → s.hub.mode = .safe ∨ s.hub.mode = .quarantine → s.upd.abandoned = true →
    Writes (.reqBoot r) s r.who R.TOP_MODE_REQ (fun u => Entered s u .boot 4 ∧ u.hub.accessTable = false ∧ Keeps s u))

/-- R20 rows 4, 20, 21, 22 and 28: requests from the running modes. From Doze the mode changes only when its domains are powered
again, so the request starts the exit (R600). -/
def Obligations.RequestsFromTheRunningModesFollowTheTable : Prop :=
  (∀ (s : State) (r : ModeReq), Asks s r →
    s.hub.mode = .run ∨ s.hub.mode = .runDegraded ∨ s.hub.mode = .island ∨ s.hub.mode = .trial →
    Writes (.reqSafe r) s r.who R.TOP_MODE_REQ (fun u => Entered s u .safe 28 ∧ Keeps s u ∧ u.upd = s.upd)) ∧
  (∀ (s : State) (r : ModeReq), Asks s r → s.hub.mode = .doze → s.power.exit = none →
    Writes (.reqSafe r) s r.who R.TOP_MODE_REQ (fun u => u.hub = s.hub ∧ Keeps s u ∧
      u.power.exit = some ⟨.safe, 28, s.clk,
        decide (s.rd R.PWR_WINDOW_run_floor ≤ s.coreMv) && !s.power.mvUnknown, s.power.gating⟩)) ∧
  (∀ (s : State) (r : ModeReq), Asks s r → s.hub.mode = .island → s.on R.UPD_STATUS_migration_fail = false →
    s.on R.KET_STATUS_self_fault = false → s.on (R.RING_PORT_up 0) = true → s.on (R.RING_PORT_up 1) = true →
    Writes (.reqRun r) s r.who R.TOP_MODE_REQ (fun u => Entered s u .run 20 ∧ Keeps s u ∧ u.upd = s.upd)) ∧
  (∀ (s : State) (r : ModeReq), Asks s r → s.hub.mode = .doze → s.power.exit = none →
    s.on R.UPD_STATUS_migration_fail = false → s.on R.KET_STATUS_self_fault = false →
    Writes (.reqRun r) s r.who R.TOP_MODE_REQ (fun u => u.hub = s.hub ∧ Keeps s u ∧
      u.power.exit = some ⟨.run, 22, s.clk,
        decide (s.rd R.PWR_WINDOW_run_floor ≤ s.coreMv) && !s.power.mvUnknown, s.power.gating⟩)) ∧
  (∀ (s : State) (r : ModeReq) (groups quads : BitVec 4), Asks s r → s.hub.mode = .run →
    dozeDomains groups.toNat quads.toNat ≠ [] → (s.variant = .l3224 → groups.getLsbD 2 = false ∧ groups.getLsbD 3 = false) →
    (∀ d ∈ dozeDomains groups.toNat quads.toNat, s.refuser d = none) →
    s.on (R.RING_PORT_up 0) = true ∨ s.on (R.RING_PORT_up 1) = true →
    Writes (.reqDoze r groups quads) s r.who R.TOP_MODE_REQ (fun u => Entered s u .doze 21 ∧ Keeps s u ∧ u.upd = s.upd ∧
      (∀ d ∈ dozeDomains groups.toNat quads.toNat, u.bitOn R.PWR_STATUS_gated d = true))) ∧
  (∀ (s : State) (r : ModeReq), Asks s r → s.hub.mode = .test →
    Writes (.reqBoot r) s r.who R.TOP_MODE_REQ (fun u => Entered s u .boot 4 ∧ u.hub.accessTable = false ∧ Keeps s u))

/-- R20, R21, R36, R213: a request that R20 does not list from the present mode (from the mode that an exit from Doze leads to, where one is in
progress and the request is Run or Safe: log entry 37) leaves the mode and everything else unchanged and is
recorded in TOP_MODE_REFUSED, with the requester, the code requested, the mode, and reason 1, or 2 when it was overtaken. -/
def Obligations.UnlistedRequestsAreRefused : Prop :=
  (∀ (s : State) (r : ModeReq), Asks s r → s.hub.mode ≠ .safe →
    exec (.reqTest r) s = .next ((s.notListed r 11).wrote r.who R.TOP_MODE_REQ).settle) ∧
  (∀ (s : State) (r : ModeReq), Asks s r → s.hub.mode ≠ .test →
    (s.hub.mode = .safe ∨ s.hub.mode = .quarantine → s.upd.abandoned = false) →
    exec (.reqBoot r) s = .next ((s.notListed r 0).wrote r.who R.TOP_MODE_REQ).settle) ∧
  (∀ (s : State) (r : ModeReq), Asks s r → s.arbMode ≠ .safe → s.arbMode ≠ .island → s.arbMode ≠ .doze →
    exec (.reqRun r) s = .next ((s.notListed r 3).wrote r.who R.TOP_MODE_REQ).settle) ∧
  (∀ (s : State) (r : ModeReq), Asks s r → s.arbMode ≠ .quarantine → s.arbMode ≠ .run → s.arbMode ≠ .runDegraded →
    s.arbMode ≠ .island → s.arbMode ≠ .doze → s.arbMode ≠ .trial →
    exec (.reqSafe r) s = .next ((s.notListed r 6).wrote r.who R.TOP_MODE_REQ).settle) ∧
  (∀ (s : State) (r : ModeReq), Asks s r → s.hub.mode ≠ .safe → s.hub.mode ≠ .quarantine →
    exec (.reqSteep r) s = .next ((s.notListed r 1).wrote r.who R.TOP_MODE_REQ).settle ∧
    exec (.reqUpdate r) s = .next ((s.notListed r 9).wrote r.who R.TOP_MODE_REQ).settle) ∧
  (∀ (s : State) (r : ModeReq) (groups quads : BitVec 4), Asks s r → s.hub.mode ≠ .run →
    exec (.reqDoze r groups quads) s = .next ((s.notListed r 7).wrote r.who R.TOP_MODE_REQ).settle) ∧
  (∀ (s : State) (r : ModeReq), Asks s r → s.hub.mode ≠ .run → s.hub.mode ≠ .safe →
    exec (.reqHibernate r) s = .next ((s.notListed r 8).wrote r.who R.TOP_MODE_REQ).settle) ∧
  (∀ (s : State) (r : ModeReq) (code : Nat), code < 16 → (s.notListed r code).hub = s.hub ∧
    (s.notListed r code).rd R.TOP_MODE_REFUSED_requested = code ∧
    (s.notListed r code).rd R.TOP_MODE_REFUSED_reason = (if r.raced = true then 2 else 1) ∧
    (s.notListed r code).rd R.TOP_MODE_REFUSED_at_mode = s.hub.mode.code ∧
    (s.notListed r code).rd R.TOP_MODE_REFUSED_requester = (if r.who.level = .localLevel then 4 else r.who.master.val) ∧
    (s.notListed r code).rd R.TOP_MODE_REFUSED_count = min (s.rd R.TOP_MODE_REFUSED_count + 1) 65535 ∧
    (∀ a, a ≠ R.TOP_MODE_REFUSED → (s.notListed r code).word a = s.word a))

/-- R20 rows 4, 15 to 19 and 32, R27, R30, R31, R35, R247: a master not heard within the island timeout leads from Run and
Run-Degraded to Island or Safe and from Trial to Safe, and starts the exit from Doze; before the timeout nothing happens. The ring
link monitor acts on a changed link of a ring port once the Kettle has taken its reactions to the events of the command, on the links
that are up then: with one up, Run becomes Run-Degraded by row 15; with both, Run-Degraded becomes Run by row 16; with none, Run
and Run-Degraded become Island by row 17 where RING_ISLAND.enable is 1, else Safe by row 18, Trial becomes Safe by row 19, and Doze
begins its exit; where an enter-Safe reaction has acted before, it changes nothing. A JTAG test instruction leads from Boot to Test,
where the end of the test leads back. -/
def Obligations.RingMonitorMasterWatchAndJtagFollowTheTable : Prop :=
  (∀ s : State, s.islandDue = true → s.hub.mode = .run ∨ s.hub.mode = .runDegraded → s.on R.RING_ISLAND_enable = true →
    Leaves .islandTimeout s (fun u => Entered s u .island 17 ∧ Keeps s u ∧ u.upd = s.upd)) ∧
  (∀ s : State, s.islandDue = true → s.hub.mode = .run ∨ s.hub.mode = .runDegraded → s.on R.RING_ISLAND_enable = false →
    Leaves .islandTimeout s (fun u => Entered s u .safe 18 ∧ Keeps s u ∧ u.upd = s.upd)) ∧
  (∀ s : State, s.islandDue = true → s.hub.mode = .trial →
    Leaves .islandTimeout s (fun u => Entered s u .safe 19 ∧ Keeps s u ∧ u.upd = s.upd)) ∧
  (∀ s : State, s.islandDue = true → s.hub.mode = .doze → s.power.exit = none →
    Leaves .islandTimeout s (fun u => u.hub = s.hub ∧ Keeps s u ∧ ∃ x, u.power.exit = some x ∧
      x.mode = (if s.on R.RING_ISLAND_enable = true then .island else .safe))) ∧
  (∀ s : State, s.islandDue = false → exec .islandTimeout s = .next s.settle) ∧
  (∀ s : State, s.hub.mode = .boot → s.inReset = false →
    Leaves .jtagTestInstruction s (fun u => Entered s u .test 32 ∧ u.hub.testFromBoot = true ∧ Keeps s u ∧ u.upd = s.upd)) ∧
  (∀ s : State, s.hub.mode = .test → Leaves .jtagEndOfTest s (fun u => Entered s u .boot 4 ∧ Keeps s u)) ∧
  (∀ s v : State, v = State.intake 16 s → v.hub.ringDue = true → v.hub.mode = .run →
    v.on (R.RING_PORT_up 0) ≠ v.on (R.RING_PORT_up 1) → Monitored s (fun u => Entered v u .runDegraded 15 ∧ Keeps v u)) ∧
  (∀ s v : State, v = State.intake 16 s → v.hub.ringDue = true → v.hub.mode = .runDegraded →
    v.on (R.RING_PORT_up 0) = true → v.on (R.RING_PORT_up 1) = true →
    Monitored s (fun u => Entered v u .run 16 ∧ Keeps v u)) ∧
  (∀ s v : State, v = State.intake 16 s → v.hub.ringDue = true → v.hub.mode = .run ∨ v.hub.mode = .runDegraded →
    v.on (R.RING_PORT_up 0) = false → v.on (R.RING_PORT_up 1) = false → Monitored s (fun u =>
      (if v.on R.RING_ISLAND_enable = true then Entered v u .island 17 else Entered v u .safe 18) ∧ Keeps v u)) ∧
  (∀ s v : State, v = State.intake 16 s → v.hub.ringDue = true → v.hub.mode = .trial →
    v.on (R.RING_PORT_up 0) = false → v.on (R.RING_PORT_up 1) = false →
    Monitored s (fun u => Entered v u .safe 19 ∧ Keeps v u)) ∧
  (∀ s v : State, v = State.intake 16 s → v.hub.ringDue = true → v.hub.mode = .doze → v.power.exit = none →
    v.on (R.RING_PORT_up 0) = false → v.on (R.RING_PORT_up 1) = false → Monitored s (fun u =>
      u.hub.mode = .doze ∧ ∃ x, u.power.exit = some x ∧ x.mode = (if v.on R.RING_ISLAND_enable = true then .island else .safe))) ∧
  (∀ s v : State, v = State.intake 16 s → v.hub.ringDue = true → v.hub.mode = .safe →
    s.settle = (({ v with hub := { v.hub with ringDue := false } } : State)).noteDone)

/-- R30, R35, R598 to R600: power is removed from a gated domain whose signatures are computed; at the end of an exit from Doze no
domain is gated any more before the mode it leads to is entered; the Kettle's reactions to what the ungated banks raise come before
that, and may change the mode it leads to. -/
def Obligations.DozeEndsWithEveryDomainPowered : Prop :=
  (∀ (s : State) (d : Fin 8), s.power.exit = none → exec (.dozeGatingDone d) s =
    .next ({ s with power := { s.power with gating := s.power.gating &&& ~~~(BitVec.ofNat 8 (2 ^ d.val)) } } : State).settle) ∧
  (∀ (s w : State) (lost : BitVec 16) (x : DozeExit), s.hub.mode = .doze → s.power.exit = some x → x.ready = true →
    x.mode = .run ∨ x.mode = .island ∨ x.mode = .safe →
    w = (List.range 8).foldl (fun (t : State) d => t.ungateDomain d (bitAt lost.toNat (6 + d))) s →
    (∀ d, d < 8 → w.bitOn R.PWR_STATUS_gated d = false) ∧ w.flash = s.flash ∧ w.upd = s.upd ∧ w.hub = s.hub ∧
    w.power.exit = some x ∧ (w.raised = [] → Leaves (.dozeExitDone lost) s (fun u => Entered s u x.mode x.row ∧
      u.power.exit = none ∧ (∀ d, d < 8 → u.bitOn R.PWR_STATUS_gated d = false) ∧ u.flash = s.flash ∧ u.upd = s.upd ∧
      u.now = s.now ∧ u.clk = s.clk))) ∧
  (∀ (s v : State) (lost : BitVec 16) (x y : DozeExit), s.hub.mode = .doze → s.power.exit = some x → x.ready = true →
    v = State.intake 16 ((List.range 8).foldl (fun (t : State) d => t.ungateDomain d (bitAt lost.toNat (6 + d))) s) →
    v.power.exit = some y → y.mode = .run ∨ y.mode = .island ∨ y.mode = .safe → Leaves (.dozeExitDone lost) s (fun u =>
      Entered v u y.mode y.row ∧ u.power.exit = none ∧ u.hub.ringDue = true ∧ u.flash = v.flash ∧ u.upd = v.upd))

/-- R363, R364, R601, R603 to R608: the entry to Hibernate ends with the resonator stopped; an enabled source wakes the hub, is recorded in
PWR_WAKE_LAST and asks for the rail of before, of 720 mV at least (R93); a due wake time, armed within half of the 40-bit range, and a selected edge of
5 µs act as sources 2 and 3; when the resonator is ready the hub enters the wake target by row 24, and without any clock Safe
by row 25 with the time base lost; with a ring clock only, the time base is degraded. -/
def Obligations.WakingFollowsTheSequence : Prop :=
  (∀ (s : State) (h : Hib), s.power.hib = some h → h.phase = .entering → Leaves .hibernatePoweredDown s (fun u =>
    u.power.hib = some { h with phase := .down, off := true } ∧ u.time.resonator = false ∧ u.hub = s.hub ∧ Keeps s u)) ∧
  (∀ (s : State) (w : Wake) (h : Hib), w.code.val ≠ 0 → (w.code.val = 4 → s.timeioWakes w.element.toNat = true) →
    s.hub.mode = .hibernate →
    s.bitOn R.PWR_WAKE_CFG_hib_sources (w.code.val - 1) = true → s.power.hib = some h → h.phase = .down →
    Leaves (.wakeSource w) s (fun u => u.rd R.PWR_WAKE_LAST_source = w.code.val ∧ u.rd R.PWR_WAKE_LAST_mode = 8 ∧
      u.rd R.PWR_WAKE_LAST_element = w.element.toNat ∧
      u.power.hib = some { h with phase := .waking, wakeAt := s.clk, target := if w.toSafe = true then .safe else h.target } ∧
      (s.power.vsi = none → ∃ v, u.power.vsi = some v ∧ v.target = max h.mv 720) ∧ u.hub = s.hub ∧ Keeps s u)) ∧
  (∀ (s : State) (j : Fin 4) (rising : Bool) (ns : Nat), 5000 ≤ ns → bitAt (fget (s.word R.PWR_WAKE_PINS) (16 * j.val) 16) 15 = true →
    rising ≠ bitAt (fget (s.word R.PWR_WAKE_PINS) (16 * j.val) 16) 14 →
    (s.pinMode (fget (s.word R.PWR_WAKE_PINS) (16 * j.val) 16 % 512) = 1 ∨
      s.pinMode (fget (s.word R.PWR_WAKE_PINS) (16 * j.val) 16 % 512) = 2) →
    s.hub.mode = .doze → s.power.exit = none → s.bitOn R.PWR_WAKE_CFG_doze_sources 2 = true →
    Leaves (.wakePinEdge j rising ns) s (fun u => u.rd R.PWR_WAKE_LAST_source = 3 ∧ u.rd R.PWR_WAKE_LAST_element = j.val ∧
      (∃ x, u.power.exit = some x ∧ x.mode = .run ∧ x.row = 22) ∧ u.hub = s.hub ∧ Keeps s u)) ∧
  (∀ (s : State) (t : Word) (h : Hib), s.power.wakeDue = some t → 0 ≤ tdiff s.now t → s.hub.mode = .hibernate →
    s.bitOn R.PWR_WAKE_CFG_hib_sources 1 = true → s.power.hib = some h → h.phase = .down →
    Leaves .wakeTimeDue s (fun u => u.rd R.PWR_WAKE_LAST_source = 2 ∧ u.power.wakeDue = none ∧ u.rd R.PWR_WAKE_AT_armed = 0 ∧
      (∃ x, u.power.hib = some x ∧ x.phase = .waking) ∧ u.hub = s.hub ∧ Keeps s u)) ∧
  (∀ (s : State) (r : Requester) (t : BitVec 40), Grants s r R.PWR_WAKE_AT .write → 0 ≤ sdiff40 t.toNat s.now →
    Writes (.wakeAtArm r t) s r R.PWR_WAKE_AT (fun u => u.power.wakeDue = some (s.now + BitVec.ofInt 64 (sdiff40 t.toNat s.now)) ∧
      u.rd R.PWR_WAKE_AT_armed = 1 ∧ u.rd R.PWR_WAKE_AT_past = 0 ∧ u.rd R.PWR_WAKE_AT_time = t.toNat ∧
      (∀ a, a ≠ R.PWR_WAKE_AT → u.word a = s.word a) ∧ u.hub = s.hub ∧ Keeps s u)) ∧
  (∀ (s : State) (r : Requester) (t : BitVec 40), Grants s r R.PWR_WAKE_AT .write → sdiff40 t.toNat s.now < 0 →
    Writes (.wakeAtArm r t) s r R.PWR_WAKE_AT (fun u => u.power.wakeDue = none ∧
      u.rd R.PWR_WAKE_AT_armed = 0 ∧ u.rd R.PWR_WAKE_AT_past = 1 ∧ u.hub = s.hub ∧ Keeps s u)) ∧
  (∀ (s : State) (r : Requester), Grants s r R.PWR_WAKE_AT .write → exec (.wakeAtCancel r) s =
    .next ((({ s with power := { s.power with wakeDue := none } } : State).wr R.PWR_WAKE_AT_armed 0).wrote r R.PWR_WAKE_AT).settle) ∧
  (∀ (s : State) (lost : BitVec 16) (h : Hib), s.power.hib = some h → h.phase = .powered → s.time.resonator = true →
    h.target = .safe → Leaves (.wakeClockDecide lost) s (fun u =>
      u.hub.mode = .safe ∧ u.hub.row = 24 ∧ u.power.hib = none ∧ u.flash = s.flash ∧ u.now = s.now ∧ u.clk = s.clk)) ∧
  (∀ (s : State) (h : Hib), s.power.hib = some h → h.phase = .powered → h.off = false → 5000000 ≤ s.clk - h.wakeAt →
    s.clockNow = 3 → Leaves (.wakeClockDecide 0) s (fun u =>
      Entered s u .safe 25 ∧ u.power.hib = none ∧ u.time.lost = true ∧ u.rd R.TIM_STATUS_clock = 3 ∧
      u.rd R.TIM_STATUS_valid = 0 ∧ (∃ d, ⟨0x054, d⟩ ∈ u.raised) ∧ Keeps s u)) ∧
  (∀ (s : State) (h : Hib), s.power.hib = some h → h.phase = .powered → h.off = false → 5000000 ≤ s.clk - h.wakeAt →
    h.target = .run ∨ h.target = .safe → s.clockNow = 1 ∨ s.clockNow = 2 → Leaves (.wakeClockDecide 0) s (fun u =>
      Entered s u h.target 24 ∧ u.power.hib = none ∧ u.rd R.TIM_STATUS_clock = s.clockNow ∧
      u.rd R.TIM_STATUS_degraded = 1 ∧ (∃ d, ⟨0x053, d⟩ ∈ u.raised) ∧ Keeps s u))

/-! ### Boot, Steep, activation, trial -/

/-- R20 rows 5 to 10, R23, R24, R121, R122, R676 to R680: the self-test's end starts the Steep of the active slot of the boot record with
the higher seq, where its firmware matches; a strap that selects an EMPTY slot counts a failed Steep, and the other slot is booted; a
failure of the self-test keeps the hub in Boot with ERR_N low; a Steep whose source passes every check ends in Quarantine or
Safe by the seal, and one that fails leads to Boot with its cause recorded and the other slot named for the retry. -/
def Obligations.BootAndSteepFollowTheTable : Prop :=
  (∀ s t : State, s.hub.mode = .boot → s.inReset = false → s.hub.bootFail = false → s.hub.nextSlot = none → s.hub.strap = false →
    t = s.readRecords → (t.slotOf t.upd.boot.active).state = 3 → t.firmwareOk t.upd.boot.active = true →
    Leaves .selftestDone s (fun u =>
    Entered s u .steep 6 ∧ u.hub.steepSrc = (if t.upd.boot.active = true then 1 else 0) ∧ u.upd.running = t.upd.boot.active ∧
    u.switch.frames = [] ∧ u.ring.strainer = [] ∧ Keeps s u)) ∧
  (∀ s t : State, s.hub.mode = .boot → s.inReset = false → s.hub.bootFail = false → s.hub.nextSlot = none → s.hub.strap = true →
    s.hub.retried = false → t = s.readRecords → (t.slotOf (!t.upd.boot.active)).state = 0 →
    (t.slotOf t.upd.boot.active).state = 3 → t.firmwareOk t.upd.boot.active = true → Leaves .selftestDone s (fun u =>
    Entered s u .steep 6 ∧ u.hub.steepSrc = (if t.upd.boot.active = true then 1 else 0) ∧ u.upd.running = t.upd.boot.active ∧
    u.rd R.STP_STATUS_fail_count = min (s.rd R.STP_STATUS_fail_count + 1) 255 ∧ u.hub.retried = true ∧ Keeps s u)) ∧
  (∀ s : State, s.upd.other = .blank → s.readRecords.upd.boot = s.upd.boot) ∧
  (∀ (s : State) (r : BootRec), s.upd.other = .held r →
    s.readRecords.upd.boot = (if s.upd.boot.seq < r.seq then r else s.upd.boot)) ∧
  (∀ s : State, s.hub.mode = .boot → s.inReset = false → Leaves .selftestFail s (fun u =>
    u.hub.mode = .boot ∧ u.hub.bootFail = true ∧ u.errLow = true ∧ u.upd = s.upd ∧ Keeps s u)) ∧
  (∀ (s t : State) (g : Image), s.hub.mode = .steep → s.steepFault = none → g = imageOf (s.sourceBytes s.hub.steepSrc) →
    s.applyImage g = (t, none) → Leaves .steepComplete s (fun u =>
    (if t.sealWord = 0 then Entered t u .quarantine 9 else Entered t u .safe 10) ∧
    u.rd R.STP_STATUS_source = t.hub.steepSrc % 4 ∧ u.rd R.STP_LOADED_build = g.build % 2 ^ 32 ∧
    u.rd R.STP_LOADED_epoch = g.epoch % 2 ^ 24 ∧ u.hub.retried = false ∧ u.hub.nextSlot = none ∧
    u.upd.fallbackDue = false ∧ u.upd.migrationDue = false)) ∧
  (∀ (s : State) (c : Cause) (storeError : Option (BitVec 32)), s.hub.mode = .steep → s.steepFault = some c → s.hub.steepSrc ≤ 1 →
    s.hub.retried = false → Leaves (.steepFail storeError) s (fun u =>
    Entered s u .boot 5 ∧ u.rd R.STP_STATUS_last_cause = c.code ∧ u.rd R.STP_STATUS_last_source = s.hub.steepSrc ∧
    u.hub.retried = true ∧ u.hub.nextSlot = some (s.hub.steepSrc == 0) ∧ u.hub.bootFail = false ∧ Keeps s u)) ∧
  (∀ (s : State) (c : Cause), s.hub.mode = .steep → s.steepFault = some c → s.hub.steepSrc ≤ 1 → s.hub.retried = true →
    Leaves .steepComplete s (fun u => Entered s u .boot 5 ∧ u.rd R.STP_STATUS_last_cause = c.code ∧
      u.hub.bootFail = true ∧ u.errLow = true ∧ Keeps s u))

/-- R682 to R692, R696: the activation record names the built slot, in TRIAL, active, with migration pending, and opens the
reboot window, whose end leads to Boot by row 2; the end of a migration, successful or not, clears migration pending and starts
the Steep by row 8; an expired trial makes the running slot FAILED and the other active by row 3; a trial whose conditions
hold is confirmed, in the millisecond of its expiry too, and goes on in Run by row 14; an abandon in Trial acts as the expiry does. -/
def Obligations.ActivationAndTrialFollowTheTable : Prop :=
  (∀ s : State, s.hub.mode = .update → s.hub.row = 30 → s.hub.window = false → Leaves .activationRecordWritten s (fun u =>
    u.hub.window = true ∧ u.hub.mode = .update ∧ u.upd.boot.active = (!s.upd.running) ∧ u.upd.boot.trialBoots = 0 ∧
    u.upd.boot.migration = true ∧ (u.slotOf (!s.upd.running)).state = 2 ∧ u.slotOf s.upd.running = s.slotOf s.upd.running ∧
    u.upd.boot.seq = (s.upd.boot.seq + 1) % 2 ^ 32 ∧ u.upd.other = .held s.upd.boot ∧ u.upd.journal = [] ∧ u.switch.frames = [] ∧ Keeps s u)) ∧
  (∀ s : State, s.hub.mode = .update → s.hub.window = true → Leaves .rebootWindowClose s (fun u =>
    Entered s u .boot 2 ∧ u.hub.window = false ∧ u.hub.accessTable = false ∧ u.upd = s.upd ∧ Keeps s u)) ∧
  (∀ (s : State) (ok : Bool), s.hub.mode = .update → s.hub.row = 7 → Leaves (.migrationEnd ok) s (fun u =>
    Entered s u .steep 8 ∧ u.hub.steepSrc = (if s.upd.running = true then 1 else 0) ∧ u.upd.boot.migration = false ∧
    (ok = true → (u.settingsOf s.upd.running).used = true ∧
      (u.settingsOf s.upd.running).sealWord = (s.settingsOf (!s.upd.running)).sealWord ∧
      (u.settingsOf s.upd.running).epoch = (s.settingsOf (!s.upd.running)).epoch ∧
      ((s.settingsOf (!s.upd.running)).used = true →
        (u.settingsOf s.upd.running).body = (s.settingsOf (!s.upd.running)).body)) ∧
    (ok = false → u.rd R.UPD_STATUS_migration_fail = 1 ∧ u.upd.migrationDue = true ∧
      u.settingsOf s.upd.running = s.settingsOf s.upd.running) ∧ Keeps s u)) ∧
  (∀ s : State, s.hub.mode = .update → s.hub.row = 7 → 10000000000 ≤ s.clk - s.hub.enteredAt →
    Leaves .migrationTimeout s (fun u => Entered s u .steep 8 ∧ u.upd.boot.migration = false ∧
      u.rd R.UPD_STATUS_migration_fail = 1 ∧ u.upd.migrationDue = true ∧ Keeps s u)) ∧
  (∀ s : State, s.hub.mode = .trial → s.upd.confirming = false → fget s.policy 48 8 * 60000000000 ≤ s.upd.trialNs →
    s.confirmConditions = false → Leaves .trialWindowExpire s (fun u => Entered s u .boot 3 ∧ (u.slotOf s.upd.running).state = 4 ∧
      u.upd.boot.active = (!s.upd.running) ∧ u.upd.boot.fallback = 1 ∧ u.upd.fallbackDue = true ∧ Keeps s u)) ∧
  (∀ s : State, s.confirmConditions = true → exec .trialConfirmCheck s =
    .next ({ s with upd := { s.upd with confirming := true } } : State).settle) ∧
  (∀ s : State, s.confirmConditions = true → s.upd.confirming = false → fget s.policy 48 8 * 60000000000 ≤ s.upd.trialNs →
    exec .trialWindowExpire s = .next ({ s with upd := { s.upd with confirming := true } } : State).settle) ∧
  (∀ s : State, s.confirmConditions = false → exec .trialConfirmCheck s = .next s.settle) ∧
  (∀ s : State, s.upd.confirming = true → s.upd.confirmEnded = false → s.hub.mode = .trial →
    s.on (R.RING_PORT_up 0) = true → s.on (R.RING_PORT_up 1) = true → Leaves .trialConfirmed s (fun u =>
    Entered s u .run 14 ∧ (u.slotOf s.upd.running).state = 3 ∧ u.upd.boot.trialBoots = 0 ∧
    u.upd.confirmEnded = true ∧ u.slotOf (!s.upd.running) = s.slotOf (!s.upd.running) ∧ Keeps s u)) ∧
  (∀ s : State, s.upd.confirming = false ∨ s.upd.confirmEnded = true → exec .trialConfirmed s = .next s.settle) ∧
  (∀ (s : State) (r : Requester), Grants s r R.UPD_CTRL .write → r.level = .supervisor → s.upd.confirming = false →
    (s.slotOf s.upd.running).state = 2 → s.hub.mode = .trial → Writes (.updAbandon r) s r R.UPD_CTRL (fun u =>
    Entered s u .boot 3 ∧ (u.slotOf s.upd.running).state = 4 ∧ u.upd.boot.active = (!s.upd.running) ∧
    u.upd.boot.fallback = 3 ∧ Keeps s u)) ∧
  (∀ (s : State) (r : Requester), Grants s r R.UPD_CTRL .write → r.level = .supervisor → s.upd.confirming = true →
    exec (.updAbandon r) s = .next ((s.wr R.UPD_STATUS_abandon_late 1).wrote r R.UPD_CTRL).settle)
/-! ### Requests, register accesses, the initiator -/

/-- R31, R194, R195: an access goes through exactly when the target is in service and no check turns it away; a write turned away
changes only what its answer and its counts change, and out of service nothing is answered. REGISTER_WRITE completes so at every
address: where no register and no window stands it is answered ABSENT, where a check fails with that code, and else the write of
the register, or of the eight bytes of the window, takes place and is answered OK. -/
def Obligations.WritesAreCheckedBeforeTheyAct : Prop :=
  (∀ (s : State) (r : Requester) (a : Nat) (eff : State → State),
    (s.targetUp = false → s.asWrite r a eff = s) ∧
    (∀ c, s.targetUp = true → s.screenOne r a .write = some c → (s.asWrite r a eff).answer = some ⟨c, []⟩ ∧
      Keeps s (s.asWrite r a eff) ∧ (s.asWrite r a eff).hub = (s.heardFrom r).hub ∧ (s.asWrite r a eff).upd = s.upd ∧
      (s.asWrite r a eff).bays = s.bays ∧ (s.asWrite r a eff).engines = s.engines ∧ (s.asWrite r a eff).power = s.power ∧
      (∀ b, ¬(0x80000 ≤ b ∧ b < 0x90000) → (s.asWrite r a eff).word b = s.word b)) ∧
    (Grants s r a .write → (s.asWrite r a eff).answer = some ⟨.ok, []⟩ ∧ Keeps (eff s) (s.asWrite r a eff) ∧
      (s.asWrite r a eff).hub = ((eff s).heardFrom r).hub ∧ (s.asWrite r a eff).upd = (eff s).upd ∧
      (s.asWrite r a eff).bays = (eff s).bays ∧
      (s.asWrite r a eff).engines = (eff s).engines ∧ (s.asWrite r a eff).power = (eff s).power ∧
      (∀ b, ¬(0x80000 ≤ b ∧ b < 0x90000) → (s.asWrite r a eff).word b = (eff s).word b))) ∧
  (∀ (s : State) (r : Requester) (a : BitVec 32) (v hw : Word), s.targetUp = false →
    exec (.registerWrite r a v hw) s = .next s.settle) ∧
  (∀ (s : State) (r : Requester) (a : BitVec 32) (v hw : Word), s.targetUp = true → s.placeOf a.toNat 8 false = none →
    exec (.registerWrite r a v hw) s = .next ((s.countTxn r a.toNat .absent 1 9 8).answered .absent []).settle) ∧
  (∀ (s : State) (r : Requester) (a : BitVec 32) (v hw : Word) (p : Place) (c : RCode), s.targetUp = true →
    s.placeOf a.toNat 8 false = some p → s.placeScreen r a.toNat .write p = some c →
    exec (.registerWrite r a v hw) s = .next ((s.countTxn r a.toNat c 1 9 8).answered c []).settle) ∧
  (∀ (s : State) (r : Requester) (a : BitVec 32) (v hw : Word), Grants s r a.toNat .write → a.toNat % 8 = 0 →
    s.windowAt a.toNat 8 = none →
    exec (.registerWrite r a v hw) s = .next ((s.writeReg r a.toNat v hw).wrote r a.toNat).settle) ∧
  (∀ (s : State) (r : Requester) (a : BitVec 32) (v hw : Word) (w : Window), s.targetUp = true → s.windowAt a.toNat 8 = some w →
    s.windowScreen r w .write = none → CleanMem s → Leaves (.registerWrite r a v hw) s (fun u =>
    Stores s u (w.memOffset + (a.toNat - w.base)) (wordBytes v) ∧ u.answer = some ⟨.ok, []⟩))

/-- R15, R169, R173, R194, R202, R321: rights of single accesses. While the hub is in Steep or Update, registers outside blocks 0 and 1
answer BUSY; in Quarantine and Test an Operator is answered PRIV; without an access table an Operator has no right and a
Supervisor reaches blocks 0 and 1 alone; an atomic to a register that is not a TOP_SCRATCH is answered PRIV; an unmapped
address is answered ABSENT whatever the requester. A request out of a frame whose program executed CLAIM is answered PRIV where the
CLAIM does not name its master (R321). -/
def Obligations.RightsFollowModeAndLevel : Prop :=
  (∀ (s : State) (r : Requester) (a b : Nat) (k : Kind), s.hub.mode = .steep ∨ s.hub.mode = .update → blockOf a = some b →
    2 ≤ b → s.absentReg a = false → s.screenOne r a k = some .busy) ∧
  (∀ (s : State) (r : Requester) (a b : Nat) (k : Kind), s.hub.mode = .quarantine ∨ s.hub.mode = .test → r.level = .operator →
    blockOf a = some b → s.absentReg a = false → s.screenOne r a k = some .priv) ∧
  (∀ (s : State) (r : Requester) (a b : Nat) (k : Kind), s.hub.accessTable = false → r.level = .operator → s.hub.mode = .safe →
    blockOf a = some b → s.absentReg a = false → s.screenOne r a k = some .priv) ∧
  (∀ (s : State) (r : Requester) (a b : Nat) (k : Kind), s.hub.accessTable = false → r.level = .supervisor → s.hub.mode = .safe →
    blockOf a = some b → s.absentReg a = false → 2 ≤ b → s.screenOne r a k = some .priv) ∧
  (∀ (s : State) (r : Requester) (a b : Nat), blockOf a = some b → s.absentReg a = false → isScratch a = false →
    s.hub.mode ≠ .steep → s.hub.mode ≠ .update → s.screenOne r a .atomic = some .priv) ∧
  (∀ (s : State) (r : Requester) (a : Nat) (k : Kind), blockOf a = none → s.screenOne r a k = some .absent) ∧
  (∀ (s : State) (t : Txn) (c : Claimed) (n : Nat) (k : Kind) (p : Place), s.claimOf t = some c →
    c.claim.masters.getLsbD t.who.master.val = false → s.placeOf t.addr.toNat n (k == .atomic) = some p →
    s.modeScreen t.who p.low = none → s.checkTxn (s.withClaim t).2 n k = .error .priv)

/-- R179, R193 to R196, R203: a request that reaches the target is answered with the code of the first check that fails and the
pattern of that code; the response goes back as `respond` sends it, and the request changes nothing but what it notes of the
master, its slot and the counters. A posted WR is not answered. -/
def Obligations.ChecksThatFailAnswerTheirCode : Prop :=
  (∀ (s : State) (t : Txn) (n : Nat) (c : RCode), 1 ≤ n → n ≤ 256 → Arrives s t false → s.checkTxn (s.withClaim t).2 n .read = .error c →
    ∃ u, exec (.txnRd t n) s = .next (u.respond (s.withClaim t).2 c (fillBytes c n) true).settle ∧ Noted (s.withClaim t).1 u) ∧
  (∀ (s : State) (t : Txn) (data : List Byte) (c : RCode), 1 ≤ data.length → data.length ≤ 256 → Arrives s t false →
    s.checkTxn (s.withClaim t).2 data.length .write = .error c → c ≠ .ok →
    ∃ u, exec (.txnWra t data) s = .next (u.respond (s.withClaim t).2 c [] true).settle ∧ Noted (s.withClaim t).1 u) ∧
  (∀ (s : State) (t : Txn) (data : List Byte) (c : RCode), 1 ≤ data.length → data.length ≤ 256 → Arrives s t true →
    s.checkTxn (s.withClaim t).2 data.length .write = .error c → c ≠ .ok → ∃ u, exec (.txnWr t data) s = .next u.settle ∧ Noted (s.withClaim t).1 u ∧
      u.hub.serving = false) ∧
  (∀ (s : State) (t : Txn) (v w : Word) (c : RCode), Arrives s t false → s.checkTxn (s.withClaim t).2 8 .atomic = .error c →
    (∃ u, exec (.txnFaa t v) s = .next (u.respond (s.withClaim t).2 c (wordBytes c.pattern) true).settle ∧ Noted (s.withClaim t).1 u) ∧
    (∃ u, exec (.txnFao t v) s = .next (u.respond (s.withClaim t).2 c (wordBytes c.pattern) true).settle ∧ Noted (s.withClaim t).1 u) ∧
    (∃ u, exec (.txnCas t v w) s = .next (u.respond (s.withClaim t).2 c (wordBytes c.pattern) true).settle ∧ Noted (s.withClaim t).1 u))

/-- R182 to R186, R204: requests to a process image window. RD returns the bytes and leaves memory unchanged; WR and WRA store
the bytes at the window's place and leave every other byte unchanged; the atomics return the prior value and store the sum, the
OR, or, where the prior value equals the compare value, the swap value. -/
def Obligations.WindowsReadAndWriteProcessImageMemory : Prop :=
  (∀ (s : State) (t : Txn) (n : Nat) (w : Window), 1 ≤ n → n ≤ 256 → Arrives s t false →
    s.checkTxn (s.withClaim t).2 n .read = .ok (.window w) → CleanMem s →
    ∃ u, exec (.txnRd t n) s = .next (u.respond (s.withClaim t).2 .ok (s.memBytes (w.memOffset + (t.addr.toNat - w.base)) n) true).settle ∧
      Noted (s.withClaim t).1 u) ∧
  (∀ (s : State) (t : Txn) (data : List Byte) (w : Window), 1 ≤ data.length → data.length ≤ 256 → Arrives s t false →
    s.checkTxn (s.withClaim t).2 data.length .write = .ok (.window w) → CleanMem s →
    ∃ u, exec (.txnWra t data) s = .next (u.respond (s.withClaim t).2 .ok [] true).settle ∧
      Stores (s.withClaim t).1 u (w.memOffset + (t.addr.toNat - w.base)) data) ∧
  (∀ (s : State) (t : Txn) (data : List Byte) (w : Window), 1 ≤ data.length → data.length ≤ 256 → Arrives s t true →
    s.checkTxn (s.withClaim t).2 data.length .write = .ok (.window w) → CleanMem s →
    ∃ u, exec (.txnWr t data) s = .next u.settle ∧ Stores (s.withClaim t).1 u (w.memOffset + (t.addr.toNat - w.base)) data) ∧
  (∀ (s : State) (t : Txn) (v : Word) (w : Window), Arrives s t false → s.checkTxn (s.withClaim t).2 8 .atomic = .ok (.window w) → CleanMem s →
    (∃ u, exec (.txnFaa t v) s = .next
        (u.respond (s.withClaim t).2 .ok (wordBytes (bytesWord (s.memBytes (w.memOffset + (t.addr.toNat - w.base)) 8))) true).settle ∧
      Stores (s.withClaim t).1 u (w.memOffset + (t.addr.toNat - w.base))
        (wordBytes (bytesWord (s.memBytes (w.memOffset + (t.addr.toNat - w.base)) 8) + v))) ∧
    (∃ u, exec (.txnFao t v) s = .next
        (u.respond (s.withClaim t).2 .ok (wordBytes (bytesWord (s.memBytes (w.memOffset + (t.addr.toNat - w.base)) 8))) true).settle ∧
      Stores (s.withClaim t).1 u (w.memOffset + (t.addr.toNat - w.base))
        (wordBytes (bytesWord (s.memBytes (w.memOffset + (t.addr.toNat - w.base)) 8) ||| v)))) ∧
  (∀ (s : State) (t : Txn) (compare swap : Word) (w : Window), Arrives s t false → s.checkTxn (s.withClaim t).2 8 .atomic = .ok (.window w) →
    CleanMem s →
    ∃ u, exec (.txnCas t compare swap) s = .next
        (u.respond (s.withClaim t).2 .ok (wordBytes (bytesWord (s.memBytes (w.memOffset + (t.addr.toNat - w.base)) 8))) true).settle ∧
      (if bytesWord (s.memBytes (w.memOffset + (t.addr.toNat - w.base)) 8) = compare then
        Stores (s.withClaim t).1 u (w.memOffset + (t.addr.toNat - w.base)) (wordBytes swap) else Noted (s.withClaim t).1 u))

/-- R189, R203, R204: TOP_SCRATCH is read, written and changed atomically like memory: REGISTER_WRITE sets it, the atomics return
the prior value and store their result, and no other register outside the counters changes. -/
def Obligations.ScratchRegistersTakeWritesAndAtomics : Prop :=
  (∀ (s : State) (r : Requester) (i : Fin 8) (v : Word), Grants s r (R.TOP_SCRATCH i.val) .write → s.loaded.windows = [] →
    Leaves (.registerWrite r (BitVec.ofNat 32 (R.TOP_SCRATCH i.val)) v 0) s (fun u => u.word (R.TOP_SCRATCH i.val) = v ∧
      u.answer = some ⟨.ok, []⟩ ∧ Keeps s u ∧ u.hub = (s.heardFrom r).hub ∧
      (∀ a, a ≠ R.TOP_SCRATCH i.val → ¬(0x80000 ≤ a ∧ a < 0x90000) → u.word a = s.word a))) ∧
  (∀ (s : State) (t : Txn) (i : Fin 8) (v : Word), Arrives s t false → t.addr.toNat = R.TOP_SCRATCH i.val →
    s.checkTxn (s.withClaim t).2 8 .atomic = .ok (.regs 0 1) →
    (∃ u, exec (.txnFaa t v) s = .next (u.respond (s.withClaim t).2 .ok (wordBytes (s.word (R.TOP_SCRATCH i.val))) true).settle ∧
      u.word (R.TOP_SCRATCH i.val) = s.word (R.TOP_SCRATCH i.val) + v ∧ Keeps s u) ∧
    (∃ u, exec (.txnFao t v) s = .next (u.respond (s.withClaim t).2 .ok (wordBytes (s.word (R.TOP_SCRATCH i.val))) true).settle ∧
      u.word (R.TOP_SCRATCH i.val) = s.word (R.TOP_SCRATCH i.val) ||| v ∧ Keeps s u) ∧
    (∃ u, exec (.txnCas t (s.word (R.TOP_SCRATCH i.val)) v) s =
        .next (u.respond (s.withClaim t).2 .ok (wordBytes (s.word (R.TOP_SCRATCH i.val))) true).settle ∧
      u.word (R.TOP_SCRATCH i.val) = v ∧ Keeps s u)) ∧
  (∀ (s : State) (t : Txn) (i : Fin 8), Arrives s t false → t.addr.toNat = R.TOP_SCRATCH i.val →
    s.checkTxn (s.withClaim t).2 8 .read = .ok (.regs 0 1) →
    ∃ u, exec (.txnRd t 8) s = .next (u.respond (s.withClaim t).2 .ok (wordBytes (s.word (R.TOP_SCRATCH i.val))) true).settle ∧ Noted (s.withClaim t).1 u)

/-- R163, R181, R188, R189, R195: records that the target does not take. Out of service they have no effect; a record of an
impermissible length or for another node is discarded and counted; one whose master and tag are in flight is discarded and
counted; without a free slot it is answered BUSY. That a tag in flight is discarded also where no slot is free is the model's choice (log
entry 33). -/
def Obligations.RecordsThatAreNotTakenAreCounted : Prop :=
  (∀ (s : State) (t : Txn) (n : Nat) (data : List Byte), s.targetUp = false →
    exec (.txnRd t n) s = .next (s.withClaim t).1.settle ∧ exec (.txnWr t data) s = .next (s.withClaim t).1.settle ∧
    exec (.txnWra t data) s = .next (s.withClaim t).1.settle) ∧
  (∀ (s : State) (t : Txn) (n : Nat), s.targetUp = true → n = 0 ∨ 256 < n →
    exec (.txnRd t n) s = .next ((s.withClaim t).1.bump (R.TOP_TXN_CNT_count 0)).settle) ∧
  (∀ (s : State) (t : Txn) (v : Word), s.targetUp = true → s.nodeOk t false = false →
    exec (.txnFaa t v) s = .next ((s.withClaim t).1.bump (R.TOP_TXN_CNT_count 0)).settle) ∧
  (∀ (s : State) (t : Txn) (data : List Byte), s.targetUp = true → 1 ≤ data.length → data.length ≤ 256 →
    s.nodeOk t true = true → s.tagBusy t = true →
    exec (.txnWr t data) s = .next (((s.withClaim t).1.noteMaster t).bump (R.TOP_TXN_CNT_count 1)).settle) ∧
  (∀ (s : State) (t : Txn) (n : Nat), s.targetUp = true → 1 ≤ n → n ≤ 256 → s.nodeOk t false = true →
    s.tagBusy t = false → t.port.isSome = true → s.slotsFull t.who.master.val = true →
    ∃ u, exec (.txnRd t n) s = .next (u.respond (s.withClaim t).2 .busy (fillBytes .busy n) false).settle ∧ Noted (s.withClaim t).1 u)

/-- R206, R209 to R211, R544: a response ends its request: the slot is free, the context that waits for it goes on, and an RD that
was answered OK fills its in shifter; another code, or no response within init_timeout, marks the request failed. A response
that matches no request is discarded and counted. A bucket gains one token every interval until it is full. Neither time runs out while the
hub sleeps in Hibernate. -/
def Obligations.ResponsesAndTimeoutsEndRequests : Prop :=
  (∀ (s : State) (m : Fin 4) (tag : Byte) (data : List Byte) (q : InitReq), s.targetUp = true →
    mget none s.initReqs tag.toNat = some q → q.master = m.val → q.kind = 2 → data.length = 8 →
    (s.ctx q.engine q.ctx).slot = some tag.toNat → Leaves (.txnResp m .localLevel tag 0 data) s (fun u =>
    mget none u.initReqs tag.toNat = none ∧ (u.ctx q.engine q.ctx).slot = none ∧ (u.ctx q.engine q.ctx).reqFailed = false ∧
    (u.ctx q.engine q.ctx).inSh = bytesWord data ∧ (u.ctx q.engine q.ctx).inCnt = 64 ∧ u.pimem = s.pimem ∧ u.hub = s.hub)) ∧
  (∀ (s : State) (m : Fin 4) (tag : Byte) (code : BitVec 4) (data : List Byte) (q : InitReq), s.targetUp = true → code ≠ 0 →
    mget none s.initReqs tag.toNat = some q → q.master = m.val → (s.ctx q.engine q.ctx).slot = some tag.toNat →
    Leaves (.txnResp m .localLevel tag code data) s (fun u =>
    mget none u.initReqs tag.toNat = none ∧ (u.ctx q.engine q.ctx).slot = none ∧ (u.ctx q.engine q.ctx).reqFailed = true ∧
    (u.ctx q.engine q.ctx).inSh = (s.ctx q.engine q.ctx).inSh ∧ u.pimem = s.pimem ∧ u.hub = s.hub)) ∧
  (∀ (s : State) (m : Fin 4) (level : Level) (tag : Byte) (code : BitVec 4) (data : List Byte), s.targetUp = true →
    mget none s.initReqs tag.toNat = none →
    exec (.txnResp m level tag code data) s = .next (s.bump (R.TOP_TXN_CNT_count 0)).settle) ∧
  (∀ (s : State) (slot : Byte) (q : InitReq), s.asleep = false → mget none s.initReqs slot.toNat = some q →
    q.sentAt + s.loaded.initTimeout * 1000 ≤ s.clk → (s.ctx q.engine q.ctx).slot = some slot.toNat →
    Leaves (.initTimeout slot) s (fun u => mget none u.initReqs slot.toNat = none ∧ (u.ctx q.engine q.ctx).slot = none ∧
      (u.ctx q.engine q.ctx).reqFailed = true ∧ u.pimem = s.pimem ∧ u.hub = s.hub)) ∧
  (∀ (s : State) (slot : Byte), mget none s.initReqs slot.toNat = none → exec (.initTimeout slot) s = .next s.settle) ∧
  (∀ (s : State) (m : Fin 4), s.asleep = false → s.rd (R.TOP_NOTICE_RATE_interval m.val) ≠ 0 →
    (s.bucket m.val).lastFill + s.rd (R.TOP_NOTICE_RATE_interval m.val) * 1000 ≤ s.clk →
    exec (.noticeTokenRefill m) s = .next (s.setBucket m.val { s.bucket m.val with
      tokens := min ((s.bucket m.val).tokens + 1) (s.rd (R.TOP_NOTICE_RATE_depth m.val)),
      lastFill := (s.bucket m.val).lastFill + s.rd (R.TOP_NOTICE_RATE_interval m.val) * 1000 }).settle)
/-! ### Seal, loads, update -/

/-- R118, R148 to R156, R683, R695: at Supervisor, a seal and an epoch written in Quarantine are pending; in Safe a settings record
with them is written, the epoch only within its bounds, and a seal of zero takes the epoch to 0. The record in force changes
when the write is complete, and takes the next place of the half in use, or the second of the other half where that is full; and an admission then leads to Safe by row 11. A challenge is answered with the first 8 bytes of
the SHA-256 over the committed seal, the challenge and the node number. Nothing else in the housekeeper changes. That the pending values
are gone at the end of an admission, and that the response takes the seal and the number of its own moment, is the model's choice (log
entry 25). -/
def Obligations.SealEpochAndPolicyAreCommittedByRecords : Prop :=
  (∀ (s : State) (r : Requester) (v : Word), Grants s r R.TOP_SEAL .write → r.level = .supervisor → s.hub.mode = .quarantine →
    s.on R.UPD_STATUS_migration_fail = false → exec (.sealWrite r v) s =
    .next ((({ s with hub := { s.hub with pendSeal := some v } } : State)).wrote r R.TOP_SEAL).settle) ∧
  (∀ (s : State) (r : Requester) (v : Word), Grants s r R.TOP_SEAL .write → r.level = .supervisor → s.hub.mode = .safe →
    s.on R.UPD_STATUS_migration_fail = false → s.upd.commit = none → exec (.sealWrite r v) s =
    .next (({ s with upd := { s.upd with commit := some ⟨false, if v = 0 then 0 else s.storedEpoch, v, s.policy⟩ } } : State).wrote r
      R.TOP_SEAL).settle) ∧
  (∀ (s : State) (r : Requester) (v : BitVec 24), Grants s r R.TOP_EPOCH .write → r.level = .supervisor →
    s.hub.mode = .quarantine → s.on R.UPD_STATUS_migration_fail = false → exec (.epochWrite r v) s =
    .next (({ s with hub := { s.hub with pendEpoch := some v.toNat } } : State).wrote r R.TOP_EPOCH).settle) ∧
  (∀ (s : State) (r : Requester) (v : BitVec 24), Grants s r R.TOP_EPOCH .write → r.level = .supervisor → s.hub.mode = .safe →
    s.on R.UPD_STATUS_migration_fail = false → s.upd.commit = none → s.sealWord ≠ 0 → s.storedEpoch ≤ v.toNat →
    v.toNat ≤ s.rd R.STP_LOADED_epoch → exec (.epochWrite r v) s =
    .next (({ s with upd := { s.upd with commit := some ⟨false, v.toNat, s.sealWord, s.policy⟩ } } : State).wrote r
      R.TOP_EPOCH).settle) ∧
  (∀ (s : State) (r : Requester) (v : Word), Grants s r R.UPD_TRIAL .write → r.level = .supervisor → s.hub.mode = .safe →
    s.on R.UPD_STATUS_migration_fail = false → s.upd.commit = none → 1 ≤ fget v 48 8 → fget v 48 8 ≤ 60 → 1 ≤ fget v 42 2 →
    10 ≤ fget v 16 16 → fget v 16 16 ≤ 600 → Writes (.updTrialWrite r v) s r R.UPD_TRIAL (fun u => ∃ p : Word,
    u = { s with upd := { s.upd with commit := some ⟨false, s.storedEpoch, s.sealWord, p⟩ } } ∧
    fget p 48 8 = fget v 48 8 ∧ fget p 42 2 = fget v 42 2 ∧ fget p 41 1 = fget v 41 1 ∧ fget p 16 16 = fget v 16 16)) ∧
  (∀ (s : State) (c : Commit), s.upd.commit = some c → Leaves .settingsCommitDone s (fun u =>
    u.upd.commit = none ∧ (u.settingsOf s.upd.running).used = true ∧ (u.settingsOf s.upd.running).sealWord = c.sealWord ∧
    (u.settingsOf s.upd.running).epoch = c.epoch ∧ (u.settingsOf s.upd.running).policy = c.policy ∧
    (u.settingsOf s.upd.running).seq = ((s.settingsOf s.upd.running).seq + 1) % 2 ^ 32 ∧
    (u.settingsOf s.upd.running).writes = min ((s.settingsOf s.upd.running).roomy.writes + 1) (2 ^ 32 - 1) ∧
    (u.settingsOf s.upd.running).records = (if (s.settingsOf s.upd.running).records < 128 then
      (s.settingsOf s.upd.running).records + 1 else 2) ∧
    u.settingsOf (!s.upd.running) = s.settingsOf (!s.upd.running) ∧ u.upd.boot = s.upd.boot ∧ Keeps s u ∧
    (if c.admission = true ∧ s.hub.mode = .quarantine then Entered s u .safe 11 ∧ u.hub.pendSeal = none ∧ u.hub.pendEpoch = none
      else u.hub = s.hub))) ∧
  (∀ (s : State) (r : ModeReq) (w : Word) (e : Nat), Asks s r → s.hub.mode = .quarantine → s.hub.pendSeal = some w → w ≠ 0 →
    s.hub.pendEpoch = some e → e = s.rd R.STP_LOADED_epoch → s.on R.UPD_STATUS_migration_fail = false → s.upd.commit = none →
    exec (.reqSafe r) s = .next (({ s with upd := { s.upd with commit := some ⟨true, e, w, s.policy⟩ } } : State).wrote r.who
      R.TOP_MODE_REQ).settle) ∧
  (∀ (s : State) (r : Requester) (v : Word), Grants s r R.TOP_SEAL_CHAL .write → r.level = .supervisor →
    s.hub.mode = .quarantine ∨ s.hub.mode = .safe → exec (.sealChallenge r v) s =
    .next (({ s.setWord R.TOP_SEAL_CHAL v with hub := { s.hub with sealCalc := some v } } : State).wrote r R.TOP_SEAL_CHAL).settle) ∧
  (∀ (s : State) (c : Word), s.asleep = false → s.hub.sealCalc = some c → exec .sealRespReady s =
    .next ({ s.setWord R.TOP_SEAL_RESP (bytesWord ((sha256 (wordBytes s.sealWord ++ wordBytes c ++ leBytes 1 s.hub.node)).take 8)) with
      hub := { s.hub with sealCalc := none } } : State).settle)

/-- R126 to R133, R663, R668, R669: a load opens in Quarantine or Safe for the Supervisor that starts it, with the staging area and the
journal erased; its owner fills the buffer and puts blocks, which are programmed once; the verification answers with the first
of checks 1 to 6 that fails, or VERIFIED; an uncorrectable word that it reads is counted and raised; an abort closes the load. -/
def Obligations.LoadsFollowTheirOwner : Prop :=
  (∀ (s : State) (r : Requester), Grants s r R.STP_LOAD_CTRL .write → r.level = .supervisor →
    s.hub.mode = .quarantine ∨ s.hub.mode = .safe → s.upd.loadOpen = false → s.stagedImage = false →
    Writes (.loadStart r) s r R.STP_LOAD_CTRL (fun u => u.upd.loadOpen = true ∧ u.upd.erasing = true ∧ u.upd.journal = [] ∧
      u.rd R.STP_LOAD_STATUS_owner = r.master.val ∧ u.rd R.STP_LOAD_STATUS_state = 1 ∧ u.rd R.STP_LOAD_STATUS_busy = 1 ∧
      u.rd R.STP_LOAD_STATUS_received = 0 ∧ (∀ o, stagingBase ≤ o → o < stagingBase + 0x400000 → u.flashByte o = 0xFF) ∧
      (∀ o, o < stagingBase → u.flashByte o = s.flashByte o) ∧ u.upd.boot = s.upd.boot ∧ u.hub = s.hub ∧ u.pimem = s.pimem)) ∧
  (∀ (s : State) (r : Requester), Grants s r R.STP_LOAD_CTRL .write → r.level = .supervisor →
    s.hub.mode = .quarantine ∨ s.hub.mode = .safe → s.upd.loadOpen = false →
    Writes (.loadDiscardStaged r) s r R.STP_LOAD_CTRL (fun u => u.upd.loadOpen = true ∧ u.upd.erasing = true ∧
      u.upd.journal = [] ∧ u.rd R.STP_LOAD_STATUS_owner = r.master.val ∧ u.rd R.STP_LOAD_STATUS_state = 1 ∧
      (∀ o, stagingBase ≤ o → o < stagingBase + 0x400000 → u.flashByte o = 0xFF) ∧ u.hub = s.hub)) ∧
  (∀ (s : State) (r : Requester), Grants s r R.STP_LOAD_CTRL .write → r.level = .supervisor →
    s.hub.mode = .quarantine ∨ s.hub.mode = .safe → s.upd.loadOpen = false → s.stagedImage = true →
    exec (.loadStart r) s = .next (s.wrote r R.STP_LOAD_CTRL).settle) ∧
  (∀ (s : State) (r : Requester), Grants s r R.STP_LOAD_CTRL .write → r.level = .supervisor →
    s.hub.mode = .quarantine ∨ s.hub.mode = .safe → s.upd.loadOpen = true →
    Writes (.loadAbort r) s r R.STP_LOAD_CTRL (fun u => u.upd.loadOpen = false ∧ u.rd R.STP_LOAD_STATUS_owner = 0 ∧
      u.rd R.STP_LOAD_STATUS_state = 0 ∧ (∀ o, o < stagingBase → u.flashByte o = s.flashByte o) ∧ u.upd.boot = s.upd.boot ∧
      u.hub = s.hub ∧ u.pimem = s.pimem)) ∧
  (∀ (s : State) (r : Requester), Grants s r R.STP_LOAD_CTRL .write → s.ownsLoad r = true → s.rd R.STP_LOAD_STATUS_state = 1 →
    exec (.loadVerify r) s = .next (((({ s with upd := { s.upd with loadVerifying := true } } : State).wr R.STP_LOAD_STATUS_state 2).wr
      R.STP_LOAD_STATUS_cause 0).wrote r R.STP_LOAD_CTRL).settle) ∧
  (∀ s : State, s.upd.loadVerifying = true → Leaves .loadVerifyDone s (fun u =>
    u.upd = { s.upd with loadVerifying := false } ∧ u.hub = s.hub ∧ Keeps s u ∧
    match imageFault (s.sourceBytes 2) s.rootKey s.variant.code s.storedEpoch with
    | none => u.rd R.STP_LOAD_STATUS_state = 3 ∧ u.rd R.STP_LOAD_STATUS_cause = 0
    | some c => u.rd R.STP_LOAD_STATUS_state = 4 ∧ u.rd R.STP_LOAD_STATUS_cause = c.code)) ∧
  (∀ (s : State) (i : Nat), s.upd.loadVerifying = true → s.eccMarks = [(.flash, i, .bad)] → stagingBase ≤ 8 * i →
    8 * i < stagingBase + s.rd R.STP_LOAD_STATUS_received → Leaves .loadVerifyDone s (fun u =>
    u.raised = s.raised ++ [⟨0x007, i % 2 ^ 32⟩] ∧ Counted s u R.UPD_FLASH_ECC_uncorrectable)) ∧
  (∀ (s : State) (r : Requester) (i : Fin 32) (v : Word), Grants s r (R.STP_LOAD_BUF i.val) .write → s.ownsLoad r = true →
    s.on R.STP_LOAD_STATUS_busy = false → exec (.loadBufWrite r i v) s =
    .next ((s.setWord (R.STP_LOAD_BUF i.val) v).wrote r (R.STP_LOAD_BUF i.val)).settle) ∧
  (∀ (s : State) (r : Requester) (i : Fin 32) (v : Word), Grants s r (R.STP_LOAD_BUF i.val) .write → s.ownsLoad r = true →
    s.on R.STP_LOAD_STATUS_busy = true → exec (.loadBufWrite r i v) s =
    .next ((s.wr R.STP_LOAD_STATUS_overrun 1).wrote r (R.STP_LOAD_BUF i.val)).settle) ∧
  (∀ (s : State) (r : Requester) (block : BitVec 14) (words : BitVec 6), Grants s r R.STP_LOAD_PUT .write →
    s.ownsLoad r = true → s.on R.STP_LOAD_STATUS_busy = false → words ≠ 0 → words.toNat ≤ 32 →
    Writes (.loadPut r block words) s r R.STP_LOAD_PUT (fun u =>
      u.upd.put = some ⟨block.toNat, (List.range words.toNat).map (fun i => s.word (R.STP_LOAD_BUF i))⟩ ∧
      u.rd R.STP_LOAD_STATUS_busy = 1 ∧ u.rd R.STP_LOAD_STATUS_state = 1 ∧ u.hub = s.hub ∧ Keeps s u)) ∧
  (∀ (s : State) (p : Put), s.upd.put = some p → s.upd.loadOpen = true → p.block < 16384 → p.words.length ≤ 32 →
    Leaves .loadPutDone s (fun u => u.upd.put = none ∧ u.rd R.STP_LOAD_STATUS_busy = (if s.upd.erasing = true then 1 else 0) ∧
      (∀ i, i < 8 * p.words.length → u.flashByte (stagingBase + 256 * p.block + i) = (p.words.flatMap wordBytes).getD i 0) ∧
      (∀ o, o < stagingBase → u.flashByte o = s.flashByte o) ∧ u.upd.boot = s.upd.boot ∧ u.hub = s.hub ∧ u.pimem = s.pimem)) ∧
  (∀ s : State, s.upd.erasing = true → exec .stagingEraseDone s =
    .next ((({ s with upd := { s.upd with erasing := false } } : State).wr R.STP_LOAD_STATUS_busy
      (if s.upd.put.isSome = true then 1 else 0))).settle)

/-- R663, R671 to R676: a verify of the owner's staged package closes the load and begins; the first of checks 1 to 6 that fails ends it in
FAILED, raises UPD_VERIFY_FAIL with its cause and leaves both slots; when they pass, the inactive slot is marked EMPTY and erased;
a build whose checks pass marks it BUILT with the versions and digests of the image, and one whose read-back finds an uncorrectable
word fails with cause 9, the word counted and raised; a resume keeps the journaled chunks whose
CRC-32 still matches and erases the others; a cancel takes a BUILT slot back to EMPTY and VERIFIED back to RECEIVING. The cause 0 after a
cancel and the order of the two events of check 9 are the model's choice (log entries 73 and 75). -/
def Obligations.PackagesAreCheckedAndBuilt : Prop :=
  (∀ (s : State) (r : Requester), Grants s r R.UPD_CTRL .write → s.ownsLoad r = true → s.rd R.STP_LOAD_STATUS_state = 1 →
    s.stagedImage = true → (s.slotOf s.upd.running).state = 3 → Writes (.updVerify r) s r R.UPD_CTRL (fun u =>
    u.upd.loadOpen = false ∧ u.rd R.UPD_STATUS_state = 2 ∧ u.rd R.STP_LOAD_STATUS_state = 0 ∧ u.upd.boot = s.upd.boot ∧
    u.upd.journal = s.upd.journal ∧ u.rd R.UPD_STATUS_verifies = min (s.rd R.UPD_STATUS_verifies + 1) 65535 ∧ u.hub = s.hub ∧
    Keeps s u)) ∧
  (∀ (s : State) (c : Nat), CleanFlash s → s.rd R.UPD_STATUS_state = 2 → s.packageFault = some c → Leaves .updChecksDone s (fun u =>
    u.rd R.UPD_STATUS_state = 5 ∧ u.rd R.UPD_STATUS_cause = c % 16 ∧ u.raised = s.raised ++ [⟨0x009, c % 2 ^ 32⟩] ∧
    u.upd = s.upd ∧ u.hub = s.hub ∧ Keeps s u)) ∧
  (∀ s : State, s.rd R.UPD_STATUS_state = 2 → s.packageFault = none → Leaves .updChecksDone s (fun u =>
    u.rd R.UPD_STATUS_state = 3 ∧ (u.slotOf (!s.upd.running)).state = 0 ∧ u.slotOf s.upd.running = s.slotOf s.upd.running ∧
    u.upd.boot.seq = (s.upd.boot.seq + 1) % 2 ^ 32 ∧
    (∀ o, slotBase (!s.upd.running) ≤ o → o < slotBase (!s.upd.running) + 12582912 → u.flashByte o = 0xFF) ∧
    (∀ o, slotBase s.upd.running ≤ o → o < slotBase s.upd.running + 12582912 → u.flashByte o = s.flashByte o) ∧
    u.hub = s.hub ∧ u.pimem = s.pimem)) ∧
  (∀ s t : State, s.rd R.UPD_STATUS_state = 3 →
    t = { s with flash := mputList 0xFF s.flash (slotBase (!s.upd.running)) (s.buildImage s.packageBytes) } →
    t.builtFault s.packageBytes (s.buildImage s.packageBytes) = none → Leaves (.updBuildDone none) s (fun u =>
    u.rd R.UPD_STATUS_state = 0 ∧ u.rd R.UPD_STATUS_progress = 100 ∧ u.slotOf (!s.upd.running) =
      ⟨1, leAt (s.buildImage s.packageBytes) 8 4, leAt (s.buildImage s.packageBytes) 6 2,
        digestNat (sha256 (s.buildImage s.packageBytes)), digestNat (slice (s.buildImage s.packageBytes) 40 32)⟩ ∧
    u.slotOf s.upd.running = s.slotOf s.upd.running ∧ u.flash = t.flash ∧ u.hub = s.hub ∧ u.pimem = s.pimem)) ∧
  (∀ (s t : State) (i : BitVec 32), CleanFlash s → s.rd R.UPD_STATUS_state = 3 →
    t = { s with flash := mputList 0xFF s.flash (slotBase (!s.upd.running)) (s.buildImage s.packageBytes) } →
    t.builtFault s.packageBytes (s.buildImage s.packageBytes) = none → Leaves (.updBuildDone (some i)) s (fun u =>
    u.rd R.UPD_STATUS_state = 5 ∧ u.rd R.UPD_STATUS_cause = 9 ∧ u.raised = s.raised ++ [⟨0x007, i.toNat⟩, ⟨0x009, 9⟩] ∧
    Counted s u R.UPD_FLASH_ECC_uncorrectable ∧ u.upd = s.upd ∧ u.hub = s.hub)) ∧
  (∀ (s : State) (r : Requester), Grants s r R.UPD_CTRL .write → r.level = .supervisor →
    s.hub.mode = .quarantine ∨ s.hub.mode = .safe → s.upd.loadOpen = false → Writes (.updResume r) s r R.UPD_CTRL (fun u =>
    u.upd.loadOpen = true ∧ u.rd R.STP_LOAD_STATUS_owner = r.master.val ∧ u.rd R.STP_LOAD_STATUS_state = 1 ∧
    (∀ c, c < 64 → mget none u.upd.journal c = if s.chunkKept c = true then mget none s.upd.journal c else none) ∧
    (∀ c, c < 64 → ∀ o, stagingBase + 65536 * c ≤ o → o < stagingBase + 65536 * (c + 1) →
      u.flashByte o = if s.chunkKept c = true then s.flashByte o else 0xFF) ∧
    u.upd.boot = s.upd.boot ∧ u.hub = s.hub ∧ u.pimem = s.pimem)) ∧
  (∀ (s : State) (r : Requester), Grants s r R.UPD_CTRL .write → r.level = .supervisor →
    s.hub.mode = .quarantine ∨ s.hub.mode = .safe → s.updState = 4 → s.rd R.UPD_STATUS_state = 0 →
    Writes (.updCancel r) s r R.UPD_CTRL (fun u => u.rd R.UPD_STATUS_state = 1 ∧ u.rd R.UPD_STATUS_cause = 0 ∧
      (u.slotOf (!s.upd.running)).state = 0 ∧ u.slotOf s.upd.running = s.slotOf s.upd.running ∧ u.upd.journal = s.upd.journal ∧
      u.hub = s.hub ∧ Keeps s u))

/-! ### Ring -/

/-- R218, R219, R221, R246: a port loses its link with its lock, or through the high-BER condition while its lock stands, counts it
and raises LINK_DOWN; it locks at the rate it listens for, comes up after 1 ms of lock, or of lock since the high-BER condition, and
4 ms without lock take it to the other rate it may listen at. More than 1,000 invalid sync headers in a second raise LINK_MARGIN, and
LINK_AT_RISK at the slowest permitted rate. -/
def Obligations.LinksComeUpAndGoDown : Prop :=
  (∀ (s : State) (p : Fin 4), s.inReset = false → s.linked p.val = true → Leaves (.linkLoss ⟨p, false⟩) s (fun u =>
    (u.link p.val).lockSince = none ∧ u.rd (R.RING_PORT_locked p.val) = 0 ∧ Keeps s u)) ∧
  (∀ (s : State) (p : Fin 4), s.inReset = false → s.linked p.val = true → Leaves (.linkLoss ⟨p, true⟩) s (fun u =>
    (u.link p.val).lockSince = (s.link p.val).lockSince ∧ (u.link p.val).berAt = some s.clk ∧
    u.rd (R.RING_PORT_locked p.val) = s.rd (R.RING_PORT_locked p.val) ∧ Keeps s u)) ∧
  (∀ (s : State) (p : Fin 4) (highBer : Bool), s.inReset = false → s.linked p.val = true →
    Leaves (.linkLoss ⟨p, highBer⟩) s (fun u => u.rd (R.RING_PORT_up p.val) = 0 ∧
      u.rd (R.RING_PORT_downs p.val) = (if s.on (R.RING_PORT_up p.val) = true then min (s.rd (R.RING_PORT_downs p.val) + 1) 65535
        else s.rd (R.RING_PORT_downs p.val)) ∧
      (s.on (R.RING_PORT_up p.val) = true → (u.link p.val).downSince = some s.clk ∧ ⟨0x010 + p.val, 0⟩ ∈ u.raised) ∧
      u.hub = { s.hub with ringDue := s.hub.ringDue || (decide (p.val < 2) && s.on (R.RING_PORT_up p.val)) })) ∧
  (∀ (s : State) (p : Fin 4), s.inReset = false → s.linked p.val = true → (s.link p.val).lockSince = none →
    Leaves (.blockLock p) s (fun u => (u.link p.val).lockSince = some s.clk ∧
      (u.link p.val).lastRate = (if p.val < 2 ∧ s.optical = true then (s.link p.val).hunt else 3) ∧
      u.rd (R.RING_PORT_locked p.val) = 1 ∧
      u.hub = { s.hub with ringDue := u.hub.ringDue, lastFail := u.hub.lastFail } ∧ Keeps s u)) ∧
  (∀ (s : State) (p : Fin 2), s.inReset = false → s.unsteeped = false → s.optical = true → (s.link p.val).lockSince = none →
    s.rateOk (s.link p.val).hunt = false → Leaves (.blockLock ⟨p.val, by omega⟩) s (fun u =>
    u.rd (R.RING_PORT_up p.val) = 0 ∧ ⟨0x01C + p.val, (s.link p.val).hunt⟩ ∈ u.raised)) ∧
  (∀ (s : State) (p : Fin 2) (l : Link), s.inReset = false → s.optical = true → s.link p.val = l → l.lockSince = none →
    4000000 ≤ s.clk - l.huntSince → exec (.rateHuntSwitch p) s =
    .next (s.setLink p.val { l with
      huntSince := s.clk
      hunt := if s.unsteeped = true ∨ s.rateOk (if l.hunt = 1 then 2 else 1) = true then (if l.hunt = 1 then 2 else 1) else l.hunt
      }).settle) ∧
  (∀ (s : State) (p : Fin 4) (t : Nat), s.inReset = false → s.linked p.val = true → s.txOn p.val = true →
    s.loopedBack p.val = false → s.rateMismatch p.val = false → (s.link p.val).lockSince = some t →
    1000000 ≤ s.clk - max t ((s.link p.val).berAt.getD 0) → s.on (R.RING_PORT_up p.val) = false →
    Leaves (.linkUp p) s (fun u =>
    u.rd (R.RING_PORT_up p.val) = 1 ∧ (u.link p.val).downSince = none ∧ (u.link p.val).berAt = none ∧
    u.hub = { s.hub with ringDue := s.hub.ringDue || decide (p.val < 2) } ∧ Keeps s u)) ∧
  (∀ (s : State) (p : Fin 4) (t : Nat), (s.link p.val).lockSince = some t →
    s.clk - max t ((s.link p.val).berAt.getD 0) < 1000000 → exec (.linkUp p) s = .next s.settle) ∧
  (∀ (s : State) (p : Fin 4) (n : Nat), s.inReset = false → s.asleep = false → s.ringPort p.val = true → 1000 < n →
    Leaves (.linkMarginCheck p n) s (fun u => u.rd (R.RING_PORT_invalid p.val) = min n 65535 ∧
      u.rd (R.RING_PORT_margin_low p.val) = 1 ∧ u.hub = s.hub ∧ Keeps s u ∧
      (if (s.link p.val).lastRate = s.slowestRate p.val then u.rd (R.RING_PORT_at_risk p.val) = 1 ∧
        u.raised = s.raised ++ [⟨0x014 + p.val, min n 65535⟩, ⟨0x018 + p.val, 0⟩]
      else u.rd (R.RING_PORT_at_risk p.val) = 0 ∧ u.raised = s.raised ++ [⟨0x014 + p.val, min n 65535⟩]))) ∧
  (∀ (s : State) (p : Fin 4) (n : Nat), s.inReset = false → s.asleep = false → s.ringPort p.val = true → n ≤ 1000 →
    Leaves (.linkMarginCheck p n) s (fun u => u.rd (R.RING_PORT_invalid p.val) = n ∧
      u.rd (R.RING_PORT_margin_low p.val) = 0 ∧ u.rd (R.RING_PORT_at_risk p.val) = 0 ∧ u.raised = s.raised ∧ u.hub = s.hub))

/-- R18, R220, R628, R704: a ring rate is written only in Safe and only for a permitted rate, and a time that has passed leaves no
switch; at the switch time both ring ports change rate together. A transmitter that a write to RING_CTRL turns off takes its
link down; one that a block reset held off returns after 1 ms. That a time which has passed leaves next at 0 and counts in TIM_CNT[7] is
the model's choice (log entry 47). -/
def Obligations.RatesAndTransmittersAreSet : Prop :=
  (∀ (s : State) (r : Requester) (n : BitVec 3) (t : BitVec 40), Grants s r R.RING_RATE .write → s.hub.mode = .safe →
    s.rateOk n.toNat = true → 0 ≤ sdiff40 t.toNat s.now → Writes (.ringRateWrite r n t) s r R.RING_RATE (fun u =>
    u.rd R.RING_RATE_switch_time = t.toNat ∧ u.rd R.RING_RATE_next = n.toNat ∧
    u.ring.rateDue = some (s.now + BitVec.ofInt 64 (sdiff40 t.toNat s.now)) ∧ (∀ p, u.link p = s.link p) ∧
    (∀ a, a ≠ R.RING_RATE → u.word a = s.word a) ∧ u.raised = s.raised ∧ u.hub = s.hub ∧ Keeps s u)) ∧
  (∀ (s : State) (r : Requester) (n : BitVec 3) (t : BitVec 40), Grants s r R.RING_RATE .write → s.hub.mode = .safe →
    s.rateOk n.toNat = true → sdiff40 t.toNat s.now < 0 → Writes (.ringRateWrite r n t) s r R.RING_RATE (fun u =>
    u.rd R.RING_RATE_switch_time = t.toNat ∧ u.rd R.RING_RATE_next = 0 ∧ u.ring.rateDue = none ∧
    u.rd (R.TIM_CNT_count 7) = min (s.rd (R.TIM_CNT_count 7) + 1) (2 ^ 32 - 1) ∧ u.hub = s.hub ∧ Keeps s u)) ∧
  (∀ (s : State) (r : Requester) (n : BitVec 3) (t : BitVec 40), Grants s r R.RING_RATE .write →
    s.hub.mode ≠ .safe ∨ s.rateOk n.toNat = false → exec (.ringRateWrite r n t) s = .next (s.wrote r R.RING_RATE).settle) ∧
  (∀ (s : State) (due : Word), s.ring.rateDue = some due → tdiff due s.now ≤ 0 → Leaves .rateSwitch s (fun u =>
    (∀ p, p < 2 → (u.link p).lastRate = s.rd R.RING_RATE_next ∧ (u.link p).hunt = s.rd R.RING_RATE_next) ∧
    u.rd R.RING_RATE_next = 0 ∧ u.ring.rateDue = none ∧ u.raised = s.raised ∧ u.hub = s.hub ∧ Keeps s u)) ∧
  (∀ (s : State) (due : Word), s.ring.rateDue = some due → 0 < tdiff due s.now → exec .rateSwitch s = .next s.settle) ∧
  (∀ (s : State) (r : Requester) (v : Word), Grants s r R.RING_CTRL .write → s.hub.mode = .safe →
    s.tuneAllowed ⟨R.RING_CTRL_lpi, fget v 8 2, s.lpiBitsOk (fget v 8 2)⟩ = true →
    s.tuneAllowed ⟨R.RING_CTRL_tx_enable, fget v 0 4, s.txBitsOk (fget v 0 4)⟩ = true →
    Writes (.ringCtrlWrite r v) s r R.RING_CTRL (fun u => u.rd R.RING_CTRL_tx_enable = fget v 0 4 ∧
      u.rd R.RING_CTRL_lpi = fget v 8 2 ∧ u.rd R.RING_CTRL_loopback = fget v 4 4 ∧
      (∀ p, p < 4 → bitAt (fget v 0 4) p = false → u.on (R.RING_PORT_up p) = false) ∧
      u.hub = { s.hub with ringDue := u.hub.ringDue } ∧ Keeps s u)) ∧
  (∀ (s : State) (p : Fin 4) (t : Nat), (s.link p.val).txOffSince = some t → 1000000 ≤ s.clk - t →
    Leaves (.kettleTxOffExpire p) s (fun u => (u.link p.val).txOffSince = none ∧
      (u.link p.val).lockSince = (s.link p.val).lockSince.map (fun _ => s.clk) ∧ u.regs = s.regs ∧ u.hub = s.hub ∧ Keeps s u)) ∧
  (∀ (s : State) (p : Fin 4) (t : Nat), (s.link p.val).txOffSince = some t → s.clk - t < 1000000 →
    exec (.kettleTxOffExpire p) s = .next s.settle)

/-- R240, R243: a Supervisor's adopt in Safe or Quarantine takes the recorded offer as the node number of its ring, and every
Strainer entry of that ring becomes STALE, no other; in other modes the write has no effect. A write of 1 to STR_CTRL.reset
makes every entry STALE. -/
def Obligations.NodeNumbersAreAdoptedAndTheStrainerIsReset : Prop :=
  (∀ (s : State) (r : Requester), Grants s r R.RING_NODE .write → r.level = .supervisor →
    s.hub.mode = .safe ∨ s.hub.mode = .quarantine → s.rd R.RING_NODE_offer ≠ 0 → Writes (.nodeAdopt r) s r R.RING_NODE (fun u =>
    u.hub = { s.hub with node := s.rd R.RING_NODE_offer } ∧ Keeps s u ∧
    u.rd R.STR_STATUS_resets = min (s.rd R.STR_STATUS_resets + 1) (65535) ∧
    (∀ k, u.strEntry k = if k / 256 = s.rd R.RING_CFG_ring then { s.strEntry k with st := .stale } else s.strEntry k))) ∧
  (∀ (s : State) (r : Requester), Grants s r R.RING_NODE .write → r.level = .supervisor →
    s.hub.mode = .safe ∨ s.hub.mode = .quarantine → s.rd R.RING_NODE_sub_offer ≠ 0 →
    Writes (.nodeAdoptSub r) s r R.RING_NODE (fun u => u.rd R.RING_NODE_sub_node = s.rd R.RING_NODE_sub_offer ∧ u.hub = s.hub ∧
    Keeps s u ∧
    (∀ k, u.strEntry k = if k / 256 = s.rd R.RING_CFG_sub_ring then { s.strEntry k with st := .stale } else s.strEntry k))) ∧
  (∀ (s : State) (r : Requester), Grants s r R.RING_NODE .write → s.hub.mode ≠ .safe → s.hub.mode ≠ .quarantine →
    exec (.nodeAdopt r) s = .next (s.wrote r R.RING_NODE).settle ∧ exec (.nodeAdoptSub r) s = .next (s.wrote r R.RING_NODE).settle) ∧
  (∀ (s : State) (r : Requester), Grants s r R.STR_CTRL .write → Writes (.strainerReset r) s r R.STR_CTRL (fun u =>
    (∀ k, k < 1024 → u.strEntry k = { s.strEntry k with st := .stale }) ∧
    u.rd R.STR_STATUS_resets = min (s.rd R.STR_STATUS_resets + 1) (65535) ∧ u.hub = s.hub ∧ Keeps s u))

/-- R242, R243, R248, R252 to R255, R604: a message whose check fails is counted, not acted on, and forwarded with one hop more and the
check word it came with (the model's choice, log entry 16); the ring number of an ENUM is not tested (log entry 15); an intact one
of another node is counted and forwarded with one hop more and its check word computed anew, behind nothing on an empty queue; an
eastbound ENUM gives a hub without a number the next one and the length of the ring, and a differing offer is recorded and raised; a
WAKE wakes a hub in Hibernate. A BEACON is sent every 10 ms, every 100 ms in Hibernate, an ENUM every 100 ms by a gateway coupler;
the ring counts as open once a beacon has been missing for 30 ms. -/
def Obligations.SteamMessagesAreSentForwardedAndActedOn : Prop :=
  (∀ (s : State) (p : Fin 4) (m : SteamMsg), s.inReset = false → s.ringPort p.val = true → m.intact = false →
    exec (.steamMessageForward p m) s = .next ((s.bump R.RING_STEAM_bad).forwardSteam p.val m).settle ∧
    (m.type = 2 → exec (.steamEnumReceived p m) s = .next ((s.bump R.RING_STEAM_bad).forwardSteam p.val m).settle) ∧
    (m.type = 3 → exec (.steamWakeReceived p m) s = .next ((s.bump R.RING_STEAM_bad).forwardSteam p.val m).settle)) ∧
  (∀ (s : State) (p : Nat) (m : SteamMsg), s.nodeOf p ≠ m.src.toNat → s.nodeOf p ≠ m.dst.toNat → m.hops.toNat < 250 →
    m.words.length ≤ 64 → s.steam (opposite p) = [] → (s.forwardSteam p m).steam (opposite p) =
    [{ own := false, words := (if m.intact = true then ({ m with hops := m.hops + 1 } : SteamMsg).seal.words
      else ({ m with hops := m.hops + 1 } : SteamMsg).words) }]) ∧
  (∀ (s : State) (p : Fin 4) (m : SteamMsg), s.inReset = false → s.ringPort p.val = true → m.intact = true → m.type = 1 ∨ m.type = 4 →
    s.nodeOf p.val ≠ m.src.toNat → Leaves (.steamMessageForward p m) s (fun u =>
    u.steam (opposite p.val) = (s.forwardSteam p.val m).steam (opposite p.val) ∧
    u.rd R.RING_STEAM_rx = min (s.rd R.RING_STEAM_rx + 1) 65535 ∧ u.hub = s.hub ∧ Keeps s u)) ∧
  (∀ (s : State) (m : SteamMsg) (n a l : Nat), s.inReset = false → m.type = 2 → m.intact = true → s.hub.node = 0 →
    s.steamActed 1 m = false → a = (m.body.getD 0 0).toNat →
    l = (m.body.getD 1 0).toNat → n = (if l = 0 then a + (m.hops.toNat + 1) else (a + m.hops.toNat) % l + 1) → 1 ≤ n → n ≤ 250 →
    Leaves (.steamEnumReceived 1 m) s (fun u => u.hub = { s.hub with node := n } ∧ u.rd R.RING_STATUS_ring_len = l ∧
      (∀ k, u.strEntry k = if k / 256 = s.rd R.RING_CFG_ring then { s.strEntry k with st := .stale } else s.strEntry k))) ∧
  (∀ (s : State) (m : SteamMsg) (n a l : Nat), s.inReset = false → m.type = 2 → m.intact = true → s.hub.node ≠ 0 →
    s.hub.node ≠ m.src.toNat → s.steamActed 1 m = false → a = (m.body.getD 0 0).toNat →
    l = (m.body.getD 1 0).toNat → n = (if l = 0 then a + (m.hops.toNat + 1) else (a + m.hops.toNat) % l + 1) → 1 ≤ n → n ≤ 250 →
    n ≠ s.hub.node → Leaves (.steamEnumReceived 1 m) s (fun u => u.hub.node = s.hub.node ∧ u.rd R.RING_NODE_offer = n ∧
      u.raised = s.raised ++ [⟨0x020, n⟩] ∧ u.ring.strainer = s.ring.strainer ∧ Keeps s u)) ∧
  (∀ (s : State) (p : Fin 4) (m : SteamMsg) (h : Hib), s.inReset = false → s.ringPort p.val = true → m.type = 3 → m.intact = true →
    s.nodeOf p.val ≠ m.src.toNat → s.steamActed p.val m = false → m.body.getD 0 0 = 0xFF → s.hub.mode = .hibernate →
    s.bitOn R.PWR_WAKE_CFG_hib_sources 0 = true → s.power.hib = some h → h.phase = .down →
    Leaves (.steamWakeReceived p m) s (fun u => u.power.hib =
      some { h with phase := .waking, wakeAt := s.clk, target := if m.body.getD 1 0 = 6 then .safe else h.target } ∧ u.hub = s.hub ∧ Keeps s u)) ∧
  (∀ s : State, s.inReset = false → s.ring.beaconAt + (if s.hub.mode = .hibernate then 100000000 else 10000000) ≤ s.clk →
    s.steam 0 = [] → Leaves .beaconSend s (fun u => u.ring.beaconAt = s.clk ∧ u.ring.steamSeq = s.ring.steamSeq + 1 ∧
    u.steam 0 = [{
      own := true
      words := (SteamMsg.seal ⟨1, BitVec.ofNat 8 s.hub.node, 0xFF, 0, s.ring.steamSeq, s.beaconBody, 0⟩).words }] ∧
    s.beaconBody.length = 8 ∧ s.beaconBody.getD 0 0 = BitVec.ofNat 8 s.hub.mode.code ∧
    s.beaconBody.getD 1 0 = BitVec.ofNat 8 s.hub.row ∧ u.hub = s.hub ∧ Keeps s u)) ∧
  (∀ s : State, s.inReset = false → s.ring.cpl.state = 2 → s.ring.enumAt + 100000000 ≤ s.clk → s.steam 2 = [] →
    Leaves .enumSend s (fun u => u.ring.enumAt = s.clk ∧ u.steam 2 = [{
      own := true
      words := (SteamMsg.seal ⟨2, BitVec.ofNat 8 (s.nodeOf 2), 0xFF, 0, s.ring.steamSeq,
        [BitVec.ofNat 8 (s.rd R.RING_NODE_sub_node), BitVec.ofNat 8 (s.rd R.RING_STATUS_sub_len),
          BitVec.ofNat 8 (s.rd R.RING_CFG_sub_ring)], 0⟩).words }] ∧ u.hub = s.hub ∧ Keeps s u)) ∧
  (∀ (s : State) (sub : Bool) (t : Nat), s.on (if sub = true then R.RING_STATUS_sub_closed else R.RING_STATUS_closed) = true →
    (s.link (if sub = true then 2 else 0)).beaconBack = some t → t + 30000000 < s.clk → exec (.ringClosedTimeout sub) s =
    .next ((s.wr (if sub = true then R.RING_STATUS_sub_closed else R.RING_STATUS_closed) 0).raise
      (if sub = true then 0x023 else 0x022)).settle)

/-- R224 to R226, R249, R250, R252, R295, R296, R298: what the line carries is read back: a frame from its 66-bit blocks and from its
GMII octets, as poisoned exactly where it was closed so, and as poisoned where a block behind its start has an invalid sync header; a Steam word from the idle block it replaces and from its octets, a message of at most 48 bytes from its words; the descrambler undoes
the scrambler; a message with the check word computed for it passes its check. -/
def Obligations.LineFormatsAreReadBack : Prop :=
  (∀ bs : List Byte, 7 ≤ bs.length → readBlocks (frameBlocks bs) = some (bs, false)) ∧
  (∀ bs : List Byte, 7 ≤ bs.length → readBlocks (poisonedBlocks bs) = some (bs, true)) ∧
  (∀ (bs : List Byte) (k : Nat), 7 ≤ bs.length → 1 ≤ k → k < (frameBlocks bs).length →
    (readLine (((frameBlocks bs).map some).set k none)).map (·.2) = some true) ∧
  (∀ (bs : List Byte) (poisoned : Bool), readGmii (gmiiOctets bs poisoned) = some (bs, poisoned)) ∧
  (∀ w : SteamWord, w.payload.length = 6 → steamOfBlock w.block = some w ∧ steamOfOctets w.octets = some w) ∧
  (∀ (st : BitVec 58) (bs : List Bool), throughBits descrambleBit st (throughBits scrambleBit st bs).2 =
    ((throughBits scrambleBit st bs).1, bs)) ∧
  (∀ m : SteamMsg, m.body.length ≤ 48 → readSteam m.words = some m) ∧
  (∀ m : SteamMsg, m.seal.intact = true)

/-- R261 to R268, R387, R388: heartbeats of the partner are noted and the hub's own are numbered and counted; at a whole microsecond
a standby coupler without a valid gateway heartbeat, or at a line that has been high for its filter of 1 µs, becomes gateway and drives
CPL_ILK low, but not before its heartbeat has declared it standby where it has released the line (the model's reading of R265 beside
R267, log entry 77); a gateway that hears a gateway
releases the line and backs off for 0 to 255 µs; after back-off a high line makes it gateway, a low one standby; a line high
for 10 µs while driven low is a fault, once; a Supervisor releases the role. The gateway sends SYNC frames of its own. -/
def Obligations.CouplersShareTheGatewayRole : Prop :=
  (∀ (s : State) (sub : Bool) (f : Frame), s.coreUp = true → s.ring.cpl.state ≠ 0 → f.ftype = 4 →
    f.src = (if sub = true then s.rd R.RING_CPL_partner_sub else s.rd R.RING_CPL_partner_main) →
    f.srcRing = s.ringOf (if sub = true then 2 else 0) → Leaves (.heartbeatReceived sub f) s (fun u =>
    (if sub = true then u.ring.cpl.hbSub = some s.clk ∧ u.ring.cpl.hbMain = s.ring.cpl.hbMain ∧ u.ring.cpl.gwMain = s.ring.cpl.gwMain ∧
        u.ring.cpl.gwSub = (if f.payload.getD 0 0 = 2 then some s.clk else s.ring.cpl.gwSub)
      else u.ring.cpl.hbMain = some s.clk ∧ u.ring.cpl.hbSub = s.ring.cpl.hbSub ∧ u.ring.cpl.gwSub = s.ring.cpl.gwSub ∧
        u.ring.cpl.gwMain = (if f.payload.getD 0 0 = 2 then some s.clk else s.ring.cpl.gwMain)) ∧
    u.ring.cpl.state = s.ring.cpl.state ∧ u.ring.cpl.drive = s.ring.cpl.drive ∧ u.regs = s.regs ∧ u.hub = s.hub ∧ Keeps s u)) ∧
  (∀ s : State, s.coreUp = true → s.ring.cpl.state ≠ 0 → s.isCoupler = true → s.rd R.RING_CFG_ring ≠ s.rd R.RING_CFG_sub_ring →
    s.rd R.RING_CPL_partner_main ≠ 0 → s.rd R.RING_CPL_partner_sub ≠ 0 →
    s.ring.cpl.lastSent + s.rd R.RING_CPL_period * 1000 ≤ s.clk → Leaves .heartbeatSend s (fun u =>
    u.ring.cpl = { s.ring.cpl with count := (s.ring.cpl.count + 1) % 65536, lastSent := s.clk, yielded := false } ∧
    u.ring.seqMain = s.ring.seqMain + 1 ∧ u.ring.seqSub = s.ring.seqSub + 1 ∧ u.hub = s.hub)) ∧
  (∀ s : State, s.wholeMicrosecond = true → s.inReset = false → s.ring.cpl.state = 1 → s.ring.cpl.yielded = false →
    s.ring.cpl.pad = true → s.ring.cpl.padSince + 1000 ≤ s.clk → Leaves (.couplerEvaluate true) s (fun u =>
    u.ring.cpl.state = 2 ∧ u.ring.cpl.drive = true ∧ u.ring.cpl.line = true ∧ u.ring.cpl.gwMain = none ∧ u.ring.cpl.gwSub = none ∧
    u.rd R.RING_CPL_STATUS_takeovers = min (s.rd R.RING_CPL_STATUS_takeovers + 1) 65535 ∧
    u.raised = s.raised ++ [⟨0x024, 0⟩] ∧ u.hub = s.hub ∧ Keeps s u)) ∧
  (∀ (s : State) (t : Nat), s.wholeMicrosecond = true → s.inReset = false → s.ring.cpl.state = 1 →
    s.ring.cpl.pad = false → s.ring.cpl.padSince + 1000 ≤ s.clk → s.ring.cpl.gwMain = some t ∨ s.ring.cpl.gwSub = some t →
    s.clk < t + s.rd R.RING_CPL_miss_limit * s.rd R.RING_CPL_period * 1000 → Leaves (.couplerEvaluate false) s (fun u =>
    u.ring.cpl.state = 1 ∧ u.ring.cpl.drive = s.ring.cpl.drive ∧ u.ring.cpl.line = false ∧ u.raised = s.raised ∧ u.regs = s.regs)) ∧
  (∀ (s : State) (high : Bool), s.wholeMicrosecond = true → s.inReset = false → s.ring.cpl.state = 1 →
    s.ring.cpl.yielded = true → Leaves (.couplerEvaluate high) s (fun u =>
    u.ring.cpl.state = 1 ∧ u.ring.cpl.drive = s.ring.cpl.drive ∧ u.raised = s.raised ∧ u.regs = s.regs)) ∧
  (∀ (s : State) (high : Bool), s.wholeMicrosecond = true → high ≠ s.ring.cpl.pad → Leaves (.couplerEvaluate high) s (fun u =>
    u.ring.cpl.pad = high ∧ u.ring.cpl.padSince = s.clk ∧ u.ring.cpl.line = s.ring.cpl.line)) ∧
  (∀ (s : State) (high : Bool), s.wholeMicrosecond = false → exec (.couplerEvaluate high) s = .next s.settle) ∧
  (∀ (s : State) (high : Bool), s.wholeMicrosecond = true → s.inReset = false → s.ring.cpl.state = 2 →
    s.ring.cpl.gwMain.isSome = true ∨ s.ring.cpl.gwSub.isSome = true → Leaves (.couplerEvaluate high) s (fun u =>
    u.ring.cpl.state = 3 ∧ u.ring.cpl.drive = false ∧ s.clk ≤ u.ring.cpl.backoffEnd ∧ u.ring.cpl.backoffEnd ≤ s.clk + 255000 ∧
    u.rd R.RING_CPL_STATUS_conflicts = min (s.rd R.RING_CPL_STATUS_conflicts + 1) 65535 ∧
    u.raised = s.raised ++ [⟨0x025, 0⟩] ∧ u.hub = s.hub)) ∧
  (∀ s : State, s.ring.cpl.state = 3 → s.ring.cpl.backoffEnd ≤ s.clk → Leaves .cplBackoffEnd s (fun u =>
    u.ring.cpl.state = (if s.ring.cpl.line = true then 2 else 1) ∧ u.ring.cpl.drive = s.ring.cpl.line ∧ u.raised = s.raised ∧
    u.hub = s.hub ∧ Keeps s u)) ∧
  (∀ (s : State) (t : Nat), s.ring.cpl.state = 2 → s.ring.cpl.drive = true → s.ring.cpl.highSince = some t →
    s.ring.cpl.faulted = false → 10000 ≤ s.clk - t → Leaves .cplLineFaultDetect s (fun u =>
    u.raised = s.raised ++ [⟨0x026, 0⟩] ∧ u.ring.cpl = { s.ring.cpl with faulted := true } ∧ u.hub = s.hub)) ∧
  (∀ s : State, s.ring.cpl.faulted = true → exec .cplLineFaultDetect s = .next s.settle) ∧
  (∀ (s : State) (r : Requester), Grants s r R.RING_CPL .write → r.level = .supervisor → s.ring.cpl.state = 2 →
    Writes (.cplRelease r) s r R.RING_CPL (fun u => u.ring.cpl.state = 1 ∧ u.ring.cpl.drive = false ∧ u.ring.cpl.yielded = true ∧ u.regs = s.regs)) ∧
  (∀ s : State, s.timeGateway = true → s.ring.cpl.syncDue ≤ s.clk → Leaves .gatewaySyncSend s (fun u =>
    u.ring.cpl = { s.ring.cpl with syncDue := s.clk + s.syncNs, syncSeq := (s.ring.cpl.syncSeq + 1) % 65536 } ∧
    u.time.stepped = false ∧ u.ring.seqSub = s.ring.seqSub + 1 ∧ u.ring.seqMain = s.ring.seqMain ∧ u.hub = s.hub ∧ u.now = s.now)) ∧
  (∀ s : State, s.clk < s.ring.cpl.syncDue → exec .gatewaySyncSend s = .next s.settle)

/-! ### Frames, the Strainer, the switch core -/

/-- R230, R256, R291: the first check that fails drops the frame and counts its cause at its port; a frame whose head fails leaves no other
trace. One that fails at its tail, or is aborted, leaves the Strainer as it was: that is the model's choice (log entry 18). On a tap
port the check sequence is that of the Ethernet frame. A pour frame passes the same reception as any other frame. -/
def Obligations.TheFirstFailedCheckDropsTheFrame : Prop :=
  (∀ (s : State) (rx : RxFrame) (c : Nat), Hears s rx →
    (rx.frame.hcs ≠ rx.frame.hcsOf ∧ c = 1) ∨
    (rx.frame.hcs = rx.frame.hcsOf ∧ c = 4 ∧ (rx.frame.version ≠ 1 ∨ rx.frame.ftype = 0 ∨ 5 < rx.frame.ftype ∨
      rx.frame.reservedZero = false ∨ s.ringNamed rx.port.val rx.frame.srcRing = false ∨
      s.ringNamed rx.port.val rx.frame.dstRing = false)) ∨
    (rx.frame.hcs = rx.frame.hcsOf ∧ c = 5 ∧ rx.frame.version = 1 ∧ 0 < rx.frame.ftype ∧ rx.frame.ftype ≤ 5 ∧
      rx.frame.reservedZero = true ∧ s.ringNamed rx.port.val rx.frame.srcRing = true ∧
      s.ringNamed rx.port.val rx.frame.dstRing = true ∧ 250 ≤ rx.frame.hops) →
    Leaves (.frameReceive rx) s (fun u => Counted s u (R.RING_DROP_count (8 * rx.port.val + c)) ∧ u.switch = s.switch ∧
      u.ring = s.ring ∧ u.hub = s.hub ∧ u.raised = s.raised ∧ Keeps s u)) ∧
  (∀ (s : State) (rx : RxFrame) (c : Nat), Hears s rx → s.headFault rx.port.val rx.frame = none →
    ((rx.frame.payload.length ≠ rx.frame.length ∨ 2048 < rx.frame.length) ∧ c = 3) ∨
    (rx.frame.payload.length = rx.frame.length ∧ rx.frame.length ≤ 2048 ∧ rx.poisoned = true ∧ c = 2) ∨
    (rx.frame.payload.length = rx.frame.length ∧ rx.frame.length ≤ 2048 ∧ rx.poisoned = false ∧ rx.frame.crc ≠ rx.frame.crcOf ∧
      c = 0) →
    Leaves (.frameReceive rx) s (fun u => Counted s u (R.RING_DROP_count (8 * rx.port.val + c)) ∧ u.ring = s.ring ∧
      u.hub = s.hub ∧ u.cyc.commits = s.cyc.commits ∧
      Keeps s { u with eccMarks := s.eccMarks })) ∧
  (∀ (s : State) (rx : RxFrame), s.coreUp = true → s.ringPort rx.port.val = true → rx.aborted = true →
    Leaves (.frameReceive rx) s (fun u => Counted s u (R.RING_DROP_count (8 * rx.port.val + 7)) ∧ u.ring = s.ring ∧
      u.hub = s.hub ∧ u.cyc.commits = s.cyc.commits ∧
      Keeps s { u with eccMarks := s.eccMarks })) ∧
  (∀ (s : State) (rx : RxFrame), s.coreUp = true → s.linked rx.port.val = true → 2 ≤ rx.port.val → s.portFunction rx.port.val = 2 →
    s.on (R.RING_PORT_up rx.port.val) = true → rx.aborted = false → rx.etherType.toNat = s.rd R.RING_CFG_tap_ethertype →
    s.headFault rx.port.val rx.frame = none → rx.frame.payload.length = rx.frame.length → rx.frame.length ≤ 1464 →
    rx.poisoned = false → rx.fcs ≠ ethernetFcs rx.toMac rx.mac rx.etherType rx.frame → rx.frame.ftype ≠ 2 →
    Leaves (.frameReceive rx) s (fun u => Counted s u (R.RING_DROP_count (8 * rx.port.val)) ∧ u.hub = s.hub ∧
      u.cyc.commits = s.cyc.commits ∧ Keeps s { u with eccMarks := s.eccMarks })) ∧
  (∀ (s : State) (rx : RxFrame), rx.frame.ftype = 2 → exec (.pourFrame rx) s = exec (.frameReceive rx) s)

/-- R15, R18, R231, R232, R277, R292: in Boot, Hibernate and the reboot window a frame passes between ports 0 and 1 as it came. In
service a transaction frame that is not for this hub, and that no entry of the flow table takes up, is sent on through the other ring port
with one hop more, before its tail where that port is idle. -/
def Obligations.FramesAreForwardedThroughTheOtherPort : Prop :=
  (∀ (s : State) (rx : RxFrame), s.retimersOnly = true → rx.port.val < 2 → s.on (R.RING_PORT_up 0) = true →
    s.on (R.RING_PORT_up 1) = true → rx.aborted = false → exec (.frameReceive rx) s =
    .next (s.setOutp (opposite rx.port.val) { s.outp (opposite rx.port.val) with
      lastSent := some { frame := rx.frame, poisoned := rx.poisoned } }).settle) ∧
  (∀ (s : State) (rx : RxFrame) (q : Nat), Hears s rx → rx.port.val < 2 → q = opposite rx.port.val → PlainCore s rx.port.val →
    s.headFault rx.port.val rx.frame = none → s.tailFault rx = none → rx.frame.ftype = 1 → rx.frame.deadline = 0 →
    s.flowEntry rx.frame.flow = none →
    28 ≤ rx.frame.length → rx.frame.dstRing = s.ringOf rx.port.val → s.addressed rx.frame rx.port.val = false →
    s.forwardsRound rx.frame rx.port.val = true → s.portDown q = false → s.idleAtHead q rx = true → (s.outp q).queue = [] →
    (s.admits q rx.frame.tclass rx.frame.leaves).isSome = true → s.rd R.SWC_GUARD_enable = 0 → s.time.launches = [] →
    Leaves (.frameReceive rx) s (fun u =>
      (u.outp q).lastSent = some ⟨(rx.frame.withHops (rx.frame.hops + 1)).seal, false, none⟩ ∧ (u.outp q).queue = [] ∧
      u.switch.frames = [] ∧ Counted s u (R.SWC_XCNT_count 0) ∧ u.ring = s.ring ∧ u.hub = s.hub ∧
      Keeps s { u with eccMarks := s.eccMarks }))

/-- R231, R236 to R239: the window that the Strainer has just accepted a sequence number in calls it a duplicate the next time, whatever
window it was, unless the entry ages in the 10 ms of R238 first, and a duplicate or a number too old does not move the window. So a
dual frame for this hub that no entry of the flow table takes up is accepted once and stored for the target; its second copy within 10 ms
is discarded as a duplicate, and of two copies that come at once the one at the higher port. That this one leaves the entry to the other
is the model's choice (log entry 46). -/
def Obligations.TheStrainerAcceptsASequenceNumberOnce : Prop :=
  (∀ (e : StrEntry) (seq t t' : Nat), (strJudge e seq t).2.2 = true →
    (strJudge e seq t).2.1 = 0 ∧ (strJudge (strJudge e seq t).1 seq t').2 = (1, false)) ∧
  (∀ (e : StrEntry) (seq t : Nat), (strJudge e seq t).2.2 = false →
    e.st ≠ .empty ∧ (strJudge e seq t).1 = { e with last := t } ∧ ((strJudge e seq t).2.1 = 1 ∨ (strJudge e seq t).2.1 = 2)) ∧
  (∀ (s : State) (rx : RxFrame) (e : StrEntry), Hears s rx → PlainCore s rx.port.val → s.headFault rx.port.val rx.frame = none →
    s.tailFault rx = none → rx.frame.ftype = 1 → rx.frame.dual = true → rx.frame.dstRing = s.ringOf rx.port.val →
    s.nodeOf rx.port.val ≠ 0 → rx.frame.dst = s.nodeOf rx.port.val → rx.frame.src ≠ s.nodeOf rx.port.val →
    s.strEntry (256 * rx.frame.srcRing + rx.frame.src) = e → e.st = .empty → s.rivalCopy rx = false → s.flowEntry rx.frame.flow = none →
    (s.admits 5 rx.frame.tclass rx.frame.leaves).isSome = true → Leaves (.frameReceive rx) s (fun u =>
      (∃ g, u.switch.frames = [g] ∧ g.frame = rx.frame ∧ g.outs = [5] ∧ g.cls = rx.frame.tclass ∧
        (u.outp 5).queue = (s.outp 5).queue ++ [g.id]) ∧
      u.strEntry (256 * rx.frame.srcRing + rx.frame.src) = ⟨.live, BitVec.ofNat 16 rx.frame.seqNo, 1, s.clk⟩ ∧
      Counted s u (R.STR_CNT_count 0) ∧ u.hub = s.hub ∧ Keeps s { u with eccMarks := s.eccMarks })) ∧
  (∀ (s : State) (rx : RxFrame) (e : StrEntry), Hears s rx → PlainCore s rx.port.val → s.headFault rx.port.val rx.frame = none →
    s.tailFault rx = none → rx.frame.ftype = 1 → rx.frame.dual = true → rx.frame.dstRing = s.ringOf rx.port.val →
    s.nodeOf rx.port.val ≠ 0 → rx.frame.dst = s.nodeOf rx.port.val → rx.frame.src ≠ s.nodeOf rx.port.val →
    s.strEntry (256 * rx.frame.srcRing + rx.frame.src) = e → e.st ≠ .empty → s.clk - e.last < 10000000 →
    e.top = BitVec.ofNat 16 rx.frame.seqNo → e.map.getLsbD 0 = true → s.rivalCopy rx = false → Leaves (.frameReceive rx) s (fun u =>
      u.switch = s.switch ∧ Counted s u (R.STR_CNT_count 1) ∧
      u.strEntry (256 * rx.frame.srcRing + rx.frame.src) = { e with last := s.clk } ∧ u.hub = s.hub ∧ Keeps s u)) ∧
  (∀ (s : State) (rx : RxFrame), Hears s rx → PlainCore s rx.port.val → s.headFault rx.port.val rx.frame = none →
    s.tailFault rx = none → rx.frame.ftype = 1 → rx.frame.dual = true → rx.frame.dstRing = s.ringOf rx.port.val →
    s.nodeOf rx.port.val ≠ 0 → rx.frame.dst = s.nodeOf rx.port.val → rx.frame.src ≠ s.nodeOf rx.port.val →
    s.rivalCopy rx = true → s.strainOk rx.frame = true → Leaves (.frameReceive rx) s (fun u =>
      u.switch = s.switch ∧ u.ring = s.ring ∧ Counted s u (R.STR_CNT_count 1) ∧ u.hub = s.hub ∧ Keeps s u))

/-- R251, R275, R281, R289: an idle output sends, after a Steam word that waits, the frame at its head, in the form of its port, and its
leaves return to the free list; of two waiting frames the one of higher class goes first; a stale frame is dropped and counted, and
nothing is sent. -/
def Obligations.OutputsSendTheHighestClassFirst : Prop :=
  (∀ (s : State) (p : Fin 24) (f : Stored), s.outputIdle p.val = true → p.val ≠ 5 → p.val ≠ 22 → p.val ≠ 23 →
    s.switch.frames = [f] → (s.outp p.val).queue = [f.id] → f.outs = [p.val] → s.selectable f p.val = true →
    s.frameStale f.frame = false → s.guardBlocks p.val f.cls (s.lineTime p.val f.frame.size) = false →
    s.launchBlocks p.val f.cls (s.lineTime p.val f.frame.size) = false → s.eccMarks = [] → f.launch = none → f.cut = false →
    f.frame.ftype = 1 ∨ f.frame.ftype = 4 → s.on R.SWC_CTRL_mirror = false → Leaves (.outputStartFrame p) s (fun u =>
      (u.outp p.val).lastSent = some ⟨s.sendForm f p.val, false, s.tapEther p.val⟩ ∧ (u.outp p.val).queue = [] ∧
      (u.outp p.val).busyUntil = s.clk + s.lineTime p.val (s.sendForm f p.val).size ∧ u.switch.frames = [] ∧
      u.ring = (s.steamFirst p.val).ring ∧
      u.hub = s.hub ∧ Keeps s u)) ∧
  (∀ (s : State) (p : Fin 24) (f g : Stored), s.outputIdle p.val = true → p.val ≠ 5 → p.val ≠ 22 → p.val ≠ 23 →
    s.switch.frames = [f, g] → f.id ≠ g.id → (s.outp p.val).queue = [f.id, g.id] → f.outs = [p.val] → g.outs = [p.val] →
    f.cls < g.cls → s.selectable f p.val = true → s.selectable g p.val = true →
    s.frameStale g.frame = false → s.guardBlocks p.val g.cls (s.lineTime p.val g.frame.size) = false →
    s.launchBlocks p.val g.cls (s.lineTime p.val g.frame.size) = false → s.eccMarks = [] → g.launch = none → g.cut = false →
    g.frame.ftype = 1 ∨ g.frame.ftype = 4 → s.on R.SWC_CTRL_mirror = false → Leaves (.outputStartFrame p) s (fun u =>
      (u.outp p.val).lastSent = some ⟨s.sendForm g p.val, false, s.tapEther p.val⟩ ∧ (u.outp p.val).queue = [f.id] ∧
      u.switch.frames = [f])) ∧
  (∀ (s : State) (p : Fin 24) (f : Stored), s.outputIdle p.val = true → p.val ≠ 5 → p.val ≠ 22 → p.val ≠ 23 →
    s.switch.frames = [f] → (s.outp p.val).queue = [f.id] → f.outs = [p.val] → s.selectable f p.val = true →
    s.syncBarred f p.val = false → s.frameStale f.frame = true → Leaves (.outputStartFrame p) s (fun u => Counted s u (R.SWC_DROP_count (16 * p.val + 4)) ∧
      (u.outp p.val).lastSent = (s.outp p.val).lastSent ∧ (u.outp p.val).queue = [] ∧ u.switch.frames = [] ∧ u.hub = s.hub)) ∧
  (∀ (s : State) (p : Fin 24), s.outputIdle p.val = false → exec (.outputStartFrame p) s = .next s.settle)

/-- R300, R303, R308, R310 to R313: when the hold time of a port that is down ends, its frames are freed and counted as HOLD; a
resequenced frame whose window has passed is released and its key follows it; a key that has held nothing for 10 ms is
freed; the auditor frees the leaves that failed two passes, once a millisecond at most, and raises each; a guard interval opens at
its time and closes 20 µs later. -/
def Obligations.HoldsKeysLeavesAndGuardsEnd : Prop :=
  (∀ (s : State) (p : Fin 24) (t : Nat), s.downFrom p.val = some t → s.portDown p.val = true → (s.outp p.val).holdEnded = false →
    s.rd (R.SWC_PORT_hold p.val) * 1000 < s.clk - t → (∀ id ∈ (s.outp p.val).queue, (s.stored? id).isSome = true) →
    Leaves (.holdTimeExpire p) s (fun u => (u.outp p.val).queue = [] ∧ (u.outp p.val).holdEnded = true ∧
      u.rd (R.SWC_DROP_count (16 * p.val + 5)) =
        min (s.rd (R.SWC_DROP_count (16 * p.val + 5)) + (s.outp p.val).queue.length) (2 ^ 48 - 1) ∧ u.hub = s.hub ∧
      Keeps s { u with eccMarks := s.eccMarks })) ∧
  (∀ (s : State) (p : Fin 24) (t : Nat), s.downFrom p.val = some t → s.clk - t ≤ s.rd (R.SWC_PORT_hold p.val) * 1000 →
    exec (.holdTimeExpire p) s = .next s.settle) ∧
  (∀ (s : State) (p : Fin 24) (id : Nat) (f : Stored) (h : Nat × Nat) (k : Key), s.stored? id = some f →
    f.held.find? (fun h => h.1 == p.val) = some h → s.switch.keys.find? (fun k => k.is p.val f.frame) = some k →
    s.rd R.SWC_RESEQ_window * 1000 ≤ s.clk - h.2 → Leaves (.reseqHoldExpire p id) s (fun u =>
      (∃ g, u.stored? id = some g ∧ g.frame = f.frame ∧ g.held = f.held.filter (fun h => h.1 != p.val)) ∧
      (∃ q ∈ u.switch.keys, q.is p.val f.frame = true ∧ q.last = some f.frame.seqNo ∧ q.idleSince = s.clk) ∧
      u.hub = s.hub ∧ Keeps s u)) ∧
  (∀ (s : State) (p : Fin 24) (src : BitVec 10) (flow : BitVec 16), Leaves (.reseqKeyAge p src flow) s (fun u =>
    (∀ k, k ∈ u.switch.keys ↔ k ∈ s.switch.keys ∧ ¬(k.out = p.val ∧ k.srcRing = src.toNat / 256 ∧ k.src = src.toNat % 256 ∧
      k.flow = flow.toNat ∧ s.keyHeld k = [] ∧ 10000000 ≤ s.clk - k.idleSince)) ∧
    u.switch.frames = s.switch.frames ∧ u.regs = s.regs ∧ u.hub = s.hub ∧ Keeps s u)) ∧
  (∀ (s : State) (gone : List Nat), s.coreUp = true → s.switch.auditAt + 1000000 ≤ s.clk →
    gone = (s.leavesUsed.filter (fun l => !s.leafOk l)).filter s.switch.failed.contains → Leaves (.caddyAudit none) s (fun u =>
    u.switch.failed = (s.leavesUsed.filter (fun l => !s.leafOk l)).filter (fun l => !gone.contains l) ∧
    (∀ l ∈ gone, l ∉ u.leavesUsed) ∧ (∀ l, l ∉ gone → (l ∈ u.leavesUsed ↔ l ∈ s.leavesUsed)) ∧
    u.rd R.CAD_AUDIT_passes = (s.rd R.CAD_AUDIT_passes + 1) % 2 ^ 32 ∧ u.switch.auditAt = s.clk ∧
    u.raised = s.raised ++ gone.map (fun l => ⟨0x030, l⟩) ∧ u.hub = s.hub ∧ Keeps s u)) ∧
  (∀ s : State, s.clk < s.switch.auditAt + 1000000 → exec (.caddyAudit none) s = .next s.settle) ∧
  (∀ (s : State) (l : Fin 16384), s.coreUp = true → s.switch.auditAt + 1000000 ≤ s.clk → l.val ∉ s.leavesUsed →
    s.leavesUsed.filter (fun l => !s.leafOk l) = [] → Leaves (.caddyAudit (some l)) s (fun u =>
    Counted s u R.CAD_AUDIT_double_free ∧ u.raised = s.raised ++ [⟨0x031, l.val⟩] ∧
    u.switch.frames = s.switch.frames ∧ u.switch.leaked = s.switch.leaked ∧ u.hub = s.hub)) ∧
  (∀ (s : State) (p : Fin 2) (t k : Nat), s.coreUp = true → s.bitOn R.SWC_GUARD_enable p.val = true →
    (t, k) ∈ s.guardOpenings p.val → t ≤ s.now.toNat → s.now.toNat < t + 2 → (∀ x ∈ (s.outp p.val).guards, x.2 ≠ k) →
    Leaves (.pourGuardOpen p) s (fun u => (s.clk, k) ∈ (u.outp p.val).guards ∧
      (∀ x ∈ (s.outp p.val).guards, x ∈ (u.outp p.val).guards) ∧ u.regs = s.regs ∧ u.raised = s.raised ∧ u.hub = s.hub ∧
      Keeps s u)) ∧
  (∀ (s : State) (p : Fin 2), Leaves (.pourGuardTimeout p) s (fun u =>
    (∀ x, x ∈ (u.outp p.val).guards ↔ x ∈ (s.outp p.val).guards ∧ s.clk - x.1 < 20000) ∧ u.regs = s.regs ∧
    u.raised = s.raised ∧ u.hub = s.hub ∧ Keeps s u))

/-! ### Plant time -/

/-- R231, R366, R370, R371: a PDREQ that the hub takes in (R231) is answered through its port by a PDRESP of the same tseq, which takes the turnaround to its own
departure; the hub's own requests are numbered one after another over its ports, and stamped when they leave; an answer of the same tseq makes an exchange, the mean of the last eight is
the delay, and eight make it valid; a request without an answer for 10 ms is a failure, and the eighth failure in succession
makes the delay invalid and raises PDELAY_FAIL. -/
def Obligations.PeerDelayIsMeasured : Prop :=
  (∀ (s : State) (p : Fin 4) (f : Frame) (w : Word), s.coreUp = true → s.ringPort p.val = true → s.portDown p.val = false →
    f.ftype = 3 → f.tinfo / 2 ^ 44 = 2 → s.takesPeer f p.val = true → PlainCore s 7 → s.flowEntry 0 = none → (s.admits p.val (s.rd (R.SWC_PORT_orig_class 7)) 1).isSome = true →
    Leaves (.pdreqReceived p f w) s (fun u => ∃ g, u.switch.frames = [g] ∧ g.outs = [p.val] ∧ g.frame.ftype = 3 ∧
      g.frame.dst = f.src ∧ g.frame.tinfo = 3 * 2 ^ 44 + tseqOf f * 2 ^ 16 ∧ g.start = w ∧ g.ownTime 3 = true ∧
      g.frame.dual = false ∧ u.hub = s.hub ∧ u.time = s.time)) ∧
  (∀ (s : State) (p : Fin 4) (f : Frame) (w : Word), s.takesPeer f p.val = false →
    exec (.pdreqReceived p f w) s = .next s.settle ∧ exec (.pdrespReceived p f w) s = .next s.settle) ∧
  (∀ (s : State) (p : Fin 24) (f : Stored), s.outputIdle p.val = true → p.val < 4 → s.switch.frames = [f] → (s.outp p.val).queue = [f.id] →
    f.outs = [p.val] → s.selectable f p.val = true → s.frameStale f.frame = false → s.eccMarks = [] → f.launch = none → f.cut = false →
    s.guardBlocks p.val f.cls (s.lineTime p.val f.frame.size) = false →
    s.launchBlocks p.val f.cls (s.lineTime p.val f.frame.size) = false → s.on R.SWC_CTRL_mirror = false →
    (f.ownTime 3 = true → Leaves (.outputStartFrame p) s (fun u => ∃ x, (u.outp p.val).lastSent = some x ∧
      x.frame.payload = wordBytes (BitVec.ofInt 64 (tdiff s.now f.start * 65536)) ∧ u.switch.frames = [] ∧ u.time = s.time)) ∧
    (∀ t : Word, f.ownTime 2 = true → (s.pdelay p.val).pending = some (tseqOf f.frame, t) →
      Leaves (.outputStartFrame p) s (fun u => (u.pdelay p.val).pending = some (tseqOf f.frame, s.now) ∧ u.switch.frames = []))) ∧
  (∀ (s : State) (p : Fin 4), s.coreUp = true → s.ringPort p.val = true →
    (s.pdelay p.val).sentAt + logNs (s.rdInt R.TIM_SYNC_CFG_pdelay_log) ≤ s.clk → Leaves (.pdelayReqSend p) s (fun u =>
    u.pdelay p.val = { s.pdelay p.val with
      pending := some (s.time.pdSeq, s.now)
      sentAt := s.clk } ∧ u.time.pdSeq = (s.time.pdSeq + 1) % 65536 ∧ u.hub = s.hub ∧ u.now = s.now)) ∧
  (∀ (s : State) (p : Fin 4) (f : Frame) (t4 t1 : Word) (d : PDelay), s.coreUp = true → s.ringPort p.val = true →
    s.pdelay p.val = d → d.pending = some (tseqOf f, t1) → s.takesPeer f p.val = true → f.ftype = 3 → f.tinfo / 2 ^ 44 = 3 → d.results.length ≤ 7 →
    Leaves (.pdrespReceived p f t4) s (fun u =>
      u.pdelay p.val = { d with
        pending := none
        results := d.results ++ [linkDelay t1 t4 (bytesWord (slice f.payload 0 8))]
        fails := 0 } ∧
      u.rd (R.TIM_PDELAY_delay p.val) = min ((((u.pdelay p.val).results.foldl (· + ·) 0) / (d.results.length + 1 : Int)).toNat)
        (2 ^ 32 - 1) ∧
      u.rd (R.TIM_PDELAY_valid p.val) = (if d.results.length = 7 then 1 else s.rd (R.TIM_PDELAY_valid p.val)) ∧ u.hub = s.hub)) ∧
  (∀ (s : State) (p : Fin 4) (f : Frame) (t4 : Word), (s.pdelay p.val).pending = none →
    exec (.pdrespReceived p f t4) s = .next s.settle) ∧
  (∀ (s : State) (p : Fin 4) (d : PDelay) (x : Nat × Word), s.pdelay p.val = d → d.pending = some x → d.sentAt + 10000000 ≤ s.clk → s.asleep = false →
    Leaves (.pdelayTimeout p) s (fun u => Counted s u (R.TIM_CNT_count 5) ∧ (u.pdelay p.val).pending = none ∧
      (if d.fails = 7 then (u.pdelay p.val).results = [] ∧ u.rd (R.TIM_PDELAY_valid p.val) = 0 ∧
        u.raised = s.raised ++ [⟨0x056 + p.val, 0⟩]
      else u.pdelay p.val = { d with pending := none, fails := min (d.fails + 1) 9 } ∧ u.raised = s.raised) ∧ u.hub = s.hub))

/-- R375 to R381: an accepted SYNC sets the fields of TIM_STATUS; from FREERUN it sets the counter, from ACQUIRE the fourth within
1 µs leads to LOCKING, from there the eighth in succession within 50 ns to LOCKED; a jump backward stops at TIME_HOLD. A
SYNC of a node that is no source is counted as ignored. Three silent intervals lead to the backup source, with gateway_only to the
other source either way, or, with no source left, to HOLDOVER. In
TIME_HOLD a Supervisor's step takes the counter to the source's time. `o` stands for the offset of R375.
R363, R364: without the resonator the counter follows the clock recovered on port 0, else on port 1, and TIMEBASE_DEGRADED is
raised once; the resonator takes over again when it is ready; a resonator that is not ready 5 ms after its start counts as
failed; with no reference at all time is not valid, the servo is in FREERUN and TIMEBASE_LOST is raised once. -/
def Obligations.TheServoAndTheCounterFollowTheirSources : Prop :=
  (∀ (s : State) (p : Fin 4) (f : Frame) (t : Word) (o : Int), s.coreUp = true → p.val < 2 → f.ftype = 3 → f.tinfo / 2 ^ 44 = 1 →
    f.src ≠ s.hub.node → f.srcRing = s.rd R.RING_CFG_ring → s.loaded.sections.contains 9 = true →
    f.src = s.rd R.TIM_SYNC_CFG_gm_primary → s.rd R.TIM_STATUS_gm_node = 0 ∨ s.rd R.TIM_STATUS_gm_node = f.src →
    s.on R.TIM_SYNC_CFG_gateway_only = false → s.on (R.TIM_PDELAY_valid p.val) = true → o = s.syncOffset p.val f t →
    Leaves (.syncReceived p f t) s (fun u => u.rd R.TIM_STATUS_gm_node = f.src ∧ u.rd R.TIM_STATUS_path_hops = f.hops ∧
      u.rd R.TIM_STATUS_rx_port = p.val ∧ u.rd R.TIM_STATUS_utc_offset = (syncBody f).utc ∧ u.time.lastSync = s.clk ∧ u.time.lastHeard = s.clk ∧ u.time.tried = false ∧
      u.time.offset = o ∧ Counted s u (R.TIM_CNT_count 0) ∧
      (s.time.servo = 0 → u.time.servo = 1 ∧ u.now = s.now + BitVec.ofInt 64 (-(wholeNs o)) ∧ u.rd R.TIM_STATUS_set = 1 ∧
        u.rd R.TIM_STATUS_valid = 1) ∧
      (s.time.servo = 1 → -oneMicro ≤ o → o ≤ oneMicro → s.time.run = 3 → u.time.servo = 2 ∧ u.now = s.now) ∧
      (s.time.servo = 1 → -oneMicro ≤ o → o ≤ oneMicro → s.time.run < 3 → u.time.servo = 1 ∧ u.time.run = s.time.run + 1) ∧
      (s.time.servo = 2 → o.natAbs ≤ 50 * 65536 → s.time.run = 7 → u.time.servo = 3 ∧ u.time.lockedSince = some s.clk) ∧
      (s.time.servo = 2 → 50 * 65536 < o.natAbs → -oneMicro ≤ o → o ≤ oneMicro → u.time.servo = 2 ∧ u.time.run = 0) ∧
      (s.time.servo = 3 → o.natAbs ≤ 200 * 65536 → u.time.servo = 3 ∧ u.now = s.now) ∧
      (s.time.servo = 3 → oneMicro < o → u.time.servo = 5 ∧ u.now = s.now ∧ u.rd R.TIM_STATUS_discont = 1 ∧
        Counted s u (R.TIM_CNT_count 3)) ∧
      (s.time.servo = 3 → o < -oneMicro → s.on R.TIM_CTRL_auto_step_fwd = true → u.time.servo = 2 ∧
        u.now = s.now + BitVec.ofInt 64 (-(wholeNs o))) ∧
      (s.time.servo = 4 → -oneMicro ≤ o → o ≤ oneMicro → u.time.servo = 2 ∧ u.now = s.now) ∧
      (s.time.servo = 5 → o < -oneMicro ∨ oneMicro < o → u.time.servo = 5 ∧ u.now = s.now))) ∧
  (∀ (s : State) (p : Fin 4) (f : Frame) (t : Word), s.coreUp = true → p.val < 2 → f.ftype = 3 → f.tinfo / 2 ^ 44 = 1 →
    f.src ≠ s.hub.node → f.srcRing = s.rd R.RING_CFG_ring → s.loaded.sections.contains 9 = true →
    f.src ≠ s.rd R.TIM_SYNC_CFG_gm_primary → f.src ≠ s.rd R.TIM_SYNC_CFG_gm_backup →
    exec (.syncReceived p f t) s = .next (s.bump (R.TIM_CNT_count 1)).settle) ∧
  (∀ s : State, s.coreUp = true → 3 * s.syncNs ≤ s.clk - s.time.lastHeard → s.loaded.sections.contains 9 = true →
    s.rd R.TIM_SYNC_CFG_gm_backup ≠ 0 → s.on R.TIM_SYNC_CFG_gateway_only = false ∨ s.time.tried = false →
    s.rd R.TIM_STATUS_gm_node = s.rd R.TIM_SYNC_CFG_gm_primary ∨
      (s.rd R.TIM_STATUS_gm_node = s.rd R.TIM_SYNC_CFG_gm_backup ∧ s.on R.TIM_SYNC_CFG_gateway_only = true ∧
        s.rd R.TIM_SYNC_CFG_gm_primary ≠ 0) →
    Leaves .syncTimeout s (fun u => u.rd R.TIM_STATUS_gm_node =
      (if s.rd R.TIM_STATUS_gm_node = s.rd R.TIM_SYNC_CFG_gm_primary then s.rd R.TIM_SYNC_CFG_gm_backup
        else s.rd R.TIM_SYNC_CFG_gm_primary) ∧ u.time.lastHeard = s.clk ∧ u.time.tried = true ∧
      Counted s u (R.TIM_CNT_count 12) ∧ u.time.servo = s.time.servo ∧ u.now = s.now ∧ u.raised = s.raised ∧ u.hub = s.hub)) ∧
  (∀ s : State, s.coreUp = true → 3 * s.syncNs ≤ s.clk - s.time.lastHeard → 3 * s.syncNs ≤ s.clk - s.time.lastSync →
    s.rd R.TIM_SYNC_CFG_gm_backup = 0 →
    1 ≤ s.time.servo → s.time.servo ≤ 3 → Leaves .syncTimeout s (fun u => u.time.servo = 4 ∧ u.time.holdSince = s.clk ∧
      Counted s u (R.TIM_CNT_count 4) ∧ u.rd R.TIM_STATUS_valid = 1 ∧ u.now = s.now ∧ u.raised = s.raised ++ [⟨0x050, 0⟩] ∧
      u.hub = s.hub)) ∧
  (∀ s : State, s.clk - s.time.lastHeard < 3 * s.syncNs → exec .syncTimeout s = .next s.settle) ∧
  (∀ (s : State) (r : Requester), Grants s r R.TIM_CTRL .write → r.level = .supervisor → s.time.servo = 5 →
    Writes (.timeStepCmd r) s r R.TIM_CTRL (fun u => u.now = s.now + BitVec.ofInt 64 (-(wholeNs s.time.offset)) ∧
      u.time.servo = 2 ∧ Counted s u (R.TIM_CNT_count 2) ∧ ⟨0x052, sat32 (-(wholeNs s.time.offset)) % 2 ^ 32⟩ ∈ u.raised)) ∧
  (∀ (s : State) (r : Requester), Grants s r R.TIM_CTRL .write → s.time.servo ≠ 5 →
    exec (.timeStepCmd r) s = .next (s.wrote r R.TIM_CTRL).settle) ∧
  (∀ s : State, s.recovered 0 = true → s.hub.mode ≠ .hibernate → Leaves .resonatorFail s (fun u =>
    u.time.resonator = false ∧ u.rd R.TIM_STATUS_clock = 1 ∧ u.rd R.TIM_STATUS_degraded = 1 ∧ u.time.servo = s.time.servo ∧
    u.raised = s.raised ++
      (if s.on R.TIM_STATUS_degraded = true ∧ s.rd R.TIM_STATUS_clock ≠ 3 then [] else [⟨0x053, 1⟩]) ∧ u.hub = s.hub ∧ Keeps s u)) ∧
  (∀ s : State, s.recovered 0 = false → s.recovered 1 = true → s.hub.mode ≠ .hibernate → Leaves .resonatorFail s (fun u =>
    u.time.resonator = false ∧ u.rd R.TIM_STATUS_clock = 2 ∧ u.rd R.TIM_STATUS_degraded = 1 ∧
    u.raised = s.raised ++
      (if s.on R.TIM_STATUS_degraded = true ∧ s.rd R.TIM_STATUS_clock ≠ 3 then [] else [⟨0x053, 2⟩]) ∧ u.hub = s.hub)) ∧
  (∀ s : State, s.hub.mode ≠ .hibernate → s.hub.held = false → s.power.hib = none → Leaves .resonatorReady s (fun u =>
    u.time.resonator = true ∧ u.time.starting = false ∧ u.time.lost = false ∧ u.rd R.TIM_STATUS_clock = 0 ∧
    u.rd R.TIM_STATUS_degraded = 0 ∧ u.raised = s.raised ∧ u.hub = s.hub ∧ Keeps s u)) ∧
  (∀ s : State, s.time.starting = true → s.time.resonator = false → s.time.resStart + 5000000 ≤ s.clk → s.hub.mode ≠ .hibernate →
    s.recovered 0 = true → Leaves .resonatorStartTimeout s (fun u => u.time.starting = false ∧ u.rd R.TIM_STATUS_clock = 1 ∧
    u.rd R.TIM_STATUS_degraded = 1 ∧ u.hub = s.hub ∧ Keeps s u)) ∧
  (∀ s : State, s.time.starting = true → s.clk < s.time.resStart + 5000000 → exec .resonatorStartTimeout s = .next s.settle) ∧
  (∀ s : State, s.time.resonator = false → s.time.starting = false → s.recovered 0 = false → s.recovered 1 = false →
    s.time.lost = false → Leaves .timebaseLoss s (fun u => u.time.lost = true ∧
    u.rd R.TIM_STATUS_clock = 3 ∧ u.rd R.TIM_STATUS_degraded = 1 ∧ u.rd R.TIM_STATUS_valid = 0 ∧ u.rdInt R.TIM_RATE_rate = 0 ∧ u.time.servo = 0 ∧
    u.raised = s.raised ++ [⟨0x054, 0⟩] ∧ u.hub = s.hub ∧ Keeps s u)) ∧
  (∀ s : State, s.time.resonator = true ∨ s.time.lost = true → exec .timebaseLoss s = .next s.settle)


/-- R390 to R392: a spur port that runs gPTP sends a two-step Sync and a Follow_Up with plant time every interval and an Announce every second, while time is
valid and the link is up; a Sync that it receives is only counted. -/
def Obligations.SpurPortsSpeakGptp : Prop :=
  (∀ (s : State) (p : Fin 2), s.gptpPort p.val = true → s.on R.TIM_STATUS_valid = true → s.portDown (2 + p.val) = false →
    (∀ x, mget none s.time.gptp p.val = some x → x.sentAt + logNs (s.rdInt R.TIM_SYNC_CFG_gptp_log) ≤ s.clk) →
    Leaves (.gptpSyncSend p) s (fun u => (∃ y, mget none u.time.gptp p.val = some y ∧ y.sentAt = s.clk ∧
      y.dst = 0x0180C200000E ∧ y.etherType = 0x88F7 ∧ y.domain = 0 ∧ y.twoStep = true) ∧
      (∃ z, mget none u.time.followUp p.val = some z ∧ z.sentAt = s.clk ∧ z.origin = s.now ∧
      z.dst = 0x0180C200000E ∧ z.etherType = 0x88F7 ∧ z.domain = 0) ∧ u.time.announce = s.time.announce ∧
      u.regs = s.regs ∧ u.hub = s.hub ∧ Keeps s u)) ∧
  (∀ (s : State) (p : Fin 2), s.gptpPort p.val = true → s.on R.TIM_STATUS_valid = true → s.portDown (2 + p.val) = false →
    (∀ x, mget none s.time.announce p.val = some x → x.sentAt + 1000000000 ≤ s.clk) → Leaves (.gptpAnnounceSend p) s (fun u =>
    (∃ a, mget none u.time.announce p.val = some a ∧ a.sentAt = s.clk ∧ a.priority1 = 246 ∧ a.priority2 = 248 ∧
      a.clockClass = (if s.time.servo = 3 then 6 else if s.time.servo = 4 ∨ s.time.servo = 5 then 7 else 248) ∧
      a.utcOffset = s.rd R.TIM_STATUS_utc_offset) ∧ u.time.gptp = s.time.gptp ∧ u.regs = s.regs ∧ u.hub = s.hub ∧ Keeps s u)) ∧
  (∀ (s : State) (p : Fin 2), s.gptpPort p.val = true → exec (.gptpSyncReceived p) s = .next (s.bump (R.TIM_CNT_count 11)).settle) ∧
  (∀ (s : State) (p : Fin 2), s.on R.TIM_STATUS_valid = false →
    exec (.gptpSyncSend p) s = .next s.settle ∧ exec (.gptpAnnounceSend p) s = .next s.settle)

/-- R393, R396 to R399: an entry written for a future time is armed for it; one whose time has passed within its window runs at
once and is marked late; one beyond it is PAST and counted. A cancel leaves CANCELLED. A due entry runs its action, here on a
TIME_IO pin that is still in function 3, and with it every entry that is due, in the order of their ticks and in one tick by ascending
index; in Hibernate it does nothing, which is the model's
choice (log entry 14). A launch slot is LOADED by its words, and its frame goes to the core 2 µs before its due time; a frame that
may not be launched is counted and the slot reads DROPPED. -/
def Obligations.ScheduledActionsRunAtTheirTime : Prop :=
  (∀ (s : State) (r : Requester) (i : Fin 32) (t : BitVec 40), Grants s r (R.TIM_SCHED_T i.val) .write →
    s.schedActs (s.word (R.TIM_SCHED_A i.val)) = true → 0 ≤ sdiff40 t.toNat s.now →
    Writes (.schedArm r i t) s r (R.TIM_SCHED_T i.val) (fun u =>
      mget none u.time.sched i.val = some ⟨s.now + BitVec.ofInt 64 (sdiff40 t.toNat s.now), s.word (R.TIM_SCHED_A i.val)⟩ ∧
      u.rd (R.TIM_SCHED_A_status i.val) = 1 ∧ u.rd (R.TIM_SCHED_A_late i.val) = 0 ∧ u.rd (R.TIM_SCHED_T_time i.val) = t.toNat ∧
      u.now = s.now ∧ u.hub = s.hub ∧ Keeps s u)) ∧
  (∀ (s : State) (r : Requester) (i : Fin 32) (t : BitVec 40), Grants s r (R.TIM_SCHED_T i.val) .write →
    s.rd (R.TIM_SCHED_A_action i.val) = 1 → s.rd (R.TIM_SCHED_A_target i.val) < 4 →
    s.rd (R.TIM_IO_function (s.rd (R.TIM_SCHED_A_target i.val))) = 3 → sdiff40 t.toNat s.now < 0 →
    -(sdiff40 t.toNat s.now) < s.rd (R.TIM_SCHED_A_late_window i.val) →
    Writes (.schedArm r i t) s r (R.TIM_SCHED_T i.val) (fun u => u.rd (R.TIM_SCHED_A_status i.val) = 2 ∧
      u.rd (R.TIM_SCHED_A_late i.val) = 1 ∧ (u.tio (s.rd (R.TIM_SCHED_A_target i.val))).level = true ∧
      mget none u.time.sched i.val = none ∧ Counted s u (R.TIM_CNT_count 6) ∧ u.hub = s.hub)) ∧
  (∀ (s : State) (r : Requester) (i : Fin 32) (t : BitVec 40), Grants s r (R.TIM_SCHED_T i.val) .write →
    sdiff40 t.toNat s.now < 0 → s.rd (R.TIM_SCHED_A_late_window i.val) ≤ -(sdiff40 t.toNat s.now) →
    Writes (.schedArm r i t) s r (R.TIM_SCHED_T i.val) (fun u => u.rd (R.TIM_SCHED_A_status i.val) = 3 ∧
      u.rd (R.TIM_SCHED_A_late i.val) = 1 ∧ mget none u.time.sched i.val = none ∧ Counted s u (R.TIM_CNT_count 7) ∧
      u.time.io = s.time.io ∧ u.hub = s.hub)) ∧
  (∀ (s : State) (r : Requester) (i : Fin 32), Grants s r (R.TIM_SCHED_T i.val) .write → s.rd (R.TIM_SCHED_A_status i.val) = 1 →
    Writes (.schedCancel r i) s r (R.TIM_SCHED_T i.val) (fun u => u.rd (R.TIM_SCHED_A_status i.val) = 4 ∧
      mget none u.time.sched i.val = none ∧ u.time.io = s.time.io ∧ u.hub = s.hub)) ∧
  (∀ (s : State) (i : Fin 32) (e : Sched), mget none s.time.sched i.val = some e → 0 ≤ s.ticksPast e.due →
    s.asleep = false → s.dueEntries = [(i.val, e)] → s.schedActs e.fields = true → fget e.fields 28 4 = 3 → Leaves (.schedDue i) s (fun u => u.rd (R.TIM_SCHED_A_status i.val) = 2 ∧
      u.rd (R.TIM_SCHED_A_late i.val) = 0 ∧ mget none u.time.sched i.val = none ∧
      (u.tio (fget e.fields 24 4)).level = !(s.tio (fget e.fields 24 4)).level ∧ u.now = s.now ∧ u.hub = s.hub)) ∧
  (∀ (s : State) (i : Fin 32), s.asleep = false → s.dueEntries.any (fun x => x.1 == i.val) = true → exec (.schedDue i) s =
    .next (s.dueEntries.foldl (fun (t : State) x => t.runSched x.1 x.2.fields x.2.due false) s).settle) ∧
  (∀ s : State, (∀ x : Nat × Sched, x ∈ s.dueEntries ↔ (x.1, some x.2) ∈ s.time.sched ∧ 0 ≤ s.ticksPast x.2.due) ∧
    s.dueEntries.Pairwise (fun x y => s.ticksPast y.2.due ≤ s.ticksPast x.2.due) ∧
    (s.time.sched.Pairwise (fun x y => x.1 < y.1) →
      s.dueEntries.Pairwise (fun x y => s.ticksPast y.2.due = s.ticksPast x.2.due → x.1 < y.1))) ∧
  (∀ (s : State) (i : Fin 32), s.asleep = true ∨ s.dueEntries.any (fun x => x.1 == i.val) = false →
    exec (.schedDue i) s = .next s.settle) ∧
  (∀ (s : State) (r : Requester) (i : Fin 4) (n : BitVec 6), Grants s r (R.TIM_LAUNCH_CTL i.val) .write →
    Writes (.launchLoad r i n) s r (R.TIM_LAUNCH_CTL i.val) (fun u => u.rd (R.TIM_LAUNCH_CTL_words i.val) = n.toNat ∧
      u.rd (R.TIM_LAUNCH_CTL_state i.val) = 1 ∧ u.armedFor i.val = none ∧ u.hub = s.hub ∧ Keeps s u)) ∧
  (∀ (s : State) (i : Fin 4) (due : Word) (f : Frame), s.armedFor i.val = some due → -2000 ≤ tdiff s.now due →
    s.launchFrame i.val = f → f.ftype = 1 → f.dst = 0 → s.flowEntry f.flow = none → s.rd (R.TIM_LAUNCH_CTL_words i.val) = 4 + (f.length + 7) / 8 →
    s.coreUp = true → PlainCore s 7 → (s.admits 5 f.tclass f.leaves).isSome = true → Leaves (.launchHandover i) s (fun u =>
      u.armedFor i.val = none ∧ (∃ g, u.switch.frames = [g] ∧ g.launch = some (i.val, due) ∧ g.outs = [5] ∧
        g.frame.payload = f.payload ∧ g.cls = f.tclass) ∧
      u.rd (R.TIM_LAUNCH_CTL_state i.val) = s.rd (R.TIM_LAUNCH_CTL_state i.val) ∧ u.hub = s.hub)) ∧
  (∀ (s : State) (i : Fin 4) (due : Word), s.armedFor i.val = some due → -2000 ≤ tdiff s.now due →
    s.asleep = false →
    s.rd (R.TIM_LAUNCH_CTL_words i.val) ≠ 4 + ((s.launchFrame i.val).length + 7) / 8 → Leaves (.launchHandover i) s (fun u =>
      u.armedFor i.val = none ∧ u.rd (R.TIM_LAUNCH_CTL_state i.val) = 5 ∧ Counted s u (R.TIM_CNT_count 9) ∧
      u.switch = s.switch ∧ u.hub = s.hub))

/-- R401 to R405, R407: a periodic output goes active at its phase and inactive after its width; an enabled edge of a capture input
is stamped into a FIFO of 16, and one that finds it full is lost and counted; a pop takes the oldest stamp, and a pop of an
empty FIFO is not ready; a new period and phase count from the next edge of the old ones. -/
def Obligations.TimeIoPinsFollowTheirFunction : Prop :=
  (∀ (s : State) (k : Fin 4), s.coreUp = true → s.rd (R.TIM_IO_function k.val) = 2 → s.on R.TIM_STATUS_valid = true →
    (s.tio k.val).old = none → s.rd (R.TIM_IO_PER_period k.val) ≠ 0 →
    ((s.now.toNat : Int) - (s.rd (R.TIM_IO_PER_phase k.val) : Int)) % (s.rd (R.TIM_IO_PER_period k.val) : Int) = 0 →
    Leaves (.timeioPeriodicEdge k) s (fun u => (u.tio k.val).level = true ∧
      (u.tio k.val).pulseEnd = some (s.clk + s.rd (R.TIM_IO_width k.val)) ∧ u.regs = s.regs ∧ u.hub = s.hub ∧ Keeps s u)) ∧
  (∀ (s : State) (k : Fin 4), s.coreUp = true → s.rd (R.TIM_IO_function k.val) = 1 → s.on R.TIM_STATUS_valid = true →
    (s.tio k.val).old = none →
    ((s.now.toNat : Int) - (s.rd (R.TIM_IO_PER_phase k.val) : Int)) % 1000000000 = 0 →
    Leaves (.timeioPeriodicEdge k) s (fun u => (u.tio k.val).level = true ∧
      (u.tio k.val).pulseEnd = some (s.clk + s.rd (R.TIM_IO_width k.val)))) ∧
  (∀ (s : State) (k : Fin 4) (t : Nat), (s.tio k.val).pulseEnd = some t → t ≤ s.clk → s.asleep = false → exec (.timeioPulseEnd k) s =
    .next (s.setTio k.val { s.tio k.val with level := false, pulseEnd := none }).settle) ∧
  (∀ (s : State) (k : Fin 4) (t : Nat), (s.tio k.val).pulseEnd = some t → s.clk < t → exec (.timeioPulseEnd k) s = .next s.settle) ∧
  (∀ (s : State) (k : Fin 4) (rising : Bool) (t : Word), s.coreUp = true → s.rd (R.TIM_IO_function k.val) = 4 →
    s.bitOn (R.TIM_IO_edges k.val) (if rising = true then 0 else 1) = true → (s.tio k.val).fifo.length < 16 →
    Leaves (.timeioCapture k rising t) s (fun u => u.tio k.val = { s.tio k.val with
      fifo := (s.tio k.val).fifo ++ [⟨rising, (s.tio k.val).lost, t⟩]
      lost := false } ∧ u.hub = s.hub ∧ Keeps s u)) ∧
  (∀ (s : State) (k : Fin 4) (rising : Bool) (t : Word), s.coreUp = true → s.rd (R.TIM_IO_function k.val) = 4 →
    s.bitOn (R.TIM_IO_edges k.val) (if rising = true then 0 else 1) = true → 16 ≤ (s.tio k.val).fifo.length →
    Leaves (.timeioCapture k rising t) s (fun u => u.tio k.val = { s.tio k.val with lost := true } ∧
      Counted s u (R.TIM_CNT_count 10) ∧ u.hub = s.hub)) ∧
  (∀ (s : State) (r : Requester) (k : Fin 4) (x : Stamp) (rest : List Stamp), Grants s r (R.TIM_CAPTURE k.val) .read →
    (s.tio k.val).fifo = x :: rest → exec (.timeioCapturePop r k) s =
    .next ((s.setTio k.val { s.tio k.val with fifo := rest }).gave r (R.TIM_CAPTURE k.val) .ok x.word).settle) ∧
  (∀ (s : State) (r : Requester) (k : Fin 4), Grants s r (R.TIM_CAPTURE k.val) .read → (s.tio k.val).fifo = [] →
    exec (.timeioCapturePop r k) s = .next (s.gave r (R.TIM_CAPTURE k.val) .notReady RCode.notReady.pattern).settle) ∧
  (∀ (s : State) (r : Requester) (k : Fin 4) (v : Word), Grants s r (R.TIM_IO_PER k.val) .write → s.loaded.tuning = [] →
    s.rd (R.TIM_IO_function k.val) = 2 → v ≠ s.word (R.TIM_IO_PER k.val) → (s.tio k.val).old = none →
    timeIoOk 2 (s.rd (R.TIM_IO_edges k.val)) (s.rd (R.TIM_IO_width k.val)) (fget v 32 32) (fget v 0 32) = true →
    Writes (.timeioPeriodWrite r k v) s r (R.TIM_IO_PER k.val) (fun u => u.word (R.TIM_IO_PER k.val) = v ∧
      (u.tio k.val).old = some (s.word (R.TIM_IO_PER k.val)) ∧ u.hub = s.hub ∧ Keeps s u))

/-! ### Cyclic exchange -/

/-- R31, R331, R336, R338 to R341, R348, R353, R354: at the sample point of a cycle each PINS input cup takes the levels of its bays and each MEM
cup its bytes, which are complete with the snapshot's end; at the apply point the copy committed from port 0 is applied, a good
MEM cup reaches process image memory and clears the misses, and a cycle without a copy counts as a miss. An outbound pour copy whose
tail comes at least 1 µs before its apply point, and at most two cycles, commits its cups for that cycle at its port. -/
def Obligations.CupsAreSampledAndApplied : Prop :=
  (∀ (s : State) (i : Fin 4) (n j : Nat), s.pointsRun i.val = true → s.cycleAt i.val s.now.toNat = n → 1 ≤ n →
    s.samplePoint i.val n = s.now.toNat → s.samplePoint i.val (n - 1) + 2 ≤ s.now.toNat →
    s.samplePoint i.val (n - 2) + 2 ≤ s.now.toNat →
    (s.overOf false i.val).has n = false → s.cups false i.val = [j] → CleanMem s →
    Leaves (.cycSamplePoint i) s (fun u => (u.overOf false i.val).has n = true ∧
      (if s.rd (R.CYC_CUP_kind j) = 1 then (mget {} u.cyc.snaps j).shots.head? = some ⟨s.cupLevels j, n, s.now, some s.now⟩
      else (mget {} u.cyc.snaps j).shots.head? =
        some ⟨s.memBytes (s.rd (R.CYC_CUP_source j)) (s.cupData j), n, s.now, none⟩) ∧ u.hub = s.hub ∧ Keeps s u)) ∧
  (∀ (s : State) (i : Fin 4) (j : Nat) (a : Shot) (rest : List Shot), s.cups false i.val = [j] →
    (mget {} s.cyc.snaps j).shots = a :: rest → Leaves (.cycSnapshotDone i) s (fun u =>
    (mget {} u.cyc.snaps j).shots = { a with done := a.done.orElse (fun _ => some s.now) } :: rest ∧ u.cyc.commits = s.cyc.commits ∧ u.regs = s.regs ∧
    u.hub = s.hub ∧ Keeps s u)) ∧
  (∀ (s : State) (i : Fin 4) (n j : Nat) (b c : List Byte), s.pointsRun i.val = true → s.cycleAt i.val s.now.toNat = n → 1 ≤ n →
    s.applyPoint i.val n = s.now.toNat → s.applyPoint i.val (n - 1) + 2 ≤ s.now.toNat →
    s.applyPoint i.val (n - 2) + 2 ≤ s.now.toNat →
    (s.overOf true i.val).has n = false → s.cups true i.val = [j] → s.cupGated j = false →
    s.cupsApply = true → s.rd (R.CYC_CUP_kind j) ≠ 1 → CleanMem s → s.cyc.commits = [⟨i.val, 1, n, [(j, c)]⟩, ⟨i.val, 0, n, [(j, b)]⟩] →
    cupGood n b = true → Leaves (.cycApplyPoint i) s (fun u =>
      (∀ k, k < b.length - 2 → u.memByte (s.rd (R.CYC_CUP_source j) + k) = b.getD (k + 2) 0) ∧
      (∀ o, o < s.rd (R.CYC_CUP_source j) ∨ s.rd (R.CYC_CUP_source j) + (b.length - 2) ≤ o → u.memByte o = s.memByte o) ∧
      u.cyc.commits = [] ∧ (u.overOf true i.val).has n = true ∧ mget 0 u.cyc.misses j = 0 ∧
      u.rd (R.CYC_STATUS_misses i.val) = 0 ∧ Counted s u (R.CYC_CNT_count (16 * i.val)) ∧ u.raised = s.raised ∧ u.hub = s.hub)) ∧
  (∀ (s : State) (i : Fin 4) (n j : Nat), s.pointsRun i.val = true → s.cycleAt i.val s.now.toNat = n → 1 ≤ n →
    s.applyPoint i.val n = s.now.toNat → s.applyPoint i.val (n - 1) + 2 ≤ s.now.toNat →
    s.applyPoint i.val (n - 2) + 2 ≤ s.now.toNat →
    (s.overOf true i.val).has n = false → s.cups true i.val = [j] → s.cupGated j = false →
    s.cupsApply = true → s.cyc.commits = [] → mget 0 s.cyc.misses j + 1 < s.rd (R.CYC_STATUS_fresh_limit i.val) →
    Leaves (.cycApplyPoint i) s (fun u => mget 0 u.cyc.misses j = mget 0 s.cyc.misses j + 1 ∧
      Counted s u (R.CYC_CNT_count (16 * i.val + 1)) ∧ u.rd (R.CYC_STATUS_misses i.val) = min (s.rd (R.CYC_STATUS_misses i.val) + 1) 255 ∧
      u.pimem = s.pimem ∧ u.raised = s.raised ∧ u.hub = s.hub)) ∧
  (∀ (s : State) (rx : RxFrame) (n i : Nat), Hears s rx → rx.port.val < 2 → s.headFault rx.port.val rx.frame = none →
    s.tailFault rx = none → s.servesPour rx.frame rx.port.val = true → s.cupsApply = true → i = rx.frame.pourStream →
    s.pourCycleOf rx.frame rx.tail = n → rx.tail.toNat + 1000 ≤ s.applyPoint i n →
    s.applyPoint i n ≤ rx.tail.toNat + 2 * s.cycleNs i → s.outCups rx.frame ≠ [] → s.committedAt i n rx.port.val = none →
    Leaves (.pourFrame rx) s (fun u => u.committedAt i n rx.port.val = some ⟨i, rx.port.val, n, s.outCups rx.frame⟩ ∧
      u.hub = { s.hub with heardAt := s.clk } ∧ Keeps s { u with eccMarks := s.eccMarks }))

/-! ### Bays -/

/-- R61, R409, R410, R412, R413, R415, R416, R418, R420, R422, R508: an accepted edge, on a 24 V input one that has outlasted the filter and on any
pin one that the hub's own driver does not hold the line against, sets the level of the pin, is stamped, 45 ns earlier on a 24 V input, and sets the edge latch of
its direction in every running context that has the pin in a slot; a driver in its current limit for 1 ms is released, its
overload bit set, counted and raised; a write of 1 clears the bit and the driver takes its owner's drive state; BAY_OUT
drives the register-owned pins, and what it holds is stored even where the pads are at safe values. -/
def Obligations.PinsStampEdgesAndTakeTheirDriveStates : Prop :=
  (∀ (s : State) (g : Fin 384) (level : Bool) (t : Word), g.val < s.nPins → s.acceptedLevel g.val ≠ level → s.ownLine g.val = none →
    s.pinMode g.val ≠ 0 →
    (s.pinMode g.val = 1 ∨ s.pinMode g.val = 2 → (s.rd (R.BAY_PIN_filter g.val) * 1000 : Int) ≤ tdiff s.now t) →
    s.pairOdd g.val = false → s.groupGated (groupOfPin g.val) = false → s.asleep = false →
    Leaves (.pinEdgeAccept g level t) s (fun u =>
    u.pin g.val = { s.pin g.val with
      level := some level
      edges := ((if s.pinMode g.val = 1 ∨ s.pinMode g.val = 2 then t - 45 else t), level != s.on (R.BAY_PIN_invert g.val)) ::
        (s.pin g.val).edges } ∧
    (∀ e c k, (e, c, k) ∈ s.slotsOf g.val → (s.ctx e c).runs = true →
      (if (level != s.on (R.BAY_PIN_invert g.val)) = true then (u.ctx e c).riseL.getLsbD k = true
        else (u.ctx e c).fallL.getLsbD k = true)) ∧ u.regs = s.regs ∧ u.hub = s.hub ∧ Keeps s u)) ∧
  (∀ (s : State) (g : Fin 384) (level : Bool) (t : Word), s.pinMode g.val = 1 ∨ s.pinMode g.val = 2 →
    tdiff s.now t < (s.rd (R.BAY_PIN_filter g.val) * 1000 : Int) → exec (.pinEdgeAccept g level t) s = .next s.settle) ∧
  (∀ (s : State) (g : Fin 384) (level : Bool) (t : Word), (s.ownLine g.val).isSome = true → Leaves (.pinEdgeAccept g level t) s (fun u =>
    (u.pin g.val).edges = (s.pin g.val).edges ∧ u.lineLevel g.val = s.lineLevel g.val ∧ u.engines = s.engines ∧
    u.regs = s.regs ∧ u.hub = s.hub ∧ Keeps s u)) ∧
  (∀ (s : State) (g : Fin 384) (t : Word), Leaves (.pinEdgeAccept g (s.acceptedLevel g.val) t) s (fun u =>
    (u.pin g.val).edges = (s.pin g.val).edges ∧ u.acceptedLevel g.val = s.acceptedLevel g.val ∧ u.engines = s.engines ∧
    u.regs = s.regs ∧ u.hub = s.hub ∧ Keeps s u)) ∧
  (∀ (s : State) (g : Fin 384), s.limits g.val = true → Leaves (.driverCurrentLimit g true) s (fun u =>
    (u.pin g.val).limitSince = some ((s.pin g.val).limitSince.getD s.clk) ∧
    u.bitOn (R.BAY_PINSTAT_in_limit (g.val / 8)) (g.val % 8) = true ∧ (u.pin g.val).pad = (s.pin g.val).pad ∧ u.hub = s.hub)) ∧
  (∀ (s : State) (g : Fin 384), s.limits g.val = true → Leaves (.driverCurrentLimit g false) s (fun u =>
    (u.pin g.val).limitSince = none ∧ u.bitOn (R.BAY_PINSTAT_in_limit (g.val / 8)) (g.val % 8) = false ∧ u.hub = s.hub)) ∧
  (∀ (s : State) (g : Fin 384) (t : Nat), s.limits g.val = true → (s.pin g.val).limitSince = some t → t + 1000000 ≤ s.clk →
    Leaves (.pinOverloadTrip g) s (fun u => (u.pin g.val).pad = .released ∧ (u.pin g.val).owner = (s.pin g.val).owner ∧
      u.bitOn (R.BAY_PINSTAT_overload (g.val / 8)) (g.val % 8) = true ∧
      u.bitOn (R.BAY_PINSTAT_in_limit (g.val / 8)) (g.val % 8) = false ∧ Counted s u (R.BAY_PINCNT_overloads (g.val / 8)) ∧
      u.raised = s.raised ++ [⟨0x080 + g.val / 8, 2 ^ (g.val % 8)⟩] ∧ u.hub = s.hub ∧ Keeps s u)) ∧
  (∀ (s : State) (g : Fin 384) (t : Nat), (s.pin g.val).limitSince = some t → s.clk < t + 1000000 →
    exec (.pinOverloadTrip g) s = .next s.settle) ∧
  (∀ (s : State) (r : Requester) (n : Fin 48) (mask : Byte), Grants s r (R.BAY_PINSTAT n.val) .write →
    Writes (.overloadClear r n mask 0) s r (R.BAY_PINSTAT n.val) (fun u =>
      (∀ p, p < 8 → u.bitOn (R.BAY_PINSTAT_overload n.val) p = (s.bitOn (R.BAY_PINSTAT_overload n.val) p && !mask.getLsbD p)) ∧
      (∀ p, p < 8 → s.bitOn (R.BAY_PINSTAT_overload n.val) p = true → mask.getLsbD p = true → s.hasDriver (8 * n.val + p) = true →
        s.lplusLow (8 * n.val + p) = false → s.ownerDrives (8 * n.val + p) = true → (s.pin (8 * n.val + p)).kept = false →
        s.outputRule ≠ .off → (u.pin (8 * n.val + p)).pad =
          (s.ownerState (8 * n.val + p)).through (s.on (R.BAY_PIN_invert (8 * n.val + p)))) ∧ u.hub = s.hub ∧ Keeps s u)) ∧
  (∀ (s : State) (r : Requester) (n : Fin 48) (v : Word), Grants s r (R.BAY_OUT n.val) .write →
    Writes (.bayOutWrite r n v) s r (R.BAY_OUT n.val) (fun u => u.rd (R.BAY_OUT_enable n.val) = fget v 8 8 ∧
      u.rd (R.BAY_OUT_value n.val) = fget v 0 8 ∧ u.hub = s.hub ∧ Keeps s u ∧
      (∀ p d, p < 8 → s.rd (R.BAY_PIN_owner (8 * n.val + p)) = 1 →
        d = (if bitAt (fget v 8 8) p = true then (if bitAt (fget v 0 8) p = true then Drive.high else .low) else .released) →
        u.ownerState (8 * n.val + p) = d ∧
        (s.hasDriver (8 * n.val + p) = true → s.lplusLow (8 * n.val + p) = false → s.ownerDrives (8 * n.val + p) = true →
          s.outputRule ≠ .off → s.bitOn (R.BAY_PINSTAT_overload n.val) p = false →
          (u.pin (8 * n.val + p)).pad = d.through (s.on (R.BAY_PIN_invert (8 * n.val + p)))) ∧
        (s.outputRule = .safe → s.testDrive (8 * n.val + p) = none → s.hasDriver (8 * n.val + p) = true → s.lplusLow (8 * n.val + p) = false →
          s.bitOn (R.BAY_PINSTAT_overload n.val) p = false → (u.pin (8 * n.val + p)).pad =
            safeDrive (s.rd (R.BAY_PIN_safe (8 * n.val + p))) (s.pin (8 * n.val + p)).pad))))

/-- R15, R17, R421, R422: on the entry to Safe from Run the driver of every pin, whoever owns it, takes its safe drive state: 0 released, 1 low,
2 high, and 3, hold, the one that it has. Pins in mode 0x8, which also follow power-good of their L+ port (R578), are left out of it. A driver that is released for overload stays
released, the model's choice (log entry 40). -/
def Obligations.EntryToSafeDrivesTheSafeValues : Prop :=
  ∀ (s : State) (r : ModeReq), Asks s r → s.hub.mode = .run → Writes (.reqSafe r) s r.who R.TOP_MODE_REQ (fun u =>
    u.hub.mode = .safe ∧ ∀ g, g < 384 → s.hasDriver g = true → s.pinMode g ≠ 8 →
      (u.pin g).owner = (s.pin g).owner ∧
      (s.bitOn (R.BAY_PINSTAT_overload (g / 8)) (g % 8) = true → (u.pin g).pad = .released) ∧
      (s.bitOn (R.BAY_PINSTAT_overload (g / 8)) (g % 8) = false →
        (s.rd (R.BAY_PIN_safe g) = 0 → (u.pin g).pad = .released) ∧
        (s.rd (R.BAY_PIN_safe g) = 1 → (u.pin g).pad = .low) ∧ (s.rd (R.BAY_PIN_safe g) = 2 → (u.pin g).pad = .high) ∧
        (s.rd (R.BAY_PIN_safe g) = 3 → (u.pin g).pad = (s.pin g).pad)))

/-- R427, R429 to R431, R433 to R436, R441, R442: a pop takes the head word of a released packet with its tags and is not ready
otherwise; a push appends its word with the tags of BAY_TXTAG, which returns to 0; a word with neither SOP nor an open packet is
an orphan, and one that finds the FIFO full is lost, both counted; a flush empties a FIFO but for the marker of a packet of which
the consumer has taken a part. A packet is released once its end or as many words as the cut-through threshold are stored, or
64 words are, and it stays released; a word of a packet that is not released cannot be taken, and what is pushed is taken in
order. -/
def Obligations.BayFifosPushPopAndFlush : Prop :=
  (∀ (s : State) (r : Requester) (n : Fin 48) (w : FWord) (rest : List FWord), Grants s r (R.BAY_RXPOP n.val) .read →
    (s.rx n.val).words = w :: rest → (s.rx n.val).released = true → w.dataEcc = .clean → w.tagEcc = .clean →
    Reads (.rxPop r n) s r (R.BAY_RXPOP n.val) .ok w.data (fun u => (u.rx n.val).words = rest ∧
      (u.rx n.val).taken = (if w.eop = true then false else ((s.rx n.val).taken || w.sop)) ∧
      u.rd (R.BAY_RXLAST_tags n.val) = w.tags.toNat ∧
      u.rd (R.BAY_RXLAST_pops n.val) = (s.rd (R.BAY_RXLAST_pops n.val) + 1) % 2 ^ (R.BAY_RXLAST_pops n.val).width ∧
      u.tx n.val = s.tx n.val ∧ u.hub = s.hub ∧ Keeps s u)) ∧
  (∀ (s : State) (r : Requester) (n : Fin 48), Grants s r (R.BAY_RXPOP n.val) .read →
    (s.rx n.val).words = [] ∨ (s.rx n.val).released = false →
    exec (.rxPop r n) s = .next (s.gave r (R.BAY_RXPOP n.val) .notReady RCode.notReady.pattern).settle) ∧
  (∀ (s : State) (r : Requester) (n : Fin 48) (v : Word) (tags : Nat), Grants s r (R.BAY_TXPUSH n.val) .write →
    s.rd (R.BAY_TXTAG_tags n.val) = tags → bitAt tags 0 = true ∨ (s.tx n.val).opened = true →
    (bitAt tags 0 = true → (s.tx n.val).opened = false) → (s.tx n.val).skipPush = false → (s.tx n.val).words.length < 64 →
    Writes (.txPush r n v) s r (R.BAY_TXPUSH n.val) (fun u => (u.tx n.val).words = (s.tx n.val).words ++
        [{ data := v, sop := bitAt tags 0, eop := bitAt tags 1 || bitAt tags 2, err := bitAt tags 2 }] ∧
      (u.tx n.val).opened = !(bitAt tags 1 || bitAt tags 2) ∧ u.rd (R.BAY_TXTAG_tags n.val) = 0 ∧ u.rx n.val = s.rx n.val ∧
      u.hub = s.hub ∧ Keeps s u)) ∧
  (∀ (s : State) (r : Requester) (n : Fin 48) (v : Word), Grants s r (R.BAY_TXPUSH n.val) .write →
    bitAt (s.rd (R.BAY_TXTAG_tags n.val)) 0 = false → (s.tx n.val).opened = false → (s.tx n.val).skipPush = false →
    Writes (.txPush r n v) s r (R.BAY_TXPUSH n.val) (fun u => u.tx n.val = s.tx n.val ∧ Counted s u (R.BAY_TXCNT_orphans n.val) ∧
      u.rd (R.BAY_TXTAG_tags n.val) = 0 ∧ u.hub = s.hub)) ∧
  (∀ (s : State) (r : Requester) (n : Fin 48) (v : Word), Grants s r (R.BAY_TXPUSH n.val) .write →
    bitAt (s.rd (R.BAY_TXTAG_tags n.val)) 0 = true → (s.tx n.val).words.length = 64 →
    Writes (.txPush r n v) s r (R.BAY_TXPUSH n.val) (fun u => u.tx n.val = s.tx n.val ∧ Counted s u (R.BAY_TXCNT_overflows n.val) ∧
      u.rd (R.BAY_TXTAG_tags n.val) = 0 ∧ u.hub = s.hub)) ∧
  (∀ (s : State) (r : Requester) (n : Fin 48), Grants s r (R.BAY_RXCTL n.val) .write →
    Writes (.rxFlush r n) s r (R.BAY_RXCTL n.val) (fun u =>
      (u.rx n.val).words = (if (s.rx n.val).taken = true then [flushMarker] else []) ∧ (u.rx n.val).opened = false ∧
      Counted s u (R.BAY_RXCNT_flushes n.val) ∧ u.tx n.val = s.tx n.val ∧ Keeps s u)) ∧
  (∀ (s : State) (r : Requester) (n : Fin 48), Grants s r (R.BAY_TXCTL n.val) .write →
    Writes (.txFlush r n) s r (R.BAY_TXCTL n.val) (fun u =>
      (u.tx n.val).words = (if (s.tx n.val).taken = true then [flushMarker] else []) ∧ (u.tx n.val).opened = false ∧
      Counted s u (R.BAY_TXCNT_flushes n.val) ∧ u.rx n.val = s.rx n.val ∧ u.hub = s.hub ∧ Keeps s u)) ∧
  (∀ (f : Fifo) (ct : Nat), (f.note ct).released = true ↔ f.released = true ∨
    (∃ w ∈ headPacket f.words, w.eop = true) ∨ (ct ≠ 0 ∧ ct ≤ (headPacket f.words).length) ∨ (headPacket f.words).length = 64) ∧
  (∀ (f : Fifo) (ct : Nat), f.released = false ∨ f.words = [] → f.pop ct = none) ∧
  (∀ (f g : Fifo) (ct : Nat) (w : FWord), f.push ct w = (g, .stored) →
    g.words = f.words ++ [{ w with eop := w.eop || w.err }] ∧ g.words.length ≤ 64 ∧ g.opened = !(w.eop || w.err)) ∧
  (∀ (f g : Fifo) (ct n : Nat) (w d : FWord) (rest : List FWord), f.words = w :: rest → w.dataEcc = .clean → w.tagEcc = .clean →
    f.pop ct = some (g, d, n) → d = w ∧ n = 0 ∧ g.words = rest)


/-- R444 to R447: a bay-group port sends a released packet of its bay as a bay data frame with the segment header; a segment from the
ring is pushed whole, or held while there is no room, or, if it is malformed, discarded and counted; a held one is pushed when
room appears and discarded after 100 µs, with the rest of its packet. -/
def Obligations.BaySegmentsTravelWhole : Prop :=
  (∀ (s : State) (n : Fin 48) (w : FWord), s.on (R.BAY_ROUTE_rx_consumer n.val) = true → (s.rx n.val).words = [w] →
    (s.rx n.val).released = true → w.sop = true → w.eop = true → w.dataEcc = .clean → w.tagEcc = .clean →
    s.groupGated (n.val / 12) = false → s.coreUp = true → n.val < s.nBays → s.isCoupler = false →
    s.rd (R.BAY_ROUTE_dst_node n.val) ≠ 0 → s.flowEntry (s.rd (R.BAY_ROUTE_flow n.val)) = none → PlainCore s (10 + n.val / 4) →
    s.portDown 0 = false → (s.admits 0 (s.rd (R.SWC_PORT_orig_class (10 + n.val / 4))) 1).isSome = true →
    Leaves (.baySegmentSend n) s (fun u => (u.rx n.val).words = [] ∧ (u.rx n.val).pseq = (s.rx n.val).pseq + 1 ∧
      (u.rx n.val).sseq = 1 ∧ u.ring.seqMain = s.ring.seqMain + 1 ∧ u.hub = s.hub ∧
      (∃ g, u.switch.frames = [g] ∧ 0 ∈ g.outs ∧ g.frame.ftype = 5 ∧ g.frame.flow = s.rd (R.BAY_ROUTE_flow n.val) ∧
        g.frame.dst = s.rd (R.BAY_ROUTE_dst_node n.val) ∧ g.frame.seqNo = s.ring.seqMain.toNat ∧
        g.frame.payload = wordBytes (segHeader n.val [w] (s.rx n.val).pseq.toNat 0) ++ wordBytes w.data))) ∧
  (∀ (s : State) (p : Fin 12) (f : Frame), s.portPresent (10 + p.val) = true → s.groupGated (p.val / 3) = false → s.coreUp = true →
    mget none s.bays.held p.val = none → s.segmentOk p.val f = true → (Frame.segment f).sop = true →
    (∀ w ∈ (Frame.segment f).words, w.err = false) → (s.tx (Frame.segment f).bay).opened = false →
    (s.tx (Frame.segment f).bay).markDue = false → (s.tx (Frame.segment f).bay).words.length + (Frame.segment f).words.length ≤ 64 → Leaves (.bayDataFrame p f) s (fun u =>
      (u.tx (Frame.segment f).bay).words = (s.tx (Frame.segment f).bay).words ++ (Frame.segment f).words ∧
      (u.tx (Frame.segment f).bay).pseq = BitVec.ofNat 16 (Frame.segment f).pseq ∧ u.hub = s.hub ∧ Keeps s u)) ∧
  (∀ (s : State) (p : Fin 12) (f : Frame), s.portPresent (10 + p.val) = true → s.groupGated (p.val / 3) = false → s.coreUp = true →
    mget none s.bays.held p.val = none → s.segmentOk p.val f = true → (Frame.segment f).sop = true →
    (s.tx (Frame.segment f).bay).opened = false →
    64 < (s.tx (Frame.segment f).bay).words.length + (Frame.segment f).words.length → Leaves (.bayDataFrame p f) s (fun u =>
      mget none u.bays.held p.val = some ⟨f, s.clk⟩ ∧ u.bays.tx = s.bays.tx ∧ u.regs = s.regs ∧ u.hub = s.hub)) ∧
  (∀ (s : State) (p : Fin 12) (f : Frame), s.portPresent (10 + p.val) = true → s.groupGated (p.val / 3) = false → s.coreUp = true →
    mget none s.bays.held p.val = none → s.segmentOk p.val f = false → (Frame.segment f).bay / 4 = p.val →
    exec (.bayDataFrame p f) s = .next (s.bump (R.BAY_TXCNT_bad (Frame.segment f).bay)).settle) ∧
  (∀ (s : State) (p : Fin 12) (h : Held), mget none s.bays.held p.val = some h → s.groupGated (p.val / 3) = false →
    (Frame.segment h.frame).sop = true → (∀ w ∈ (Frame.segment h.frame).words, w.err = false) →
    (s.tx (Frame.segment h.frame).bay).opened = false → (s.tx (Frame.segment h.frame).bay).markDue = false →
    (s.tx (Frame.segment h.frame).bay).words.length + (Frame.segment h.frame).words.length ≤ 64 →
    Leaves (.segmentPush p) s (fun u => mget none u.bays.held p.val = none ∧
      (u.tx (Frame.segment h.frame).bay).words = (s.tx (Frame.segment h.frame).bay).words ++ (Frame.segment h.frame).words ∧
      u.hub = s.hub ∧ Keeps s u)) ∧
  (∀ (s : State) (p : Fin 12) (h : Held), mget none s.bays.held p.val = some h → h.since + 100000 ≤ s.clk → s.asleep = false →
    Leaves (.segmentHoldTimeout p) s (fun u => mget none u.bays.held p.val = none ∧
      (u.tx (Frame.segment h.frame).bay).dropping = true ∧
      (u.tx (Frame.segment h.frame).bay).words = (s.tx (Frame.segment h.frame).bay).words ∧
      Counted s u (R.BAY_TXCNT_seg_drops (Frame.segment h.frame).bay) ∧ u.hub = s.hub ∧ Keeps s u)) ∧
  (∀ (s : State) (p : Fin 12) (h : Held), mget none s.bays.held p.val = some h → s.clk < h.since + 100000 →
    exec (.segmentHoldTimeout p) s = .next s.settle)

/-! ### Instructions of the engines -/

/-- R531: the eight 16-bit operations. -/
def Obligations.AluOperationsWriteTheirCounter : Prop :=
  ∀ (s : State) (e c : Fin 16) (c1 other : Bool) (imm : Nat) (d v : BitVec 16), d = (s.ctx e c).counter c1 →
    v = (if other = true then (s.ctx e c).counter (!c1) else BitVec.ofNat 16 imm) →
    (Fetched s e c (.alu 0 c1 other imm) → Issues (.aluAdd e c) s e c (s.setCtx e c ((s.ctx e c).setCounter c1 (d + v))) .next) ∧
    (Fetched s e c (.alu 1 c1 other imm) → Issues (.aluSub e c) s e c (s.setCtx e c ((s.ctx e c).setCounter c1 (d - v))) .next) ∧
    (Fetched s e c (.alu 2 c1 other imm) → Issues (.aluAnd e c) s e c (s.setCtx e c ((s.ctx e c).setCounter c1 (d &&& v))) .next) ∧
    (Fetched s e c (.alu 3 c1 other imm) → Issues (.aluOr e c) s e c (s.setCtx e c ((s.ctx e c).setCounter c1 (d ||| v))) .next) ∧
    (Fetched s e c (.alu 4 c1 other imm) → Issues (.aluXor e c) s e c (s.setCtx e c ((s.ctx e c).setCounter c1 (d ^^^ v))) .next) ∧
    (Fetched s e c (.alu 5 c1 other imm) →
      Issues (.aluShl e c) s e c (s.setCtx e c ((s.ctx e c).setCounter c1 (d <<< (v.toNat % 16)))) .next) ∧
    (Fetched s e c (.alu 6 c1 other imm) →
      Issues (.aluShr e c) s e c (s.setCtx e c ((s.ctx e c).setCounter c1 (d >>> (v.toNat % 16)))) .next) ∧
    (Fetched s e c (.alu 7 c1 other imm) → Issues (.aluMov e c) s e c (s.setCtx e c ((s.ctx e c).setCounter c1 v)) .next)

/-- R489, R525, R526, R531, R532: CRC, INS and EXTR on the shifters, the seven destinations of SET. An instruction that uses the in
shifter waits with reason 4 while the in lane is busy, and an operand out of range is fault 10 or 11. That the fault of a CRC comes before
its wait is the model's choice (log entry 64). -/
def Obligations.ShifterAndSetInstructionsWriteTheContext : Prop :=
  (∀ (s : State) (e c : Fin 16) (o : Bool) (n poly : Nat), Fetched s e c (.crc o n poly) →
    Issues (.aluCrc e c) s e c (if n = 0 ∨ 64 < n ∨ (o = false ∧ (s.ctx e c).inBusy = true) then s
      else s.setCtx e c ((s.ctx e c).crcOver o n poly))
      (if n = 0 ∨ 64 < n then .fault 11 else if o = false ∧ (s.ctx e c).inBusy = true then .stay 4 else .next)) ∧
  (∀ (s : State) (e c : Fin 16) (c1 o : Bool), Fetched s e c (.ins c1 o) → o = true ∨ (s.ctx e c).inBusy = false →
    (s.ctx e c).shCount o ≤ 48 → Issues (.aluIns e c) s e c (s.setCtx e c ((s.ctx e c).setShifter o
      (((s.ctx e c).shifter o <<< 16) ||| ((s.ctx e c).counter c1).zeroExtend 64) ((s.ctx e c).shCount o + 16))) .next) ∧
  (∀ (s : State) (e c : Fin 16) (c1 o : Bool), Fetched s e c (.ins c1 o) → o = true ∨ (s.ctx e c).inBusy = false →
    48 < (s.ctx e c).shCount o → Issues (.aluIns e c) s e c s (.fault 10)) ∧
  (∀ (s : State) (e c : Fin 16) (c1 o : Bool), Fetched s e c (.extr c1 o) → o = true ∨ (s.ctx e c).inBusy = false →
    Issues (.aluExtr e c) s e c (s.setCtx e c (((s.ctx e c).setCounter c1 (BitVec.ofNat 16 ((s.ctx e c).shifter o).toNat)).setShifter o
      ((s.ctx e c).shifter o >>> 16) ((s.ctx e c).shCount o - 16))) .next) ∧
  (∀ (s : State) (e c : Fin 16) (imm : Nat), Fetched s e c (.set 0 imm) →
    Issues (.setC0 e c) s e c (s.setCtx e c { s.ctx e c with c0 := BitVec.ofNat 16 imm }) .next) ∧
  (∀ (s : State) (e c : Fin 16) (imm : Nat), Fetched s e c (.set 1 imm) →
    Issues (.setC1 e c) s e c (s.setCtx e c { s.ctx e c with c1 := BitVec.ofNat 16 imm }) .next) ∧
  (∀ (s : State) (e c : Fin 16) (imm : Nat), Fetched s e c (.set 2 imm) → imm ≠ 0 →
    Issues (.setBitTimer e c) s e c (s.wr (R.INF_CTX_REGS_bit_timer e c) imm) .next) ∧
  (∀ (s : State) (e c : Fin 16), Fetched s e c (.set 2 0) → Issues (.setBitTimer e c) s e c s (.fault 11)) ∧
  (∀ (s : State) (e c : Fin 16) (imm : Nat), Fetched s e c (.set 3 imm) → nbits imm 0 10 ≤ nbits imm 10 10 →
    Issues (.setLoop e c) s e c (s.setCtx e c (if (s.ctx e c).loopOn = true ∧ nbit imm 20 = true
      then { s.ctx e c with loopPend := some (nbits imm 0 10, nbits imm 10 10) }
      else { s.ctx e c with
        loopStart := nbits imm 0 10
        loopEnd := nbits imm 10 10
        loopOn := nbit imm 20
        loopPend := none })) .next) ∧
  (∀ (s : State) (e c : Fin 16) (imm : Nat), Fetched s e c (.set 4 imm) → nbits imm 16 7 ≤ 64 → Issues (.setOutShifter e c) s e c
    (s.setCtx e c { s.ctx e c with outSh := BitVec.ofNat 64 (nbits imm 0 16), outCnt := nbits imm 16 7 }) .next) ∧
  (∀ (s : State) (e c : Fin 16) (imm : Nat), Fetched s e c (.set 5 imm) → (s.ctx e c).inBusy = false →
    Issues (.setClearIn e c) s e c (s.setCtx e c { s.ctx e c with inSh := 0, inCnt := 0 }) .next) ∧
  (∀ (s : State) (e c : Fin 16) (imm : Nat), Fetched s e c (.set 6 imm) → ∃ y : Ctx,
    Issues (.setFlags e c) s e c (s.setCtx e c y) .next ∧ y = { s.ctx e c with flags := y.flags, flagTime := y.flagTime } ∧
    (∀ j, j < 8 → y.flag j = (if bitAt imm j = true then bitAt imm (8 + j) else (s.ctx e c).flag j) ∧
      mget 0 y.flagTime j = (if bitAt imm j = true then (if bitAt imm (8 + j) = true then (s.ctx e c).tau else 0)
        else mget 0 (s.ctx e c).flagTime j)))

/-- R524, R533 to R541: a jump goes to its target when its condition is met, with the condition's side effect, and to the next
instruction when not; a signal sets a flag with the later flag time, a wait consumes it or waits with reason 7; a NOTE raises
its engine's source or sends a notice; NOP does nothing, HALT makes the context IDLE; GETT loads τ or the counter. That the operand fault
of a jump comes before its wait for the in lane is the model's choice (log entry 64). -/
def Obligations.ControlInstructionsJumpSignalAndNote : Prop :=
  (∀ (s : State) (e c : Fin 16) (cond operand target : Nat), Fetched s e c (.jmp cond operand target) →
    s.jmpFault e c cond operand = none → cond ≠ 0x0C ∨ (s.ctx e c).inBusy = false →
    Issues (.infJmp e c) s e c (s.setCtx e c (s.jmpTest (s.ctx e c) e c cond operand).2)
      (if (s.jmpTest (s.ctx e c) e c cond operand).1 = true then .jump target else .next)) ∧
  (∀ (s : State) (e c : Fin 16) (cond operand target f : Nat), Fetched s e c (.jmp cond operand target) →
    s.jmpFault e c cond operand = some f → Issues (.infJmp e c) s e c s (.fault f)) ∧
  (∀ (s : State) (x : Ctx) (e c k : Nat), s.jmpTest x e c 0x00 k = (true, x) ∧ s.jmpTest x e c 0x01 k = (decide (x.c0 = 0), x) ∧
    s.jmpTest x e c 0x02 k = (decide (x.c0 ≠ 1), { x with c0 := x.c0 - 1 }) ∧ s.jmpTest x e c 0x03 k = (decide (x.c1 = 0), x) ∧
    s.jmpTest x e c 0x04 k = (decide (x.c1 ≠ 1), { x with c1 := x.c1 - 1 }) ∧ s.jmpTest x e c 0x05 k = (decide (x.c0 ≠ x.c1), x) ∧
    (s.jmpTest x e c 0x06 k).1 = !(s.jmpTest x e c 0x07 k).1 ∧ (s.jmpTest x e c 0x08 k).1 = x.riseL.getLsbD k ∧
    (k < 16 → (s.jmpTest x e c 0x08 k).2.riseL.getLsbD k = false) ∧ (s.jmpTest x e c 0x09 k).1 = x.fallL.getLsbD k ∧
    (k < 16 → (s.jmpTest x e c 0x09 k).2.fallL.getLsbD k = false) ∧ s.jmpTest x e c 0x0A k = (decide (x.outCnt = 0), x) ∧
    s.jmpTest x e c 0x0B k = (decide (x.outCnt < k), x) ∧ s.jmpTest x e c 0x0C k = (decide (k ≤ x.inCnt), x) ∧
    (s.jmpTest x e c 0x0D k).1 = x.flag k ∧ (s.jmpTest x e c 0x0D k).2.flag k = false ∧
    s.jmpTest x e c 0x0E k = (!x.flag k, x) ∧ s.jmpTest x e c 0x0F k = (x.laneErr, { x with laneErr := false }) ∧
    s.jmpTest x e c 0x13 k = (x.reqFailed, x)) ∧
  (∀ (s : State) (e c : Fin 16) (en ct flag : Nat), Fetched s e c (.signal en ct flag) → s.on (R.INF_CTX_CFG_enabled en ct) = true →
    s.quadGated (en / 4) = false → Issues (.syncSignal e c) s e c (s.setCtx en ct { s.ctx en ct with
      flags := (s.ctx en ct).flags ||| BitVec.ofNat 8 (2 ^ flag)
      flagTime := mput 0 (s.ctx en ct).flagTime flag (if (s.ctx e c).tau.toNat ≤ (mget 0 (s.ctx en ct).flagTime flag).toNat
        then mget 0 (s.ctx en ct).flagTime flag else (s.ctx e c).tau) }) .next) ∧
  (∀ (s : State) (e c : Fin 16) (en ct flag : Nat), Fetched s e c (.signal en ct flag) → s.on (R.INF_CTX_CFG_enabled en ct) = false →
    Issues (.syncSignal e c) s e c s (.fault 11)) ∧
  (∀ (s : State) (e c : Fin 16) (adopt : Bool) (flag : Nat), Fetched s e c (.await adopt flag) → (s.ctx e c).flag flag = true →
    ∃ y : Ctx, Issues (.syncWait e c) s e c (s.setCtx e c y) .next ∧ y.flag flag = false ∧ mget 0 y.flagTime flag = 0 ∧
    y.tau = (if adopt = true ∧ (s.ctx e c).tau.toNat ≤ (mget 0 (s.ctx e c).flagTime flag).toNat
      then mget 0 (s.ctx e c).flagTime flag else (s.ctx e c).tau) ∧
    y = { s.ctx e c with flags := y.flags, flagTime := y.flagTime, tau := y.tau }) ∧
  (∀ (s : State) (e c : Fin 16) (adopt : Bool) (flag : Nat), Fetched s e c (.await adopt flag) → (s.ctx e c).flag flag = false →
    Issues (.syncWait e c) s e c s (.stay 7)) ∧
  (∀ (s : State) (e c : Fin 16) (code : Nat), Fetched s e c (.note true 0 code) →
    Issues (.noteKettle e c) s e c (s.raise (0x140 + e.val) (c.val * 2 ^ 16 + code)) .next) ∧
  (∀ (s : State) (e c : Fin 16) (masters code : Nat), Fetched s e c (.note false masters code) →
    Issues (.noteNotice e c) s e c (s.notices 6 masters ⟨0x40 + e.val, c.val, code, (s.ctx e c).inSh, (s.ctx e c).tau⟩) .next) ∧
  (∀ (s : State) (e c : Fin 16), Fetched s e c .nop → Issues (.extNop e c) s e c s .next) ∧
  (∀ (s : State) (e c : Fin 16), Fetched s e c .halt → Issues (.extHalt e c) s e c s .halt) ∧
  (∀ (s : State) (e c : Fin 16) (counter : Bool), Fetched s e c (.gett counter) → (s.ctx e c).inBusy = false →
    Issues (.extGett e c) s e c (s.setCtx e c { s.ctx e c with
      inSh := if counter = true then s.now else (s.ctx e c).tau
      inCnt := 64 }) .next)

/-- R509 to R519: a grid instruction is planned for τ plus its operand, and waits for its window; AT takes its time from a shifter,
whose schedule time is resolved as R393 says, or from a period and phase; OUT, IN, SHO and SHI fault on slots, bits or counts
that they cannot have. WPIN watches from τ; STAMP loads the stamp of its slot. -/
def Obligations.GridInstructionsArePlanned : Prop :=
  (∀ (s : State) (e c : Fin 16) (count : Nat), Fetched s e c (.wait false count) →
    Issues (.infWait e c) s e c s (.grid ((s.ctx e c).tau + BitVec.ofNat 64 (2 * count)))) ∧
  (∀ (s : State) (e c : Fin 16), Fetched s e c (.wait true 0) → Issues (.infWait e c) s e c s
    (.grid ((s.ctx e c).tau + BitVec.ofNat 64 (2 * ((s.ctx e c).c0.toNat * 65536 + (s.ctx e c).c1.toNat))))) ∧
  (∀ (s : State) (e c : Fin 16) (onpast : Bool) (d : Int), Fetched s e c (.at_ onpast 0 0) →
    d = sdiff40 ((s.ctx e c).outSh.toNat % 2 ^ 40) s.now →
    (0 ≤ d → Issues (.infAt e c) s e c s (.grid (s.now + BitVec.ofInt 64 d))) ∧
    (d < 0 → -d < s.rd (R.INF_CTX_CFG_late_window e c) →
      Issues (.infAt e c) s e c (s.bump (R.INF_CTX_SLACK_late e c)) (.grid (s.now + BitVec.ofInt 64 d))) ∧
    (d < 0 → s.rd (R.INF_CTX_CFG_late_window e c) ≤ -d → onpast = false →
      Issues (.infAt e c) s e c (s.bump (R.INF_CTX_SLACK_late e c)) (.fault 7)) ∧
    (d < 0 → s.rd (R.INF_CTX_CFG_late_window e c) ≤ -d → onpast = true → Issues (.infAt e c) s e c
      ((s.bump (R.INF_CTX_SLACK_late e c)).setCtx e c { s.ctx e c with tau := BitVec.ofNat 64 (s.now.toNat / 2 * 2 + 32) }) .skip)) ∧
  (∀ (s : State) (e c : Fin 16) (onpast : Bool) (phase : Nat), Fetched s e c (.at_ onpast 2 phase) →
    phase < 1000 * (s.ctx e c).c0.toNat → ∃ t : Word, Issues (.infAt e c) s e c s (.grid t) ∧
    ((s.ctx e c).tau.toNat + 1000 * (s.ctx e c).c0.toNat < 2 ^ 64 → (s.ctx e c).tau.toNat < t.toNat ∧
      t.toNat ≤ (s.ctx e c).tau.toNat + 1000 * (s.ctx e c).c0.toNat ∧ t.toNat % (1000 * (s.ctx e c).c0.toNat) = phase)) ∧
  (∀ (s : State) (e c : Fin 16) (bank rel : Bool) (mask value k : Nat), Fetched s e c (.out bank rel mask value k) →
    rel = false ∨ value = 0 → (∀ j, j < 8 → bitAt mask j = true → (s.slotDrive e c (8 * bit01 bank + j)).isSome = true) →
    Issues (.infOut e c) s e c s (.grid ((s.ctx e c).tau + BitVec.ofNat 64 (2 * k)))) ∧
  (∀ (s : State) (e c : Fin 16) (bank rel : Bool) (mask value k j : Nat), Fetched s e c (.out bank rel mask value k) →
    rel = false ∨ value = 0 → j < 8 → bitAt mask j = true → s.slotDrive e c (8 * bit01 bank + j) = none →
    Issues (.infOut e c) s e c s (.fault 6)) ∧
  (∀ (s : State) (e c : Fin 16) (first nm1 k : Nat), Fetched s e c (.inp first nm1 k) → first + nm1 ≤ 15 →
    (∀ j, j ≤ nm1 → (s.slotRead e c (first + j)).isSome = true) → (s.ctx e c).inBusy = false → (s.ctx e c).inCnt + nm1 + 1 ≤ 64 →
    Issues (.infIn e c) s e c s (.grid ((s.ctx e c).tau + BitVec.ofNat 64 (2 * k)))) ∧
  (∀ (s : State) (e c : Fin 16) (nm1 stuff k : Nat) (adv cont : Bool), Fetched s e c (.shift false nm1 adv stuff cont k) →
    (nm1 + 1) * 2 ^ s.rd (R.INF_CTX_SHIFT_width e c) ≤ 64 → stuff = 0 ∨ s.rd (R.INF_CTX_SHIFT_width e c) = 0 →
    (s.ctx e c).outLane.holds s.now = false → (nm1 + 1) * 2 ^ s.rd (R.INF_CTX_SHIFT_width e c) ≤ (s.ctx e c).outCnt →
    Issues (.infSho e c) s e c s (.grid ((s.ctx e c).tau + BitVec.ofNat 64 (2 * k)))) ∧
  (∀ (s : State) (e c : Fin 16) (nm1 stuff k : Nat) (adv cont : Bool), Fetched s e c (.shift true nm1 adv stuff cont k) →
    (s.ctx e c).inCnt + (nm1 + 1) * 2 ^ s.rd (R.INF_CTX_SHIFT_width e c) ≤ 64 → stuff = 0 ∨ s.rd (R.INF_CTX_SHIFT_width e c) = 0 →
    (s.ctx e c).inLane.holds s.now = false →
    Issues (.infShi e c) s e c s (.grid ((s.ctx e c).tau + BitVec.ofNat 64 (2 * k)))) ∧
  (∀ (s : State) (e c : Fin 16) (slot cond timeout : Nat), Fetched s e c (.wpin slot cond timeout) →
    (s.slotRead e c slot).isSome = true → s.watchHit e c slot cond timeout (s.ctx e c).tau = none →
    Issues (.infWpin e c) s e c s .watch) ∧
  (∀ (s : State) (e c : Fin 16) (slot cond timeout : Nat) (t : Word), Fetched s e c (.wpin slot cond timeout) →
    (s.slotRead e c slot).isSome = true → s.watchHit e c slot cond timeout (s.ctx e c).tau = some t →
    Issues (.infWpin e c) s e c (s.setCtx e c { s.ctx e c with tau := t }) .next) ∧
  (∀ (s : State) (e c : Fin 16) (slot g : Nat) (err eop sop nowait rose : Bool) (t : Word) (rest : List (Word × Bool)),
    Fetched s e c (.stamp slot 0 err eop sop true nowait) → s.slotRead e c slot = some g → (s.ctx e c).inBusy = false →
    (s.ctx e c).stampWord = none → s.groupGated (groupOfPin g) = false → (s.pin g).edges = (t, rose) :: rest →
    ∃ u, Issues (.infStamp e c) s e c u .next ∧ (u.ctx e c).inCnt = 64 ∧ (u.ctx e c).stampRep.getLsbD slot = true ∧
    (u.ctx e c).inSh = BitVec.ofNat 64 (bit01 rose * 2 ^ 63 + bit01 ((s.ctx e c).stampRep.getLsbD slot) * 2 ^ 62 + t.toNat % 2 ^ 62))

/-- R528 to R530, R541 to R544: QPUT and QGET move a word between a shifter and a FIFO, and wait with reason 5 or 6, or skip with
nowait, where they cannot; FLUSH empties a FIFO; LDM, STM and RDREG wait with reason 9 for their access, and when it is granted LDM
and STM move a word of process image memory, word w of which is its bytes 8w to 8w + 7, and RDREG reads a register; RQ posts a write, or
waits for its answer with reason 8; an address that is not reached is fault 9. That fault 9 comes before any wait, that CONTEXT_RESUME
makes the access in one step, and that a posted write holds a slot for its sending alone, are the model's choices (log entry 64). -/
def Obligations.TransfersMoveWords : Prop :=
  (∀ (s : State) (e c : Fin 16) (err eop sop keep nowait : Bool) (bay : Nat), Fetched s e c (.qput err eop sop keep bay nowait) →
    s.serves e bay = true → (s.ctx e c).inBusy = false → s.groupGated (bay / 12) = false → (s.rx bay).skipPush = false →
    (s.rx bay).opened = !sop → (s.rx bay).words.length < 64 → ∃ u, Issues (.infQput e c) s e c u .next ∧
    (u.rx bay).words = (s.rx bay).words ++ [{ data := (s.ctx e c).inSh, sop := sop, eop := eop || err, err := err }] ∧
    (if keep = true then (u.ctx e c).inSh = (s.ctx e c).inSh ∧ (u.ctx e c).inCnt = (s.ctx e c).inCnt
      else (u.ctx e c).inSh = 0 ∧ (u.ctx e c).inCnt = 0)) ∧
  (∀ (s : State) (e c : Fin 16) (err eop sop keep nowait : Bool) (bay : Nat), Fetched s e c (.qput err eop sop keep bay nowait) →
    s.serves e bay = true → (s.ctx e c).inBusy = false → s.groupGated (bay / 12) = true →
    Issues (.infQput e c) s e c s (if nowait = true then .skip else .stay 5)) ∧
  (∀ (s : State) (e c : Fin 16) (bay : Nat) (nowait : Bool) (w : FWord) (rest : List FWord), Fetched s e c (.qget bay nowait) →
    s.serves e bay = true → s.groupGated (bay / 12) = false → (s.tx bay).words = w :: rest → (s.tx bay).released = true →
    w.dataEcc = .clean → w.tagEcc = .clean → ∃ u, Issues (.infQget e c) s e c u .next ∧ (u.ctx e c).outSh = w.data ∧
    (u.ctx e c).outCnt = 64 ∧ (u.ctx e c).lastTags = w.tags ∧ (u.tx bay).words = rest) ∧
  (∀ (s : State) (e c : Fin 16) (bay : Nat) (nowait : Bool), Fetched s e c (.qget bay nowait) → s.serves e bay = true →
    s.groupGated (bay / 12) = true ∨ (s.tx bay).words = [] ∨ (s.tx bay).released = false →
    Issues (.infQget e c) s e c s (if nowait = true then .skip else .stay 6)) ∧
  (∀ (s : State) (e c : Fin 16) (bay : Nat) (tx : Bool), Fetched s e c (.flush bay tx) → s.serves e bay = true →
    Issues (.extFlush e c) s e c (if s.groupGated (bay / 12) = true then s else if tx = true then s.txFlush bay else s.rxFlush bay)
      .next) ∧
  (∀ (s : State) (e c : Fin 16) (o idx : Bool) (word w : Nat), w = word + (if idx = true then (s.ctx e c).c0.toNat else 0) → w < 32768 →
    o = true ∨ (s.ctx e c).inBusy = false →
    (Fetched s e c (.ldm o idx word) → Issues (.extLdm e c) s e c s (.stay 9)) ∧
    (Fetched s e c (.stm o idx word) → Issues (.extStm e c) s e c s (.stay 9))) ∧
  (∀ (s : State) (e c : Fin 16) (o idx : Bool) (word w : Nat), Fetched s e c (.ldm o idx word) → CleanMem s → s.quiet = true →
    w = word + (if idx = true then (s.ctx e c).c0.toNat else 0) → w < 32768 → o = true ∨ (s.ctx e c).inBusy = false →
    (s.ctx e c).slot = none → ∃ (t : State) (k : BitVec 32) (v : State), exec (.extLdm e c) s = .next t ∧
    t.ctx e c = { s.ctx e c with cur := some k, st := .waiting, wait := 9 } ∧
    exec (.contextResume e c) t = .next (v.finish e c k .next).settle ∧
    v.ctx e c = (t.ctx e c).setShifter o (s.memWord w) 64 ∧ v.pimem = s.pimem ∧ v.flash = s.flash ∧ v.hub = s.hub) ∧
  (∀ (s : State) (e c : Fin 16) (o idx : Bool) (word w : Nat), Fetched s e c (.stm o idx word) → s.quiet = true →
    w = word + (if idx = true then (s.ctx e c).c0.toNat else 0) → w < 32768 → o = true ∨ (s.ctx e c).inBusy = false →
    (s.ctx e c).slot = none → ∃ (t : State) (k : BitVec 32) (v : State), exec (.extStm e c) s = .next t ∧
    t.ctx e c = { s.ctx e c with cur := some k, st := .waiting, wait := 9 } ∧
    exec (.contextResume e c) t = .next (v.finish e c k .next).settle ∧ v.memWord w = (s.ctx e c).shifter o ∧
    v.ctx e c = t.ctx e c ∧ v.eccOf .pimem w = .clean ∧ (∀ a, a < 8 * w ∨ 8 * w + 8 ≤ a → v.memByte a = s.memByte a) ∧
    v.flash = s.flash ∧ v.hub = s.hub) ∧
  (∀ (s : State) (e c : Fin 16) (o idx : Bool) (word : Nat), 32768 ≤ word + (if idx = true then (s.ctx e c).c0.toNat else 0) →
    (Fetched s e c (.ldm o idx word) → Issues (.extLdm e c) s e c s (.fault 9)) ∧
    (Fetched s e c (.stm o idx word) → Issues (.extStm e c) s e c s (.fault 9))) ∧
  (∀ (s : State) (e c : Fin 16) (m : Nat), Fetched s e c (.rq m 0) → (s.ctx e c).inBusy = false →
    s.on (R.TOP_MASTER_known m) = true → s.freeSlots ≠ [] → s.coreUp = true → s.isCoupler = false →
    s.rd (R.TOP_MASTER_node m) ≠ 0 → ∃ u, Issues (.rqWr e c) s e c u .next ∧ u.ctx e c = { s.ctx e c with reqFailed := false } ∧
    u.initReqs = s.initReqs ∧ u.ring.seqMain = s.ring.seqMain + 1) ∧
  (∀ (s : State) (e c : Fin 16) (m : Nat), Fetched s e c (.rq m 1) → (s.ctx e c).inBusy = false →
    s.on (R.TOP_MASTER_known m) = true → s.freeSlots ≠ [] → ∃ u k, Issues (.rqWra e c) s e c u (.stay 8) ∧ k ∈ s.freeSlots ∧
    mget none u.initReqs k = some ⟨e, c, m, 1, s.clk⟩ ∧ u.ctx e c = { s.ctx e c with slot := some k }) ∧
  (∀ (s : State) (e c : Fin 16) (m : Nat), Fetched s e c (.rq m 2) → (s.ctx e c).inBusy = false →
    s.on (R.TOP_MASTER_known m) = true → s.freeSlots ≠ [] → ∃ u k, Issues (.rqRd e c) s e c u (.stay 8) ∧ k ∈ s.freeSlots ∧
    mget none u.initReqs k = some ⟨e, c, m, 2, s.clk⟩ ∧ u.ctx e c = { s.ctx e c with slot := some k }) ∧
  (∀ (s : State) (e c : Fin 16) (m : Nat), s.on (R.TOP_MASTER_known m) = false → (s.ctx e c).inBusy = false →
    (Fetched s e c (.rq m 0) → Issues (.rqWr e c) s e c (s.setCtx e c { s.ctx e c with reqFailed := true }) .next) ∧
    (Fetched s e c (.rq m 1) → Issues (.rqWra e c) s e c (s.setCtx e c { s.ctx e c with reqFailed := true }) .next) ∧
    (Fetched s e c (.rq m 2) → Issues (.rqRd e c) s e c (s.setCtx e c { s.ctx e c with reqFailed := true }) .next)) ∧
  (∀ (s : State) (e c : Fin 16), Fetched s e c .rdreg → s.reaches e ((s.ctx e c).outSh.toNat % 2 ^ 32) = true →
    (s.ctx e c).inBusy = false → Issues (.extRdreg e c) s e c s (.stay 9)) ∧
  (∀ (s : State) (e c : Fin 16) (a : Nat), Fetched s e c .rdreg → a = (s.ctx e c).outSh.toNat % 2 ^ 32 → s.reaches e a = true →
    (s.ctx e c).inBusy = false → (s.ctx e c).slot = none → s.quiet = true → Grants s localReq a .read → s.regNotReady a = false →
    progAt a = none → ∃ (t : State) (k : BitVec 32) (v : State), exec (.extRdreg e c) s = .next t ∧
    t.ctx e c = { s.ctx e c with cur := some k, st := .waiting, wait := 9 } ∧
    exec (.contextResume e c) t = .next (v.finish e c k .next).settle ∧ v.ctx e c = { t.ctx e c with
      inSh := t.readReg a
      inCnt := 64
      reqFailed := false } ∧ v.pimem = s.pimem ∧ v.flash = s.flash ∧ v.hub = s.hub) ∧
  (∀ (s : State) (e c : Fin 16), Fetched s e c .rdreg → s.reaches e ((s.ctx e c).outSh.toNat % 2 ^ 32) = false →
    Issues (.extRdreg e c) s e c s (.fault 9))

/-- R466, R467, R475, R476, R481, R489, R491, R493, R504, R506: what completing an issue does to the context. A context whose word is fetched
passes its instruction, or two, wrapping at the end of a loop, and is RUNNING; a jump within the region waits for its fetch, one
outside it is fault 2; a wait keeps the word; a fault and a HALT end the run; a grid instruction whose window is not open waits
with reason 1 for it, and a watch with reason 3. Whichever instruction's command is given, a RUNNING context whose pc is outside
its region, whose word has an uncorrectable error, or whose word has a reserved encoding, faults; a context that is not RUNNING,
or whose turn it is not, issues nothing. -/
def Obligations.IssuesMoveTheContextOrFault : Prop :=
  (∀ (s u : State) (e c : Fin 16) (w : BitVec 32), (s.ctx e c).pre.isSome = true → (s.ctx e c).loopOn = false →
    u = s.finish e c w .next → (u.ctx e c).st = .running ∧ (u.ctx e c).pc = ((s.ctx e c).pc + 1) % 1024 ∧
    (u.ctx e c).tau = (s.ctx e c).tau ∧ (∀ k, k ≠ c.val → u.ctx e k = s.ctx e k) ∧ u.hub = s.hub ∧ Keeps s u) ∧
  (∀ (s u : State) (e c : Fin 16) (w : BitVec 32), (s.ctx e c).pre.isSome = true → (s.ctx e c).loopOn = true →
    (s.ctx e c).pc = (s.ctx e c).loopEnd → (s.ctx e c).loopPend = none → u = s.finish e c w .next →
    (u.ctx e c).st = .running ∧ (u.ctx e c).pc = (s.ctx e c).loopStart) ∧
  (∀ (s u : State) (e c : Fin 16) (w : BitVec 32), (s.ctx e c).pre.isSome = true → (s.ctx e c).loopOn = false →
    u = s.finish e c w .skip → (u.ctx e c).st = .running ∧ (u.ctx e c).pc = ((s.ctx e c).pc + 2) % 1024) ∧
  (∀ (s u : State) (e c : Fin 16) (target : Nat) (w : BitVec 32), s.inRegion e c target = true → u = s.finish e c w (.jump target) →
    (u.ctx e c).st = .waiting ∧ (u.ctx e c).wait = 9 ∧ (u.ctx e c).pc = target ∧ (u.ctx e c).pre = none) ∧
  (∀ (s u : State) (e c : Fin 16) (target : Nat) (w : BitVec 32), s.inRegion e c target = false → u = s.finish e c w (.jump target) →
    (u.ctx e c).st = .faulted ∧ (u.ctx e c).cause = 2 ∧ (u.ctx e c).faultPc = (s.ctx e c).pc) ∧
  (∀ (s u : State) (e c : Fin 16) (r : Nat) (w : BitVec 32), u = s.finish e c w (.stay r) →
    (u.ctx e c).st = .waiting ∧ (u.ctx e c).wait = r ∧ (u.ctx e c).cur = some w ∧ (u.ctx e c).pc = (s.ctx e c).pc ∧
    u.raised = s.raised) ∧
  (∀ (s u : State) (e c : Fin 16) (f : Nat) (w : BitVec 32), f < 16 → (s.ctx e c).pc < 1024 → u = s.finish e c w (.fault f) →
    (u.ctx e c).st = .faulted ∧ (u.ctx e c).cause = f ∧ (u.ctx e c).faultPc = (s.ctx e c).pc ∧
    u.raised = s.raised ++ [⟨0x100 + e, c.val * 2 ^ 16 + f * 2 ^ 12 + (s.ctx e c).pc⟩] ∧ u.hub = s.hub) ∧
  (∀ (s u : State) (e c : Fin 16) (w : BitVec 32), u = s.finish e c w .halt → (u.ctx e c).st = .idle ∧ u.hub = s.hub) ∧
  (∀ (s u : State) (e c : Fin 16) (w : BitVec 32) (t : Word), s.windowOpen t = false → (s.ctx e c).loopOn = false →
    u = s.finish e c w (.grid t) → (u.ctx e c).st = .waiting ∧ (u.ctx e c).wait = 1 ∧
    (u.ctx e c).grid = some ⟨w, (s.ctx e c).pc, t⟩ ∧ (u.ctx e c).pc = ((s.ctx e c).pc + 1) % 1024 ∧
    (u.ctx e c).tau = (s.ctx e c).tau) ∧
  (∀ (s u : State) (e c : Fin 16) (w : BitVec 32), u = s.finish e c w .watch → (u.ctx e c).st = .waiting ∧ (u.ctx e c).wait = 3 ∧
    (u.ctx e c).grid = some ⟨w, (s.ctx e c).pc, (s.ctx e c).tau⟩) ∧
  (∀ (s : State) (e c : Fin 16), s.nextTurn e = some c.val → s.inRegion e c (s.ctx e c).pc = false →
    exec (.extNop e c) s = .next ((s.faultCtx e c 2 (s.ctx e c).pc).turned e c).settle ∧
    exec (.infJmp e c) s = .next ((s.faultCtx e c 2 (s.ctx e c).pc).turned e c).settle) ∧
  (∀ (s : State) (e c : Fin 16) (w : BitVec 32), s.nextTurn e = some c.val → s.wordAt e c = some w →
    s.inRegion e c (s.ctx e c).pc = true →
    nbits w.toNat 28 4 = 15 → s.eccOf .prog (512 * e + (s.ctx e c).pc / 2) = .bad →
    exec (.extNop e c) s = .next ((s.faultCtx e c 4 (s.ctx e c).pc).turned e c).settle) ∧
  (∀ (s : State) (e c : Fin 16) (w : BitVec 32), s.nextTurn e = some c.val → s.wordAt e c = some w →
    s.inRegion e c (s.ctx e c).pc = true →
    nbits w.toNat 28 4 = 15 → s.eccOf .prog (512 * e + (s.ctx e c).pc / 2) ≠ .bad → decodeInsn w = none →
    exec (.extNop e c) s = .next ((s.faultCtx e c 3 (s.ctx e c).pc).turned e c).settle) ∧
  (∀ (s : State) (e c : Fin 16), (s.ctx e c).st ≠ .running ∨ s.nextTurn e ≠ some c.val → exec (.extNop e c) s = .next s.settle ∧
    exec (.infOut e c) s = .next s.settle ∧ exec (.aluAdd e c) s = .next s.settle) ∧
  (∀ (s : State) (e c : Nat), ((s.turned e c).engine e).turn = c ∧ (s.turned e c).ctx e c = s.ctx e c ∧
    (s.turned e c).regs = s.regs) ∧
  (∀ (s : State) (e c cause pc : Nat), ((s.faultCtx e c cause pc).ctx e c).st = .faulted ∧
    ((s.faultCtx e c cause pc).ctx e c).cause = cause ∧ ((s.faultCtx e c cause pc).ctx e c).faultPc = pc ∧
    (s.faultCtx e c cause pc).raised = s.raised ++ [⟨0x100 + e, (c * 2 ^ 16 + cause * 2 ^ 12 + pc) % 2 ^ 32⟩])


/-- R136, R137, R456 to R460, R494, R495: the contexts of a start mask begin at their start pc with one τ, in a mode in which they may run, and a
start that is refused is counted; a stop makes a context IDLE. A write to program memory takes effect, and drops the word from
the contexts that have fetched it, which fetch it again, unless it touches the region of a running context without hot_patch, or one
half of it is outside its tuning limits (that the other half then stays too is the model's choice, log entry 21). -/
def Obligations.ContextsStartStopAndArePatched : Prop :=
  (∀ (s : State) (r : Requester) (e c : Fin 16), Grants s r (R.INF_CTRL e) .write → (s.ctx e c).runs = false →
    s.mayRun e c = true → s.inRegion e c (s.rd (R.INF_CTX_STATE_start_pc e c)) = true →
    Writes (.contextStart r e (BitVec.ofNat 16 (2 ^ c.val)) 0) s r (R.INF_CTRL e) (fun u =>
      (u.ctx e c).st = .waiting ∧ (u.ctx e c).wait = 9 ∧ (u.ctx e c).pc = s.rd (R.INF_CTX_STATE_start_pc e c) ∧
      (u.ctx e c).tau = BitVec.ofNat 64 (s.now.toNat / 2 * 2 + 32) ∧ (u.ctx e c).c0 = 0 ∧ (u.ctx e c).c1 = 0 ∧
      (u.ctx e c).outCnt = 0 ∧ (u.ctx e c).inCnt = 0 ∧ (u.ctx e c).flags = 0 ∧ (u.ctx e c).loopOn = false ∧
      (∀ k, k ≠ c.val → u.ctx e k = s.ctx e k) ∧ u.hub = s.hub ∧ Keeps s u)) ∧
  (∀ (s : State) (r : Requester) (e c : Fin 16), Grants s r (R.INF_CTRL e) .write → (s.ctx e c).runs = true ∨ s.mayRun e c = false →
    Writes (.contextStart r e (BitVec.ofNat 16 (2 ^ c.val)) 0) s r (R.INF_CTRL e) (fun u =>
      u = s.bump (R.INF_STATUS_refused e))) ∧
  (∀ (s : State) (r : Requester) (e c : Fin 16), Grants s r (R.INF_CTRL e) .write → (s.ctx e c).st ≠ .idle →
    Writes (.contextStop r e (BitVec.ofNat 16 (2 ^ c.val))) s r (R.INF_CTRL e) (fun u =>
      (u.ctx e c).st = .idle ∧ (u.ctx e c).grid = none ∧ (u.ctx e c).c0 = (s.ctx e c).c0 ∧ (u.ctx e c).tau = (s.ctx e c).tau ∧
      (∀ k, k ≠ c.val → u.ctx e k = s.ctx e k) ∧ u.raised = s.raised ∧ u.hub = s.hub ∧ Keeps s u)) ∧
  (∀ (s : State) (r : Requester) (e c : Fin 16) (m : BitVec 16), Grants s r (R.INF_CTRL e) .write → m.getLsbD c = true →
    (s.ctx e c).st ≠ .idle → Writes (.contextStart r e m m) s r (R.INF_CTRL e) (fun u => (u.ctx e c).st = .idle)) ∧
  (∀ (s : State) (r : Requester) (e : Fin 16) (i : Fin 512) (v : Word), Grants s r (R.INF_PROG e i) .write →
    s.limitsAllow (R.INF_PROG_odd e i) (fget v 32 32) = true → s.limitsAllow (R.INF_PROG_even e i) (fget v 0 32) = true →
    (∀ c, c < 16 → s.touches e i c = true → s.on (R.INF_CTX_CFG_hot_patch e c) = true) →
    Writes (.progWrite r e i v) s r (R.INF_PROG e i) (fun u => u.word (R.INF_PROG e i) = v ∧
      u.eccOf .prog (512 * e + i) = .clean ∧ (∀ c, c < 16 → (u.ctx e c).pre.map (·.1) ≠ some i.val) ∧
      (∀ c, c < 16 → (u.ctx e c).pc = (s.ctx e c).pc ∧
        ((s.ctx e c).pre.map (·.1) ≠ some i.val → u.ctx e c = s.ctx e c) ∧
        ((s.ctx e c).st ≠ .running → (u.ctx e c).st = (s.ctx e c).st) ∧
        ((s.ctx e c).st = .running → (s.ctx e c).pre.map (·.1) = some i.val → s.inRegion e c (s.ctx e c).pc = true →
          (u.ctx e c).st = .waiting ∧ (u.ctx e c).wait = 9)) ∧
      ((∃ c, c < 16 ∧ s.touches e i c = true) → Counted s u (R.INF_PATCH_patches e)) ∧ u.hub = s.hub)) ∧
  (∀ (s : State) (r : Requester) (e c : Fin 16) (i : Fin 512) (v : Word), Grants s r (R.INF_PROG e i) .write →
    s.limitsAllow (R.INF_PROG_odd e i) (fget v 32 32) = true → s.limitsAllow (R.INF_PROG_even e i) (fget v 0 32) = true →
    s.touches e i c = true → s.on (R.INF_CTX_CFG_hot_patch e c) = false → exec (.progWrite r e i v) s =
    .next (((s.bump (R.INF_PATCH_refused e)).wr (R.INF_PATCH_last e) (2 * i.val)).wrote r (R.INF_PROG e i)).settle) ∧
  (∀ (s : State) (r : Requester) (e : Fin 16) (i : Fin 512) (v : Word), Grants s r (R.INF_PROG e i) .write →
    s.limitsAllow (R.INF_PROG_odd e i) (fget v 32 32) = false ∨ s.limitsAllow (R.INF_PROG_even e i) (fget v 0 32) = false →
    exec (.progWrite r e i v) s = .next ((s.refuseTune r (R.INF_PROG e i)).wrote r (R.INF_PROG e i)).settle)

/-- R476 to R479, R481, R485, R489, R506, R515, R519: an issued instruction is released when its window opens, and τ takes its time; an
OUT that is released by its deadline drives its pins at that time, and an IN samples them; a bit period of a lane acts at its time, and the shift ends
after its last, the in lane giving its bits to the in shifter; a WPIN resumes with τ at the event or skips at its timeout; a
fetch that is awaited makes the context RUNNING. -/
def Obligations.TheGridReleasesActsAndResumes : Prop :=
  (∀ (s : State) (e c : Fin 16) (op : GridOp) (reg : Bool) (n : Nat), (s.ctx e c).st = .waiting → (s.ctx e c).wait = 1 →
    (s.ctx e c).grid = some op → s.windowOpen op.t = true → decodeInsn op.instr = some (.wait reg n) →
    (s.ctx e c).pre.map (·.1) = some ((s.ctx e c).pc / 2) → Leaves (.gridRelease e c) s (fun u =>
    (u.ctx e c).tau = op.t ∧ (u.ctx e c).grid = none ∧ (u.ctx e c).st = .running ∧ (u.ctx e c).pc = (s.ctx e c).pc ∧
    u.raised = s.raised ∧ u.hub = s.hub)) ∧
  (∀ (s : State) (e c : Fin 16) (op : GridOp) (bank rel : Bool) (mask value k : Nat) (ds : List (Nat × Drive)),
    (s.ctx e c).st = .waiting → (s.ctx e c).wait = 1 → (s.ctx e c).grid = some op → s.windowOpen op.t = true →
    tdiff s.now (deadline op.t) ≤ 0 → decodeInsn op.instr = some (.out bank rel mask value k) → s.outDrives e c bank rel mask value = some ds →
    Leaves (.gridRelease e c) s (fun u => (u.ctx e c).acts = (s.ctx e c).acts ++ [{ t := op.t, drives := ds, sample := none }] ∧ (u.ctx e c).tau = op.t ∧
      u.raised = s.raised ∧ u.hub = s.hub)) ∧
  (∀ (s : State) (e c : Fin 16) (op : GridOp), (s.ctx e c).grid = some op → s.windowOpen op.t = false →
    exec (.gridRelease e c) s = .next s.settle) ∧
  (∀ (s : State) (e c : Fin 16) (g : Nat) (d : Drive) (t : Word) (o : Bool), (s.ctx e c).acts = [⟨t, [(g, d)], none, o⟩] → 0 ≤ tdiff s.now t →
    s.groupGated (groupOfPin g) = false → (s.pin g).acted = none → Leaves (.actionEffect e c .pins) s (fun u =>
    (u.ctx e c).acts = [] ∧ (u.pin g).owner = d ∧ (u.pin g).acted = some (t.toNat / 2, 16 * e.val + c.val, true) ∧
    u.regs = s.regs ∧ u.hub = s.hub ∧ Keeps s u)) ∧
  (∀ (s : State) (e c : Fin 16) (first n : Nat) (t : Word) (o : Bool), (s.ctx e c).acts = [⟨t, [], some (first, n), o⟩] → 0 ≤ tdiff s.now t →
    n ≤ 16 → Leaves (.actionEffect e c .sample) s (fun u => (u.ctx e c).acts = [] ∧
      (u.ctx e c).inCnt = min ((s.ctx e c).inCnt + n) 64 ∧
      (∀ j g, j < n → s.slotRead e c (first + j) = some g → (u.ctx e c).inSh.getLsbD j = s.levelAt g t) ∧
      (∀ j, n ≤ j → j < 64 → (u.ctx e c).inSh.getLsbD j = (s.ctx e c).inSh.getLsbD (j - n)) ∧ u.hub = s.hub)) ∧
  (∀ (s : State) (e c : Fin 16) (sh : Shift) (i g : Nat), (s.ctx e c).outLane.cur = some sh → (s.ctx e c).outLane.idx = i →
    i < (s.ctx e c).outLane.outPeriods sh → 0 ≤ tdiff s.now (sh.t + BitVec.ofNat 64 (i * sh.b)) → sh.w = 1 →
    s.slotDrive e c sh.slot = some g → s.groupGated (groupOfPin g) = false → (s.pin g).acted = none →
    Leaves (.actionEffect e c .outBit) s (fun u => (u.ctx e c).outLane.idx = i + 1 ∧
      (u.pin g).owner = (if sh.bits.getD i false = true then .high else .low) ∧ u.hub = s.hub)) ∧
  (∀ (s : State) (e c : Fin 16) (sh : Shift) (g : Nat), (s.ctx e c).inLane.cur = some sh → (s.ctx e c).inLane.inDone = false →
    0 ≤ tdiff s.now (sh.t + BitVec.ofNat 64 ((s.ctx e c).inLane.idx * sh.b + sh.sample)) → sh.w = 1 → sh.stuff = 0 →
    s.slotRead e c sh.slot = some g → Leaves (.actionEffect e c .inBit) s (fun u =>
      (u.ctx e c).inLane.got = (s.ctx e c).inLane.got ++
        [s.levelAt g (sh.t + BitVec.ofNat 64 ((s.ctx e c).inLane.idx * sh.b + sh.sample))] ∧
      (u.ctx e c).inLane.idx = (s.ctx e c).inLane.idx + 1 ∧ u.hub = s.hub)) ∧
  (∀ (s : State) (e c : Fin 16) (sh : Shift) (n : Nat), (s.ctx e c).outLane.cur = some sh → (s.ctx e c).outLane.queued = none →
    (s.ctx e c).outLane.outPeriods sh = n → n ≤ (s.ctx e c).outLane.idx → 0 ≤ tdiff s.now (sh.t + BitVec.ofNat 64 (n * sh.b)) →
    Leaves (.shiftEnd e c true) s (fun u => (u.ctx e c).outLane.cur = none ∧ u.regs = s.regs ∧ u.hub = s.hub)) ∧
  (∀ (s : State) (e c : Fin 16) (sh : Shift), (s.ctx e c).inLane.cur = some sh → (s.ctx e c).inLane.queued = none →
    (s.ctx e c).inLane.inDone = true → 0 ≤ tdiff s.now (sh.t + BitVec.ofNat 64 ((s.ctx e c).inLane.idx * sh.b)) →
    (s.ctx e c).tauDue = false → Leaves (.shiftEnd e c false) s (fun u => (u.ctx e c).inLane.cur = none ∧
      (u.ctx e c).inSh = (enterBits sh.order (s.ctx e c).inLane.got (s.ctx e c).inSh (s.ctx e c).inCnt).1 ∧
      (u.ctx e c).inCnt = (enterBits sh.order (s.ctx e c).inLane.got (s.ctx e c).inSh (s.ctx e c).inCnt).2 ∧
      (u.ctx e c).tau = (s.ctx e c).tau ∧ u.hub = s.hub)) ∧
  (∀ (s : State) (e c : Fin 16) (op : GridOp) (slot cond timeout : Nat) (t : Word),
    (s.ctx e c).watching = some (op, slot, cond, timeout) → s.watchHit e c slot cond timeout op.t = some t →
    Leaves (.wpinEvent e c) s (fun u => (u.ctx e c).tau = t ∧ (u.ctx e c).grid = none ∧ (u.ctx e c).pc = (s.ctx e c).pc ∧
      u.hub = s.hub)) ∧
  (∀ (s : State) (e c : Fin 16) (op : GridOp) (slot cond timeout : Nat), (s.ctx e c).watching = some (op, slot, cond, timeout) →
    s.watchHit e c slot cond timeout op.t = none → exec (.wpinEvent e c) s = .next s.settle) ∧
  (∀ (s : State) (e c : Fin 16) (op : GridOp) (slot cond timeout : Nat), (s.ctx e c).watching = some (op, slot, cond, timeout) →
    s.watchHit e c slot cond timeout op.t = none → timeout ≠ 0 → 0 ≤ tdiff s.now (op.t + BitVec.ofNat 64 (2 * timeout)) →
    (s.ctx e c).loopOn = false → Leaves (.wpinTimeout e c) s (fun u => (u.ctx e c).tau = op.t + BitVec.ofNat 64 (2 * timeout) ∧
      (u.ctx e c).grid = none ∧ (u.ctx e c).pc = ((s.ctx e c).pc + 1) % 1024 ∧ u.hub = s.hub)) ∧
  (∀ (s : State) (e c : Fin 16), (s.ctx e c).st = .waiting → (s.ctx e c).wait = 9 → (s.ctx e c).slot = none →
    (s.ctx e c).cur = none → s.eccOf .prog (512 * e + (s.ctx e c).pc / 2) = .clean → Leaves (.contextResume e c) s (fun u =>
    u.ctx e c = { s.ctx e c with
      st := .running
      wait := 0
      refetch := false
      pre := some ((s.ctx e c).pc / 2, s.word (R.INF_PROG e ((s.ctx e c).pc / 2))) } ∧ u.regs = s.regs ∧ u.hub = s.hub))

/-- R503, R504, R524, R525: every Infuser instruction whose fields are in range has a word of its own, which reads back as it with every
field, and a word with a reserved code or a non-zero reserved bit reads as none. -/
def Obligations.InfuserWordsReadBack : Prop :=
  (∀ i : Insn, i.wf = true → decodeInsn (encodeInsn i) = some i) ∧
  (∀ (w : BitVec 32) (i : Insn), decodeInsn w = some i → i.wf = true ∧ encodeInsn i = w)

/-! ### Power ports -/

/-- R102, R556, R558, R559, R562, R563, R564, R566 to R571: commands, trips, regulation and power-good. A command that lets the port on starts
a ramp, which is in regulation; a 0 turns the port off and clears its latch. A fast trip, a diode reading of 160 °C, an
estimate of 160 °C and a full fault timer trip the port, unless it is LATCHED or off already. The fault timer counts 8 in
regulation, unwinds by 1 outside it, and is 0 while the port is off. Power-good rises outside regulation within 1.0 V of the
supply, falls 1.5 V below it and at the entry to regulation, and takes the port to ON and from ON to LIMIT; a fault timer that is full then acts first. A COOLING port
ramps when it has cooled, and a block reset of a LATCHED port acts when its retry time is over. None of it happens while the hub sleeps (R12,
R603). That power-good also stays low with the output more than 1.0 V above the supply, and that its fall leaves the state of the port, are the
model's choices (log entry 51). -/
def Obligations.PortsRampTripAndReportPowerGood : Prop :=
  (∀ (s : State) (r : Requester) (k : Fin 32), Grants s r (R.PWP_CMD k) .write → s.loaded.sections.contains 0xD = true →
    s.limitsAllow (R.PWP_CMD_on k) 1 = true → s.isolatorsForced = false → s.portRule = .command →
    s.rd (R.PWP_STAT_state k) = 0 ∨ s.rd (R.PWP_STAT_state k) = 5 ∨ s.rd (R.PWP_STAT_state k) = 6 →
    (s.group (groupOfPort k)).iso = .closed → s.on (R.PWP_STAT_damaged k) = false → s.portCool k = true →
    Writes (.portCmdWrite r k true) s r (R.PWP_CMD k) (fun u => u.rd (R.PWP_CMD_on k) = 1 ∧ u.rd (R.PWP_STAT_state k) = 1 ∧
      (u.port k).passOn = true ∧ (u.port k).inReg = true ∧ Counted s u (R.PWP_CNT_ramps k) ∧ u.raised = s.raised ∧
      (∀ j, j ≠ k.val → u.port j = s.port j) ∧ u.hub = s.hub ∧ Keeps s u)) ∧
  (∀ (s : State) (r : Requester) (k : Fin 32), Grants s r (R.PWP_CMD k) .write → s.limitsAllow (R.PWP_CMD_on k) 0 = true →
    s.isolatorsForced = false → s.portRule = .command → (s.group (groupOfPort k)).iso = .closed →
    Writes (.portCmdWrite r k false) s r (R.PWP_CMD k) (fun u => u.rd (R.PWP_CMD_on k) = 0 ∧ u.rd (R.PWP_STAT_state k) = 0 ∧
      (u.port k).passOn = false ∧ (u.port k).acc = 0 ∧ u.rd (R.PWP_STAT_pg k) = 0 ∧ u.raised = s.raised ∧
      (∀ j, j ≠ k.val → u.port j = s.port j) ∧ u.hub = s.hub ∧ Keeps s u)) ∧
  (∀ (s : State) (r : Requester) (k : Fin 32), Grants s r (R.PWP_CMD k) .write → s.loaded.sections.contains 0xD = false →
    exec (.portCmdWrite r k true) s = .next ((s.refuseTune r (R.PWP_CMD k)).wrote r (R.PWP_CMD k)).settle) ∧
  (∀ (s : State) (k : Fin 32), s.portsLive = true → (s.port k).passOn = true → s.rd (R.PWP_STAT_state k) ≠ 4 →
    Leaves (.portFastTrip k) s (fun u => Tripped s u k 1) ∧
    (∀ tj : Int, 160 ≤ tj → Leaves (.portDiodeTrip k tj) s (fun u => Tripped s u k 3 ∧ (u.port k).diode = tj)) ∧
    (∀ (mw : Nat) (tj : Int) (d : Rat), s.modelRuns (groupOfPort k) = true →
      d = (s.port k).delayed + ((mw : Rat) / 1000 - (s.port k).delayed) / 5 → 160 ≤ (tj : Rat) + ((mw : Rat) / 1000 - d) / 2 →
      Leaves (.portModelEval k mw tj) s (fun u => Tripped s u k 4 ∧ (u.port k).delayed = d ∧ (u.port k).diode = tj)) ∧
    (80 * s.rd (R.PWP_CFG_timer k) ≤ (if (s.port k).inReg = true then (s.port k).acc + 8 else (s.port k).acc - 1) →
      Leaves (.portFaultTimerUpdate k) s (fun u => Tripped s u k 2)) ∧
    (80 * s.rd (R.PWP_CFG_timer k) ≤ (s.port k).acc → Leaves (.portTimerTrip k) s (fun u => Tripped s u k 2))) ∧
  (∀ (s : State) (k : Fin 32), s.portsLive = false ∨ (s.port k).passOn = false ∨ s.rd (R.PWP_STAT_state k) = 4 →
    exec (.portFastTrip k) s = .next s.settle ∧ exec (.portTimerTrip k) s = .next s.settle) ∧
  (∀ (s : State) (k : Fin 32) (tj : Int), tj < 160 → exec (.portDiodeTrip k tj) s = .next s.settle) ∧
  (∀ (s : State) (k : Fin 32) (mw : Nat) (tj : Int) (d e : Rat), s.modelRuns (groupOfPort k) = true →
    d = (s.port k).delayed + ((mw : Rat) / 1000 - (s.port k).delayed) / 5 → e = (tj : Rat) + ((mw : Rat) / 1000 - d) / 2 →
    e < 160 → exec (.portModelEval k mw tj) s =
    .next (s.setPort k { s.port k with diode := tj, delayed := d, estimate := e }).settle) ∧
  (∀ (s : State) (k : Fin 32), s.portsLive = true → (s.port k).passOn = false → exec (.portFaultTimerUpdate k) s =
    .next (s.setPort k { s.port k with acc := 0 }).settle) ∧
  (∀ (s : State) (k : Fin 32) (n : Nat), s.portsLive = true → (s.port k).passOn = true →
    n = (if (s.port k).inReg = true then (s.port k).acc + 8 else (s.port k).acc - 1) → n < 80 * s.rd (R.PWP_CFG_timer k) →
    exec (.portFaultTimerUpdate k) s = .next (s.setPort k { s.port k with acc := n }).settle) ∧
  (∀ (s : State) (k : Fin 32), (s.port k).passOn = true → (s.port k).inReg = false → Leaves (.portRegulationEnter k) s (fun u =>
    (u.port k).inReg = true ∧ (u.port k).passOn = true ∧ u.rd (R.PWP_STAT_pg k) = 0 ∧
    u.rd (R.PWP_STAT_state k) = (if s.rd (R.PWP_STAT_state k) = 2 then 3 else s.rd (R.PWP_STAT_state k)) ∧
    (s.rd (R.PWP_STAT_state k) = 2 → Counted s u (R.PWP_CNT_limits k)) ∧ u.raised = s.raised ∧ u.hub = s.hub ∧ Keeps s u)) ∧
  (∀ (s : State) (k : Fin 32), (s.port k).passOn = true → exec (.portRegulationExit k) s =
    .next (s.setPort k { s.port k with inReg := false }).settle) ∧
  (∀ (s : State) (k : Fin 32) (vout : BitVec 16), (s.port k).passOn = true → (s.port k).inReg = false →
    s.rd (R.PWP_GROUP_supply (groupOfPort k)) ≤ vout.toNat + 1000 →
    vout.toNat ≤ s.rd (R.PWP_GROUP_supply (groupOfPort k)) + 1000 → (s.rd (R.PWP_STAT_state k) = 1 ∨ s.rd (R.PWP_STAT_state k) = 3 →
      (s.port k).acc < 80 * s.rd (R.PWP_CFG_timer k) ∨ s.portsLive = false → Leaves (.portPowerGoodRise k vout) s (fun u =>
      u.rd (R.PWP_STAT_state k) = 2 ∧ u.rd (R.PWP_STAT_pg k) = 1 ∧ u.raised = s.raised ∧ u.hub = s.hub ∧ Keeps s u)) ∧
    (s.rd (R.PWP_STAT_state k) ≠ 4 → s.portsLive = true → 80 * s.rd (R.PWP_CFG_timer k) ≤ (s.port k).acc →
      Leaves (.portPowerGoodRise k vout) s (fun u => Tripped s u k 2))) ∧
  (∀ (s : State) (k : Fin 32) (vout : BitVec 16), (s.port k).passOn = false ∨ (s.port k).inReg = true ∨
    vout.toNat + 1000 < s.rd (R.PWP_GROUP_supply (groupOfPort k)) ∨
    s.rd (R.PWP_GROUP_supply (groupOfPort k)) + 1000 < vout.toNat → exec (.portPowerGoodRise k vout) s = .next s.settle) ∧
  (∀ (s : State) (k : Fin 32) (vout : BitVec 16), vout.toNat + 1500 < s.rd (R.PWP_GROUP_supply (groupOfPort k)) →
    Leaves (.portOutputDrop k vout) s (fun u => u.rd (R.PWP_STAT_pg k) = 0 ∧
      u.rd (R.PWP_STAT_state k) = s.rd (R.PWP_STAT_state k) ∧ u.power = s.power ∧ u.raised = s.raised ∧ u.hub = s.hub)) ∧
  (∀ (s : State) (k : Fin 32) (vout : BitVec 16), s.rd (R.PWP_GROUP_supply (groupOfPort k)) ≤ vout.toNat + 1500 →
    exec (.portOutputDrop k vout) s = .next s.settle) ∧
  (∀ (s : State) (k : Fin 32) (tj : Int), s.portsLive = true → s.rd (R.PWP_STAT_state k) = 5 → tj ≤ 130 →
    (s.port k).estimate ≤ 130 → (s.group (groupOfPort k)).iso = .closed → s.effective k = true →
    s.on (R.PWP_STAT_damaged k) = false → Leaves (.portCooled k tj) s (fun u => u.rd (R.PWP_STAT_state k) = 1 ∧
      (u.port k).passOn = true ∧ (u.port k).inReg = true ∧ (u.port k).diode = tj ∧ Counted s u (R.PWP_CNT_ramps k) ∧
      u.raised = s.raised ∧ u.hub = s.hub ∧ Keeps s u)) ∧
  (∀ (s : State) (k : Fin 32), s.asleep = false → (s.port k).resetDue = true → s.rd (R.PWP_STAT_state k) = 4 →
    s.rd (R.PWP_CFG_retry k) * 100000000 ≤ s.clk - (s.port k).latchedAt → (s.group (groupOfPort k)).iso = .closed →
    s.on (R.PWP_STAT_damaged k) = false → Leaves (.portRetryExpire k) s (fun u =>
    u.rd (R.PWP_STAT_state k) = (if s.effective k = false then 0 else if s.portCool k = true then 1 else 5) ∧
    u.rd (R.PWP_CMD_on k) = s.rd (R.PWP_CMD_on k) ∧ (u.port k).resetDue = false ∧ u.raised = s.raised ∧ u.hub = s.hub)) ∧
  (∀ (s : State) (k : Fin 32), s.asleep = true ∨ (s.port k).resetDue = false → exec (.portRetryExpire k) s = .next s.settle)

/-- R554, R565, R572 to R577: settings, damage, measurements and isolators. A write to PWP_CFG that would leave the safe operating area has
no effect and is counted. A port that is off with its output above 2.0 V for off_settle is declared damaged, and a Supervisor
clears the mark. The 100 µs update shows the measurements, keeps the peaks and ends an overload at 8.0 A. A Supervisor opens an
isolator, which turns its ports off, and closes it when its supply is present and no port of it is damaged. While the hub sleeps nothing is
measured or declared (R12, R603). -/
def Obligations.PortSettingsDamageAndIsolators : Prop :=
  (∀ (s : State) (r : Requester) (k : Fin 32) (v : Word), Grants s r (R.PWP_CFG k) .write → s.loaded.tuning = [] →
    1 ≤ fget v 48 16 → fget v 48 16 ≤ 10000 → 5 ≤ fget v 37 11 → fget v 37 11 ≤ 2000 → 2 ≤ fget v 32 5 → fget v 32 5 ≤ 30 →
    150 ≤ fget v 16 10 → fget v 16 10 ≤ 600 → 10 ≤ fget v 8 8 → fget v 8 8 ≤ 200 → 1 ≤ fget v 2 6 →
    (fget v 32 5 ^ 2 * fget v 37 11 ≤ 100000 → 3 * fget v 8 8 ≤ 2 * fget v 16 10 →
      Writes (.portCfgWrite r k v) s r (R.PWP_CFG k) (fun u => u.rd (R.PWP_CFG_off_settle k) = fget v 48 16 ∧
        u.rd (R.PWP_CFG_timer k) = fget v 37 11 ∧ u.rd (R.PWP_CFG_fold k) = fget v 32 5 ∧ u.rd (R.PWP_CFG_fast k) = fget v 16 10 ∧
        u.rd (R.PWP_CFG_limit k) = fget v 8 8 ∧ u.rd (R.PWP_CFG_retry k) = fget v 2 6 ∧
        u.rd (R.PWP_CFG_backfeed_ok k) = s.rd (R.PWP_CFG_backfeed_ok k) ∧ (∀ a, a ≠ R.PWP_CFG k → u.word a = s.word a) ∧
        u.power = s.power ∧ u.hub = s.hub)) ∧
    (100000 < fget v 32 5 ^ 2 * fget v 37 11 ∨ 2 * fget v 16 10 < 3 * fget v 8 8 → exec (.portCfgWrite r k v) s =
      .next ((s.refuseTune r (R.PWP_CFG k)).wrote r (R.PWP_CFG k)).settle)) ∧
  (∀ (s : State) (k : Fin 32) (t : Nat), s.portsLive = true → (s.port k).condSince = some t → s.on (R.PWP_STAT_damaged k) = false →
    s.damageCond k = true → t + s.rd (R.PWP_CFG_off_settle k) * 1000000 ≤ s.clk → Leaves (.portDamagedDeclare k) s (fun u =>
    u.rd (R.PWP_STAT_damaged k) = 1 ∧ Counted s u (R.PWP_CNT_damaged k) ∧ (u.port k).passOn = false ∧
    u.rd (R.PWP_STAT_state k) = (if s.rd (R.PWP_STAT_state k) = 4 then 4 else 0) ∧
    u.raised = s.raised ++ [⟨0x1A0 + k.val, s.rd (R.PWP_MEAS_vout k)⟩] ∧ u.hub = s.hub ∧ Keeps s u)) ∧
  (∀ (s : State) (k : Fin 32), s.portsLive = false ∨ (s.port k).condSince = none ∨ s.damageCond k = false →
    exec (.portDamagedDeclare k) s = .next s.settle) ∧
  (∀ (s : State) (r : Requester) (k : Fin 32), Grants s r (R.PWP_STAT k) .write → r.level = .supervisor →
    s.on (R.PWP_STAT_damaged k) = true → (s.port k).passOn = false → s.rd (R.PWP_STAT_state k) ≠ 4 → s.effective k = false →
    (s.group (groupOfPort k)).iso = .closed → Writes (.portDamagedClear r k) s r (R.PWP_STAT k) (fun u =>
    u.rd (R.PWP_STAT_damaged k) = 0 ∧ u.rd (R.PWP_STAT_state k) = 0 ∧
    (u.port k).condSince = (if s.damageCond k = true then some s.clk else none) ∧ u.raised = s.raised ∧ u.hub = s.hub ∧
    Keeps s u)) ∧
  (∀ (s : State) (r : Requester) (k : Fin 32), Grants s r (R.PWP_STAT k) .write → r.level ≠ .supervisor →
    exec (.portDamagedClear r k) s = .next (s.wrote r (R.PWP_STAT k)).settle) ∧
  (∀ (s : State) (k : Fin 32) (vout ma supply groupMa : BitVec 16) (tj : Int) (g : Nat), s.portsLive = true →
    g = groupOfPort k → Leaves (.portMeasureUpdate k vout ma supply groupMa tj) s (fun u =>
    u.rd (R.PWP_MEAS_vout k) = vout.toNat ∧ u.rd (R.PWP_MEAS_current k) = ma.toNat ∧
    u.rd (R.PWP_MEAS_peak k) = max ma.toNat (s.rd (R.PWP_MEAS_peak k)) ∧ (u.port k).diode = tj ∧
    (-128 ≤ tj → tj ≤ 127 → u.rd (R.PWP_MEAS_tj k) = (tj % 256).toNat) ∧
    (s.modelRuns g = false → u.rd (R.PWP_MEAS_tmodel k) = 0) ∧
    (∀ n : Int, s.modelRuns g = true → (s.port k).estimate = (n : Rat) → -128 ≤ n → n ≤ 127 →
      u.rd (R.PWP_MEAS_tmodel k) = (n % 256).toNat) ∧
    u.rd (R.PWP_GROUP_supply g) = supply.toNat ∧ u.rd (R.PWP_GROUP_current g) = groupMa.toNat ∧
    u.rd (R.PWP_GROUP_peak g) = max groupMa.toNat (s.rd (R.PWP_GROUP_peak g)) ∧
    (groupMa.toNat ≤ 8000 → u.rd (R.PWP_GROUP_overload g) = 0 ∧ (u.group g).overSince = none) ∧
    (8000 < groupMa.toNat → u.rd (R.PWP_GROUP_overload g) = s.rd (R.PWP_GROUP_overload g) ∧
      (u.group g).overSince = some ((s.group g).overSince.getD s.clk)) ∧ u.raised = s.raised ∧ u.hub = s.hub ∧ Keeps s u)) ∧
  (∀ (s : State) (r : Requester) (g : Fin 2), Grants s r (R.PWP_GROUP g) .write → r.level = .supervisor →
    Writes (.groupOpenCmd r g) s r (R.PWP_GROUP g) (fun u => (u.group g).iso = .opened ∧ u.rd (R.PWP_GROUP_closed g) = 0 ∧
      u.rd (R.PWP_GROUP_opened_by g) = 3 ∧ (∀ k ∈ groupPorts g, (u.port k).passOn = false ∧
        u.rd (R.PWP_STAT_state k) = if s.rd (R.PWP_STAT_state k) = 4 then 4 else 6) ∧
      u.raised = s.raised ∧ u.hub = s.hub ∧ Keeps s u)) ∧
  (∀ (s : State) (r : Requester) (g : Fin 2), Grants s r (R.PWP_GROUP g) .write → r.level = .supervisor →
    (s.group g).supply = true → s.isolatorsForced = false → (s.group g).iso = .opened →
    (∀ k ∈ groupPorts g, s.on (R.PWP_STAT_damaged k) = false) → exec (.groupCloseCmd r g) s =
    .next ((s.setGroup g { s.group g with iso := .closing, closeAt := s.clk }).wrote r (R.PWP_GROUP g)).settle) ∧
  (∀ (s : State) (r : Requester) (g : Fin 2), Grants s r (R.PWP_GROUP g) .write →
    r.level ≠ .supervisor ∨ (s.group g).supply = false ∨ (∃ k ∈ groupPorts g, s.on (R.PWP_STAT_damaged k) = true) →
    exec (.groupCloseCmd r g) s = .next (s.wrote r (R.PWP_GROUP g)).settle)

/-! ### The sequencer -/

/-- R579 to R583: the scripts. A start begins a defined script that is IDLE or DONE at its entry, a stop makes it IDLE, and of both the
stop acts. A RUNNING script performs the instruction at its index and goes on at the next one: END makes it DONE and keeps the
index, ON and OFF set PWP_CMD.on of the ports they name and of no other, WAITPG goes on at once when every named port has
power-good and else waits for it or for its timeout, which skips an instruction, WAIT waits its time, JMP continues at its
target, JLATCH where a named port is LATCHED or damaged, and NOTE sends its notice. An instruction that is not next, and a
script that is not RUNNING, change nothing. That END keeps the index, and that tuning limits do not bound ON and OFF, are the model's choices
(log entry 70). -/
def Obligations.ScriptsRunTheirInstructions : Prop :=
  (∀ (s : State) (r : Requester) (i : Fin 4), Grants s r R.PWP_SEQ_CTRL .write → s.on (R.PWP_SEQ_STAT_defined i) = true →
    s.rd (R.PWP_SEQ_STAT_state i) = 0 ∨ s.rd (R.PWP_SEQ_STAT_state i) = 3 →
    Writes (.scriptStart r (BitVec.ofNat 4 (2 ^ i.val)) 0) s r R.PWP_SEQ_CTRL (fun u =>
      u.rd (R.PWP_SEQ_STAT_state i) = 1 ∧ u.rd (R.PWP_SEQ_STAT_pc i) = s.rd (R.PWP_SEQ_STAT_entry i) ∧
      (∀ a, a ≠ R.PWP_SEQ_STAT i → u.word a = s.word a) ∧ u.hub = s.hub ∧ Keeps s u)) ∧
  (∀ (s : State) (r : Requester) (i : Fin 4), Grants s r R.PWP_SEQ_CTRL .write → s.on (R.PWP_SEQ_STAT_defined i) = false ∨
    s.rd (R.PWP_SEQ_STAT_state i) = 1 ∨ s.rd (R.PWP_SEQ_STAT_state i) = 2 →
    exec (.scriptStart r (BitVec.ofNat 4 (2 ^ i.val)) 0) s = .next (s.wrote r R.PWP_SEQ_CTRL).settle) ∧
  (∀ (s : State) (r : Requester) (m : BitVec 4), Grants s r R.PWP_SEQ_CTRL .write →
    Writes (.scriptStop r m) s r R.PWP_SEQ_CTRL (fun u => (∀ i, i < 4 → u.rd (R.PWP_SEQ_STAT_state i) =
      (if m.getLsbD i = true then 0 else s.rd (R.PWP_SEQ_STAT_state i))) ∧
      (∀ i, i < 4 → u.rd (R.PWP_SEQ_STAT_pc i) = s.rd (R.PWP_SEQ_STAT_pc i)) ∧ u.hub = s.hub ∧ Keeps s u) ∧
    Writes (.scriptStart r m m) s r R.PWP_SEQ_CTRL (fun u => ∀ i, i < 4 → m.getLsbD i = true →
      u.rd (R.PWP_SEQ_STAT_state i) = 0)) ∧
  (∀ (s : State) (i : Fin 4) (w : Nat), ScriptAt s i w → nbits w 28 4 = 0 → Leaves (.seqEnd i) s (fun u =>
    u.rd (R.PWP_SEQ_STAT_state i) = 3 ∧ s.seqPc i = u.seqPc i ∧ u.power = (s.tookTurn i).power ∧ u.raised = s.raised ∧ u.hub = s.hub)) ∧
  (∀ (s : State) (i : Fin 4) (w : Nat), ScriptAt s i w → nbits w 28 4 = 1 → Leaves (.seqOn i) s (fun u =>
    u.seqPc i = (s.seqPc i + 1) % 256 ∧ u.rd (R.PWP_SEQ_STAT_state i) = 1 ∧
    (∀ k ∈ seqPorts (nbits w 16 1) (nbits w 0 16), u.rd (R.PWP_CMD_on k) = 1) ∧
    (∀ k, k < 32 → k ∉ seqPorts (nbits w 16 1) (nbits w 0 16) → u.rd (R.PWP_CMD_on k) = s.rd (R.PWP_CMD_on k) ∧
      u.port k = s.port k) ∧ u.raised = s.raised ∧ u.hub = s.hub ∧ Keeps s u)) ∧
  (∀ (s : State) (i : Fin 4) (w : Nat), ScriptAt s i w → nbits w 28 4 = 2 → Leaves (.seqOff i) s (fun u =>
    u.seqPc i = (s.seqPc i + 1) % 256 ∧ u.rd (R.PWP_SEQ_STAT_state i) = 1 ∧
    (∀ k ∈ seqPorts (nbits w 16 1) (nbits w 0 16), u.rd (R.PWP_CMD_on k) = 0 ∧
      (s.isolatorsForced = false → s.portRule = .command → (s.group (groupOfPort k)).iso = .closed →
        (u.port k).passOn = false ∧ u.rd (R.PWP_STAT_state k) = 0)) ∧
    (∀ k, k < 32 → k ∉ seqPorts (nbits w 16 1) (nbits w 0 16) → u.rd (R.PWP_CMD_on k) = s.rd (R.PWP_CMD_on k) ∧
      u.port k = s.port k) ∧ u.raised = s.raised ∧ u.hub = s.hub ∧ Keeps s u)) ∧
  (∀ (s : State) (i : Fin 4) (w : Nat), ScriptAt s i w → nbits w 28 4 = 3 →
    (s.allPg (seqPorts (nbits w 16 1) (nbits w 0 16)) = true →
      exec (.seqWaitpg i) s = .next ((s.tookTurn i).seqGoto i (s.seqPc i + 1)).settle) ∧
    (s.allPg (seqPorts (nbits w 16 1) (nbits w 0 16)) = false → Leaves (.seqWaitpg i) s (fun u =>
      u.waitsPg i = true ∧ (u.script i).ports = seqPorts (nbits w 16 1) (nbits w 0 16) ∧
      (u.script i).waitEnd = (if nbits w 17 11 = 0 then none else some (s.clk + nbits w 17 11 * 1000000)) ∧
      u.seqPc i = (s.seqPc i + 1) % 256 ∧ u.raised = s.raised ∧ u.hub = s.hub))) ∧
  (∀ (s : State) (i : Fin 4), s.waitsPg i = true → s.allPg (s.script i).ports = true → Leaves (.seqWaitpgDone i) s (fun u =>
    u.rd (R.PWP_SEQ_STAT_state i) = 1 ∧ u.seqPc i = s.seqPc i ∧ u.script i = {} ∧ u.hub = s.hub)) ∧
  (∀ (s : State) (i : Fin 4), s.allPg (s.script i).ports = false → exec (.seqWaitpgDone i) s = .next s.settle) ∧
  (∀ (s : State) (i : Fin 4) (t : Nat), s.waitsPg i = true → (s.script i).waitEnd = some t → t ≤ s.clk →
    s.allPg (s.script i).ports = false → Leaves (.seqWaitpgTimeout i) s (fun u =>
    u.rd (R.PWP_SEQ_STAT_state i) = 1 ∧ u.seqPc i = (s.seqPc i + 1) % 256 ∧ u.script i = {} ∧ u.hub = s.hub)) ∧
  (∀ (s : State) (i : Fin 4), (s.script i).waitEnd = none ∨ s.allPg (s.script i).ports = true →
    exec (.seqWaitpgTimeout i) s = .next s.settle) ∧
  (∀ (s : State) (i : Fin 4) (w : Nat), ScriptAt s i w → nbits w 28 4 = 4 → Leaves (.seqWait i) s (fun u =>
    u.rd (R.PWP_SEQ_STAT_state i) = 2 ∧ u.script i = ⟨some (s.clk + nbits w 0 24 * 1000000), 0, false⟩ ∧
    u.seqPc i = (s.seqPc i + 1) % 256 ∧ u.raised = s.raised ∧ u.hub = s.hub)) ∧
  (∀ (s : State) (i : Fin 4) (t : Nat), s.rd (R.PWP_SEQ_STAT_state i) = 2 → (s.script i).onPg = false →
    (s.script i).waitEnd = some t → (t ≤ s.clk → Leaves (.seqWaitExpire i) s (fun u =>
      u.rd (R.PWP_SEQ_STAT_state i) = 1 ∧ u.seqPc i = s.seqPc i ∧ u.script i = {} ∧ u.hub = s.hub)) ∧
    (s.clk < t → exec (.seqWaitExpire i) s = .next s.settle)) ∧
  (∀ (s : State) (i : Fin 4) (w : Nat), ScriptAt s i w → nbits w 28 4 = 5 → Leaves (.seqJmp i) s (fun u =>
    u.seqPc i = nbits w 0 8 ∧ u.rd (R.PWP_SEQ_STAT_state i) = 1 ∧ u.power = (s.tookTurn i).power ∧ u.raised = s.raised ∧ u.hub = s.hub)) ∧
  (∀ (s : State) (i : Fin 4) (w : Nat), ScriptAt s i w → nbits w 28 4 = 6 → Leaves (.seqJlatch i) s (fun u =>
    ((∃ k ∈ seqPorts (nbits w 24 1) (nbits w 8 16), s.rd (R.PWP_STAT_state k) = 4 ∨ s.on (R.PWP_STAT_damaged k) = true) →
      u.seqPc i = nbits w 0 8) ∧
    ((∀ k ∈ seqPorts (nbits w 24 1) (nbits w 8 16), s.rd (R.PWP_STAT_state k) ≠ 4 ∧ s.on (R.PWP_STAT_damaged k) = false) →
      u.seqPc i = (s.seqPc i + 1) % 256) ∧
    u.rd (R.PWP_SEQ_STAT_state i) = 1 ∧ u.power = (s.tookTurn i).power ∧ u.raised = s.raised ∧ u.hub = s.hub)) ∧
  (∀ (s : State) (i : Fin 4) (w : Nat), ScriptAt s i w → nbits w 28 4 = 7 → exec (.seqNote i) s =
    .next (((s.tookTurn i).seqGoto i (s.seqPc i + 1)).notices 6 (nbits w 16 4) ⟨0x09, i, nbits w 0 16, s.portMap, s.now⟩).settle) ∧
  (∀ (s : State) (i : Fin 4), s.rd (R.PWP_SEQ_STAT_state i) ≠ 1 → exec (.seqOn i) s = .next s.settle ∧
    exec (.seqOff i) s = .next s.settle ∧ exec (.seqWait i) s = .next s.settle ∧ exec (.seqNote i) s = .next s.settle ∧
    exec (.seqEnd i) s = .next s.settle ∧ exec (.seqWaitpg i) s = .next s.settle) ∧
  (∀ (s : State) (i : Fin 4) (w : Nat), ScriptAt s i w → nbits w 28 4 ≠ 1 → exec (.seqOn i) s = .next s.settle)

/-! ### Core voltage -/

/-- R588 to R596, R600, R606, R614, R617, R619: the regulator link, the loop and the temperatures. An acknowledgement puts the target in
force; a request not acknowledged within 200 µs is retried once, with 850 mV where an exit from Doze or a wake made it, and then the
loop is frozen, the failure counted and VSI_FAIL raised. A
window that holds its order takes effect and the voltage follows its bounds; another one is refused. Only a Supervisor ends the
freeze, with which PWR_LOOP.at_risk is judged again. The loop raises the voltage by 10 mV for missed or low slack and lowers it by 5 mV for high slack, within the window. A
temperature source that is enabled fires at its threshold, once, and is armed again 5 K below it; that one which is not enabled stays
armed is the model's choice (log entry 28). -/
def Obligations.TheCoreVoltageFollowsItsRequests : Prop :=
  (∀ (s : State) (v : Vsi), s.power.vsi = some v → v.target < 2 ^ 16 → s.power.vsiWait = [] → s.power.exit = none →
    s.power.hib = none → s.hub.mode ≠ .hibernate → s.mvWindow.1 ≤ v.target → v.target ≤ s.mvWindow.2 →
    Leaves .vsiAck s (fun u => u.rd R.PWR_STATUS_core_mv = v.target ∧ u.rd R.PWR_STATUS_vsi_busy = 0 ∧ u.power.vsi = none ∧
      u.rd R.PWR_VSI_last_ack = min 65535 ((s.clk - v.sentAt) / 1000) ∧ u.raised = s.raised ∧ u.hub = s.hub ∧ Keeps s u)) ∧
  (∀ s : State, s.power.vsi = none → exec .vsiAck s = .next s.settle ∧ exec .vsiTimeout s = .next s.settle) ∧
  (∀ (s : State) (v : Vsi), s.power.vsi = some v → v.retry = false → 200000 ≤ s.clk - v.sentAt → v.target < 2 ^ 16 →
    Leaves .vsiTimeout s (fun u => u.power.vsi = some { v with
        target := if v.rise = true then 850 else v.target
        sentAt := s.clk
        retry := true } ∧ u.rd R.PWR_STATUS_requested = (if v.rise = true then 850 else v.target) ∧
    u.rd R.PWR_STATUS_vsi_busy = 1 ∧ Counted s u R.PWR_VSI_retries ∧ Counted s u R.PWR_VSI_requests ∧ u.raised = s.raised ∧
    u.hub = s.hub ∧ Keeps s u)) ∧
  (∀ (s : State) (v : Vsi), s.power.vsi = some v → v.retry = true → 200000 ≤ s.clk - v.sentAt → s.hub.mode ≠ .boot →
    s.hub.mode ≠ .hibernate → s.power.exit = none → s.power.hib = none → s.power.vsiWait = [] →
    Leaves .vsiTimeout s (fun u => u.power.vsi = none ∧ u.power.mvUnknown = true ∧ u.rd R.PWR_STATUS_vsi_busy = 0 ∧ u.rd R.PWR_LOOP_frozen = 1 ∧
      Counted s u R.PWR_VSI_failures ∧ u.rd R.PWR_STATUS_core_mv = s.rd R.PWR_STATUS_core_mv ∧ u.raised = s.raised ++ [⟨0, 0⟩] ∧
      u.hub = s.hub ∧ Keeps s u)) ∧
  (∀ (s : State) (v : Vsi), s.power.vsi = some v → s.clk - v.sentAt < 200000 → exec .vsiTimeout s = .next s.settle) ∧
  (∀ (s : State) (r : Requester) (v : Word), Grants s r R.PWR_WINDOW .write → s.loaded.tuning = [] →
    s.power.late = false → s.on R.PWR_LOOP_at_risk = false →
    (windowMvOk (fget v 48 16) (fget v 32 16) (fget v 16 16) = true → s.power.vsi = none → s.hub.mode = .run →
      fget v 32 16 ≤ s.rd R.PWR_STATUS_core_mv → s.rd R.PWR_STATUS_core_mv ≤ fget v 48 16 →
      Writes (.windowWrite r v) s r R.PWR_WINDOW (fun u => u.rd R.PWR_WINDOW_ceiling = fget v 48 16 ∧
        u.rd R.PWR_WINDOW_run_floor = fget v 32 16 ∧ u.rd R.PWR_WINDOW_doze_floor = fget v 16 16 ∧ u.power = s.power ∧
        (∀ a, a ≠ R.PWR_WINDOW → u.word a = s.word a) ∧ u.hub = s.hub)) ∧
    (windowMvOk (fget v 48 16) (fget v 32 16) (fget v 16 16) = true → s.power.vsi = none → s.hub.mode = .run →
      s.rd R.PWR_STATUS_core_mv < fget v 32 16 → Writes (.windowWrite r v) s r R.PWR_WINDOW (fun u =>
        u.power.vsi = some ⟨fget v 32 16, 1, s.clk, false, false⟩ ∧ u.rd R.PWR_STATUS_requested = fget v 32 16 ∧
        u.rd R.PWR_STATUS_vsi_busy = 1 ∧ Counted s u R.PWR_VSI_requests)) ∧
    (windowMvOk (fget v 48 16) (fget v 32 16) (fget v 16 16) = false → s.power.vsi = none → s.hub.mode = .run →
      s.rd R.PWR_WINDOW_run_floor ≤ s.rd R.PWR_STATUS_core_mv → s.rd R.PWR_STATUS_core_mv ≤ s.rd R.PWR_WINDOW_ceiling →
      exec (.windowWrite r v) s = .next ((s.refuseTune r R.PWR_WINDOW).wrote r R.PWR_WINDOW).settle)) ∧
  (∀ (s : State) (r : Requester), Grants s r R.PWR_LOOP .write →
    (r.level = .supervisor → exec (.loopResume r) s =
      .next (((s.wr R.PWR_LOOP_frozen 0).noteRisk).wrote r R.PWR_LOOP).settle) ∧
    (r.level ≠ .supervisor → exec (.loopResume r) s = .next (s.wrote r R.PWR_LOOP).settle)) ∧
  (∀ (s : State) (counts : List (BitVec 16)) (t : Nat), s.loopRuns = true → s.power.vsi = none → s.hub.mode = .run →
    s.on R.PWR_LOOP_ring_guard = false → s.rd R.PWR_WINDOW_run_floor ≤ s.rd R.PWR_STATUS_requested →
    s.rd R.PWR_STATUS_requested < s.rd R.PWR_WINDOW_ceiling → t = (if s.power.missed = true ∨
      s.power.slack < (s.rd R.PWR_LOOP_slack_low : Int) then min (s.rd R.PWR_STATUS_requested + 10) (s.rd R.PWR_WINDOW_ceiling)
      else if (s.rd R.PWR_LOOP_slack_high : Int) < s.power.slack then
        max (s.rd R.PWR_WINDOW_run_floor) (s.rd R.PWR_STATUS_requested - 5)
      else s.rd R.PWR_STATUS_requested) →
    Leaves (.avsLoopEval counts) s (fun u =>
      (t ≠ s.rd R.PWR_STATUS_requested → u.power.vsi = some ⟨t, 3, s.clk, false, false⟩ ∧ u.rd R.PWR_STATUS_requested = t ∧
        Counted s u R.PWR_VSI_requests) ∧ (t = s.rd R.PWR_STATUS_requested → u.power.vsi = none) ∧
      u.power.slack = 16 ∧ u.power.missed = false ∧ u.hub = s.hub ∧ Keeps s u)) ∧
  (∀ (s : State) (counts : List (BitVec 16)), s.loopRuns = false → Leaves (.avsLoopEval counts) s (fun u =>
    u.power = { s.power with slack := 16, missed := false } ∧ u.rd R.PWR_STATUS_requested = s.rd R.PWR_STATUS_requested ∧
    (∀ d, d < 12 → s.absentReg (R.PWR_CANARY d) = false → u.rd (R.PWR_CANARY_count d) =
      if s.canaryOn d = true then (counts.getD d 0).toNat else 0) ∧
    (∀ d, d < 12 → s.absentReg (R.PWR_CANARY d) = false → u.rd (R.PWR_CANARY_min d) =
      if s.canaryOn d = true then min (s.rd (R.PWR_CANARY_min d)) (counts.getD d 0).toNat else s.rd (R.PWR_CANARY_min d)) ∧
    u.raised = s.raised ∧ u.hub = s.hub)) ∧
  (∀ (s : State) (hub power regulator : BitVec 8), Leaves (.tempUpdate hub power regulator) s (fun u =>
    u.rdInt R.PWR_TEMP_hub = hub.toInt ∧ u.rdInt R.PWR_TEMP_regulator = regulator.toInt ∧
    u.rdInt R.PWR_TEMP_power = (if s.hasPower = true then power.toInt else 0) ∧
    u.rdInt R.PWR_TEMP_hub_peak = (if s.power.tempSeen = true then max (s.rdInt R.PWR_TEMP_hub_peak) hub.toInt else hub.toInt) ∧
    (s.kettle.hot = 0 → s.on (R.KET_SRC_enable 3) = true → (s.rd (R.KET_SRC_threshold 3) : Int) ≤ hub.toInt →
      (regulator.toInt : Int) < (s.rd (R.KET_SRC_threshold 4) : Int) →
      (if s.hasPower = true then power.toInt else 0) < (s.rd (R.KET_SRC_threshold 5) : Int) →
      u.kettle.hot = 1 ∧ u.raised = s.raised ++ [⟨3, unsext 32 hub.toInt⟩]) ∧
    (s.kettle.hot.getLsbD 0 = false → s.on (R.KET_SRC_enable 3) = false → u.kettle.hot.getLsbD 0 = false) ∧
    (s.kettle.hot.getLsbD 0 = true → hub.toInt ≤ (s.rd (R.KET_SRC_threshold 3) : Int) - 5 → u.kettle.hot.getLsbD 0 = false) ∧
    (s.kettle.hot.getLsbD 0 = true → (s.rd (R.KET_SRC_threshold 3) : Int) - 5 < hub.toInt →
      u.kettle.hot.getLsbD 0 = true ∧ ∀ x, (⟨3, x⟩ : KEvent) ∈ u.raised → ⟨3, x⟩ ∈ s.raised) ∧ u.hub = s.hub ∧ Keeps s u))

/-! ### The Kettle -/

/-- R629, R631, R633, R635, R636, R638: a scrub counts the errors it corrected; an uncorrectable error or a mismatch is a collector
self-fault, which takes a running hub to Safe by row 27, says its cause and source, holds ERR_N low, and happens once; so is an entry
whose two copies differ. A mask is
dropped when its settle time is over, and what is masked stays the same by that. A pulse on ERR_N ends at its time. A write to
KET_FORCE ends the forces it names, and owners drive the pins of those bays again; no other pin changes. -/
def Obligations.TheKettleScrubsAndItsEffectsEnd : Prop :=
  (∀ (s : State) (n : Nat), s.kettleUp = true → s.markedCopies = [] → Leaves (.kettleScrub n none) s (fun u =>
    u.rd (R.KET_CNT_count 6) = min (s.rd (R.KET_CNT_count 6) + n) (2 ^ (R.KET_CNT_count 6).width - 1) ∧
    (∀ a, a ≠ R.KET_CNT 6 → u.word a = s.word a) ∧ u.kettle = s.kettle ∧ u.raised = s.raised ∧ u.hub = s.hub ∧ Keeps s u)) ∧
  (∀ (s : State) (n : Nat) (b : Option (Fin 512 × Bool)), s.kettleUp = false → exec (.kettleScrub n b) s = .next s.settle) ∧
  (∀ (s : State) (n : Nat) (i : Fin 512) (unc : Bool), s.kettleUp = true → s.on R.KET_STATUS_self_fault = false →
    s.markedCopies = [] → s.hub.mode = .run ∨ s.hub.mode = .runDegraded ∨ s.hub.mode = .island ∨ s.hub.mode = .trial →
    Leaves (.kettleScrub n (some (i, unc))) s (fun u => Entered s u .safe 27 ∧ u.rd R.KET_STATUS_self_fault = 1 ∧
      u.rd R.KET_STATUS_self_cause = (if unc = true then 1 else 2) ∧ u.rd R.KET_STATUS_self_source = i.val ∧
      u.kettle.selfFault = true ∧ u.errLow = true ∧ Keeps s u)) ∧
  (∀ (s : State) (n : Nat) (i : Fin 512) (unc : Bool), s.kettleUp = true → s.on R.KET_STATUS_self_fault = true →
    s.markedCopies = [] → exec (.kettleScrub n (some (i, unc))) s = .next (s.bumpBy (R.KET_CNT_count 6) n).settle) ∧
  (∀ (s : State) (n : Nat) (i : Fin 512), s.kettleUp = true → s.on R.KET_STATUS_self_fault = false → s.eccMarks = [] →
    s.kettle.differs = [i.val] → s.hub.mode = .run ∨ s.hub.mode = .runDegraded ∨ s.hub.mode = .island ∨ s.hub.mode = .trial →
    Leaves (.kettleScrub n none) s (fun u => Entered s u .safe 27 ∧ u.rd R.KET_STATUS_self_cause = 2 ∧
      u.rd R.KET_STATUS_self_source = i.val ∧ u.errLow = true ∧ Keeps s u)) ∧
  (∀ (s : State) (i : Fin 512), Leaves (.kettleMaskExpire i) s (fun u =>
    (∀ m, m ∈ u.kettle.masks ↔ m ∈ s.kettle.masks ∧ (i.val ∈ m.list → ∀ t, m.doneAt = some t → s.clk < t + m.settle * 1000)) ∧
    (∀ j, u.masked j = s.masked j) ∧ u.regs = s.regs ∧ u.raised = s.raised ∧ u.hub = s.hub ∧ Keeps s u)) ∧
  (∀ (s : State) (t : Nat), s.kettle.pulseEnd = some t →
    (t ≤ s.clk → Leaves .errNPulseEnd s (fun u => u.kettle.pulseEnd = none ∧ u.regs = s.regs ∧ u.raised = s.raised ∧
      u.hub = s.hub ∧ (s.on R.KET_ERRPIN_drive = false → s.hub.bootFail = false → s.kettle.selfFault = false →
        u.errLow = false))) ∧
    (s.clk < t → exec .errNPulseEnd s = .next s.settle)) ∧
  (∀ (s : State) (r : Requester) (bays : BitVec 48), Grants s r R.KET_FORCE .write →
    Writes (.forceEnd r bays) s r R.KET_FORCE (fun u =>
      (∀ n, n < 48 → u.bayForced n = (s.bayForced n && !bays.getLsbD n)) ∧
      (∀ g, (s.bayForced (g / 8) && bays.getLsbD (g / 8)) = false → u.pin g = s.pin g) ∧
      (∀ g, g < 384 → (s.bayForced (g / 8) && bays.getLsbD (g / 8)) = true → s.hasDriver g = true → s.lplusLow g = false →
        s.bitOn (R.BAY_PINSTAT_overload (g / 8)) (g % 8) = false → s.groupGated (groupOfPin g) = false →
        s.outputRule = .owners → s.rd (R.BAY_PIN_owner g) = 1 →
        (u.pin g).pad = (s.ownerState g).through (s.on (R.BAY_PIN_invert g))) ∧
      (∀ a, a ≠ R.KET_FORCE → u.word a = s.word a) ∧ u.raised = s.raised ∧ u.hub = s.hub ∧ Keeps s u))

/-! ### Performance counters -/

/-- R643, R651 to R658: a freeze stops all counting, and with a snapshot each shadow is the frozen value; a write of 0 resumes it. A
clear sets the 64 counters to 0 and leaves PMC_OVF. A snapshot copies every counter, and one written while another is in
progress has no effect; when it completes, its tick is shown, it is counted, and the events held are added. A counter wraps at
2^48 and sets its bit of PMC_OVF. A pop of PMC_SAMPLE gives the oldest record or NOTREADY, and a wrap without an instruction for
10 µs is recorded idle, or lost and counted where the FIFO is full; while the counters are frozen, no sample is taken. -/
def Obligations.PerformanceCountersFreezeClearAndSnapshot : Prop :=
  (∀ (s : State) (r : Requester), Grants s r R.PMC_CTRL .write →
    exec (.pmcFreeze r false) s = .next ((s.wr R.PMC_CTRL_freeze 1).wrote r R.PMC_CTRL).settle ∧
    exec (.pmcUnfreeze r) s = .next ((s.wr R.PMC_CTRL_freeze 0).wrote r R.PMC_CTRL).settle ∧
    Writes (.pmcClearAll r) s r R.PMC_CTRL (fun u => (∀ i, i < 64 → u.rd (R.PMC_CNT_count i) = 0) ∧
      (∀ a, (∀ i, i < 64 → a ≠ R.PMC_CNT i) → u.word a = s.word a) ∧ u.pmc = s.pmc ∧ u.hub = s.hub ∧ Keeps s u) ∧
    (s.on R.PMC_STATUS_snap_busy = false → Writes (.pmcSnapshot r) s r R.PMC_CTRL (fun u =>
      (∀ i, i < 64 → u.rd (R.PMC_SHADOW_count i) = s.rd (R.PMC_CNT_count i) ∧
        u.rd (R.PMC_CNT_count i) = s.rd (R.PMC_CNT_count i)) ∧ u.on R.PMC_STATUS_snap_busy = true ∧ u.pmc.snapAt = s.now ∧
      u.on R.PMC_CTRL_freeze = s.on R.PMC_CTRL_freeze ∧ u.hub = s.hub ∧ Keeps s u)) ∧
    (s.on R.PMC_STATUS_snap_busy = false → Writes (.pmcFreeze r true) s r R.PMC_CTRL (fun u =>
      (∀ i, i < 64 → u.rd (R.PMC_SHADOW_count i) = s.rd (R.PMC_CNT_count i) ∧
        u.rd (R.PMC_CNT_count i) = s.rd (R.PMC_CNT_count i)) ∧ u.on R.PMC_STATUS_snap_busy = true ∧
      u.on R.PMC_CTRL_freeze = true)) ∧
    (s.on R.PMC_STATUS_snap_busy = true → Writes (.pmcSnapshot r) s r R.PMC_CTRL (fun u =>
      (∀ a, u.word a = s.word a) ∧ u.pmc = s.pmc))) ∧
  (∀ (s : State) (cls ev x n : Nat) (a : Attrs), s.on R.PMC_CTRL_freeze = true → s.pmcBy cls ev x n a = s) ∧
  (∀ (s : State) (h : Tally), h.counter < 64 → h.amount < 2 ^ 48 → 2 ^ 48 ≤ s.rd (R.PMC_CNT_count h.counter) + h.amount →
    (s.pmcAdd h).rd (R.PMC_CNT_count h.counter) = s.rd (R.PMC_CNT_count h.counter) + h.amount - 2 ^ 48 ∧
    (s.pmcAdd h).bitOn R.PMC_OVF_ovf h.counter = true) ∧
  (∀ s : State, s.asleep = false → s.on R.PMC_STATUS_snap_busy = true → s.pmc.heldCounts = [] → s.pmc.waiting = [] → Leaves .pmcSnapshotDone s (fun u =>
    u.on R.PMC_STATUS_snap_busy = false ∧ u.rd R.PMC_STATUS_snap_count = (s.rd R.PMC_STATUS_snap_count + 1) % 2 ^ 32 ∧
    u.word R.PMC_SNAP_TIME = s.pmc.snapAt ∧ u.pmc = s.pmc ∧ u.hub = s.hub ∧ Keeps s u)) ∧
  (∀ (s : State) (h : Tally), s.asleep = false → s.on R.PMC_STATUS_snap_busy = true → s.pmc.heldCounts = [h] → h.counter < 64 →
    s.rd (R.PMC_CNT_count h.counter) + h.amount < 2 ^ 48 → Leaves .pmcSnapshotDone s (fun u =>
    u.rd (R.PMC_CNT_count h.counter) = s.rd (R.PMC_CNT_count h.counter) + h.amount ∧ u.pmc.heldCounts = [] ∧ u.on R.PMC_STATUS_snap_busy = false)) ∧
  (∀ s : State, s.asleep = true ∨ s.on R.PMC_STATUS_snap_busy = false → exec .pmcSnapshotDone s = .next s.settle) ∧
  (∀ (s : State) (r : Requester) (x : Sample) (rest : List Sample), Grants s r R.PMC_SAMPLE .read → s.pmc.fifo = x :: rest →
    Reads (.pmcSamplePop r) s r R.PMC_SAMPLE .ok x.word (fun u => u.pmc.fifo = rest ∧ u.regs = s.regs ∧ u.hub = s.hub)) ∧
  (∀ (s : State) (r : Requester), Grants s r R.PMC_SAMPLE .read → s.pmc.fifo = [] →
    Reads (.pmcSamplePop r) s r R.PMC_SAMPLE .notReady RCode.notReady.pattern (fun u => u = s)) ∧
  (∀ (s : State) (i : Fin 64) (w : Wrap), s.pmc.waiting = [w] → w.tally.counter = i.val → w.tally.seen.length ≤ w.tally.own →
    w.since + 10000 ≤ s.clk → s.asleep = false → Leaves (.pmcSampleIdle i) s (fun u => u.pmc.waiting = [] ∧
    (s.on R.PMC_CTRL_freeze = true → u.pmc.fifo = s.pmc.fifo ∧ u.pmc.lost = s.pmc.lost ∧ u.regs = s.regs) ∧
    (s.on R.PMC_CTRL_freeze = false → s.pmc.fifo.length < 16 →
      u.pmc.fifo = s.pmc.fifo ++ [⟨i, w.tally.element, 0, 0, w.skid, s.pmc.lost, true, w.time⟩] ∧ u.pmc.lost = false) ∧
    (s.on R.PMC_CTRL_freeze = false → 16 ≤ s.pmc.fifo.length →
      u.pmc.fifo = s.pmc.fifo ∧ u.pmc.lost = true ∧ Counted s u R.PMC_SAMPLE_STAT_lost) ∧ u.hub = s.hub)) ∧
  (∀ (s : State) (i : Fin 64), s.asleep = true ∨ s.pmc.waiting = [] → exec (.pmcSampleIdle i) s = .next s.settle)

/-! ### The machine -/

/-- R35, R96, R102, R107, R191, R284, R361, R439, R467: a step takes the command at the front of the queue and performs it on the state with
the queue's rest (log entry 1). Concurrent commands all join the queue, and the first arbiter at which two of them meet orders them:
the lower master first, at a block a master before a Local request; a write of a register before a count of the hardware; a mode
change by the order of R35; a free of leaves before an allocation; on a FIFO the pop first where it is full for the push, else the
push; the instructions of one engine in the order of the turns of its contexts. On
an empty queue a step is one tick of the time grid (the model's choice, log entry 2): the counter and the monotone time advance
by 2 ns, and nothing but time, counters, the marks of issue slots, the edges that receivers accept and the Steam words that are being
sent changes. In reset the counter does not advance. -/
def Obligations.AStepPerformsTheCommandAtTheFront : Prop :=
  (∀ (s : State) (c : Instr) (rest : List Instr), s.pending = c :: rest → step s = exec c { s with pending := rest }) ∧
  (∀ (s : State) (c : Instr), step { s with pending := c :: s.pending } = exec c s) ∧
  (∀ (s : State) (nbits w : Nat), s.withFetchWord nbits w = s) ∧
  (∀ s : State, s.pending = [] → ∃ t, step s = .next t ∧ t.clk = s.clk + 2 ∧ t.pending = [] ∧
    t.now = (if s.inReset = true then s.now else s.now + 2) ∧ t.hub = s.hub ∧ t.pimem = s.pimem ∧ t.flash = s.flash ∧
    t.store = s.store ∧ t.loaded = s.loaded ∧ t.bays.rx = s.bays.rx ∧ t.bays.tx = s.bays.tx ∧ t.raised = s.raised ∧
    (∀ g, (t.pin g).pad = (s.pin g).pad ∧ (t.pin g).owner = (s.pin g).owner) ∧ (∀ k, t.port k = s.port k) ∧
    ((∀ kv ∈ s.bays.pins, kv.2.coming = []) → t.bays = s.bays ∧ ∀ e c, t.ctx e c = s.ctx e c)) ∧
  (∀ (s : State) (cs : List Instr), (s.offer cs).pending.Perm (s.pending ++ cs)) ∧
  (∀ (s : State) (c d : Instr) (r q : Requester) (a b : Nat) (v w : Option Word), regOf c = some (r, a, v) → regOf d = some (q, b, w) →
    r.level ≠ .localLevel → q.level ≠ .localLevel → q.master.val < r.master.val → (s.offer [c, d]).pending = s.pending ++ [d, c]) ∧
  (∀ (s : State) (c d : Instr) (b m n : Nat), MeetAt s c d 1 [.access b m] [.access b n] →
    (n < m → (s.offer [c, d]).pending = s.pending ++ [d, c]) ∧ (m < n → (s.offer [c, d]).pending = s.pending ++ [c, d])) ∧
  (∀ (s : State) (c d : Instr) (a : Nat), MeetAt s c d 2 [.field a true] [.field a false] → a ≠ R.KET_ERRPIN →
    (s.offer [c, d]).pending = s.pending ++ [d, c]) ∧
  (∀ (s : State) (c d : Instr) (o p i j : Nat), MeetAt s c d 3 [.mode o i] [.mode p j] → p < o ∨ (p = o ∧ j < i) →
    (s.offer [c, d]).pending = s.pending ++ [d, c]) ∧
  (∀ (s : State) (c d : Instr), MeetAt s c d 4 [.leaves true] [.leaves false] → (s.offer [c, d]).pending = s.pending ++ [d, c]) ∧
  (∀ (s : State) (c d : Instr) (e k n m : Nat) (rx : Bool), MeetAt s c d 6 [.turn e k, .fifo rx n (.push m)] [.fifo rx n .pop] →
    (s.offer [c, d]).pending = s.pending ++ (if s.ahead.fifoFull rx n m = true then [d, c] else [c, d])) ∧
  (∀ (s : State) (c d : Instr) (e j k : Nat), MeetAt s c d 6 [.turn e j] [.turn e k] →
    (k + 15 - (s.ahead.engine e).turn) % 16 < (j + 15 - (s.ahead.engine e).turn) % 16 →
    (s.offer [c, d]).pending = s.pending ++ [d, c])

/-- Every step keeps the invariant: from a state in which no event waits for the Kettle and memory is in its canonical form, whatever
command a step performs, the next state is such a state again. -/
def Obligations.EveryStepKeepsTheInvariant : Prop :=
  ∀ s t : State, s.memOk = true → s.quiet = true → step s = .next t → t.memOk = true ∧ t.quiet = true
end

