-- ==== Sys2Proof/Laws/State.lean ====
section
/-!
SUPPORT. What the single updates of the state leave unchanged: one lemma for each field and update, true by definition, so that no
proof unfolds a record update.
-/

namespace Sys2Proof.Machine

/-! ### setWord -/

@[simp] theorem State.setWord_pending (s : State) (a : Nat) (w : Word) : (s.setWord a w).pending = s.pending := rfl
@[simp] theorem State.setWord_variant (s : State) (a : Nat) (w : Word) : (s.setWord a w).variant = s.variant := rfl
@[simp] theorem State.setWord_rootKey (s : State) (a : Nat) (w : Word) : (s.setWord a w).rootKey = s.rootKey := rfl
@[simp] theorem State.setWord_now (s : State) (a : Nat) (w : Word) : (s.setWord a w).now = s.now := rfl
@[simp] theorem State.setWord_clk (s : State) (a : Nat) (w : Word) : (s.setWord a w).clk = s.clk := rfl
@[simp] theorem State.setWord_store (s : State) (a : Nat) (w : Word) : (s.setWord a w).store = s.store := rfl
@[simp] theorem State.setWord_pimem (s : State) (a : Nat) (w : Word) : (s.setWord a w).pimem = s.pimem := rfl
@[simp] theorem State.setWord_flash (s : State) (a : Nat) (w : Word) : (s.setWord a w).flash = s.flash := rfl
@[simp] theorem State.setWord_eccMarks (s : State) (a : Nat) (w : Word) : (s.setWord a w).eccMarks = s.eccMarks := rfl
@[simp] theorem State.setWord_loaded (s : State) (a : Nat) (w : Word) : (s.setWord a w).loaded = s.loaded := rfl
@[simp] theorem State.setWord_hub (s : State) (a : Nat) (w : Word) : (s.setWord a w).hub = s.hub := rfl
@[simp] theorem State.setWord_upd (s : State) (a : Nat) (w : Word) : (s.setWord a w).upd = s.upd := rfl
@[simp] theorem State.setWord_ring (s : State) (a : Nat) (w : Word) : (s.setWord a w).ring = s.ring := rfl
@[simp] theorem State.setWord_switch (s : State) (a : Nat) (w : Word) : (s.setWord a w).switch = s.switch := rfl
@[simp] theorem State.setWord_cyc (s : State) (a : Nat) (w : Word) : (s.setWord a w).cyc = s.cyc := rfl
@[simp] theorem State.setWord_time (s : State) (a : Nat) (w : Word) : (s.setWord a w).time = s.time := rfl
@[simp] theorem State.setWord_bays (s : State) (a : Nat) (w : Word) : (s.setWord a w).bays = s.bays := rfl
@[simp] theorem State.setWord_engines (s : State) (a : Nat) (w : Word) : (s.setWord a w).engines = s.engines := rfl
@[simp] theorem State.setWord_initReqs (s : State) (a : Nat) (w : Word) : (s.setWord a w).initReqs = s.initReqs := rfl
@[simp] theorem State.setWord_buckets (s : State) (a : Nat) (w : Word) : (s.setWord a w).buckets = s.buckets := rfl
@[simp] theorem State.setWord_power (s : State) (a : Nat) (w : Word) : (s.setWord a w).power = s.power := rfl
@[simp] theorem State.setWord_kettle (s : State) (a : Nat) (w : Word) : (s.setWord a w).kettle = s.kettle := rfl
@[simp] theorem State.setWord_pmc (s : State) (a : Nat) (w : Word) : (s.setWord a w).pmc = s.pmc := rfl
@[simp] theorem State.setWord_raised (s : State) (a : Nat) (w : Word) : (s.setWord a w).raised = s.raised := rfl
@[simp] theorem State.setWord_answer (s : State) (a : Nat) (w : Word) : (s.setWord a w).answer = s.answer := rfl
@[simp] theorem State.setWord_fresh (s : State) (a : Nat) (w : Word) : (s.setWord a w).fresh = s.fresh := rfl

/-! ### wr -/

@[simp] theorem State.wr_pending (s : State) (f : Fld) (v : Nat) : (s.wr f v).pending = s.pending := rfl
@[simp] theorem State.wr_variant (s : State) (f : Fld) (v : Nat) : (s.wr f v).variant = s.variant := rfl
@[simp] theorem State.wr_rootKey (s : State) (f : Fld) (v : Nat) : (s.wr f v).rootKey = s.rootKey := rfl
@[simp] theorem State.wr_now (s : State) (f : Fld) (v : Nat) : (s.wr f v).now = s.now := rfl
@[simp] theorem State.wr_clk (s : State) (f : Fld) (v : Nat) : (s.wr f v).clk = s.clk := rfl
@[simp] theorem State.wr_store (s : State) (f : Fld) (v : Nat) : (s.wr f v).store = s.store := rfl
@[simp] theorem State.wr_pimem (s : State) (f : Fld) (v : Nat) : (s.wr f v).pimem = s.pimem := rfl
@[simp] theorem State.wr_flash (s : State) (f : Fld) (v : Nat) : (s.wr f v).flash = s.flash := rfl
@[simp] theorem State.wr_eccMarks (s : State) (f : Fld) (v : Nat) : (s.wr f v).eccMarks = s.eccMarks := rfl
@[simp] theorem State.wr_loaded (s : State) (f : Fld) (v : Nat) : (s.wr f v).loaded = s.loaded := rfl
@[simp] theorem State.wr_hub (s : State) (f : Fld) (v : Nat) : (s.wr f v).hub = s.hub := rfl
@[simp] theorem State.wr_upd (s : State) (f : Fld) (v : Nat) : (s.wr f v).upd = s.upd := rfl
@[simp] theorem State.wr_ring (s : State) (f : Fld) (v : Nat) : (s.wr f v).ring = s.ring := rfl
@[simp] theorem State.wr_switch (s : State) (f : Fld) (v : Nat) : (s.wr f v).switch = s.switch := rfl
@[simp] theorem State.wr_cyc (s : State) (f : Fld) (v : Nat) : (s.wr f v).cyc = s.cyc := rfl
@[simp] theorem State.wr_time (s : State) (f : Fld) (v : Nat) : (s.wr f v).time = s.time := rfl
@[simp] theorem State.wr_bays (s : State) (f : Fld) (v : Nat) : (s.wr f v).bays = s.bays := rfl
@[simp] theorem State.wr_engines (s : State) (f : Fld) (v : Nat) : (s.wr f v).engines = s.engines := rfl
@[simp] theorem State.wr_initReqs (s : State) (f : Fld) (v : Nat) : (s.wr f v).initReqs = s.initReqs := rfl
@[simp] theorem State.wr_buckets (s : State) (f : Fld) (v : Nat) : (s.wr f v).buckets = s.buckets := rfl
@[simp] theorem State.wr_power (s : State) (f : Fld) (v : Nat) : (s.wr f v).power = s.power := rfl
@[simp] theorem State.wr_kettle (s : State) (f : Fld) (v : Nat) : (s.wr f v).kettle = s.kettle := rfl
@[simp] theorem State.wr_pmc (s : State) (f : Fld) (v : Nat) : (s.wr f v).pmc = s.pmc := rfl
@[simp] theorem State.wr_raised (s : State) (f : Fld) (v : Nat) : (s.wr f v).raised = s.raised := rfl
@[simp] theorem State.wr_answer (s : State) (f : Fld) (v : Nat) : (s.wr f v).answer = s.answer := rfl
@[simp] theorem State.wr_fresh (s : State) (f : Fld) (v : Nat) : (s.wr f v).fresh = s.fresh := rfl

/-! ### raise -/

@[simp] theorem State.raise_pending (s : State) (i d : Nat) : (s.raise i d).pending = s.pending := rfl
@[simp] theorem State.raise_variant (s : State) (i d : Nat) : (s.raise i d).variant = s.variant := rfl
@[simp] theorem State.raise_rootKey (s : State) (i d : Nat) : (s.raise i d).rootKey = s.rootKey := rfl
@[simp] theorem State.raise_now (s : State) (i d : Nat) : (s.raise i d).now = s.now := rfl
@[simp] theorem State.raise_clk (s : State) (i d : Nat) : (s.raise i d).clk = s.clk := rfl
@[simp] theorem State.raise_regs (s : State) (i d : Nat) : (s.raise i d).regs = s.regs := rfl
@[simp] theorem State.raise_store (s : State) (i d : Nat) : (s.raise i d).store = s.store := rfl
@[simp] theorem State.raise_pimem (s : State) (i d : Nat) : (s.raise i d).pimem = s.pimem := rfl
@[simp] theorem State.raise_flash (s : State) (i d : Nat) : (s.raise i d).flash = s.flash := rfl
@[simp] theorem State.raise_eccMarks (s : State) (i d : Nat) : (s.raise i d).eccMarks = s.eccMarks := rfl
@[simp] theorem State.raise_loaded (s : State) (i d : Nat) : (s.raise i d).loaded = s.loaded := rfl
@[simp] theorem State.raise_hub (s : State) (i d : Nat) : (s.raise i d).hub = s.hub := rfl
@[simp] theorem State.raise_upd (s : State) (i d : Nat) : (s.raise i d).upd = s.upd := rfl
@[simp] theorem State.raise_ring (s : State) (i d : Nat) : (s.raise i d).ring = s.ring := rfl
@[simp] theorem State.raise_switch (s : State) (i d : Nat) : (s.raise i d).switch = s.switch := rfl
@[simp] theorem State.raise_cyc (s : State) (i d : Nat) : (s.raise i d).cyc = s.cyc := rfl
@[simp] theorem State.raise_time (s : State) (i d : Nat) : (s.raise i d).time = s.time := rfl
@[simp] theorem State.raise_bays (s : State) (i d : Nat) : (s.raise i d).bays = s.bays := rfl
@[simp] theorem State.raise_engines (s : State) (i d : Nat) : (s.raise i d).engines = s.engines := rfl
@[simp] theorem State.raise_initReqs (s : State) (i d : Nat) : (s.raise i d).initReqs = s.initReqs := rfl
@[simp] theorem State.raise_buckets (s : State) (i d : Nat) : (s.raise i d).buckets = s.buckets := rfl
@[simp] theorem State.raise_power (s : State) (i d : Nat) : (s.raise i d).power = s.power := rfl
@[simp] theorem State.raise_kettle (s : State) (i d : Nat) : (s.raise i d).kettle = s.kettle := rfl
@[simp] theorem State.raise_pmc (s : State) (i d : Nat) : (s.raise i d).pmc = s.pmc := rfl
@[simp] theorem State.raise_answer (s : State) (i d : Nat) : (s.raise i d).answer = s.answer := rfl
@[simp] theorem State.raise_fresh (s : State) (i d : Nat) : (s.raise i d).fresh = s.fresh := rfl

/-! ### answered -/

@[simp] theorem State.answered_pending (s : State) (c : RCode) (d : List Word) : (s.answered c d).pending = s.pending := rfl
@[simp] theorem State.answered_variant (s : State) (c : RCode) (d : List Word) : (s.answered c d).variant = s.variant := rfl
@[simp] theorem State.answered_rootKey (s : State) (c : RCode) (d : List Word) : (s.answered c d).rootKey = s.rootKey := rfl
@[simp] theorem State.answered_now (s : State) (c : RCode) (d : List Word) : (s.answered c d).now = s.now := rfl
@[simp] theorem State.answered_clk (s : State) (c : RCode) (d : List Word) : (s.answered c d).clk = s.clk := rfl
@[simp] theorem State.answered_regs (s : State) (c : RCode) (d : List Word) : (s.answered c d).regs = s.regs := rfl
@[simp] theorem State.answered_store (s : State) (c : RCode) (d : List Word) : (s.answered c d).store = s.store := rfl
@[simp] theorem State.answered_pimem (s : State) (c : RCode) (d : List Word) : (s.answered c d).pimem = s.pimem := rfl
@[simp] theorem State.answered_flash (s : State) (c : RCode) (d : List Word) : (s.answered c d).flash = s.flash := rfl
@[simp] theorem State.answered_eccMarks (s : State) (c : RCode) (d : List Word) : (s.answered c d).eccMarks = s.eccMarks := rfl
@[simp] theorem State.answered_loaded (s : State) (c : RCode) (d : List Word) : (s.answered c d).loaded = s.loaded := rfl
@[simp] theorem State.answered_hub (s : State) (c : RCode) (d : List Word) : (s.answered c d).hub = s.hub := rfl
@[simp] theorem State.answered_upd (s : State) (c : RCode) (d : List Word) : (s.answered c d).upd = s.upd := rfl
@[simp] theorem State.answered_ring (s : State) (c : RCode) (d : List Word) : (s.answered c d).ring = s.ring := rfl
@[simp] theorem State.answered_switch (s : State) (c : RCode) (d : List Word) : (s.answered c d).switch = s.switch := rfl
@[simp] theorem State.answered_cyc (s : State) (c : RCode) (d : List Word) : (s.answered c d).cyc = s.cyc := rfl
@[simp] theorem State.answered_time (s : State) (c : RCode) (d : List Word) : (s.answered c d).time = s.time := rfl
@[simp] theorem State.answered_bays (s : State) (c : RCode) (d : List Word) : (s.answered c d).bays = s.bays := rfl
@[simp] theorem State.answered_engines (s : State) (c : RCode) (d : List Word) : (s.answered c d).engines = s.engines := rfl
@[simp] theorem State.answered_initReqs (s : State) (c : RCode) (d : List Word) : (s.answered c d).initReqs = s.initReqs := rfl
@[simp] theorem State.answered_buckets (s : State) (c : RCode) (d : List Word) : (s.answered c d).buckets = s.buckets := rfl
@[simp] theorem State.answered_power (s : State) (c : RCode) (d : List Word) : (s.answered c d).power = s.power := rfl
@[simp] theorem State.answered_kettle (s : State) (c : RCode) (d : List Word) : (s.answered c d).kettle = s.kettle := rfl
@[simp] theorem State.answered_pmc (s : State) (c : RCode) (d : List Word) : (s.answered c d).pmc = s.pmc := rfl
@[simp] theorem State.answered_raised (s : State) (c : RCode) (d : List Word) : (s.answered c d).raised = s.raised := rfl
@[simp] theorem State.answered_fresh (s : State) (c : RCode) (d : List Word) : (s.answered c d).fresh = s.fresh := rfl

/-! ### withPending -/

@[simp] theorem State.withPending_variant (s : State) (q : List Instr) : (s.withPending q).variant = s.variant := rfl
@[simp] theorem State.withPending_rootKey (s : State) (q : List Instr) : (s.withPending q).rootKey = s.rootKey := rfl
@[simp] theorem State.withPending_now (s : State) (q : List Instr) : (s.withPending q).now = s.now := rfl
@[simp] theorem State.withPending_clk (s : State) (q : List Instr) : (s.withPending q).clk = s.clk := rfl
@[simp] theorem State.withPending_regs (s : State) (q : List Instr) : (s.withPending q).regs = s.regs := rfl
@[simp] theorem State.withPending_store (s : State) (q : List Instr) : (s.withPending q).store = s.store := rfl
@[simp] theorem State.withPending_pimem (s : State) (q : List Instr) : (s.withPending q).pimem = s.pimem := rfl
@[simp] theorem State.withPending_flash (s : State) (q : List Instr) : (s.withPending q).flash = s.flash := rfl
@[simp] theorem State.withPending_eccMarks (s : State) (q : List Instr) : (s.withPending q).eccMarks = s.eccMarks := rfl
@[simp] theorem State.withPending_loaded (s : State) (q : List Instr) : (s.withPending q).loaded = s.loaded := rfl
@[simp] theorem State.withPending_hub (s : State) (q : List Instr) : (s.withPending q).hub = s.hub := rfl
@[simp] theorem State.withPending_upd (s : State) (q : List Instr) : (s.withPending q).upd = s.upd := rfl
@[simp] theorem State.withPending_ring (s : State) (q : List Instr) : (s.withPending q).ring = s.ring := rfl
@[simp] theorem State.withPending_switch (s : State) (q : List Instr) : (s.withPending q).switch = s.switch := rfl
@[simp] theorem State.withPending_cyc (s : State) (q : List Instr) : (s.withPending q).cyc = s.cyc := rfl
@[simp] theorem State.withPending_time (s : State) (q : List Instr) : (s.withPending q).time = s.time := rfl
@[simp] theorem State.withPending_bays (s : State) (q : List Instr) : (s.withPending q).bays = s.bays := rfl
@[simp] theorem State.withPending_engines (s : State) (q : List Instr) : (s.withPending q).engines = s.engines := rfl
@[simp] theorem State.withPending_initReqs (s : State) (q : List Instr) : (s.withPending q).initReqs = s.initReqs := rfl
@[simp] theorem State.withPending_buckets (s : State) (q : List Instr) : (s.withPending q).buckets = s.buckets := rfl
@[simp] theorem State.withPending_power (s : State) (q : List Instr) : (s.withPending q).power = s.power := rfl
@[simp] theorem State.withPending_kettle (s : State) (q : List Instr) : (s.withPending q).kettle = s.kettle := rfl
@[simp] theorem State.withPending_pmc (s : State) (q : List Instr) : (s.withPending q).pmc = s.pmc := rfl
@[simp] theorem State.withPending_raised (s : State) (q : List Instr) : (s.withPending q).raised = s.raised := rfl
@[simp] theorem State.withPending_answer (s : State) (q : List Instr) : (s.withPending q).answer = s.answer := rfl
@[simp] theorem State.withPending_fresh (s : State) (q : List Instr) : (s.withPending q).fresh = s.fresh := rfl

/-! ### noteDone -/

@[simp] theorem State.noteDone_pending (s : State) : (s.noteDone).pending = s.pending := rfl
@[simp] theorem State.noteDone_variant (s : State) : (s.noteDone).variant = s.variant := rfl
@[simp] theorem State.noteDone_rootKey (s : State) : (s.noteDone).rootKey = s.rootKey := rfl
@[simp] theorem State.noteDone_now (s : State) : (s.noteDone).now = s.now := rfl
@[simp] theorem State.noteDone_clk (s : State) : (s.noteDone).clk = s.clk := rfl
@[simp] theorem State.noteDone_regs (s : State) : (s.noteDone).regs = s.regs := rfl
@[simp] theorem State.noteDone_store (s : State) : (s.noteDone).store = s.store := rfl
@[simp] theorem State.noteDone_pimem (s : State) : (s.noteDone).pimem = s.pimem := rfl
@[simp] theorem State.noteDone_flash (s : State) : (s.noteDone).flash = s.flash := rfl
@[simp] theorem State.noteDone_eccMarks (s : State) : (s.noteDone).eccMarks = s.eccMarks := rfl
@[simp] theorem State.noteDone_loaded (s : State) : (s.noteDone).loaded = s.loaded := rfl
@[simp] theorem State.noteDone_hub (s : State) : (s.noteDone).hub = s.hub := rfl
@[simp] theorem State.noteDone_upd (s : State) : (s.noteDone).upd = s.upd := rfl
@[simp] theorem State.noteDone_ring (s : State) : (s.noteDone).ring = s.ring := rfl
@[simp] theorem State.noteDone_switch (s : State) : (s.noteDone).switch = s.switch := rfl
@[simp] theorem State.noteDone_cyc (s : State) : (s.noteDone).cyc = s.cyc := rfl
@[simp] theorem State.noteDone_time (s : State) : (s.noteDone).time = s.time := rfl
@[simp] theorem State.noteDone_bays (s : State) : (s.noteDone).bays = s.bays := rfl
@[simp] theorem State.noteDone_engines (s : State) : (s.noteDone).engines = s.engines := rfl
@[simp] theorem State.noteDone_initReqs (s : State) : (s.noteDone).initReqs = s.initReqs := rfl
@[simp] theorem State.noteDone_buckets (s : State) : (s.noteDone).buckets = s.buckets := rfl
@[simp] theorem State.noteDone_power (s : State) : (s.noteDone).power = s.power := rfl
@[simp] theorem State.noteDone_pmc (s : State) : (s.noteDone).pmc = s.pmc := rfl
@[simp] theorem State.noteDone_raised (s : State) : (s.noteDone).raised = s.raised := rfl
@[simp] theorem State.noteDone_answer (s : State) : (s.noteDone).answer = s.answer := rfl
@[simp] theorem State.noteDone_fresh (s : State) : (s.noteDone).fresh = s.fresh := rfl

/-! ### setRx -/

@[simp] theorem State.setRx_pending (s : State) (n : Nat) (f : Fifo) : (s.setRx n f).pending = s.pending := rfl
@[simp] theorem State.setRx_variant (s : State) (n : Nat) (f : Fifo) : (s.setRx n f).variant = s.variant := rfl
@[simp] theorem State.setRx_rootKey (s : State) (n : Nat) (f : Fifo) : (s.setRx n f).rootKey = s.rootKey := rfl
@[simp] theorem State.setRx_now (s : State) (n : Nat) (f : Fifo) : (s.setRx n f).now = s.now := rfl
@[simp] theorem State.setRx_clk (s : State) (n : Nat) (f : Fifo) : (s.setRx n f).clk = s.clk := rfl
@[simp] theorem State.setRx_regs (s : State) (n : Nat) (f : Fifo) : (s.setRx n f).regs = s.regs := rfl
@[simp] theorem State.setRx_store (s : State) (n : Nat) (f : Fifo) : (s.setRx n f).store = s.store := rfl
@[simp] theorem State.setRx_pimem (s : State) (n : Nat) (f : Fifo) : (s.setRx n f).pimem = s.pimem := rfl
@[simp] theorem State.setRx_flash (s : State) (n : Nat) (f : Fifo) : (s.setRx n f).flash = s.flash := rfl
@[simp] theorem State.setRx_eccMarks (s : State) (n : Nat) (f : Fifo) : (s.setRx n f).eccMarks = s.eccMarks := rfl
@[simp] theorem State.setRx_loaded (s : State) (n : Nat) (f : Fifo) : (s.setRx n f).loaded = s.loaded := rfl
@[simp] theorem State.setRx_hub (s : State) (n : Nat) (f : Fifo) : (s.setRx n f).hub = s.hub := rfl
@[simp] theorem State.setRx_upd (s : State) (n : Nat) (f : Fifo) : (s.setRx n f).upd = s.upd := rfl
@[simp] theorem State.setRx_ring (s : State) (n : Nat) (f : Fifo) : (s.setRx n f).ring = s.ring := rfl
@[simp] theorem State.setRx_switch (s : State) (n : Nat) (f : Fifo) : (s.setRx n f).switch = s.switch := rfl
@[simp] theorem State.setRx_cyc (s : State) (n : Nat) (f : Fifo) : (s.setRx n f).cyc = s.cyc := rfl
@[simp] theorem State.setRx_time (s : State) (n : Nat) (f : Fifo) : (s.setRx n f).time = s.time := rfl
@[simp] theorem State.setRx_engines (s : State) (n : Nat) (f : Fifo) : (s.setRx n f).engines = s.engines := rfl
@[simp] theorem State.setRx_initReqs (s : State) (n : Nat) (f : Fifo) : (s.setRx n f).initReqs = s.initReqs := rfl
@[simp] theorem State.setRx_buckets (s : State) (n : Nat) (f : Fifo) : (s.setRx n f).buckets = s.buckets := rfl
@[simp] theorem State.setRx_power (s : State) (n : Nat) (f : Fifo) : (s.setRx n f).power = s.power := rfl
@[simp] theorem State.setRx_kettle (s : State) (n : Nat) (f : Fifo) : (s.setRx n f).kettle = s.kettle := rfl
@[simp] theorem State.setRx_pmc (s : State) (n : Nat) (f : Fifo) : (s.setRx n f).pmc = s.pmc := rfl
@[simp] theorem State.setRx_raised (s : State) (n : Nat) (f : Fifo) : (s.setRx n f).raised = s.raised := rfl
@[simp] theorem State.setRx_answer (s : State) (n : Nat) (f : Fifo) : (s.setRx n f).answer = s.answer := rfl
@[simp] theorem State.setRx_fresh (s : State) (n : Nat) (f : Fifo) : (s.setRx n f).fresh = s.fresh := rfl

/-! ### setTx -/

@[simp] theorem State.setTx_pending (s : State) (n : Nat) (f : Fifo) : (s.setTx n f).pending = s.pending := rfl
@[simp] theorem State.setTx_variant (s : State) (n : Nat) (f : Fifo) : (s.setTx n f).variant = s.variant := rfl
@[simp] theorem State.setTx_rootKey (s : State) (n : Nat) (f : Fifo) : (s.setTx n f).rootKey = s.rootKey := rfl
@[simp] theorem State.setTx_now (s : State) (n : Nat) (f : Fifo) : (s.setTx n f).now = s.now := rfl
@[simp] theorem State.setTx_clk (s : State) (n : Nat) (f : Fifo) : (s.setTx n f).clk = s.clk := rfl
@[simp] theorem State.setTx_regs (s : State) (n : Nat) (f : Fifo) : (s.setTx n f).regs = s.regs := rfl
@[simp] theorem State.setTx_store (s : State) (n : Nat) (f : Fifo) : (s.setTx n f).store = s.store := rfl
@[simp] theorem State.setTx_pimem (s : State) (n : Nat) (f : Fifo) : (s.setTx n f).pimem = s.pimem := rfl
@[simp] theorem State.setTx_flash (s : State) (n : Nat) (f : Fifo) : (s.setTx n f).flash = s.flash := rfl
@[simp] theorem State.setTx_eccMarks (s : State) (n : Nat) (f : Fifo) : (s.setTx n f).eccMarks = s.eccMarks := rfl
@[simp] theorem State.setTx_loaded (s : State) (n : Nat) (f : Fifo) : (s.setTx n f).loaded = s.loaded := rfl
@[simp] theorem State.setTx_hub (s : State) (n : Nat) (f : Fifo) : (s.setTx n f).hub = s.hub := rfl
@[simp] theorem State.setTx_upd (s : State) (n : Nat) (f : Fifo) : (s.setTx n f).upd = s.upd := rfl
@[simp] theorem State.setTx_ring (s : State) (n : Nat) (f : Fifo) : (s.setTx n f).ring = s.ring := rfl
@[simp] theorem State.setTx_switch (s : State) (n : Nat) (f : Fifo) : (s.setTx n f).switch = s.switch := rfl
@[simp] theorem State.setTx_cyc (s : State) (n : Nat) (f : Fifo) : (s.setTx n f).cyc = s.cyc := rfl
@[simp] theorem State.setTx_time (s : State) (n : Nat) (f : Fifo) : (s.setTx n f).time = s.time := rfl
@[simp] theorem State.setTx_engines (s : State) (n : Nat) (f : Fifo) : (s.setTx n f).engines = s.engines := rfl
@[simp] theorem State.setTx_initReqs (s : State) (n : Nat) (f : Fifo) : (s.setTx n f).initReqs = s.initReqs := rfl
@[simp] theorem State.setTx_buckets (s : State) (n : Nat) (f : Fifo) : (s.setTx n f).buckets = s.buckets := rfl
@[simp] theorem State.setTx_power (s : State) (n : Nat) (f : Fifo) : (s.setTx n f).power = s.power := rfl
@[simp] theorem State.setTx_kettle (s : State) (n : Nat) (f : Fifo) : (s.setTx n f).kettle = s.kettle := rfl
@[simp] theorem State.setTx_pmc (s : State) (n : Nat) (f : Fifo) : (s.setTx n f).pmc = s.pmc := rfl
@[simp] theorem State.setTx_raised (s : State) (n : Nat) (f : Fifo) : (s.setTx n f).raised = s.raised := rfl
@[simp] theorem State.setTx_answer (s : State) (n : Nat) (f : Fifo) : (s.setTx n f).answer = s.answer := rfl
@[simp] theorem State.setTx_fresh (s : State) (n : Nat) (f : Fifo) : (s.setTx n f).fresh = s.fresh := rfl

/-! ### setPin -/

@[simp] theorem State.setPin_pending (s : State) (n : Nat) (p : Pin) : (s.setPin n p).pending = s.pending := rfl
@[simp] theorem State.setPin_variant (s : State) (n : Nat) (p : Pin) : (s.setPin n p).variant = s.variant := rfl
@[simp] theorem State.setPin_rootKey (s : State) (n : Nat) (p : Pin) : (s.setPin n p).rootKey = s.rootKey := rfl
@[simp] theorem State.setPin_now (s : State) (n : Nat) (p : Pin) : (s.setPin n p).now = s.now := rfl
@[simp] theorem State.setPin_clk (s : State) (n : Nat) (p : Pin) : (s.setPin n p).clk = s.clk := rfl
@[simp] theorem State.setPin_regs (s : State) (n : Nat) (p : Pin) : (s.setPin n p).regs = s.regs := rfl
@[simp] theorem State.setPin_store (s : State) (n : Nat) (p : Pin) : (s.setPin n p).store = s.store := rfl
@[simp] theorem State.setPin_pimem (s : State) (n : Nat) (p : Pin) : (s.setPin n p).pimem = s.pimem := rfl
@[simp] theorem State.setPin_flash (s : State) (n : Nat) (p : Pin) : (s.setPin n p).flash = s.flash := rfl
@[simp] theorem State.setPin_eccMarks (s : State) (n : Nat) (p : Pin) : (s.setPin n p).eccMarks = s.eccMarks := rfl
@[simp] theorem State.setPin_loaded (s : State) (n : Nat) (p : Pin) : (s.setPin n p).loaded = s.loaded := rfl
@[simp] theorem State.setPin_hub (s : State) (n : Nat) (p : Pin) : (s.setPin n p).hub = s.hub := rfl
@[simp] theorem State.setPin_upd (s : State) (n : Nat) (p : Pin) : (s.setPin n p).upd = s.upd := rfl
@[simp] theorem State.setPin_ring (s : State) (n : Nat) (p : Pin) : (s.setPin n p).ring = s.ring := rfl
@[simp] theorem State.setPin_switch (s : State) (n : Nat) (p : Pin) : (s.setPin n p).switch = s.switch := rfl
@[simp] theorem State.setPin_cyc (s : State) (n : Nat) (p : Pin) : (s.setPin n p).cyc = s.cyc := rfl
@[simp] theorem State.setPin_time (s : State) (n : Nat) (p : Pin) : (s.setPin n p).time = s.time := rfl
@[simp] theorem State.setPin_engines (s : State) (n : Nat) (p : Pin) : (s.setPin n p).engines = s.engines := rfl
@[simp] theorem State.setPin_initReqs (s : State) (n : Nat) (p : Pin) : (s.setPin n p).initReqs = s.initReqs := rfl
@[simp] theorem State.setPin_buckets (s : State) (n : Nat) (p : Pin) : (s.setPin n p).buckets = s.buckets := rfl
@[simp] theorem State.setPin_power (s : State) (n : Nat) (p : Pin) : (s.setPin n p).power = s.power := rfl
@[simp] theorem State.setPin_kettle (s : State) (n : Nat) (p : Pin) : (s.setPin n p).kettle = s.kettle := rfl
@[simp] theorem State.setPin_pmc (s : State) (n : Nat) (p : Pin) : (s.setPin n p).pmc = s.pmc := rfl
@[simp] theorem State.setPin_raised (s : State) (n : Nat) (p : Pin) : (s.setPin n p).raised = s.raised := rfl
@[simp] theorem State.setPin_answer (s : State) (n : Nat) (p : Pin) : (s.setPin n p).answer = s.answer := rfl
@[simp] theorem State.setPin_fresh (s : State) (n : Nat) (p : Pin) : (s.setPin n p).fresh = s.fresh := rfl

/-! ### setEngine -/

@[simp] theorem State.setEngine_pending (s : State) (e : Nat) (x : Engine) : (s.setEngine e x).pending = s.pending := rfl
@[simp] theorem State.setEngine_variant (s : State) (e : Nat) (x : Engine) : (s.setEngine e x).variant = s.variant := rfl
@[simp] theorem State.setEngine_rootKey (s : State) (e : Nat) (x : Engine) : (s.setEngine e x).rootKey = s.rootKey := rfl
@[simp] theorem State.setEngine_now (s : State) (e : Nat) (x : Engine) : (s.setEngine e x).now = s.now := rfl
@[simp] theorem State.setEngine_clk (s : State) (e : Nat) (x : Engine) : (s.setEngine e x).clk = s.clk := rfl
@[simp] theorem State.setEngine_regs (s : State) (e : Nat) (x : Engine) : (s.setEngine e x).regs = s.regs := rfl
@[simp] theorem State.setEngine_store (s : State) (e : Nat) (x : Engine) : (s.setEngine e x).store = s.store := rfl
@[simp] theorem State.setEngine_pimem (s : State) (e : Nat) (x : Engine) : (s.setEngine e x).pimem = s.pimem := rfl
@[simp] theorem State.setEngine_flash (s : State) (e : Nat) (x : Engine) : (s.setEngine e x).flash = s.flash := rfl
@[simp] theorem State.setEngine_eccMarks (s : State) (e : Nat) (x : Engine) : (s.setEngine e x).eccMarks = s.eccMarks := rfl
@[simp] theorem State.setEngine_loaded (s : State) (e : Nat) (x : Engine) : (s.setEngine e x).loaded = s.loaded := rfl
@[simp] theorem State.setEngine_hub (s : State) (e : Nat) (x : Engine) : (s.setEngine e x).hub = s.hub := rfl
@[simp] theorem State.setEngine_upd (s : State) (e : Nat) (x : Engine) : (s.setEngine e x).upd = s.upd := rfl
@[simp] theorem State.setEngine_ring (s : State) (e : Nat) (x : Engine) : (s.setEngine e x).ring = s.ring := rfl
@[simp] theorem State.setEngine_switch (s : State) (e : Nat) (x : Engine) : (s.setEngine e x).switch = s.switch := rfl
@[simp] theorem State.setEngine_cyc (s : State) (e : Nat) (x : Engine) : (s.setEngine e x).cyc = s.cyc := rfl
@[simp] theorem State.setEngine_time (s : State) (e : Nat) (x : Engine) : (s.setEngine e x).time = s.time := rfl
@[simp] theorem State.setEngine_bays (s : State) (e : Nat) (x : Engine) : (s.setEngine e x).bays = s.bays := rfl
@[simp] theorem State.setEngine_initReqs (s : State) (e : Nat) (x : Engine) : (s.setEngine e x).initReqs = s.initReqs := rfl
@[simp] theorem State.setEngine_buckets (s : State) (e : Nat) (x : Engine) : (s.setEngine e x).buckets = s.buckets := rfl
@[simp] theorem State.setEngine_power (s : State) (e : Nat) (x : Engine) : (s.setEngine e x).power = s.power := rfl
@[simp] theorem State.setEngine_kettle (s : State) (e : Nat) (x : Engine) : (s.setEngine e x).kettle = s.kettle := rfl
@[simp] theorem State.setEngine_pmc (s : State) (e : Nat) (x : Engine) : (s.setEngine e x).pmc = s.pmc := rfl
@[simp] theorem State.setEngine_raised (s : State) (e : Nat) (x : Engine) : (s.setEngine e x).raised = s.raised := rfl
@[simp] theorem State.setEngine_answer (s : State) (e : Nat) (x : Engine) : (s.setEngine e x).answer = s.answer := rfl
@[simp] theorem State.setEngine_fresh (s : State) (e : Nat) (x : Engine) : (s.setEngine e x).fresh = s.fresh := rfl

/-! ### setBucket -/

@[simp] theorem State.setBucket_pending (s : State) (m : Nat) (b : Bucket) : (s.setBucket m b).pending = s.pending := rfl
@[simp] theorem State.setBucket_variant (s : State) (m : Nat) (b : Bucket) : (s.setBucket m b).variant = s.variant := rfl
@[simp] theorem State.setBucket_rootKey (s : State) (m : Nat) (b : Bucket) : (s.setBucket m b).rootKey = s.rootKey := rfl
@[simp] theorem State.setBucket_now (s : State) (m : Nat) (b : Bucket) : (s.setBucket m b).now = s.now := rfl
@[simp] theorem State.setBucket_clk (s : State) (m : Nat) (b : Bucket) : (s.setBucket m b).clk = s.clk := rfl
@[simp] theorem State.setBucket_regs (s : State) (m : Nat) (b : Bucket) : (s.setBucket m b).regs = s.regs := rfl
@[simp] theorem State.setBucket_store (s : State) (m : Nat) (b : Bucket) : (s.setBucket m b).store = s.store := rfl
@[simp] theorem State.setBucket_pimem (s : State) (m : Nat) (b : Bucket) : (s.setBucket m b).pimem = s.pimem := rfl
@[simp] theorem State.setBucket_flash (s : State) (m : Nat) (b : Bucket) : (s.setBucket m b).flash = s.flash := rfl
@[simp] theorem State.setBucket_eccMarks (s : State) (m : Nat) (b : Bucket) : (s.setBucket m b).eccMarks = s.eccMarks := rfl
@[simp] theorem State.setBucket_loaded (s : State) (m : Nat) (b : Bucket) : (s.setBucket m b).loaded = s.loaded := rfl
@[simp] theorem State.setBucket_hub (s : State) (m : Nat) (b : Bucket) : (s.setBucket m b).hub = s.hub := rfl
@[simp] theorem State.setBucket_upd (s : State) (m : Nat) (b : Bucket) : (s.setBucket m b).upd = s.upd := rfl
@[simp] theorem State.setBucket_ring (s : State) (m : Nat) (b : Bucket) : (s.setBucket m b).ring = s.ring := rfl
@[simp] theorem State.setBucket_switch (s : State) (m : Nat) (b : Bucket) : (s.setBucket m b).switch = s.switch := rfl
@[simp] theorem State.setBucket_cyc (s : State) (m : Nat) (b : Bucket) : (s.setBucket m b).cyc = s.cyc := rfl
@[simp] theorem State.setBucket_time (s : State) (m : Nat) (b : Bucket) : (s.setBucket m b).time = s.time := rfl
@[simp] theorem State.setBucket_bays (s : State) (m : Nat) (b : Bucket) : (s.setBucket m b).bays = s.bays := rfl
@[simp] theorem State.setBucket_engines (s : State) (m : Nat) (b : Bucket) : (s.setBucket m b).engines = s.engines := rfl
@[simp] theorem State.setBucket_initReqs (s : State) (m : Nat) (b : Bucket) : (s.setBucket m b).initReqs = s.initReqs := rfl
@[simp] theorem State.setBucket_power (s : State) (m : Nat) (b : Bucket) : (s.setBucket m b).power = s.power := rfl
@[simp] theorem State.setBucket_kettle (s : State) (m : Nat) (b : Bucket) : (s.setBucket m b).kettle = s.kettle := rfl
@[simp] theorem State.setBucket_pmc (s : State) (m : Nat) (b : Bucket) : (s.setBucket m b).pmc = s.pmc := rfl
@[simp] theorem State.setBucket_raised (s : State) (m : Nat) (b : Bucket) : (s.setBucket m b).raised = s.raised := rfl
@[simp] theorem State.setBucket_answer (s : State) (m : Nat) (b : Bucket) : (s.setBucket m b).answer = s.answer := rfl
@[simp] theorem State.setBucket_fresh (s : State) (m : Nat) (b : Bucket) : (s.setBucket m b).fresh = s.fresh := rfl

/-! ### setPort -/

@[simp] theorem State.setPort_pending (s : State) (k : Nat) (p : Port) : (s.setPort k p).pending = s.pending := rfl
@[simp] theorem State.setPort_variant (s : State) (k : Nat) (p : Port) : (s.setPort k p).variant = s.variant := rfl
@[simp] theorem State.setPort_rootKey (s : State) (k : Nat) (p : Port) : (s.setPort k p).rootKey = s.rootKey := rfl
@[simp] theorem State.setPort_now (s : State) (k : Nat) (p : Port) : (s.setPort k p).now = s.now := rfl
@[simp] theorem State.setPort_clk (s : State) (k : Nat) (p : Port) : (s.setPort k p).clk = s.clk := rfl
@[simp] theorem State.setPort_regs (s : State) (k : Nat) (p : Port) : (s.setPort k p).regs = s.regs := rfl
@[simp] theorem State.setPort_store (s : State) (k : Nat) (p : Port) : (s.setPort k p).store = s.store := rfl
@[simp] theorem State.setPort_pimem (s : State) (k : Nat) (p : Port) : (s.setPort k p).pimem = s.pimem := rfl
@[simp] theorem State.setPort_flash (s : State) (k : Nat) (p : Port) : (s.setPort k p).flash = s.flash := rfl
@[simp] theorem State.setPort_eccMarks (s : State) (k : Nat) (p : Port) : (s.setPort k p).eccMarks = s.eccMarks := rfl
@[simp] theorem State.setPort_loaded (s : State) (k : Nat) (p : Port) : (s.setPort k p).loaded = s.loaded := rfl
@[simp] theorem State.setPort_hub (s : State) (k : Nat) (p : Port) : (s.setPort k p).hub = s.hub := rfl
@[simp] theorem State.setPort_upd (s : State) (k : Nat) (p : Port) : (s.setPort k p).upd = s.upd := rfl
@[simp] theorem State.setPort_ring (s : State) (k : Nat) (p : Port) : (s.setPort k p).ring = s.ring := rfl
@[simp] theorem State.setPort_switch (s : State) (k : Nat) (p : Port) : (s.setPort k p).switch = s.switch := rfl
@[simp] theorem State.setPort_cyc (s : State) (k : Nat) (p : Port) : (s.setPort k p).cyc = s.cyc := rfl
@[simp] theorem State.setPort_time (s : State) (k : Nat) (p : Port) : (s.setPort k p).time = s.time := rfl
@[simp] theorem State.setPort_bays (s : State) (k : Nat) (p : Port) : (s.setPort k p).bays = s.bays := rfl
@[simp] theorem State.setPort_engines (s : State) (k : Nat) (p : Port) : (s.setPort k p).engines = s.engines := rfl
@[simp] theorem State.setPort_initReqs (s : State) (k : Nat) (p : Port) : (s.setPort k p).initReqs = s.initReqs := rfl
@[simp] theorem State.setPort_buckets (s : State) (k : Nat) (p : Port) : (s.setPort k p).buckets = s.buckets := rfl
@[simp] theorem State.setPort_kettle (s : State) (k : Nat) (p : Port) : (s.setPort k p).kettle = s.kettle := rfl
@[simp] theorem State.setPort_pmc (s : State) (k : Nat) (p : Port) : (s.setPort k p).pmc = s.pmc := rfl
@[simp] theorem State.setPort_raised (s : State) (k : Nat) (p : Port) : (s.setPort k p).raised = s.raised := rfl
@[simp] theorem State.setPort_answer (s : State) (k : Nat) (p : Port) : (s.setPort k p).answer = s.answer := rfl
@[simp] theorem State.setPort_fresh (s : State) (k : Nat) (p : Port) : (s.setPort k p).fresh = s.fresh := rfl

/-! ### setGroup -/

@[simp] theorem State.setGroup_pending (s : State) (g : Nat) (x : Group) : (s.setGroup g x).pending = s.pending := rfl
@[simp] theorem State.setGroup_variant (s : State) (g : Nat) (x : Group) : (s.setGroup g x).variant = s.variant := rfl
@[simp] theorem State.setGroup_rootKey (s : State) (g : Nat) (x : Group) : (s.setGroup g x).rootKey = s.rootKey := rfl
@[simp] theorem State.setGroup_now (s : State) (g : Nat) (x : Group) : (s.setGroup g x).now = s.now := rfl
@[simp] theorem State.setGroup_clk (s : State) (g : Nat) (x : Group) : (s.setGroup g x).clk = s.clk := rfl
@[simp] theorem State.setGroup_regs (s : State) (g : Nat) (x : Group) : (s.setGroup g x).regs = s.regs := rfl
@[simp] theorem State.setGroup_store (s : State) (g : Nat) (x : Group) : (s.setGroup g x).store = s.store := rfl
@[simp] theorem State.setGroup_pimem (s : State) (g : Nat) (x : Group) : (s.setGroup g x).pimem = s.pimem := rfl
@[simp] theorem State.setGroup_flash (s : State) (g : Nat) (x : Group) : (s.setGroup g x).flash = s.flash := rfl
@[simp] theorem State.setGroup_eccMarks (s : State) (g : Nat) (x : Group) : (s.setGroup g x).eccMarks = s.eccMarks := rfl
@[simp] theorem State.setGroup_loaded (s : State) (g : Nat) (x : Group) : (s.setGroup g x).loaded = s.loaded := rfl
@[simp] theorem State.setGroup_hub (s : State) (g : Nat) (x : Group) : (s.setGroup g x).hub = s.hub := rfl
@[simp] theorem State.setGroup_upd (s : State) (g : Nat) (x : Group) : (s.setGroup g x).upd = s.upd := rfl
@[simp] theorem State.setGroup_ring (s : State) (g : Nat) (x : Group) : (s.setGroup g x).ring = s.ring := rfl
@[simp] theorem State.setGroup_switch (s : State) (g : Nat) (x : Group) : (s.setGroup g x).switch = s.switch := rfl
@[simp] theorem State.setGroup_cyc (s : State) (g : Nat) (x : Group) : (s.setGroup g x).cyc = s.cyc := rfl
@[simp] theorem State.setGroup_time (s : State) (g : Nat) (x : Group) : (s.setGroup g x).time = s.time := rfl
@[simp] theorem State.setGroup_bays (s : State) (g : Nat) (x : Group) : (s.setGroup g x).bays = s.bays := rfl
@[simp] theorem State.setGroup_engines (s : State) (g : Nat) (x : Group) : (s.setGroup g x).engines = s.engines := rfl
@[simp] theorem State.setGroup_initReqs (s : State) (g : Nat) (x : Group) : (s.setGroup g x).initReqs = s.initReqs := rfl
@[simp] theorem State.setGroup_buckets (s : State) (g : Nat) (x : Group) : (s.setGroup g x).buckets = s.buckets := rfl
@[simp] theorem State.setGroup_kettle (s : State) (g : Nat) (x : Group) : (s.setGroup g x).kettle = s.kettle := rfl
@[simp] theorem State.setGroup_pmc (s : State) (g : Nat) (x : Group) : (s.setGroup g x).pmc = s.pmc := rfl
@[simp] theorem State.setGroup_raised (s : State) (g : Nat) (x : Group) : (s.setGroup g x).raised = s.raised := rfl
@[simp] theorem State.setGroup_answer (s : State) (g : Nat) (x : Group) : (s.setGroup g x).answer = s.answer := rfl
@[simp] theorem State.setGroup_fresh (s : State) (g : Nat) (x : Group) : (s.setGroup g x).fresh = s.fresh := rfl

/-! ### setScript -/

@[simp] theorem State.setScript_pending (s : State) (i : Nat) (x : Script) : (s.setScript i x).pending = s.pending := rfl
@[simp] theorem State.setScript_variant (s : State) (i : Nat) (x : Script) : (s.setScript i x).variant = s.variant := rfl
@[simp] theorem State.setScript_rootKey (s : State) (i : Nat) (x : Script) : (s.setScript i x).rootKey = s.rootKey := rfl
@[simp] theorem State.setScript_now (s : State) (i : Nat) (x : Script) : (s.setScript i x).now = s.now := rfl
@[simp] theorem State.setScript_clk (s : State) (i : Nat) (x : Script) : (s.setScript i x).clk = s.clk := rfl
@[simp] theorem State.setScript_regs (s : State) (i : Nat) (x : Script) : (s.setScript i x).regs = s.regs := rfl
@[simp] theorem State.setScript_store (s : State) (i : Nat) (x : Script) : (s.setScript i x).store = s.store := rfl
@[simp] theorem State.setScript_pimem (s : State) (i : Nat) (x : Script) : (s.setScript i x).pimem = s.pimem := rfl
@[simp] theorem State.setScript_flash (s : State) (i : Nat) (x : Script) : (s.setScript i x).flash = s.flash := rfl
@[simp] theorem State.setScript_eccMarks (s : State) (i : Nat) (x : Script) : (s.setScript i x).eccMarks = s.eccMarks := rfl
@[simp] theorem State.setScript_loaded (s : State) (i : Nat) (x : Script) : (s.setScript i x).loaded = s.loaded := rfl
@[simp] theorem State.setScript_hub (s : State) (i : Nat) (x : Script) : (s.setScript i x).hub = s.hub := rfl
@[simp] theorem State.setScript_upd (s : State) (i : Nat) (x : Script) : (s.setScript i x).upd = s.upd := rfl
@[simp] theorem State.setScript_ring (s : State) (i : Nat) (x : Script) : (s.setScript i x).ring = s.ring := rfl
@[simp] theorem State.setScript_switch (s : State) (i : Nat) (x : Script) : (s.setScript i x).switch = s.switch := rfl
@[simp] theorem State.setScript_cyc (s : State) (i : Nat) (x : Script) : (s.setScript i x).cyc = s.cyc := rfl
@[simp] theorem State.setScript_time (s : State) (i : Nat) (x : Script) : (s.setScript i x).time = s.time := rfl
@[simp] theorem State.setScript_bays (s : State) (i : Nat) (x : Script) : (s.setScript i x).bays = s.bays := rfl
@[simp] theorem State.setScript_engines (s : State) (i : Nat) (x : Script) : (s.setScript i x).engines = s.engines := rfl
@[simp] theorem State.setScript_initReqs (s : State) (i : Nat) (x : Script) : (s.setScript i x).initReqs = s.initReqs := rfl
@[simp] theorem State.setScript_buckets (s : State) (i : Nat) (x : Script) : (s.setScript i x).buckets = s.buckets := rfl
@[simp] theorem State.setScript_kettle (s : State) (i : Nat) (x : Script) : (s.setScript i x).kettle = s.kettle := rfl
@[simp] theorem State.setScript_pmc (s : State) (i : Nat) (x : Script) : (s.setScript i x).pmc = s.pmc := rfl
@[simp] theorem State.setScript_raised (s : State) (i : Nat) (x : Script) : (s.setScript i x).raised = s.raised := rfl
@[simp] theorem State.setScript_answer (s : State) (i : Nat) (x : Script) : (s.setScript i x).answer = s.answer := rfl
@[simp] theorem State.setScript_fresh (s : State) (i : Nat) (x : Script) : (s.setScript i x).fresh = s.fresh := rfl

/-! ### setLink -/

@[simp] theorem State.setLink_pending (s : State) (p : Nat) (l : Link) : (s.setLink p l).pending = s.pending := rfl
@[simp] theorem State.setLink_variant (s : State) (p : Nat) (l : Link) : (s.setLink p l).variant = s.variant := rfl
@[simp] theorem State.setLink_rootKey (s : State) (p : Nat) (l : Link) : (s.setLink p l).rootKey = s.rootKey := rfl
@[simp] theorem State.setLink_now (s : State) (p : Nat) (l : Link) : (s.setLink p l).now = s.now := rfl
@[simp] theorem State.setLink_clk (s : State) (p : Nat) (l : Link) : (s.setLink p l).clk = s.clk := rfl
@[simp] theorem State.setLink_regs (s : State) (p : Nat) (l : Link) : (s.setLink p l).regs = s.regs := rfl
@[simp] theorem State.setLink_store (s : State) (p : Nat) (l : Link) : (s.setLink p l).store = s.store := rfl
@[simp] theorem State.setLink_pimem (s : State) (p : Nat) (l : Link) : (s.setLink p l).pimem = s.pimem := rfl
@[simp] theorem State.setLink_flash (s : State) (p : Nat) (l : Link) : (s.setLink p l).flash = s.flash := rfl
@[simp] theorem State.setLink_eccMarks (s : State) (p : Nat) (l : Link) : (s.setLink p l).eccMarks = s.eccMarks := rfl
@[simp] theorem State.setLink_loaded (s : State) (p : Nat) (l : Link) : (s.setLink p l).loaded = s.loaded := rfl
@[simp] theorem State.setLink_hub (s : State) (p : Nat) (l : Link) : (s.setLink p l).hub = s.hub := rfl
@[simp] theorem State.setLink_upd (s : State) (p : Nat) (l : Link) : (s.setLink p l).upd = s.upd := rfl
@[simp] theorem State.setLink_switch (s : State) (p : Nat) (l : Link) : (s.setLink p l).switch = s.switch := rfl
@[simp] theorem State.setLink_cyc (s : State) (p : Nat) (l : Link) : (s.setLink p l).cyc = s.cyc := rfl
@[simp] theorem State.setLink_time (s : State) (p : Nat) (l : Link) : (s.setLink p l).time = s.time := rfl
@[simp] theorem State.setLink_bays (s : State) (p : Nat) (l : Link) : (s.setLink p l).bays = s.bays := rfl
@[simp] theorem State.setLink_engines (s : State) (p : Nat) (l : Link) : (s.setLink p l).engines = s.engines := rfl
@[simp] theorem State.setLink_initReqs (s : State) (p : Nat) (l : Link) : (s.setLink p l).initReqs = s.initReqs := rfl
@[simp] theorem State.setLink_buckets (s : State) (p : Nat) (l : Link) : (s.setLink p l).buckets = s.buckets := rfl
@[simp] theorem State.setLink_power (s : State) (p : Nat) (l : Link) : (s.setLink p l).power = s.power := rfl
@[simp] theorem State.setLink_kettle (s : State) (p : Nat) (l : Link) : (s.setLink p l).kettle = s.kettle := rfl
@[simp] theorem State.setLink_pmc (s : State) (p : Nat) (l : Link) : (s.setLink p l).pmc = s.pmc := rfl
@[simp] theorem State.setLink_raised (s : State) (p : Nat) (l : Link) : (s.setLink p l).raised = s.raised := rfl
@[simp] theorem State.setLink_answer (s : State) (p : Nat) (l : Link) : (s.setLink p l).answer = s.answer := rfl
@[simp] theorem State.setLink_fresh (s : State) (p : Nat) (l : Link) : (s.setLink p l).fresh = s.fresh := rfl

/-! ### setSteam -/

@[simp] theorem State.setSteam_pending (s : State) (p : Nat) (q : List SteamOut) : (s.setSteam p q).pending = s.pending := rfl
@[simp] theorem State.setSteam_variant (s : State) (p : Nat) (q : List SteamOut) : (s.setSteam p q).variant = s.variant := rfl
@[simp] theorem State.setSteam_rootKey (s : State) (p : Nat) (q : List SteamOut) : (s.setSteam p q).rootKey = s.rootKey := rfl
@[simp] theorem State.setSteam_now (s : State) (p : Nat) (q : List SteamOut) : (s.setSteam p q).now = s.now := rfl
@[simp] theorem State.setSteam_clk (s : State) (p : Nat) (q : List SteamOut) : (s.setSteam p q).clk = s.clk := rfl
@[simp] theorem State.setSteam_regs (s : State) (p : Nat) (q : List SteamOut) : (s.setSteam p q).regs = s.regs := rfl
@[simp] theorem State.setSteam_store (s : State) (p : Nat) (q : List SteamOut) : (s.setSteam p q).store = s.store := rfl
@[simp] theorem State.setSteam_pimem (s : State) (p : Nat) (q : List SteamOut) : (s.setSteam p q).pimem = s.pimem := rfl
@[simp] theorem State.setSteam_flash (s : State) (p : Nat) (q : List SteamOut) : (s.setSteam p q).flash = s.flash := rfl
@[simp] theorem State.setSteam_eccMarks (s : State) (p : Nat) (q : List SteamOut) : (s.setSteam p q).eccMarks = s.eccMarks := rfl
@[simp] theorem State.setSteam_loaded (s : State) (p : Nat) (q : List SteamOut) : (s.setSteam p q).loaded = s.loaded := rfl
@[simp] theorem State.setSteam_hub (s : State) (p : Nat) (q : List SteamOut) : (s.setSteam p q).hub = s.hub := rfl
@[simp] theorem State.setSteam_upd (s : State) (p : Nat) (q : List SteamOut) : (s.setSteam p q).upd = s.upd := rfl
@[simp] theorem State.setSteam_switch (s : State) (p : Nat) (q : List SteamOut) : (s.setSteam p q).switch = s.switch := rfl
@[simp] theorem State.setSteam_cyc (s : State) (p : Nat) (q : List SteamOut) : (s.setSteam p q).cyc = s.cyc := rfl
@[simp] theorem State.setSteam_time (s : State) (p : Nat) (q : List SteamOut) : (s.setSteam p q).time = s.time := rfl
@[simp] theorem State.setSteam_bays (s : State) (p : Nat) (q : List SteamOut) : (s.setSteam p q).bays = s.bays := rfl
@[simp] theorem State.setSteam_engines (s : State) (p : Nat) (q : List SteamOut) : (s.setSteam p q).engines = s.engines := rfl
@[simp] theorem State.setSteam_initReqs (s : State) (p : Nat) (q : List SteamOut) : (s.setSteam p q).initReqs = s.initReqs := rfl
@[simp] theorem State.setSteam_buckets (s : State) (p : Nat) (q : List SteamOut) : (s.setSteam p q).buckets = s.buckets := rfl
@[simp] theorem State.setSteam_power (s : State) (p : Nat) (q : List SteamOut) : (s.setSteam p q).power = s.power := rfl
@[simp] theorem State.setSteam_kettle (s : State) (p : Nat) (q : List SteamOut) : (s.setSteam p q).kettle = s.kettle := rfl
@[simp] theorem State.setSteam_pmc (s : State) (p : Nat) (q : List SteamOut) : (s.setSteam p q).pmc = s.pmc := rfl
@[simp] theorem State.setSteam_raised (s : State) (p : Nat) (q : List SteamOut) : (s.setSteam p q).raised = s.raised := rfl
@[simp] theorem State.setSteam_answer (s : State) (p : Nat) (q : List SteamOut) : (s.setSteam p q).answer = s.answer := rfl
@[simp] theorem State.setSteam_fresh (s : State) (p : Nat) (q : List SteamOut) : (s.setSteam p q).fresh = s.fresh := rfl

/-! ### setOutp -/

@[simp] theorem State.setOutp_pending (s : State) (p : Nat) (o : Outp) : (s.setOutp p o).pending = s.pending := rfl
@[simp] theorem State.setOutp_variant (s : State) (p : Nat) (o : Outp) : (s.setOutp p o).variant = s.variant := rfl
@[simp] theorem State.setOutp_rootKey (s : State) (p : Nat) (o : Outp) : (s.setOutp p o).rootKey = s.rootKey := rfl
@[simp] theorem State.setOutp_now (s : State) (p : Nat) (o : Outp) : (s.setOutp p o).now = s.now := rfl
@[simp] theorem State.setOutp_clk (s : State) (p : Nat) (o : Outp) : (s.setOutp p o).clk = s.clk := rfl
@[simp] theorem State.setOutp_regs (s : State) (p : Nat) (o : Outp) : (s.setOutp p o).regs = s.regs := rfl
@[simp] theorem State.setOutp_store (s : State) (p : Nat) (o : Outp) : (s.setOutp p o).store = s.store := rfl
@[simp] theorem State.setOutp_pimem (s : State) (p : Nat) (o : Outp) : (s.setOutp p o).pimem = s.pimem := rfl
@[simp] theorem State.setOutp_flash (s : State) (p : Nat) (o : Outp) : (s.setOutp p o).flash = s.flash := rfl
@[simp] theorem State.setOutp_eccMarks (s : State) (p : Nat) (o : Outp) : (s.setOutp p o).eccMarks = s.eccMarks := rfl
@[simp] theorem State.setOutp_loaded (s : State) (p : Nat) (o : Outp) : (s.setOutp p o).loaded = s.loaded := rfl
@[simp] theorem State.setOutp_hub (s : State) (p : Nat) (o : Outp) : (s.setOutp p o).hub = s.hub := rfl
@[simp] theorem State.setOutp_upd (s : State) (p : Nat) (o : Outp) : (s.setOutp p o).upd = s.upd := rfl
@[simp] theorem State.setOutp_ring (s : State) (p : Nat) (o : Outp) : (s.setOutp p o).ring = s.ring := rfl
@[simp] theorem State.setOutp_cyc (s : State) (p : Nat) (o : Outp) : (s.setOutp p o).cyc = s.cyc := rfl
@[simp] theorem State.setOutp_time (s : State) (p : Nat) (o : Outp) : (s.setOutp p o).time = s.time := rfl
@[simp] theorem State.setOutp_bays (s : State) (p : Nat) (o : Outp) : (s.setOutp p o).bays = s.bays := rfl
@[simp] theorem State.setOutp_engines (s : State) (p : Nat) (o : Outp) : (s.setOutp p o).engines = s.engines := rfl
@[simp] theorem State.setOutp_initReqs (s : State) (p : Nat) (o : Outp) : (s.setOutp p o).initReqs = s.initReqs := rfl
@[simp] theorem State.setOutp_buckets (s : State) (p : Nat) (o : Outp) : (s.setOutp p o).buckets = s.buckets := rfl
@[simp] theorem State.setOutp_power (s : State) (p : Nat) (o : Outp) : (s.setOutp p o).power = s.power := rfl
@[simp] theorem State.setOutp_kettle (s : State) (p : Nat) (o : Outp) : (s.setOutp p o).kettle = s.kettle := rfl
@[simp] theorem State.setOutp_pmc (s : State) (p : Nat) (o : Outp) : (s.setOutp p o).pmc = s.pmc := rfl
@[simp] theorem State.setOutp_raised (s : State) (p : Nat) (o : Outp) : (s.setOutp p o).raised = s.raised := rfl
@[simp] theorem State.setOutp_answer (s : State) (p : Nat) (o : Outp) : (s.setOutp p o).answer = s.answer := rfl
@[simp] theorem State.setOutp_fresh (s : State) (p : Nat) (o : Outp) : (s.setOutp p o).fresh = s.fresh := rfl

/-! ### setTio -/

@[simp] theorem State.setTio_pending (s : State) (k : Nat) (x : TimeIo) : (s.setTio k x).pending = s.pending := rfl
@[simp] theorem State.setTio_variant (s : State) (k : Nat) (x : TimeIo) : (s.setTio k x).variant = s.variant := rfl
@[simp] theorem State.setTio_rootKey (s : State) (k : Nat) (x : TimeIo) : (s.setTio k x).rootKey = s.rootKey := rfl
@[simp] theorem State.setTio_now (s : State) (k : Nat) (x : TimeIo) : (s.setTio k x).now = s.now := rfl
@[simp] theorem State.setTio_clk (s : State) (k : Nat) (x : TimeIo) : (s.setTio k x).clk = s.clk := rfl
@[simp] theorem State.setTio_regs (s : State) (k : Nat) (x : TimeIo) : (s.setTio k x).regs = s.regs := rfl
@[simp] theorem State.setTio_store (s : State) (k : Nat) (x : TimeIo) : (s.setTio k x).store = s.store := rfl
@[simp] theorem State.setTio_pimem (s : State) (k : Nat) (x : TimeIo) : (s.setTio k x).pimem = s.pimem := rfl
@[simp] theorem State.setTio_flash (s : State) (k : Nat) (x : TimeIo) : (s.setTio k x).flash = s.flash := rfl
@[simp] theorem State.setTio_eccMarks (s : State) (k : Nat) (x : TimeIo) : (s.setTio k x).eccMarks = s.eccMarks := rfl
@[simp] theorem State.setTio_loaded (s : State) (k : Nat) (x : TimeIo) : (s.setTio k x).loaded = s.loaded := rfl
@[simp] theorem State.setTio_hub (s : State) (k : Nat) (x : TimeIo) : (s.setTio k x).hub = s.hub := rfl
@[simp] theorem State.setTio_upd (s : State) (k : Nat) (x : TimeIo) : (s.setTio k x).upd = s.upd := rfl
@[simp] theorem State.setTio_ring (s : State) (k : Nat) (x : TimeIo) : (s.setTio k x).ring = s.ring := rfl
@[simp] theorem State.setTio_switch (s : State) (k : Nat) (x : TimeIo) : (s.setTio k x).switch = s.switch := rfl
@[simp] theorem State.setTio_cyc (s : State) (k : Nat) (x : TimeIo) : (s.setTio k x).cyc = s.cyc := rfl
@[simp] theorem State.setTio_bays (s : State) (k : Nat) (x : TimeIo) : (s.setTio k x).bays = s.bays := rfl
@[simp] theorem State.setTio_engines (s : State) (k : Nat) (x : TimeIo) : (s.setTio k x).engines = s.engines := rfl
@[simp] theorem State.setTio_initReqs (s : State) (k : Nat) (x : TimeIo) : (s.setTio k x).initReqs = s.initReqs := rfl
@[simp] theorem State.setTio_buckets (s : State) (k : Nat) (x : TimeIo) : (s.setTio k x).buckets = s.buckets := rfl
@[simp] theorem State.setTio_power (s : State) (k : Nat) (x : TimeIo) : (s.setTio k x).power = s.power := rfl
@[simp] theorem State.setTio_kettle (s : State) (k : Nat) (x : TimeIo) : (s.setTio k x).kettle = s.kettle := rfl
@[simp] theorem State.setTio_pmc (s : State) (k : Nat) (x : TimeIo) : (s.setTio k x).pmc = s.pmc := rfl
@[simp] theorem State.setTio_raised (s : State) (k : Nat) (x : TimeIo) : (s.setTio k x).raised = s.raised := rfl
@[simp] theorem State.setTio_answer (s : State) (k : Nat) (x : TimeIo) : (s.setTio k x).answer = s.answer := rfl
@[simp] theorem State.setTio_fresh (s : State) (k : Nat) (x : TimeIo) : (s.setTio k x).fresh = s.fresh := rfl

/-! ### setSched -/

@[simp] theorem State.setSched_pending (s : State) (i : Nat) (x : Option Sched) : (s.setSched i x).pending = s.pending := rfl
@[simp] theorem State.setSched_variant (s : State) (i : Nat) (x : Option Sched) : (s.setSched i x).variant = s.variant := rfl
@[simp] theorem State.setSched_rootKey (s : State) (i : Nat) (x : Option Sched) : (s.setSched i x).rootKey = s.rootKey := rfl
@[simp] theorem State.setSched_now (s : State) (i : Nat) (x : Option Sched) : (s.setSched i x).now = s.now := rfl
@[simp] theorem State.setSched_clk (s : State) (i : Nat) (x : Option Sched) : (s.setSched i x).clk = s.clk := rfl
@[simp] theorem State.setSched_regs (s : State) (i : Nat) (x : Option Sched) : (s.setSched i x).regs = s.regs := rfl
@[simp] theorem State.setSched_store (s : State) (i : Nat) (x : Option Sched) : (s.setSched i x).store = s.store := rfl
@[simp] theorem State.setSched_pimem (s : State) (i : Nat) (x : Option Sched) : (s.setSched i x).pimem = s.pimem := rfl
@[simp] theorem State.setSched_flash (s : State) (i : Nat) (x : Option Sched) : (s.setSched i x).flash = s.flash := rfl
@[simp] theorem State.setSched_eccMarks (s : State) (i : Nat) (x : Option Sched) : (s.setSched i x).eccMarks = s.eccMarks := rfl
@[simp] theorem State.setSched_loaded (s : State) (i : Nat) (x : Option Sched) : (s.setSched i x).loaded = s.loaded := rfl
@[simp] theorem State.setSched_hub (s : State) (i : Nat) (x : Option Sched) : (s.setSched i x).hub = s.hub := rfl
@[simp] theorem State.setSched_upd (s : State) (i : Nat) (x : Option Sched) : (s.setSched i x).upd = s.upd := rfl
@[simp] theorem State.setSched_ring (s : State) (i : Nat) (x : Option Sched) : (s.setSched i x).ring = s.ring := rfl
@[simp] theorem State.setSched_switch (s : State) (i : Nat) (x : Option Sched) : (s.setSched i x).switch = s.switch := rfl
@[simp] theorem State.setSched_cyc (s : State) (i : Nat) (x : Option Sched) : (s.setSched i x).cyc = s.cyc := rfl
@[simp] theorem State.setSched_bays (s : State) (i : Nat) (x : Option Sched) : (s.setSched i x).bays = s.bays := rfl
@[simp] theorem State.setSched_engines (s : State) (i : Nat) (x : Option Sched) : (s.setSched i x).engines = s.engines := rfl
@[simp] theorem State.setSched_initReqs (s : State) (i : Nat) (x : Option Sched) : (s.setSched i x).initReqs = s.initReqs := rfl
@[simp] theorem State.setSched_buckets (s : State) (i : Nat) (x : Option Sched) : (s.setSched i x).buckets = s.buckets := rfl
@[simp] theorem State.setSched_power (s : State) (i : Nat) (x : Option Sched) : (s.setSched i x).power = s.power := rfl
@[simp] theorem State.setSched_kettle (s : State) (i : Nat) (x : Option Sched) : (s.setSched i x).kettle = s.kettle := rfl
@[simp] theorem State.setSched_pmc (s : State) (i : Nat) (x : Option Sched) : (s.setSched i x).pmc = s.pmc := rfl
@[simp] theorem State.setSched_raised (s : State) (i : Nat) (x : Option Sched) : (s.setSched i x).raised = s.raised := rfl
@[simp] theorem State.setSched_answer (s : State) (i : Nat) (x : Option Sched) : (s.setSched i x).answer = s.answer := rfl
@[simp] theorem State.setSched_fresh (s : State) (i : Nat) (x : Option Sched) : (s.setSched i x).fresh = s.fresh := rfl

/-! ### setPdelay -/

@[simp] theorem State.setPdelay_pending (s : State) (p : Nat) (d : PDelay) : (s.setPdelay p d).pending = s.pending := rfl
@[simp] theorem State.setPdelay_variant (s : State) (p : Nat) (d : PDelay) : (s.setPdelay p d).variant = s.variant := rfl
@[simp] theorem State.setPdelay_rootKey (s : State) (p : Nat) (d : PDelay) : (s.setPdelay p d).rootKey = s.rootKey := rfl
@[simp] theorem State.setPdelay_now (s : State) (p : Nat) (d : PDelay) : (s.setPdelay p d).now = s.now := rfl
@[simp] theorem State.setPdelay_clk (s : State) (p : Nat) (d : PDelay) : (s.setPdelay p d).clk = s.clk := rfl
@[simp] theorem State.setPdelay_regs (s : State) (p : Nat) (d : PDelay) : (s.setPdelay p d).regs = s.regs := rfl
@[simp] theorem State.setPdelay_store (s : State) (p : Nat) (d : PDelay) : (s.setPdelay p d).store = s.store := rfl
@[simp] theorem State.setPdelay_pimem (s : State) (p : Nat) (d : PDelay) : (s.setPdelay p d).pimem = s.pimem := rfl
@[simp] theorem State.setPdelay_flash (s : State) (p : Nat) (d : PDelay) : (s.setPdelay p d).flash = s.flash := rfl
@[simp] theorem State.setPdelay_eccMarks (s : State) (p : Nat) (d : PDelay) : (s.setPdelay p d).eccMarks = s.eccMarks := rfl
@[simp] theorem State.setPdelay_loaded (s : State) (p : Nat) (d : PDelay) : (s.setPdelay p d).loaded = s.loaded := rfl
@[simp] theorem State.setPdelay_hub (s : State) (p : Nat) (d : PDelay) : (s.setPdelay p d).hub = s.hub := rfl
@[simp] theorem State.setPdelay_upd (s : State) (p : Nat) (d : PDelay) : (s.setPdelay p d).upd = s.upd := rfl
@[simp] theorem State.setPdelay_ring (s : State) (p : Nat) (d : PDelay) : (s.setPdelay p d).ring = s.ring := rfl
@[simp] theorem State.setPdelay_switch (s : State) (p : Nat) (d : PDelay) : (s.setPdelay p d).switch = s.switch := rfl
@[simp] theorem State.setPdelay_cyc (s : State) (p : Nat) (d : PDelay) : (s.setPdelay p d).cyc = s.cyc := rfl
@[simp] theorem State.setPdelay_bays (s : State) (p : Nat) (d : PDelay) : (s.setPdelay p d).bays = s.bays := rfl
@[simp] theorem State.setPdelay_engines (s : State) (p : Nat) (d : PDelay) : (s.setPdelay p d).engines = s.engines := rfl
@[simp] theorem State.setPdelay_initReqs (s : State) (p : Nat) (d : PDelay) : (s.setPdelay p d).initReqs = s.initReqs := rfl
@[simp] theorem State.setPdelay_buckets (s : State) (p : Nat) (d : PDelay) : (s.setPdelay p d).buckets = s.buckets := rfl
@[simp] theorem State.setPdelay_power (s : State) (p : Nat) (d : PDelay) : (s.setPdelay p d).power = s.power := rfl
@[simp] theorem State.setPdelay_kettle (s : State) (p : Nat) (d : PDelay) : (s.setPdelay p d).kettle = s.kettle := rfl
@[simp] theorem State.setPdelay_pmc (s : State) (p : Nat) (d : PDelay) : (s.setPdelay p d).pmc = s.pmc := rfl
@[simp] theorem State.setPdelay_raised (s : State) (p : Nat) (d : PDelay) : (s.setPdelay p d).raised = s.raised := rfl
@[simp] theorem State.setPdelay_answer (s : State) (p : Nat) (d : PDelay) : (s.setPdelay p d).answer = s.answer := rfl
@[simp] theorem State.setPdelay_fresh (s : State) (p : Nat) (d : PDelay) : (s.setPdelay p d).fresh = s.fresh := rfl

/-! ### tookTurn -/

@[simp] theorem State.tookTurn_pending (s : State) (i : Nat) : (s.tookTurn i).pending = s.pending := rfl
@[simp] theorem State.tookTurn_variant (s : State) (i : Nat) : (s.tookTurn i).variant = s.variant := rfl
@[simp] theorem State.tookTurn_rootKey (s : State) (i : Nat) : (s.tookTurn i).rootKey = s.rootKey := rfl
@[simp] theorem State.tookTurn_now (s : State) (i : Nat) : (s.tookTurn i).now = s.now := rfl
@[simp] theorem State.tookTurn_clk (s : State) (i : Nat) : (s.tookTurn i).clk = s.clk := rfl
@[simp] theorem State.tookTurn_regs (s : State) (i : Nat) : (s.tookTurn i).regs = s.regs := rfl
@[simp] theorem State.tookTurn_store (s : State) (i : Nat) : (s.tookTurn i).store = s.store := rfl
@[simp] theorem State.tookTurn_pimem (s : State) (i : Nat) : (s.tookTurn i).pimem = s.pimem := rfl
@[simp] theorem State.tookTurn_flash (s : State) (i : Nat) : (s.tookTurn i).flash = s.flash := rfl
@[simp] theorem State.tookTurn_eccMarks (s : State) (i : Nat) : (s.tookTurn i).eccMarks = s.eccMarks := rfl
@[simp] theorem State.tookTurn_loaded (s : State) (i : Nat) : (s.tookTurn i).loaded = s.loaded := rfl
@[simp] theorem State.tookTurn_hub (s : State) (i : Nat) : (s.tookTurn i).hub = s.hub := rfl
@[simp] theorem State.tookTurn_upd (s : State) (i : Nat) : (s.tookTurn i).upd = s.upd := rfl
@[simp] theorem State.tookTurn_ring (s : State) (i : Nat) : (s.tookTurn i).ring = s.ring := rfl
@[simp] theorem State.tookTurn_switch (s : State) (i : Nat) : (s.tookTurn i).switch = s.switch := rfl
@[simp] theorem State.tookTurn_cyc (s : State) (i : Nat) : (s.tookTurn i).cyc = s.cyc := rfl
@[simp] theorem State.tookTurn_time (s : State) (i : Nat) : (s.tookTurn i).time = s.time := rfl
@[simp] theorem State.tookTurn_bays (s : State) (i : Nat) : (s.tookTurn i).bays = s.bays := rfl
@[simp] theorem State.tookTurn_engines (s : State) (i : Nat) : (s.tookTurn i).engines = s.engines := rfl
@[simp] theorem State.tookTurn_initReqs (s : State) (i : Nat) : (s.tookTurn i).initReqs = s.initReqs := rfl
@[simp] theorem State.tookTurn_buckets (s : State) (i : Nat) : (s.tookTurn i).buckets = s.buckets := rfl
@[simp] theorem State.tookTurn_kettle (s : State) (i : Nat) : (s.tookTurn i).kettle = s.kettle := rfl
@[simp] theorem State.tookTurn_pmc (s : State) (i : Nat) : (s.tookTurn i).pmc = s.pmc := rfl
@[simp] theorem State.tookTurn_raised (s : State) (i : Nat) : (s.tookTurn i).raised = s.raised := rfl
@[simp] theorem State.tookTurn_answer (s : State) (i : Nat) : (s.tookTurn i).answer = s.answer := rfl
@[simp] theorem State.tookTurn_fresh (s : State) (i : Nat) : (s.tookTurn i).fresh = s.fresh := rfl

/-! ### takeFree -/

@[simp] theorem State.takeFree_pending (s : State) : s.takeFree.2.pending = s.pending := rfl
@[simp] theorem State.takeFree_variant (s : State) : s.takeFree.2.variant = s.variant := rfl
@[simp] theorem State.takeFree_rootKey (s : State) : s.takeFree.2.rootKey = s.rootKey := rfl
@[simp] theorem State.takeFree_now (s : State) : s.takeFree.2.now = s.now := rfl
@[simp] theorem State.takeFree_clk (s : State) : s.takeFree.2.clk = s.clk := rfl
@[simp] theorem State.takeFree_regs (s : State) : s.takeFree.2.regs = s.regs := rfl
@[simp] theorem State.takeFree_store (s : State) : s.takeFree.2.store = s.store := rfl
@[simp] theorem State.takeFree_pimem (s : State) : s.takeFree.2.pimem = s.pimem := rfl
@[simp] theorem State.takeFree_flash (s : State) : s.takeFree.2.flash = s.flash := rfl
@[simp] theorem State.takeFree_eccMarks (s : State) : s.takeFree.2.eccMarks = s.eccMarks := rfl
@[simp] theorem State.takeFree_loaded (s : State) : s.takeFree.2.loaded = s.loaded := rfl
@[simp] theorem State.takeFree_hub (s : State) : s.takeFree.2.hub = s.hub := rfl
@[simp] theorem State.takeFree_upd (s : State) : s.takeFree.2.upd = s.upd := rfl
@[simp] theorem State.takeFree_ring (s : State) : s.takeFree.2.ring = s.ring := rfl
@[simp] theorem State.takeFree_switch (s : State) : s.takeFree.2.switch = s.switch := rfl
@[simp] theorem State.takeFree_cyc (s : State) : s.takeFree.2.cyc = s.cyc := rfl
@[simp] theorem State.takeFree_time (s : State) : s.takeFree.2.time = s.time := rfl
@[simp] theorem State.takeFree_bays (s : State) : s.takeFree.2.bays = s.bays := rfl
@[simp] theorem State.takeFree_engines (s : State) : s.takeFree.2.engines = s.engines := rfl
@[simp] theorem State.takeFree_initReqs (s : State) : s.takeFree.2.initReqs = s.initReqs := rfl
@[simp] theorem State.takeFree_buckets (s : State) : s.takeFree.2.buckets = s.buckets := rfl
@[simp] theorem State.takeFree_power (s : State) : s.takeFree.2.power = s.power := rfl
@[simp] theorem State.takeFree_kettle (s : State) : s.takeFree.2.kettle = s.kettle := rfl
@[simp] theorem State.takeFree_pmc (s : State) : s.takeFree.2.pmc = s.pmc := rfl
@[simp] theorem State.takeFree_raised (s : State) : s.takeFree.2.raised = s.raised := rfl
@[simp] theorem State.takeFree_answer (s : State) : s.takeFree.2.answer = s.answer := rfl
@[simp] theorem State.takeFree_fresh (s : State) : s.takeFree.2.fresh = s.fresh + 1 := rfl

/-! ### What an update sets -/

@[simp] theorem State.withPending_pending (s : State) (q : List Instr) : (s.withPending q).pending = q := rfl
@[simp] theorem State.answered_answer (s : State) (c : RCode) (d : List Word) : (s.answered c d).answer = some ⟨c, d⟩ := rfl
@[simp] theorem State.tookTurn_scriptTurn (s : State) (i : Nat) : (s.tookTurn i).power.scriptTurn = i := rfl
@[simp] theorem State.raise_raised (s : State) (i d : Nat) : (s.raise i d).raised = s.raised ++ [⟨i, d % 2 ^ 32⟩] := rfl

end Sys2Proof.Machine
end

