-- ==== Sys2Proof/Laws/Kettle.lean ====
section
/-!
SUPPORT. Laws of what ends every command: the Kettle takes in what was raised, and nothing stays raised.
-/

namespace Sys2Proof.Machine

theorem intake_raised (n : Nat) (s : State) : (State.intake n s).raised = [] := by
  induction n generalizing s with
  | zero => rfl
  | succ n ih =>
    unfold State.intake
    split
    · next h => exact List.isEmpty_iff.mp h
    · split
      · rfl
      · exact ih _

theorem ringSettle_raised (n : Nat) (s : State) (h : s.raised = []) : (State.ringSettle n s).raised = [] := by
  induction n generalizing s with
  | zero => exact h
  | succ n ih =>
    unfold State.ringSettle
    split
    · exact ih _ (intake_raised _ _)
    · exact h

/-- Where no link has changed, the ring link monitor does nothing. -/
theorem ringSettle_quiet (n : Nat) (s : State) (h : s.hub.ringDue = false) : State.ringSettle (n + 1) s = s := by
  simp [State.ringSettle, h]

theorem ringSettle_ringDue (n : Nat) (s : State) : (State.ringSettle n s).hub.ringDue = false := by
  induction n generalizing s with
  | zero => rfl
  | succ n ih =>
    unfold State.ringSettle
    split
    · exact ih _
    · next h => simpa using h

/-- After a command no event waits for the Kettle. -/
@[simp] theorem settle_raised (s : State) : s.settle.raised = [] := by
  rw [State.settle, State.noteDone_raised, ringSettle_raised _ _ (intake_raised _ _)]

/-- Where nothing was raised, nothing is taken in. -/
theorem intake_quiet (n : Nat) (s : State) (h : s.raised = []) : State.intake n s = s := by
  cases n with
  | zero =>
    cases s
    simp only at h
    subst h
    rfl
  | succ n => simp [State.intake, h]

theorem settle_quiet (s : State) (h : s.raised = []) (hr : s.hub.ringDue = false) : s.settle = s.noteDone := by
  rw [State.settle, intake_quiet 16 s h, ringSettle_quiet 3 s hr]

/-- Without masks no reaction is awaited. -/
theorem noteDone_eq (s : State) (h : s.kettle.masks = []) : s.noteDone = s := by
  unfold State.noteDone
  rw [h]
  cases s
  rename_i k _ _ _ _
  cases k
  simp_all

/-- A command that raises nothing and changes no link of the ring, with no mask in force, leaves its own effect. -/
theorem settle_eq (s : State) (h : s.raised = []) (hr : s.hub.ringDue = false) (hm : s.kettle.masks = []) : s.settle = s := by
  rw [settle_quiet s h hr, noteDone_eq s hm]

theorem done_eq (s : State) : done s = .next s.settle := rfl

end Sys2Proof.Machine
end

