-- ==== Sys2Proof/Laws/SMap.lean ====
section
/-!
SUPPORT. Laws of sparse memories: a read after a write, and that every operation keeps the canonical form.
-/

namespace Sys2Proof.Machine

variable {α : Type}

@[simp] theorem mget_nil (d : α) (k : Nat) : mget d [] k = d := rfl

@[simp] theorem mget_mdel_same (d : α) (m : SMap α) (k : Nat) : mget d (mdel m k) k = d := by
  induction m with
  | nil => rfl
  | cons x rest ih =>
    obtain ⟨k', v⟩ := x
    by_cases h : k' = k <;> simp [mdel, mget, h, ih]

theorem mget_mdel_ne (d : α) (m : SMap α) {k j : Nat} (h : j ≠ k) : mget d (mdel m k) j = mget d m j := by
  induction m with
  | nil => rfl
  | cons x rest ih =>
    obtain ⟨k', v⟩ := x
    by_cases hk : k' = k
    · subst hk
      simp [mdel, mget, ih, h.symm]
    · by_cases hj : k' = j
      · subst hj
        simp [mdel, mget, h]
      · simp [mdel, mget, hk, hj, ih]

theorem mget_mins_ne (d : α) (m : SMap α) (v : α) {k j : Nat} (h : j ≠ k) : mget d (mins m k v) j = mget d m j := by
  induction m with
  | nil => simp [mins, mget, h.symm]
  | cons x rest ih =>
    obtain ⟨k', w⟩ := x
    by_cases hk : k < k'
    · simp [mins, mget, hk, h.symm]
    · by_cases hj : k' = j
      · subst hj
        simp [mins, mget, hk]
      · simp [mins, mget, hk, hj, ih]

/-- No entry of the map has key `k`. -/
theorem mget_mins_same (d : α) (m : SMap α) (k : Nat) (v : α) (h : ∀ x ∈ m, x.1 ≠ k) : mget d (mins m k v) k = v := by
  induction m with
  | nil => simp [mins, mget]
  | cons x rest ih =>
    obtain ⟨k', w⟩ := x
    have h1 : k' ≠ k := h (k', w) (by simp)
    by_cases hk : k < k'
    · simp [mins, mget, hk]
    · simp [mins, mget, hk, h1, ih (fun y hy => h y (by simp [hy]))]

theorem mdel_key_ne (m : SMap α) (k : Nat) : ∀ x ∈ mdel m k, x.1 ≠ k := by
  induction m with
  | nil => simp [mdel]
  | cons y rest ih =>
    obtain ⟨k', w⟩ := y
    by_cases hk : k' = k
    · simpa [mdel, hk] using ih
    · intro x hx
      simp only [mdel, hk, if_false, List.mem_cons] at hx
      rcases hx with rfl | hx
      · exact hk
      · exact ih x hx

variable [DecidableEq α]

@[simp] theorem mget_mput_same (d : α) (m : SMap α) (k : Nat) (v : α) : mget d (mput d m k v) k = v := by
  unfold mput
  split
  · next h => simp [h]
  · exact mget_mins_same d _ k v (mdel_key_ne m k)

theorem mget_mput_ne (d : α) (m : SMap α) (v : α) {k j : Nat} (h : j ≠ k) : mget d (mput d m k v) j = mget d m j := by
  unfold mput
  split
  · exact mget_mdel_ne d m h
  · rw [mget_mins_ne d _ v h, mget_mdel_ne d m h]

/-! ### The canonical form -/

theorem mwfAbove_weaken (d : α) {b c : Option Nat} {m : SMap α} (h : mwfAbove d b m = true)
    (hb : ∀ x ∈ c, ∃ y ∈ b, x ≤ y) : mwfAbove d c m = true := by
  cases m with
  | nil => rfl
  | cons x rest =>
    obtain ⟨k, v⟩ := x
    simp only [mwfAbove, Bool.and_eq_true] at h ⊢
    refine ⟨⟨?_, h.1.2⟩, h.2⟩
    cases c with
    | none => rfl
    | some c =>
      obtain ⟨y, hy, hle⟩ := hb c rfl
      cases b with
      | none => cases hy
      | some b =>
        cases hy
        have := h.1.1
        simp only [decide_eq_true_eq] at this ⊢
        omega

theorem mwfAbove_mdel (d : α) (m : SMap α) (b : Option Nat) (k : Nat) (h : mwfAbove d b m = true) :
    mwfAbove d b (mdel m k) = true := by
  induction m generalizing b with
  | nil => rfl
  | cons x rest ih =>
    obtain ⟨k', v⟩ := x
    simp only [mwfAbove, Bool.and_eq_true] at h
    by_cases hk : k' = k
    · simp only [mdel, hk, if_true]
      refine ih b (mwfAbove_weaken d h.2 ?_)
      intro x hx
      cases b with
      | none => cases hx
      | some b =>
        cases hx
        exact ⟨k', rfl, by have := h.1.1; simp only [decide_eq_true_eq] at this; omega⟩
    · simp only [mdel, hk, if_false, mwfAbove, Bool.and_eq_true]
      exact ⟨h.1, ih _ h.2⟩

theorem mwfAbove_mins (d : α) (m : SMap α) (b : Option Nat) (k : Nat) (v : α) (h : mwfAbove d b m = true)
    (hb : ∀ x ∈ b, x < k) (hk : ∀ x ∈ m, x.1 ≠ k) (hv : v ≠ d) : mwfAbove d b (mins m k v) = true := by
  induction m generalizing b with
  | nil =>
    cases b with
    | none => simp [mins, mwfAbove, hv]
    | some b => simp [mins, mwfAbove, hv, hb b rfl]
  | cons x rest ih =>
    obtain ⟨k', w⟩ := x
    simp only [mwfAbove, Bool.and_eq_true] at h
    by_cases hlt : k < k'
    · simp only [mins, hlt, if_true, mwfAbove, Bool.and_eq_true]
      refine ⟨⟨?_, by simp [hv]⟩, ⟨by simp, h.1.2⟩, h.2⟩
      cases b with
      | none => rfl
      | some b => simpa using hb b rfl
    · have hne : k' ≠ k := hk (k', w) (by simp)
      simp only [mins, hlt, if_false, mwfAbove, Bool.and_eq_true]
      refine ⟨h.1, ih _ h.2 ?_ (fun y hy => hk y (by simp [hy]))⟩
      intro x hx
      cases hx
      omega

/-- A write keeps the canonical form. -/
theorem mwf_mput (d : α) (m : SMap α) (k : Nat) (v : α) (h : mwf d m = true) : mwf d (mput d m k v) = true := by
  unfold mput
  split
  · exact mwfAbove_mdel d m none k h
  · next hv => exact mwfAbove_mins d _ none k v (mwfAbove_mdel d m none k h) (by simp) (mdel_key_ne m k) hv

/-- A write of several values keeps the canonical form. -/
theorem mwf_mputList (d : α) (vs : List α) (m : SMap α) (k : Nat) (h : mwf d m = true) : mwf d (mputList d m k vs) = true := by
  induction vs generalizing m k with
  | nil => exact h
  | cons v rest ih => exact ih _ _ (mwf_mput d m k v h)

theorem mwfAbove_filter (d : α) (m : SMap α) (b : Option Nat) (p : Nat × α → Bool) (h : mwfAbove d b m = true) :
    mwfAbove d b (m.filter p) = true := by
  induction m generalizing b with
  | nil => rfl
  | cons x rest ih =>
    obtain ⟨k', v⟩ := x
    simp only [mwfAbove, Bool.and_eq_true] at h
    by_cases hp : p (k', v) = true
    · simp only [List.filter, hp, mwfAbove, Bool.and_eq_true]
      exact ⟨h.1, ih _ h.2⟩
    · simp only [List.filter, hp]
      refine ih b (mwfAbove_weaken d h.2 ?_)
      intro x hx
      cases b with
      | none => cases hx
      | some b =>
        cases hx
        exact ⟨k', rfl, by have := h.1.1; simp only [decide_eq_true_eq] at this; omega⟩

/-- Erasing a range keeps the canonical form. -/
theorem mwf_mcut (d : α) (m : SMap α) (lo hi : Nat) (h : mwf d m = true) : mwf d (mcut m lo hi) = true :=
  mwfAbove_filter d m none _ h

/-- A read below the range of a write. -/
theorem mget_mputList_lt (d : α) (vs : List α) (m : SMap α) {k j : Nat} (h : j < k) :
    mget d (mputList d m k vs) j = mget d m j := by
  induction vs generalizing m k with
  | nil => rfl
  | cons v rest ih =>
    rw [mputList, ih _ (by omega), mget_mput_ne d m v (by omega)]

/-- A read behind the range of a write. -/
theorem mget_mputList_ge (d : α) (vs : List α) (m : SMap α) {k j : Nat} (h : k + vs.length ≤ j) :
    mget d (mputList d m k vs) j = mget d m j := by
  induction vs generalizing m k with
  | nil => rfl
  | cons v rest ih =>
    simp only [List.length_cons] at h
    rw [mputList, ih _ (by omega), mget_mput_ne d m v (by omega)]

/-- A read within the range of a write. -/
theorem mget_mputList_in (d : α) (vs : List α) (m : SMap α) {k i : Nat} (h : i < vs.length) :
    mget d (mputList d m k vs) (k + i) = vs[i] := by
  induction vs generalizing m k i with
  | nil => simp at h
  | cons v rest ih =>
    cases i with
    | zero =>
      rw [mputList, Nat.add_zero, mget_mputList_lt d rest _ (by omega)]
      simp
    | succ i =>
      simp only [List.length_cons] at h
      rw [mputList, show k + (i + 1) = k + 1 + i by omega, ih _ (by omega)]
      rfl

/-- A read of a range within the range of a write. -/
theorem mgetList_mputList (d : α) (vs : List α) (m : SMap α) {k : Nat} (n i : Nat) (h : i + n ≤ vs.length) :
    mgetList d (mputList d m k vs) (k + i) n = (vs.drop i).take n := by
  induction n generalizing i with
  | zero => simp [mgetList]
  | succ n ih =>
    have hi : i < vs.length := by omega
    rw [mgetList, mget_mputList_in d vs m hi, Nat.add_assoc, ih (i + 1) (by omega), ← List.cons_getElem_drop_succ (h := hi),
      List.take_succ_cons]

end Sys2Proof.Machine
end

