-- ==== Sys2Proof/Laws/Access.lean ====
section
/-!
SUPPORT. What an access can do: nothing, be turned away with a code, or go through; and the process image memory's canonical form.
-/

namespace Sys2Proof.Machine

theorem asWrite_down (s : State) (r : Requester) (a : Nat) (eff : State → State) (h : s.targetUp = false) :
    s.asWrite r a eff = s := by
  simp [State.asWrite, h]

theorem asWrite_refused (s : State) (r : Requester) (a : Nat) (eff : State → State) (c : RCode) (h : s.targetUp = true)
    (hc : s.screenOne r a .write = some c) : s.asWrite r a eff = (s.countTxn r a c 1 9 8).answered c [] := by
  simp [State.asWrite, h, hc]

theorem asWrite_ok (s : State) (r : Requester) (a : Nat) (eff : State → State) (h : s.targetUp = true)
    (hc : s.screenOne r a .write = none) : s.asWrite r a eff = ((eff s).countTxn r a .ok 1 9 8).answered .ok [] := by
  simp [State.asWrite, h, hc]

theorem asRead_down (s : State) (r : Requester) (a : Nat) (h : s.targetUp = false) : s.asRead r a = s := by
  simp [State.asRead, h]

theorem asRead_up (s : State) (r : Requester) (a : Nat) (h : s.targetUp = true) :
    s.asRead r a = (s.readAs r a).1.answered (s.readAs r a).2.1 [(s.readAs r a).2.2] := by
  simp [State.asRead, h]

@[simp] theorem freshEcc_pimem (s : State) (m : EccMem) (i : Nat) : (s.freshEcc m i).pimem = s.pimem := rfl

/-- A write of part of a word keeps the canonical form. -/
theorem memWriteWord_wf (s : State) (o : Nat) (bs : List Byte) (i : Nat) (h : Memory.wf 0 s.pimem = true) :
    Memory.wf 0 (s.memWriteWord o bs i).1.pimem = true := by
  unfold State.memWriteWord
  dsimp only
  split
  · exact mwf_mputList _ _ _ _ h
  · split
    · exact h
    · exact mwf_mputList _ _ _ _ h

/-- A write to process image memory keeps the canonical form. -/
theorem memWrite_wf (s : State) (o : Nat) (bs : List Byte) (h : Memory.wf 0 s.pimem = true) :
    Memory.wf 0 (s.memWrite o bs).1.pimem = true := by
  unfold State.memWrite
  generalize wordsOf o bs.length = ws
  suffices ∀ (acc : State × Bool), Memory.wf 0 acc.1.pimem = true →
      Memory.wf 0 (ws.foldl (fun (acc : State × Bool) i =>
        let (t, ok) := acc.1.memWriteWord o bs i
        (t, acc.2 && ok)) acc).1.pimem = true from this (s, true) h
  induction ws with
  | nil => exact fun acc h => h
  | cons w rest ih => exact fun acc h => ih _ (memWriteWord_wf _ _ _ _ h)

@[simp] theorem noteMemEcc_pimem (s : State) (ws : List Nat) : (s.noteMemEcc ws).pimem = s.pimem := by
  unfold State.noteMemEcc
  induction ws generalizing s with
  | nil => rfl
  | cons w rest ih =>
    simp only [List.foldl_cons]
    rw [ih]
    split <;> rfl

/-- A read of process image memory leaves it unchanged. -/
@[simp] theorem memRead_pimem (s : State) (o n : Nat) : (s.memRead o n).1.pimem = s.pimem := noteMemEcc_pimem _ _

end Sys2Proof.Machine
end

