-- ==== Sys2Proof/Laws/Frames.lean ====
section
/-!
SUPPORT. What a change of mode and the operations under it leave alone: `still` blanks what they may move, and a lemma for each
says that the rest is unchanged.
-/

namespace Sys2Proof.Machine

/-- The state without what a change of mode may move. -/
def State.still (s : State) : State :=
  { s with regs := [], power := {}, bays := {}, engines := [], pmc := {}, fresh := 0, ring := { s.ring with cpl := {} } }

theorem foldl_still {α : Type} (f : State → α → State) (h : ∀ t a, (f t a).still = t.still) (l : List α) (s : State) :
    (l.foldl f s).still = s.still := by
  induction l generalizing s with
  | nil => rfl
  | cons a l ih => exact (ih _).trans (h _ _)

@[simp] theorem setWord_still (s : State) (a : Nat) (w : Word) : (s.setWord a w).still = s.still := rfl
@[simp] theorem wr_still (s : State) (f : Fld) (v : Nat) : (s.wr f v).still = s.still := rfl
@[simp] theorem wrBit_still (s : State) (f : Fld) (i : Nat) (v : Bool) : (s.wrBit f i v).still = s.still := rfl
@[simp] theorem bumpBy_still (s : State) (f : Fld) (v : Nat) : (s.bumpBy f v).still = s.still := rfl
@[simp] theorem bump_still (s : State) (f : Fld) : (s.bump f).still = s.still := rfl
@[simp] theorem setPin_still (s : State) (g : Nat) (p : Pin) : (s.setPin g p).still = s.still := rfl
@[simp] theorem setPort_still (s : State) (g : Nat) (p : Port) : (s.setPort g p).still = s.still := rfl
@[simp] theorem setGroup_still (s : State) (g : Nat) (p : Group) : (s.setGroup g p).still = s.still := rfl
@[simp] theorem setEngine_still (s : State) (g : Nat) (p : Engine) : (s.setEngine g p).still = s.still := rfl
@[simp] theorem setCtx_still (s : State) (e c : Nat) (p : Ctx) : (s.setCtx e c p).still = s.still := rfl
@[simp] theorem setScript_still (s : State) (g : Nat) (p : Script) : (s.setScript g p).still = s.still := rfl
@[simp] theorem setRx_still (s : State) (g : Nat) (p : Fifo) : (s.setRx g p).still = s.still := rfl
@[simp] theorem setTx_still (s : State) (g : Nat) (p : Fifo) : (s.setTx g p).still = s.still := rfl
@[simp] theorem setCpl_still (s : State) (n : Nat) (d : Bool) : (s.setCpl n d).still = s.still := rfl
@[simp] theorem takeFree_still (s : State) : s.takeFree.2.still = s.still := rfl

@[simp] theorem pmcAdd_still (s : State) (h : Tally) : (s.pmcAdd h).still = s.still := by
  unfold State.pmcAdd; dsimp only; (repeat' split) <;> rfl

@[simp] theorem pmcBy_still (s : State) (cls ev x n : Nat) (a : Attrs) : (s.pmcBy cls ev x n a).still = s.still := by
  unfold State.pmcBy; dsimp only; split
  · rfl
  · refine foldl_still _ (fun t a => ?_) _ _
    split
    · rfl
    · simp

@[simp] theorem pmcEv_still (s : State) (cls ev x : Nat) (a : Attrs) : (s.pmcEv cls ev x a).still = s.still := pmcBy_still ..

@[simp] theorem latchEdge_still (s : State) (r : Bool) (k : Nat × Nat × Nat) : (s.latchEdge r k).still = s.still := rfl
@[simp] theorem recordEdge_still (s : State) (g : Nat) (t : Word) (r : Bool) : (s.recordEdge g t r).still = s.still :=
  (foldl_still _ (fun _ _ => latchEdge_still ..) _ _).trans (setPin_still ..)
@[simp] theorem followLine_still (s old : State) (g : Nat) : (s.followLine old g).still = s.still := by
  unfold State.followLine; split
  · rfl
  · exact (setPin_still ..).trans (takeFree_still s)
@[simp] theorem applyPad_still (s : State) (g : Nat) : (s.applyPad g).still = s.still := by
  unfold State.applyPad; dsimp only; (repeat' split) <;> rfl
@[simp] theorem applyPin_still (s : State) (g : Nat) : (s.applyPin g).still = s.still :=
  (followLine_still ..).trans (applyPad_still s g)
@[simp] theorem applyPins_still (s : State) : s.applyPins.still = s.still := foldl_still _ applyPin_still _ _
@[simp] theorem drivePin_still (s : State) (g : Nat) (d : Drive) : (s.drivePin g d).still = s.still := by
  unfold State.drivePin; dsimp only; (repeat' split) <;> simp
@[simp] theorem applyLplus_still (s : State) (g : Nat) : (s.applyLplus g).still = s.still :=
  foldl_still _ (fun _ _ => applyPin_still _ _) _ _
@[simp] theorem setPg_still (s : State) (k : Nat) (b : Bool) : (s.setPg k b).still = s.still := by
  unfold State.setPg; split <;> simp
@[simp] theorem noteDamageCond_still (s : State) (k : Nat) : (s.noteDamageCond k).still = s.still := rfl
@[simp] theorem passOff_still (s : State) (k n : Nat) : (s.passOff k n).still = s.still := by
  unfold State.passOff; simp
@[simp] theorem startRamp_still (s : State) (k : Nat) : (s.startRamp k).still = s.still := by
  unfold State.startRamp; simp
@[simp] theorem refreshPort_still (s : State) (k : Nat) : (s.refreshPort k).still = s.still := by
  unfold State.refreshPort; dsimp only; (repeat' split) <;> simp
@[simp] theorem refreshPorts_still (s : State) : s.refreshPorts.still = s.still := foldl_still _ refreshPort_still _ _
@[simp] theorem keepEffective_still (s : State) : s.keepEffective.still = s.still := by
  refine foldl_still _ (fun t k => ?_) _ _
  split <;> simp
@[simp] theorem openIsolator_still (s : State) (g c : Nat) : (s.openIsolator g c).still = s.still := by
  unfold State.openIsolator; dsimp only
  rw [foldl_still _ refreshPort_still]; simp
@[simp] theorem letClose_still (s : State) (g : Nat) : (s.letClose g).still = s.still := by
  unfold State.letClose State.startClose; dsimp only; (repeat' split) <;> simp
@[simp] theorem refreshIsolators_still (s : State) : s.refreshIsolators.still = s.still := by
  unfold State.refreshIsolators; split
  · rfl
  · refine foldl_still _ (fun t k => ?_) _ _
    (repeat' split) <;> simp
@[simp] theorem dropPre_still (s : State) (e c : Nat) : (s.dropPre e c).still = s.still := by
  unfold State.dropPre; split <;> simp
@[simp] theorem dropGrid_still (s : State) (e c : Nat) : (s.dropGrid e c).still = s.still := by
  unfold State.dropGrid; dsimp only; (repeat' split)
  · rfl
  · simp
  · rw [foldl_still _ (fun t _ => by simp [State.chargeAs])]; simp
@[simp] theorem haltCtx_still (s : State) (e c : Nat) (st : CtxState) : (s.haltCtx e c st).still = s.still := by
  unfold State.haltCtx; simp
@[simp] theorem stopCtx_still (s : State) (e c : Nat) : (s.stopCtx e c).still = s.still := haltCtx_still ..
@[simp] theorem enterWait_still (s : State) (e c n : Nat) : (s.enterWait e c n).still = s.still := by
  unfold State.enterWait; simp
@[simp] theorem ready_still (s : State) (e c : Nat) : (s.ready e c).still = s.still := by
  unfold State.ready; dsimp only; split <;> simp
@[simp] theorem startCtx_still (s : State) (e c : Nat) (t : Word) (b : Bool) : (s.startCtx e c t b).still = s.still := by
  unfold State.startCtx; dsimp only; split <;> simp
@[simp] theorem startWhere_still (s : State) (p : State → Nat → Nat → Bool) (b : Bool) : (s.startWhere p b).still = s.still := by
  refine foldl_still _ (fun t k => ?_) _ _
  split <;> simp
@[simp] theorem ctxModeChange_still (s : State) (m : Mode) : (s.ctxModeChange m).still = s.still := by
  unfold State.ctxModeChange
  dsimp only
  have h1 : ∀ (t : State) (l : List (Nat × Nat)), (List.foldl (fun (t : State) (ec : Nat × Nat) =>
      let x := t.ctx ec.1 ec.2
      let t := if x.st ≠ .idle ∧ (!ctxMode s.hub.mode ∨ (s.hub.mode = .island ∧ !t.on (R.INF_CTX_CFG_fallback ec.1 ec.2)) ∨
        (m = .island ∧ x.island)) then t.stopCtx ec.1 ec.2 else t
      if x.island ∧ s.hub.mode ≠ .island then t.setCtx ec.1 ec.2 { t.ctx ec.1 ec.2 with island := false } else t) t l).still = t.still := by
    intro t l
    refine foldl_still _ (fun t k => ?_) _ _
    dsimp only
    (repeat' split) <;> simp
  (repeat' split) <;> (try simp only [startWhere_still]) <;> exact h1 _ _
@[simp] theorem stopScript_still (s : State) (i : Nat) : (s.stopScript i).still = s.still := rfl
@[simp] theorem startScript_still (s : State) (i : Nat) : (s.startScript i).still = s.still := by
  unfold State.startScript; dsimp only; split <;> simp
@[simp] theorem scriptModeChange_still (s : State) : s.scriptModeChange.still = s.still := by
  unfold State.scriptModeChange
  split
  · rfl
  · have aux : ∀ stop : Bool, (if stop = true then (List.range 4).foldl State.stopScript s
        else if s.autostarts = true then
          (List.range 4).foldl (fun (t : State) i => if t.bitOn R.PWP_SEQ_CTRL_autostart i = true then t.startScript i else t) s
        else s).still = s.still := by
      intro stop
      split
      · exact foldl_still _ stopScript_still _ _
      · split
        · refine foldl_still _ (fun t k => ?_) _ _
          split <;> simp
        · rfl
    exact aux _
@[simp] theorem cplModeChange_still (s : State) : s.cplModeChange.still = s.still := by
  unfold State.cplModeChange State.releaseLine; (repeat' split) <;> rfl
@[simp] theorem cplFollowMode_still (s : State) : s.cplFollowMode.still = s.still := by
  unfold State.cplFollowMode; dsimp only; split
  · exact cplModeChange_still s
  · exact cplModeChange_still s
@[simp] theorem endRisk_still (s : State) : s.endRisk.still = s.still := by unfold State.endRisk; split <;> rfl
@[simp] theorem vsiSend_still (s : State) (q : VsiReq) (b : Bool) : (s.vsiSend q b).still = s.still := by
  unfold State.vsiSend; exact endRisk_still _
@[simp] theorem vsiRequest_still (s : State) (q : VsiReq) : (s.vsiRequest q).still = s.still := by
  unfold State.vsiRequest; (repeat' split) <;> first | rfl | exact vsiSend_still _ _ _
@[simp] theorem vsiSettle_still (s : State) (n : Nat) : (s.vsiSettle n).still = s.still := by
  unfold State.vsiSettle
  split
  · rfl
  · dsimp only
    (repeat' split) <;> first | rfl | exact vsiRequest_still _ _

theorem setMode_still (s : State) (m : Mode) (row : Nat) :
    (s.setMode m row).still = { s.still with hub := { s.hub with
      mode := m, prev := s.hub.mode, row := row, transitions := min (s.hub.transitions + 1) (2 ^ 32 - 1), modeTime := s.now,
      enteredAt := s.clk, testPins := [], testPorts := [] } } := by
  unfold State.setMode
  dsimp only
  simp only [endRisk_still, vsiSettle_still, cplFollowMode_still, scriptModeChange_still, ctxModeChange_still, refreshPorts_still,
    refreshIsolators_still, applyPins_still]
  have h := keepEffective_still s
  have hh : s.keepEffective.hub = s.hub := by
    have := congrArg State.hub h
    exact this
  have hn : s.keepEffective.now = s.now := by
    have := congrArg State.now h
    exact this
  have hc : s.keepEffective.clk = s.clk := by
    have := congrArg State.clk h
    exact this
  rw [hh, hn, hc]
  have := congrArg (fun x : State => { x with now := s.now, clk := s.clk, hub := { s.hub with
      mode := m, prev := s.hub.mode, row := row, transitions := min (s.hub.transitions + 1) (2 ^ 32 - 1), modeTime := s.now,
      enteredAt := s.clk, testPins := [], testPorts := [] } }) h
  exact this

/-- What is unchanged where `still` is. -/
theorem proj_still {β : Type} (p : State → β) (hp : ∀ s : State, p s.still = p s) {s u : State} (h : u.still = s.still) :
    p u = p s := by rw [← hp u, h, hp]

theorem keeps_of_still {s u : State} (h : u.still = s.still) : Keeps s u :=
  ⟨proj_still State.pimem (fun _ => rfl) h, proj_still State.flash (fun _ => rfl) h, proj_still State.eccMarks (fun _ => rfl) h,
    proj_still State.store (fun _ => rfl) h, proj_still State.loaded (fun _ => rfl) h, proj_still State.variant (fun _ => rfl) h,
    proj_still State.rootKey (fun _ => rfl) h, proj_still State.pending (fun _ => rfl) h, proj_still State.now (fun _ => rfl) h, proj_still State.clk (fun _ => rfl) h⟩

/-- What a change of mode leaves alone, apart from the mode's own fields. -/
theorem setMode_proj {β : Type} (p : State → β) (hp : ∀ s : State, p s.still = p s)
    (hh : ∀ (s : State) (h : Hub), p { s with hub := h } = p s) (s : State) (m : Mode) (row : Nat) : p (s.setMode m row) = p s := by
  rw [← hp, setMode_still, hh, hp]

theorem setMode_keeps (s : State) (m : Mode) (row : Nat) : Keeps s (s.setMode m row) := by
  refine ⟨?_, ?_, ?_, ?_, ?_, ?_, ?_, ?_, ?_, ?_⟩
  · exact setMode_proj State.pimem (fun _ => rfl) (fun _ _ => rfl) s m row
  · exact setMode_proj State.flash (fun _ => rfl) (fun _ _ => rfl) s m row
  · exact setMode_proj State.eccMarks (fun _ => rfl) (fun _ _ => rfl) s m row
  · exact setMode_proj State.store (fun _ => rfl) (fun _ _ => rfl) s m row
  · exact setMode_proj State.loaded (fun _ => rfl) (fun _ _ => rfl) s m row
  · exact setMode_proj State.variant (fun _ => rfl) (fun _ _ => rfl) s m row
  · exact setMode_proj State.rootKey (fun _ => rfl) (fun _ _ => rfl) s m row
  · exact setMode_proj State.pending (fun _ => rfl) (fun _ _ => rfl) s m row
  · exact setMode_proj State.now (fun _ => rfl) (fun _ _ => rfl) s m row
  · exact setMode_proj State.clk (fun _ => rfl) (fun _ _ => rfl) s m row

@[simp] theorem setMode_upd (s : State) (m : Mode) (row : Nat) : (s.setMode m row).upd = s.upd :=
  setMode_proj State.upd (fun _ => rfl) (fun _ _ => rfl) s m row
@[simp] theorem setMode_switch (s : State) (m : Mode) (row : Nat) : (s.setMode m row).switch = s.switch :=
  setMode_proj State.switch (fun _ => rfl) (fun _ _ => rfl) s m row
@[simp] theorem setMode_raised (s : State) (m : Mode) (row : Nat) : (s.setMode m row).raised = s.raised :=
  setMode_proj State.raised (fun _ => rfl) (fun _ _ => rfl) s m row
@[simp] theorem setMode_time (s : State) (m : Mode) (row : Nat) : (s.setMode m row).time = s.time :=
  setMode_proj State.time (fun _ => rfl) (fun _ _ => rfl) s m row
@[simp] theorem setMode_kettle (s : State) (m : Mode) (row : Nat) : (s.setMode m row).kettle = s.kettle :=
  setMode_proj State.kettle (fun _ => rfl) (fun _ _ => rfl) s m row

/-- The mode's own fields after a change of mode. -/
theorem setMode_hub (s : State) (m : Mode) (row : Nat) : (s.setMode m row).hub = { s.hub with
    mode := m, prev := s.hub.mode, row := row, transitions := min (s.hub.transitions + 1) (2 ^ 32 - 1), modeTime := s.now,
    enteredAt := s.clk, testPins := [], testPorts := [] } := by
  have h (t : State) : t.still.hub = t.hub := rfl
  rw [← h, setMode_still]

theorem setMode_entered (s : State) (m : Mode) (row : Nat) : Entered s (s.setMode m row) m row := by
  rw [Entered, setMode_hub]
  exact ⟨rfl, rfl, rfl, rfl, rfl⟩

end Sys2Proof.Machine
end

