-- ==== Sys2Proof/Laws/Regs.lean ====
section
/-!
SUPPORT. Laws of registers and fields: what a field reads after a write to it, to another field of its register and to another
register.
-/

namespace Sys2Proof.Machine

theorem fmask_getLsbD (l n i : Nat) (hi : i < 64) :
    (fmask l n).getLsbD i = decide (l ≤ i ∧ i < l + n) := by
  simp only [fmask, BitVec.getLsbD_ofNat, hi, decide_true, Bool.true_and]
  rw [Nat.mul_comm, Nat.testBit_two_pow_mul, Nat.testBit_two_pow_sub_one]
  by_cases h1 : l ≤ i
  · simp [h1]
    omega
  · simp [h1]

/-- A field as bits. -/
theorem fget_testBit (w : Word) (l n i : Nat) : (fget w l n).testBit i = (decide (i < n) && w.getLsbD (l + i)) := by
  unfold fget
  rw [Nat.testBit_mod_two_pow, Nat.testBit_div_two_pow, Nat.add_comm]
  rfl

theorem fset_getLsbD (w : Word) (l n v i : Nat) (hi : i < 64) :
    (fset w l n v).getLsbD i = if l ≤ i ∧ i < l + n then v.testBit (i - l) else w.getLsbD i := by
  have hv : (BitVec.ofNat 64 (v % 2 ^ n * 2 ^ l)).getLsbD i = (decide (l ≤ i ∧ i < l + n) && v.testBit (i - l)) := by
    simp only [BitVec.getLsbD_ofNat, hi, decide_true, Bool.true_and]
    rw [Nat.mul_comm, Nat.testBit_two_pow_mul, Nat.testBit_mod_two_pow]
    by_cases h1 : l ≤ i
    · simp only [h1, decide_true, Bool.true_and, true_and]
      congr 1
      simp
      omega
    · simp [h1]
  simp only [fset, BitVec.getLsbD_or, BitVec.getLsbD_and, BitVec.getLsbD_not, hi, decide_true, Bool.true_and,
    fmask_getLsbD l n i hi, hv]
  by_cases h1 : l ≤ i ∧ i < l + n <;> simp [h1]

/-- A field after a write to it. -/
theorem fget_fset_same (w : Word) (l n v : Nat) (h : l + n ≤ 64) : fget (fset w l n v) l n = v % 2 ^ n := by
  apply Nat.eq_of_testBit_eq
  intro i
  rw [fget_testBit, Nat.testBit_mod_two_pow]
  by_cases hi : i < n
  · rw [fset_getLsbD w l n v (l + i) (by omega)]
    simp [hi]
  · simp [hi]

/-- A field after a write to another field of its register. -/
theorem fget_fset_ne (w : Word) (l n v l' n' : Nat) (h : l + n ≤ 64) (h' : l' + n' ≤ 64) (hd : l + n ≤ l' ∨ l' + n' ≤ l) :
    fget (fset w l n v) l' n' = fget w l' n' := by
  apply Nat.eq_of_testBit_eq
  intro i
  rw [fget_testBit, fget_testBit]
  by_cases hi : i < n'
  · rw [fset_getLsbD w l n v (l' + i) (by omega)]
    have : ¬(l ≤ l' + i ∧ l' + i < l + n) := by omega
    simp [this]
  · simp [hi]

@[simp] theorem word_setWord_same (s : State) (a : Nat) (w : Word) : (s.setWord a w).word a = w :=
  mget_mput_same _ _ _ _

theorem word_setWord_ne (s : State) {a b : Nat} (w : Word) (h : b ≠ a) : (s.setWord a w).word b = s.word b := by
  unfold State.word State.setWord
  by_cases hr : resetWord b = resetWord a
  · rw [hr]
    exact mget_mput_ne _ _ _ h
  · simp only [mput]
    split
    · exact mget_mdel_ne _ _ h
    · rw [mget_mins_ne _ _ _ h, mget_mdel_ne _ _ h]

/-- A field reads what was written to it, modulo its size. -/
theorem rd_wr_same (s : State) (f : Fld) (v : Nat) (h : f.lsb + f.width ≤ 64) : (s.wr f v).rd f = v % 2 ^ f.width := by
  simp only [State.rd, State.wr, word_setWord_same]
  exact fget_fset_same _ _ _ _ h

/-- A write to a field leaves every other register alone. -/
theorem rd_wr_addr (s : State) (f g : Fld) (v : Nat) (h : g.addr ≠ f.addr) : (s.wr f v).rd g = s.rd g := by
  simp only [State.rd, State.wr, word_setWord_ne s _ h]

/-- A write to a field leaves the other fields of its register alone. -/
theorem rd_wr_lsb (s : State) (f g : Fld) (v : Nat) (hf : f.lsb + f.width ≤ 64) (hg : g.lsb + g.width ≤ 64)
    (h : f.lsb + f.width ≤ g.lsb ∨ g.lsb + g.width ≤ f.lsb) : (s.wr f v).rd g = s.rd g := by
  by_cases ha : g.addr = f.addr
  · simp only [State.rd, State.wr, ha, word_setWord_same]
    exact fget_fset_ne _ _ _ _ _ _ hf hg h
  · exact rd_wr_addr s f g v ha

theorem word_wr_ne (s : State) (f : Fld) (v : Nat) {a : Nat} (h : a ≠ f.addr) : (s.wr f v).word a = s.word a := by
  simp only [State.wr, word_setWord_ne s _ h]

end Sys2Proof.Machine
end

