-- ==== Sys2Proof/Machine/Factory.lean ====
section
/-!
DEFINITION. The bit-stream that a hub leaves Aedotte with (R158), and such a hub. What R158 does not give of it is an open value
within the range of its field (log entry 9).
-/

namespace Sys2Proof.Machine

/-- An open number of the factory bit-stream between `lo` and `hi`. -/
def factoryIn (k lo hi : Nat) : Nat := lo + Config.factoryNat k % (hi + 1 - lo)

/-- Pins and bays of a variant. -/
def Variant.bays (v : Variant) : Nat := if v = .l3224 then 24 else 48

/-- Section 0x0001: no pin drives, and every power port has the safe state off. -/
def factorySafe : List Byte := List.replicate 416 0

/-- Section 0x0002: every pin is a 24 V input of type 1; no pin has an owner, and no bay is bound to its port. -/
def factoryPins (v : Variant) : List Byte :=
  (List.range 384).flatMap (fun g =>
    if g / 8 < v.bays then
      leBytes 1 1 ++ leBytes 1 0 ++ leBytes 1 (2 * factoryIn (100 + g) 0 1) ++ leBytes 1 (factoryIn (500 + g) 0 255) ++ leBytes 4 0
    else leBytes 8 0) ++
  (List.range 48).flatMap (fun n =>
    if n < v.bays then
      leBytes 2 0 ++ leBytes 1 (factoryIn (1000 + n) 0 63) ++ leBytes 1 (factoryIn (1100 + n) 0 63) ++
        leBytes 1 (factoryIn (1200 + n) 0 15) ++ leBytes 1 0 ++ leBytes 2 (factoryIn (1300 + n) 0 65535) ++
        leBytes 1 (factoryIn (1400 + n) 1 250) ++ leBytes 1 (factoryIn (1500 + n) 0 3) ++ leBytes 6 0
    else leBytes 16 0)

/-- Section 0x0003: the TOP, STP and UPD, RING and KET blocks are open to every master at Supervisor; there is no window. -/
def factoryAccess : List Byte :=
  leBytes 2 0 ++ leBytes 2 (factoryIn 0 1 65535) ++ leBytes 4 (factoryIn 1 0 15) ++
  (List.range 4).flatMap (fun m => leBytes 1 (factoryIn (10 + m) 1 255) ++ leBytes 1 0 ++ leBytes 2 (factoryIn (20 + m) 1 65535)) ++
  (List.range 96).flatMap (fun b => leBytes 2 (if b = 0 then 0xFF else if b = 1 ∨ b = 2 ∨ b = 6 then 0xAA else 0))

/-- Section 0x0004: Island is disabled, and every rate that the variant has is permitted, since the ring rate follows the one
detected. -/
def factoryRing (v : Variant) : List Byte :=
  leBytes 1 (if v = .c3248 then 4 else 3) ++ leBytes 1 (factoryIn 30 0 3) ++
  leBytes 1 (if v = .c3248 then 0 else factoryIn 31 0 2 + 4 * factoryIn 32 0 2) ++ leBytes 1 0 ++
  leBytes 2 (factoryIn 33 0 65535) ++ leBytes 2 (factoryIn 34 100 50000) ++ leBytes 1 (factoryIn 35 2 15) ++ leBytes 3 0 ++
  leBytes 2 (factoryIn 36 1 10000) ++ leBytes 2 (factoryIn 37 0 65535)

/-- Section 0x0005: every source has the reaction report. -/
def State.factoryKettle (s : State) : List Byte :=
  (List.range 512).flatMap (fun i =>
    if listedSource i ∧ s.srcPresent i then
      leBytes 1 (factoryIn (2000 + i) 0 3) ++ leBytes 2 0 ++ leBytes 1 0xFF ++ leBytes 1 (16 * factoryIn (3000 + i) 0 1) ++
        leBytes 1 (factoryIn (4000 + i) 1 150) ++ leBytes 2 0
    else leBytes 8 0) ++ leBytes 2560 0

/-- The factory bit-stream of the hub's variant, with epoch 0, no tuning limit and no optional section. The manual gives no byte of
its signature. -/
def State.factoryImage (s : State) : List Byte :=
  let secs := [factorySafe, factoryPins s.variant, factoryAccess, factoryRing s.variant, s.factoryKettle, []]
  let start (i : Nat) : Nat := 128 + (secs.take i).foldl (fun n b => n + b.length) 0
  let dir := secs.zipIdx.flatMap (fun x =>
    leBytes 2 (x.2 + 1) ++ leBytes 2 0 ++ leBytes 4 (start x.2) ++ leBytes 4 x.1.length ++ leBytes 4 (crc32 x.1).toNat)
  let head := leBytes 4 0x5A574253 ++ leBytes 2 1 ++ leBytes 2 (factoryIn 40 0 65535) ++ leBytes 4 (start 6 + 64) ++ leBytes 2 6 ++
    leBytes 2 s.variant.code ++ leBytes 4 0 ++ leBytes 4 (factoryIn 41 0 4294967295) ++ leBytes 8 0
  let body := head ++ dir ++ secs.flatten
  body ++ (List.range 64).map (Config.factorySignature)

/-- An image slot of the hub as it leaves Aedotte (R158, R664). The manual gives neither the firmware nor the library. -/
def State.factorySlot (s : State) : List Byte :=
  let fw := Config.firmware
  let lib := Config.library
  let at_ (n : Nat) : Nat := (n + 4095) / 4096 * 4096
  let bits := s.factoryImage
  let second := 4096 + at_ fw.length
  let third := second + at_ bits.length
  let pad (bs : List Byte) : List Byte := bs ++ List.replicate (at_ bs.length - bs.length) 0xFF
  leBytes 4 0x5A57494D ++ leBytes 2 1 ++ leBytes 2 (factoryIn 50 0 65535) ++ leBytes 4 (factoryIn 51 0 4294967295) ++
    leBytes 4 (third + at_ lib.length) ++ leBytes 4 4096 ++ leBytes 4 fw.length ++ leBytes 4 second ++ leBytes 4 bits.length ++
    leBytes 4 third ++ leBytes 4 lib.length ++ sha256 fw ++ leBytes 4024 0 ++ pad fw ++ pad bits ++ pad lib

/-- The hub as it leaves Aedotte: both image slots hold the factory image, and the boot record names their firmware. Reset itself leaves
flash alone (log entry 9). -/
def State.shipped (s : State) : State :=
  let img := s.factorySlot
  let rec_ (x : Slot) : Slot := { x with
    build := leAt img 8 4, version := leAt img 6 2, imageDigest := digestNat (sha256 img), fwDigest := digestNat (sha256 Config.firmware) }
  { s with
    flash := mputList 0xFF (mputList 0xFF s.flash (slotBase false) img) (slotBase true) img
    upd := { s.upd with copy0 := {}, copy1 := {}, boot := { s.upd.boot with slotA := rec_ s.upd.boot.slotA, slotB := rec_ s.upd.boot.slotB } } }

end Sys2Proof.Machine
end

