-- ==== Sys2Proof/WellFormed.lean ====
section
/-!
DEFINITION. Which commands can reach the hub at all: operands that the types of Syntax.lean leave wider than the spec does. The
machine gives every command a meaning; a statement that needs the narrower operands says so with `Instr.wf`.
-/

namespace Sys2Proof

/-- A record's data length (R178). -/
def lenOk (n : Nat) : Bool := decide (1 ≤ n ∧ n ≤ 256)

/-- A request record: a claim is put on it by a port's Sieve program only (R321), and a request of the hub's own is Local (R170). -/
def Txn.wf (t : Txn) : Bool := if t.port.isSome then true else t.claim.isNone && t.who.level == .localLevel

/-- A frame: its payload is within the length field of 12 bits (R227). -/
def Frame.wf (f : Frame) : Bool := decide (f.payload.length < 4096)

/-- A Steam message: its body is at most 48 bytes (R252). -/
def SteamMsg.wf (m : SteamMsg) : Bool := decide (m.body.length ≤ 48)

/-- A wake source has a code of 1 to 4 (R604). -/
def Wake.wf (w : Wake) : Bool := w.code != 0

/-- The operands of a command are such that it can occur. -/
def Instr.wf : Instr → Bool
  | .rstNLow ns => decide (ns < 2000 ∨ 10000 ≤ ns)
  | .wakeSource w => w.wf
  | .txnRd t len => t.wf && lenOk len
  | .txnWr t data => t.wf && lenOk data.length
  | .txnWra t data => t.wf && lenOk data.length
  | .txnFaa t _ => t.wf
  | .txnFao t _ => t.wf
  | .txnCas t _ _ => t.wf
  | .txnResp _ _ _ _ data => decide (data.length ≤ 256)
  | .frameReceive rx => rx.frame.wf
  | .pourFrame rx => rx.frame.wf && rx.frame.w0.toNat / 2 ^ 56 % 16 == 2
  | .syncReceived _ f _ => f.wf
  | .pdreqReceived _ f _ => f.wf
  | .pdrespReceived _ f _ => f.wf
  | .heartbeatReceived _ f => f.wf
  | .steamEnumReceived _ m => m.wf && m.type == 2
  | .steamWakeReceived _ m => m.wf && m.type == 3
  | .steamMessageForward _ m => m.wf
  | .bayDataFrame _ f => f.wf
  | .avsLoopEval canary => decide (canary.length = 12)
  | _ => true

end Sys2Proof
end

