-- ==== Sys2Proof/Tests/Slice0.lean ====
section
/-!
SUPPORT. The author's tests: well-formedness, words and check sums against the spec's tables, and for each statement of
Certificates/Slice0/Obligations.lean that has hypotheses a theorem `witness_<statement>` with a concrete state and operands that meet
them, clause by clause. Those of a complete Steep and of a built image rest on a signed bit-stream and a package that builds it.
-/

open Sys2Proof Sys2Proof.Machine

namespace Sys2Proof.Tests

set_option linter.unusedVariables false
set_option Elab.async false

/-! ### Well-formedness: each check of `Instr.wf` refuses a term that fails it -/

def sup : Requester := ⟨0, .supervisor⟩
def loc : Requester := ⟨0, .localLevel⟩
def txn (r : Requester) (port : Option (Fin 4)) (claim : Option Claim) : Txn :=
  { who := r, tag := 3, from_ := 9, node := 1, addr := 0x10000, port := port, srcRing := 0, src := 9, dstRing := 0, claim := claim }
def frameOf (n : Nat) : Frame := (Head.frame { ftype := 1, src := 3, dst := 7 } (List.replicate n 0))
def steamOf (type : Byte) (n : Nat) : SteamMsg := ⟨type, 1, 2, 0, 0, List.replicate n 0, 0⟩

theorem test_wf_rst_low : (Instr.rstNLow 1999).wf = true ∧ (Instr.rstNLow 10000).wf = true ∧ (Instr.rstNLow 5000).wf = false := by decide
theorem test_wf_wake : (Instr.wakeSource ⟨1, 0, false⟩).wf = true ∧ (Instr.wakeSource ⟨0, 0, false⟩).wf = false := by decide
theorem test_wf_record_length : (Instr.txnRd (txn sup (some 0) none) 256).wf = true ∧ (Instr.txnRd (txn sup (some 0) none) 257).wf = false ∧
    (Instr.txnWr (txn sup (some 0) none) []).wf = false ∧ (Instr.txnWra (txn sup (some 0) none) []).wf = false := by decide
theorem test_wf_own_request : (Instr.txnFaa (txn loc none none) 1).wf = true ∧ (Instr.txnFaa (txn sup none none) 1).wf = false ∧
    (Instr.txnFao (txn loc none (some ⟨1, true, true⟩)) 1).wf = false ∧ (Instr.txnCas (txn sup none none) 1 2).wf = false := by decide
theorem test_wf_response : (Instr.txnResp 0 .localLevel 1 0 (List.replicate 256 0)).wf = true ∧
    (Instr.txnResp 0 .localLevel 1 0 (List.replicate 257 0)).wf = false := by decide +kernel
theorem test_wf_frame : (Instr.frameReceive ⟨0, frameOf 4095, 0, 0, false, false, 0, 0, 0, 0⟩).wf = true ∧
    (Instr.frameReceive ⟨0, frameOf 4096, 0, 0, false, false, 0, 0, 0, 0⟩).wf = false ∧
    (Instr.pourFrame ⟨0, frameOf 8, 0, 0, false, false, 0, 0, 0, 0⟩).wf = false ∧ (Instr.bayDataFrame 0 (frameOf 4096)).wf = false ∧
    (Instr.syncReceived 0 (frameOf 4096) 0).wf = false ∧ (Instr.heartbeatReceived 0 (frameOf 4096)).wf = false := by decide +kernel
theorem test_wf_steam : (Instr.steamMessageForward 0 (steamOf 1 48)).wf = true ∧ (Instr.steamMessageForward 0 (steamOf 1 49)).wf = false ∧
    (Instr.steamEnumReceived 0 (steamOf 2 3)).wf = true ∧ (Instr.steamEnumReceived 0 (steamOf 3 3)).wf = false ∧
    (Instr.steamWakeReceived 0 (steamOf 3 3)).wf = true ∧ (Instr.steamWakeReceived 0 (steamOf 2 3)).wf = false := by decide +kernel
theorem test_wf_canaries : (Instr.avsLoopEval (List.replicate 12 0)).wf = true ∧ (Instr.avsLoopEval (List.replicate 11 0)).wf = false := by decide

/-! ### Words and check sums -/

/-- The coded program at the end of 12_infuser_isa.md: its seven words, as the table there writes them. -/
theorem test_program_words :
    decodeInsn 0x63101801 = some (.set 3 (2 ^ 20 + 6 * 2 ^ 10 + 1)) ∧ decodeInsn 0x90000000 = some (.wpin 0 0 0) ∧
    decodeInsn 0xA0458000 = some (.stamp 0 17 false true true false false) ∧ decodeInsn 0x000B71B0 = some (.wait false 750000) ∧
    decodeInsn 0x10080800 = some (.out false false 2 2 0) ∧ decodeInsn 0x000186A0 = some (.wait false 100000) ∧
    decodeInsn 0x10080000 = some (.out false false 2 0 0) := by decide +kernel
/-- Words written out from the encoding tables of R509 to R541, one for each other instruction. -/
theorem test_words :
    decodeInsn 0b00001000000000000000000000000000 = some (.wait true 0) ∧
    decodeInsn 0b00100011001000000000000000000100 = some (.inp 3 2 4) ∧
    decodeInsn 0b00110001111010000000000000000011 = some (.shift false 7 true 1 false 3) ∧
    decodeInsn 0b01000001110101000000000000000101 = some (.shift true 7 false 2 true 5) ∧
    decodeInsn 0b01010001000000000000000000001001 = some (.jmp 2 0 9) ∧
    decodeInsn 0b01110110010001100000000000000000 = some (.qput false true true false 17 true) ∧
    decodeInsn 0b10000000010001000000000000000000 = some (.qget 17 false) ∧
    decodeInsn 0b10110100000000000000000001100100 = some (.at_ false 2 100) ∧
    decodeInsn 0b11000001100000000000000000000101 = some (.alu 1 true false 5) ∧
    decodeInsn 0b11001000100100000000001100000000 = some (.crc true 16 3) ∧
    decodeInsn 0b11001001010000000000000000000000 = some (.ins false true) ∧
    decodeInsn 0b11001010100000000000000000000000 = some (.extr true false) := by decide +kernel
theorem test_words_of_sync_note_and_ext :
    decodeInsn 0b11010001000110110000000000000000 = some (.signal 2 3 3) ∧
    decodeInsn 0b11011000010000100000000000000000 = some (.await true 2) ∧
    decodeInsn 0b11101000000000000000000000010001 = some (.note true 0 17) ∧
    decodeInsn 0b11110000000000000000000000000000 = some .nop ∧ decodeInsn 0b11110001000000000000000000000000 = some .halt ∧
    decodeInsn 0b11110010010001100000000000000000 = some (.flush 17 true) ∧
    decodeInsn 0b11110011110000000000000000000101 = some (.ldm true true 5) ∧
    decodeInsn 0b11110100000000000000000000000101 = some (.stm false false 5) ∧
    decodeInsn 0b11110101011000000000000000000000 = some (.rq 1 2) ∧
    decodeInsn 0b11110110100000000000000000000000 = some (.gett true) ∧
    decodeInsn 0b11110111000000000000000000000000 = some .rdreg := by decide +kernel
/-- Reserved codes and reserved bits (R504). -/
theorem test_reserved_words : decodeInsn 0xF8000000 = none ∧ decodeInsn 0xCB000000 = none ∧ decodeInsn 0x90600000 = none ∧
    decodeInsn 0x5A800000 = none ∧ decodeInsn 0x20000400 = none ∧ decodeInsn 0xF0000001 = none ∧ decodeInsn 0xF5300000 = none := by
  decide +kernel
/-- The script of R583: index 1 waits 200 ms for PP12, index 3 notes code 0x0011 to master 0, index 5 switches PP13 to PP15. -/
theorem test_script_words : nbits 0x31901000 28 4 = 3 ∧ nbits 0x31901000 17 11 = 200 ∧
    seqPorts (nbits 0x31901000 16 1) (nbits 0x31901000 0 16) = [12] ∧ nbits 0x70010011 28 4 = 7 ∧ nbits 0x70010011 16 4 = 1 ∧
    nbits 0x70010011 0 16 = 0x0011 ∧ seqPorts (nbits 0x1000E000 16 1) (nbits 0x1000E000 0 16) = [13, 14, 15] := by decide +kernel
/-- The published check values over the nine digits, of the CRC-16 with 0x1021 and ones (R227) and of the CRC-32 of IEEE 802.3. -/
theorem test_crc : crc16 [0x31, 0x32, 0x33, 0x34, 0x35, 0x36, 0x37, 0x38, 0x39] = 0x29B1 ∧
    crc32 [0x31, 0x32, 0x33, 0x34, 0x35, 0x36, 0x37, 0x38, 0x39] = 0xCBF43926 := by decide +kernel
/-- The first word of the published digest of "abc" (FIPS 180-4). -/
theorem test_sha : (sha256 [0x61, 0x62, 0x63]).take 4 = [0xBA, 0x78, 0x16, 0xBF] := by decide +kernel
/-- No row has bits, so no word spells a command. -/
theorem test_no_word : decodeTableWord 32 0 = none ∧ State.reset.withFetchWord 32 0 = State.reset := ⟨rfl, rfl⟩

/-! ### Steps from reset -/

theorem test_reset_is_sound : State.reset.memOk = true ∧ State.reset.quiet = true ∧ State.reset.pending = [] := by decide +kernel
theorem test_reset_boots : State.reset.hub.mode = .boot ∧ State.reset.hub.row = 1 ∧ State.reset.now = 0 := by decide +kernel

/-! ### Witnesses of the statements' hypotheses -/

/-- A hub in mode `x` with an access table that grants everything. -/
def m (x : Mode) : State := { State.reset with
  hub := { State.reset.hub with mode := x, accessTable := true }
  loaded := { State.reset.loaded with access := (List.range 82).map (fun b => (b, 0xFFFF)), sections := [0xD] } }
/-- Both ring links are up. -/
def lk (s : State) : State := (s.wr (R.RING_PORT_up 0) 1).wr (R.RING_PORT_up 1) 1
/-- Memory without ECC marks has no uncorrectable word. -/
theorem clean {s : State} (h : s.eccMarks = []) : CleanMem s := by
  intro i; simp [State.eccOf, h]
/-- `Fetched` as a test. -/
def fetchedB (s : State) (e c : Nat) (i : Insn) : Bool :=
  decide (s.nextTurn e = some c ∧ s.inRegion e c (s.ctx e c).pc = true ∧ s.eccOf .prog (512 * e + (s.ctx e c).pc / 2) ≠ .bad ∧
    (s.ctx e c).tauDue = false) && (match s.wordAt e c with
    | some w => decodeInsn w == some i
    | none => false)
theorem fetched {s : State} {e c : Nat} {i : Insn} (h : fetchedB s e c i = true) : Fetched s e c i := by
  unfold fetchedB at h
  cases hw : s.wordAt e c with
  | none => simp [hw] at h
  | some w => simp [hw] at h; exact ⟨h.1.1, h.1.2.1, h.1.2.2.1, h.1.2.2.2, w, hw, h.2⟩
/-- Nor has the flash. -/
theorem cleanFlash {s : State} (h : s.eccMarks = []) : CleanFlash s := by
  intro x hx; simp [h] at hx

/-! ### A signed image -/

/-- Both coordinates of a point are reduced. -/
def Reduced (p : Point) : Prop := ∀ x y, p = some (x, y) → x < p256 ∧ y < p256

theorem subMod_lt (a b : Nat) : subMod a b < p256 := Nat.mod_lt _ (by decide)

theorem addPoint_reduced {a b : Point} (ha : Reduced a) (hb : Reduced b) : Reduced (addPoint a b) := by
  intro x y h
  match a, b with
  | none, b => exact hb x y (by simpa [addPoint] using h)
  | some (x1, y1), none => exact ha x y (by simpa [addPoint] using h)
  | some (x1, y1), some (x2, y2) =>
    simp only [addPoint] at h
    split at h
    · cases h
    · cases h
      exact ⟨subMod_lt _ _, subMod_lt _ _⟩

theorem mulPoint_reduced (n : Nat) : ∀ (k : Nat) (p : Point), Reduced p → Reduced (mulPoint n k p) := by
  induction n with
  | zero => intro k p _ x y h; simp [mulPoint] at h
  | succ n ih =>
    intro k p hp
    simp only [mulPoint]
    split
    · exact addPoint_reduced (ih _ _ (addPoint_reduced hp hp)) hp
    · exact ih _ _ (addPoint_reduced hp hp)

theorem mulPoint_zero (n : Nat) : ∀ p : Point, mulPoint n 0 p = none := by
  induction n with
  | zero => intro p; rfl
  | succ n ih => intro p; simp [mulPoint, ih]

theorem mulPoint_one (n : Nat) (p : Point) : mulPoint (n + 1) 1 p = p := by
  cases p <;> simp [mulPoint, mulPoint_zero, addPoint]

/-- The signature (1, 1) verifies where the point that the digest gives and the key add up to a point whose first coordinate is 1. -/
theorem ecdsaOk_one {e x y w : Nat} {p : Point} (hp : mulPoint 256 (e * 1 % n256) base256 = p)
    (h : addPoint p (some (x, y)) = some (1, w)) : ecdsaOk (some (x, y)) e 1 1 = true := by
  have hw : invMod n256 1 = 1 := by decide +kernel
  have h1 : 1 * 1 % n256 = 1 := by decide +kernel
  have hd : decide (1 ≤ 1 ∧ 1 < n256) = true := by decide +kernel
  have hm : mulPoint 256 1 (some (x, y)) = some (x, y) := mulPoint_one 255 _
  simp only [ecdsaOk, hd, hw, h1, hp, hm, h, Bool.true_and, beq_self_eq_true]

theorem succ_sub {p x : Nat} (hp : 1 < p) (h : x < p) : ((x + 1) % p + p - x % p) % p = 1 := by
  rw [Nat.mod_eq_of_lt h]
  by_cases hx : x + 1 = p
  · rw [hx, Nat.mod_self, Nat.mod_eq_of_lt (by omega)]; omega
  · have e : x + 1 + p - x = 1 + p := by omega
    rw [Nat.mod_eq_of_lt (by omega : x + 1 < p), e, Nat.add_mod_right, Nat.mod_eq_of_lt hp]

/-- Points with reduced coordinates whose sum with a given point has the first coordinate 1. -/
theorem partner {p : Point} (hr : Reduced p) : ∃ x y w, x < p256 ∧ y < p256 ∧ addPoint p (some (x, y)) = some (1, w) := by
  have hi : invMod p256 1 = 1 := by decide +kernel
  have e4 : 1 * 1 % p256 = 1 := by decide +kernel
  have one : 2 < p256 := by decide +kernel
  have hs (n : Nat) : n % p256 < p256 := Nat.mod_lt _ (by omega)
  cases p with
  | none => exact ⟨1, 0, 0, by omega, by omega, rfl⟩
  | some q =>
    obtain ⟨x1, y1⟩ := q
    obtain ⟨hx, hy⟩ := hr x1 y1 rfl
    by_cases hz : p256 - 1 - x1 = x1
    · have e1 : subMod ((x1 + 1) % p256) x1 = 1 := succ_sub (by omega) hx
      have e2 : subMod ((y1 + 1) % p256) y1 = 1 := succ_sub (by omega) hy
      have ne : x1 ≠ (x1 + 1) % p256 := by rw [Nat.mod_eq_of_lt (by omega)]; omega
      have e3 : subMod 1 (x1 + (x1 + 1) % p256) = 1 := by
        have e : x1 + (x1 + 1) = p256 := by omega
        rw [Nat.mod_eq_of_lt (by omega : x1 + 1 < p256), e, subMod, Nat.mod_self, Nat.sub_zero, Nat.add_mod_right,
          Nat.mod_eq_of_lt (by omega)]
      refine ⟨(x1 + 1) % p256, (y1 + 1) % p256, subMod (1 * subMod x1 1) y1, hs _, hs _, ?_⟩
      simp only [addPoint, ne, false_and, if_false, e1, e2, hi, e4, e3, Nat.mul_one]
    · have e2 : subMod y1 y1 = 0 := by
        rw [subMod, Nat.mod_eq_of_lt hy, Nat.add_sub_cancel_left, Nat.mod_self]
      have e3 : subMod 0 (x1 + (p256 - 1 - x1)) = 1 := by
        have e : x1 + (p256 - 1 - x1) = p256 - 1 := by omega
        have e' : 0 + p256 - (p256 - 1) = 1 := by omega
        rw [e, subMod, Nat.mod_eq_of_lt (by omega : p256 - 1 < p256), e', Nat.mod_eq_of_lt (by omega)]
      refine ⟨p256 - 1 - x1, y1, subMod (0 * subMod x1 1) y1, by omega, hy, ?_⟩
      have ne : x1 ≠ p256 - 1 - x1 := fun h => hz h.symm
      simp only [addPoint, ne, false_and, if_false, e2, Nat.zero_mul, Nat.zero_mod, e3]

/-- Every digest has a key under which the signature (1, 1) verifies. -/
theorem key_of_digest (e : Nat) : ∃ q : BitVec 256 × BitVec 256, ecdsaOk (some (q.1.toNat, q.2.toNat)) e 1 1 = true := by
  have hb : Reduced base256 := by
    intro x y h
    simp only [base256, Option.some.injEq, Prod.mk.injEq] at h
    obtain ⟨rfl, rfl⟩ := h
    decide +kernel
  obtain ⟨x, y, w, hx, hy, h⟩ := partner (mulPoint_reduced 256 (e * 1 % n256) base256 hb)
  have big : p256 < 2 ^ 256 := by decide +kernel
  refine ⟨(BitVec.ofNat 256 x, BitVec.ofNat 256 y), ?_⟩
  simp only [BitVec.toNat_ofNat, Nat.mod_eq_of_lt (Nat.lt_trans hx big), Nat.mod_eq_of_lt (Nat.lt_trans hy big)]
  exact ecdsaOk_one rfl h

/-! #### Byte lists -/

theorem slice_skip {a b : List Byte} {o n : Nat} (h : a.length ≤ o) : slice (a ++ b) o n = slice b (o - a.length) n := by
  simp only [slice, List.drop_append, List.drop_eq_nil_of_le h, List.nil_append]

theorem slice_front {a b : List Byte} {n : Nat} (h : a.length = n) : slice (a ++ b) 0 n = a := by
  subst h; simp [slice]

theorem slice_all {a : List Byte} {n : Nat} (h : a.length = n) : slice a 0 n = a := by subst h; simp [slice]

@[simp] theorem length_leBytes (n : Nat) : ∀ v, (leBytes n v).length = n := by
  induction n with
  | zero => intro v; rfl
  | succ n ih => intro v; simp [leBytes, ih]

theorem leNat_leBytes (n : Nat) : ∀ v, leNat (leBytes n v) = v % 256 ^ n := by
  induction n with
  | zero => intro v; simp [leBytes, leNat, Nat.mod_one]
  | succ n ih =>
    intro v
    have h : v % (256 * 256 ^ n) = v % 256 + 256 * (v / 256 % 256 ^ n) := Nat.mod_mul
    rw [leBytes, leNat, ih, BitVec.toNat_ofNat, show (256 : Nat) ^ (n + 1) = 256 * 256 ^ n from Nat.pow_succ', h]

theorem leAt_skip {a b : List Byte} {o n : Nat} (h : a.length ≤ o) : leAt (a ++ b) o n = leAt b (o - a.length) n := by
  simp only [leAt, slice_skip h]

theorem leAt_front (v n : Nat) (b : List Byte) : leAt (leBytes n v ++ b) 0 n = v % 256 ^ n := by
  rw [leAt, slice_front (length_leBytes n v), leNat_leBytes]

theorem leAt_all (v n : Nat) : leAt (leBytes n v) 0 n = v % 256 ^ n := by
  rw [leAt, slice_all (length_leBytes n v), leNat_leBytes]

/-! #### A bit-stream: zeros but for what the address windows and the ring need -/

def zeros (n : Nat) : List Byte := List.replicate n 0

@[simp] theorem length_zeros (n : Nat) : (zeros n).length = n := List.length_replicate ..

/-- An entry of the directory. -/
def dirEntry (code off size : Nat) (bs : List Byte) : List Byte :=
  leBytes 2 code ++ (leBytes 2 0 ++ (leBytes 4 off ++ (leBytes 4 size ++ leBytes 4 (crc32 bs).toNat)))

@[simp] theorem length_dirEntry (code off size : Nat) (bs : List Byte) : (dirEntry code off size bs).length = 16 := by simp [dirEntry]

theorem dirEntry_reads {code off size : Nat} (bs : List Byte) (hc : code < 65536) (ho : off < 4294967296) (hs : size < 4294967296) :
    (⟨leAt (dirEntry code off size bs) 0 2, leAt (dirEntry code off size bs) 2 2, leAt (dirEntry code off size bs) 4 4,
      leAt (dirEntry code off size bs) 8 4, leAt (dirEntry code off size bs) 12 4⟩ : DirEntry) =
    ⟨code, 0, off, size, (crc32 bs).toNat⟩ := by
  have hx : (crc32 bs).toNat < 4294967296 := (crc32 bs).isLt
  unfold dirEntry
  generalize (crc32 bs).toNat = x at *
  simp [leAt_skip, leAt_front, leAt_all]
  omega

/-- Section 0x0003: no right and no window. -/
def windowsSec : List Byte :=
  leBytes 2 0 ++ (leBytes 2 1 ++ (zeros 4 ++ (leBytes 4 0x10001 ++ (leBytes 4 0x10001 ++ (leBytes 4 0x10001 ++ (leBytes 4 0x10001 ++
    zeros 192))))))

/-- Section 0x0004: the first rate, and no spur. -/
def ringSec : List Byte := leBytes 6 1 ++ (leBytes 2 100 ++ (leBytes 1 2 ++ (zeros 3 ++ (leBytes 2 1 ++ zeros 2))))

@[simp] theorem length_windowsSec : windowsSec.length = 216 := by simp [windowsSec]
@[simp] theorem length_ringSec : ringSec.length = 16 := by simp [ringSec]

def plainHead (variant : Nat) : List Byte :=
  leBytes 4 0x5A574253 ++ leBytes 2 1 ++ leBytes 2 0 ++ leBytes 4 11336 ++ leBytes 2 6 ++ leBytes 2 variant ++ zeros 16

def unitSig : List Byte := zeros 31 ++ [1] ++ zeros 31 ++ [1]

/-- What the signature of the bit-stream covers. -/
def plainBody (variant : Nat) : List Byte :=
  plainHead variant ++ (dirEntry 1 128 416 (zeros 416) ++ (dirEntry 2 544 3840 (zeros 3840) ++ (dirEntry 3 4384 216 windowsSec ++
    (dirEntry 4 4600 16 ringSec ++ (dirEntry 5 4616 6656 (zeros 6656) ++ (dirEntry 6 11272 0 [] ++
    (zeros 416 ++ (zeros 3840 ++ (windowsSec ++ (ringSec ++ zeros 6656))))))))))

/-- A bit-stream of 11,336 bytes. -/
def plainBits (variant : Nat) : List Byte := plainBody variant ++ unitSig

@[simp] theorem length_plainHead (v : Nat) : (plainHead v).length = 32 := by simp [plainHead]
@[simp] theorem length_unitSig : unitSig.length = 64 := by simp [unitSig]
theorem length_plainBody (v : Nat) : (plainBody v).length = 11272 := by simp [plainBody]
theorem length_plainBits (v : Nat) : (plainBits v).length = 11336 := by simp [plainBits, length_plainBody]

theorem plainBits_head (v : Nat) : leAt (plainBits v) 0 4 = 0x5A574253 ∧ leAt (plainBits v) 4 2 = 1 ∧ leAt (plainBits v) 8 4 = 11336 ∧
    leAt (plainBits v) 12 2 = 6 ∧ leAt (plainBits v) 14 2 = v % 65536 := by
  simp [plainBits, plainBody, plainHead, List.append_assoc, leAt_skip, leAt_front]

theorem leAt_zeros (k n : Nat) (b : List Byte) (h : n ≤ k) : leAt (zeros k ++ b) 0 n = 0 := by
  have hz (m : Nat) : leNat (List.replicate m (0 : Byte)) = 0 := by
    induction m with
    | zero => rfl
    | succ m ih => rw [List.replicate_succ, leNat, ih]; rfl
  have e : slice (zeros k ++ b) 0 n = List.replicate n 0 := by
    simp [slice, zeros, List.take_append_of_le_length, h, List.take_replicate]
  rw [leAt, e, hz]

theorem plainBits_rest (v : Nat) : leAt (plainBits v) 16 3 = 0 ∧ leAt (plainBits v) 19 1 = 0 ∧ leAt (plainBits v) 20 4 = 0 ∧
    leAt (plainBits v) 24 8 = 0 := by
  have e : zeros 16 = zeros 3 ++ (zeros 1 ++ (zeros 4 ++ zeros 8)) := by decide
  simp [plainBits, plainBody, plainHead, e, List.append_assoc, leAt_skip, leAt_zeros]

def plainDir : List DirEntry :=
  [⟨1, 0, 128, 416, (crc32 (zeros 416)).toNat⟩, ⟨2, 0, 544, 3840, (crc32 (zeros 3840)).toNat⟩,
   ⟨3, 0, 4384, 216, (crc32 windowsSec).toNat⟩, ⟨4, 0, 4600, 16, (crc32 ringSec).toNat⟩,
   ⟨5, 0, 4616, 6656, (crc32 (zeros 6656)).toNat⟩, ⟨6, 0, 11272, 0, (crc32 []).toNat⟩]

theorem plainBits_directory (v : Nat) : directory (plainBits v) = plainDir := by
  unfold directory plainDir
  rw [(plainBits_head v).2.2.2.1]
  simp [plainBits, plainBody, List.append_assoc, slice_skip, slice_front, List.range_succ, dirEntry_reads]

theorem plainBits_slices (v : Nat) : slice (plainBits v) 128 416 = zeros 416 ∧ slice (plainBits v) 544 3840 = zeros 3840 ∧
    slice (plainBits v) 4384 216 = windowsSec ∧ slice (plainBits v) 4600 16 = ringSec ∧ slice (plainBits v) 4616 6656 = zeros 6656 ∧
    slice (plainBits v) 11272 0 = [] := by
  have h0 (bs : List Byte) (o : Nat) : slice bs o 0 = [] := by simp [slice]
  simp [plainBits, plainBody, List.append_assoc, slice_skip, slice_front, h0]

theorem plainBits_directoryOk (v : Nat) : directoryOk (plainBits v) = true := by
  obtain ⟨s1, s2, s3, s4, s5, s6⟩ := plainBits_slices v
  have h3 : leAt windowsSec 0 2 = 0 := by simp [windowsSec, leAt_front]
  unfold directoryOk
  rw [plainBits_directory, (plainBits_head v).2.2.2.1, length_plainBits]
  simp only [plainDir, List.all_cons, List.all_nil, s1, s2, s3, s4, s5, s6, sectionSize, h3, List.length_nil, BitVec.ofNat_toNat,
    BitVec.setWidth_eq, beq_self_eq_true, Bool.and_true]
  simp [rising, allDisjoint, disjointFrom, List.range_succ]

/-- The bit-stream of zeros passes the checks of a Steep under some key. -/
theorem plainBits_pass (v : Nat) (hv : v < 65536) : ∃ key, imageFault (plainBits v) key v 0 = none := by
  obtain ⟨key, hk⟩ := key_of_digest (beNat (sha256 (plainBody v)))
  obtain ⟨a1, a2, a3, a4, a5⟩ := plainBits_head v
  obtain ⟨b1, b2, b3, b4⟩ := plainBits_rest v
  have hb : (plainBits v).take 11272 = plainBody v := by
    rw [plainBits, List.take_append_of_le_length (by rw [length_plainBody]), List.take_of_length_le (by rw [length_plainBody])]
  have hs : (plainBits v).drop 11272 = unitSig := by
    rw [plainBits, List.drop_append_of_le_length (by rw [length_plainBody]), List.drop_eq_nil_of_le (by rw [length_plainBody]), List.nil_append]
  have hu : beNat (unitSig.take 32) = 1 ∧ beNat (unitSig.drop 32) = 1 := by decide +kernel
  have hver : verifies key (plainBody v) unitSig = true := by
    rw [verifies, hu.1, hu.2, hk, length_unitSig]; rfl
  refine ⟨key, ?_⟩
  have hl : 11336 - 64 = 11272 := rfl
  unfold imageFault
  rw [a1, a2, a3, a4, a5, b1, b2, b4, length_plainBits, plainBits_directoryOk, Nat.mod_eq_of_lt hv]
  simp only [hl, hb, hs, hver,
    beq_self_eq_true]
  rfl

/-! #### A package that builds an image with that bit-stream -/

theorem drop_skip {a b : List Byte} {o : Nat} (h : a.length ≤ o) : (a ++ b).drop o = b.drop (o - a.length) := by
  rw [List.drop_append, List.drop_eq_nil_of_le h, List.nil_append]

theorem slice_within {bs : List Byte} {o n : Nat} (h : o + n ≤ bs.length) : slice bs o n = (bs.drop o).take n := by
  have e : n - ((bs.drop o).take n).length = 0 := by simp; omega
  simp only [slice, e, List.replicate_zero, List.append_nil]

theorem allZero_zeros (n : Nat) (b : List Byte) : allZero (zeros n ++ b) = allZero b := by
  simp [allZero, zeros, List.all_append]

/-- A record of literal bytes, of a length that is a multiple of 8. -/
def dataRec (bs : List Byte) : List Byte := leBytes 1 2 ++ (leBytes 3 0 ++ (leBytes 4 bs.length ++ bs))

/-- A record of zeros. -/
def fillRec (n : Nat) : List Byte := leBytes 1 3 ++ (leBytes 3 0 ++ (leBytes 4 n ++ zeros 8))

@[simp] theorem length_dataRec (bs : List Byte) : (dataRec bs).length = bs.length + 8 := by simp [dataRec]; omega
@[simp] theorem length_fillRec (n : Nat) : (fillRec n).length = 16 := by simp [fillRec]

theorem pkgRecord_data {bs rest : List Byte} (h8 : bs.length % 8 = 0) (hl : bs.length < 4294967296) :
    pkgRecord (dataRec bs ++ rest) = some (.data bs, rest) := by
  have h0 : leAt (dataRec bs ++ rest) 0 1 = 2 := by simp [dataRec, leAt_front]
  have h1 : leAt (dataRec bs ++ rest) 1 3 = 0 := by simp [dataRec, leAt_skip, leAt_front]
  have h4 : leAt (dataRec bs ++ rest) 4 4 = bs.length := by simp [dataRec, leAt_skip, leAt_front]; omega
  have hd : (dataRec bs ++ rest).drop 8 = bs ++ rest := by
    simp [dataRec, drop_skip]
  have hn : (bs.length + 7) / 8 * 8 = bs.length := by omega
  unfold pkgRecord
  simp only [h0, h1, h4, hd, hn]
  have hx : ¬ ((dataRec bs ++ rest).length < 8 ∨ (0 : Nat) ≠ 0) := by simp; omega
  rw [if_neg hx]
  simp [allZero]

theorem pkgRecord_fill {n : Nat} {rest : List Byte} (hl : n < 4294967296) :
    pkgRecord (fillRec n ++ rest) = some (.fill n 0, rest) := by
  have h0 : leAt (fillRec n ++ rest) 0 1 = 3 := by simp [fillRec, leAt_front]
  have h1 : leAt (fillRec n ++ rest) 1 3 = 0 := by simp [fillRec, leAt_skip, leAt_front]
  have h4 : leAt (fillRec n ++ rest) 4 4 = n := by simp [fillRec, leAt_skip, leAt_front]; omega
  have hd : (fillRec n ++ rest).drop 8 = zeros 8 ++ rest := by
    simp [fillRec, drop_skip]
  unfold pkgRecord
  simp only [h0, h1, h4, hd]
  have hx : ¬ ((fillRec n ++ rest).length < 8 ∨ (0 : Nat) ≠ 0) := by simp; omega
  rw [if_neg hx]
  simp [allZero, zeros]

/-- The directory and header of the bit-stream, which come before its zeros. -/
def plainFront (v : Nat) : List Byte :=
  plainHead v ++ (dirEntry 1 128 416 (zeros 416) ++ (dirEntry 2 544 3840 (zeros 3840) ++ (dirEntry 3 4384 216 windowsSec ++
    (dirEntry 4 4600 16 ringSec ++ (dirEntry 5 4616 6656 (zeros 6656) ++ dirEntry 6 11272 0 [])))))

theorem zeros_add (a b : Nat) : zeros a ++ zeros b = zeros (a + b) := List.replicate_append_replicate

theorem plainBits_front (v : Nat) : plainBits v = plainFront v ++ (zeros 4256 ++ (windowsSec ++ (ringSec ++ (zeros 6656 ++ unitSig)))) := by
  simp only [plainBits, plainBody, plainFront, List.append_assoc]
  rw [← zeros_add 416 3840]
  simp only [List.append_assoc]

@[simp] theorem length_plainFront (v : Nat) : (plainFront v).length = 128 := by simp [plainFront]

theorem length_sha256 (bs : List Byte) : (sha256 bs).length = 32 := by simp [sha256, beBytes]

/-- The header of an image whose firmware and library are empty, up to its zeros. -/
def imgFront : List Byte :=
  leBytes 4 0x5A57494D ++ (leBytes 2 1 ++ (leBytes 2 0 ++ (leBytes 4 0 ++ (leBytes 4 15432 ++ (leBytes 4 4096 ++ (leBytes 4 0 ++
    (leBytes 4 4096 ++ (leBytes 4 11336 ++ (leBytes 4 4096 ++ (leBytes 4 0 ++ sha256 []))))))))))

@[simp] theorem length_imgFront : imgFront.length = 72 := by simp [imgFront, length_sha256]

def plainImg (v : Nat) : List Byte := imgFront ++ (zeros 4024 ++ plainBits v)

theorem length_plainImg (v : Nat) : (plainImg v).length = 15432 := by simp [plainImg, length_plainBits]

/-- The records that build it. -/
def plainRecs (v : Nat) : List Byte :=
  dataRec imgFront ++ (fillRec 4024 ++ (dataRec (plainFront v) ++ (fillRec 4256 ++ (dataRec windowsSec ++ (dataRec ringSec ++
    (fillRec 6656 ++ (dataRec unitSig ++ [])))))))

theorem pkgRecords_plain (n v : Nat) : pkgRecords (n + 9) (plainRecs v) =
    some [.data imgFront, .fill 4024 0, .data (plainFront v), .fill 4256 0, .data windowsSec, .data ringSec, .fill 6656 0, .data unitSig] := by
  have ne {a b : List Byte} (h : 0 < a.length) : (a ++ b).isEmpty = false := by
    cases a with
    | nil => simp at h
    | cons x y => rfl
  unfold plainRecs
  rw [pkgRecords, ne (by simp), pkgRecord_data (by simp) (by simp)]
  simp only
  rw [pkgRecords, ne (by simp), pkgRecord_fill (by omega)]
  simp only
  rw [pkgRecords, ne (by simp), pkgRecord_data (by simp) (by simp)]
  simp only
  rw [pkgRecords, ne (by simp), pkgRecord_fill (by omega)]
  simp only
  rw [pkgRecords, ne (by simp), pkgRecord_data (by simp) (by simp)]
  simp only
  rw [pkgRecords, ne (by simp), pkgRecord_data (by simp) (by simp)]
  simp only
  rw [pkgRecords, ne (by simp), pkgRecord_fill (by omega)]
  simp only
  rw [pkgRecords, ne (by simp), pkgRecord_data (by simp) (by simp)]
  rfl

/-- The package. -/
def plainPkg (v : Nat) : List Byte :=
  leBytes 4 0x5A575550 ++ (leBytes 2 1 ++ (leBytes 2 0 ++ (leBytes 4 744 ++ (leBytes 2 v ++ (zeros 6 ++ (leBytes 4 15432 ++ (zeros 32 ++
    (sha256 (plainImg v) ++ (zeros 8 ++ (plainRecs v ++ zeros 64))))))))))

theorem length_plainPkg (v : Nat) : (plainPkg v).length = 744 := by simp [plainPkg, plainRecs, length_sha256]

theorem plainPkg_records (v : Nat) : packageRecords (plainPkg v) =
    some [.data imgFront, .fill 4024 0, .data (plainFront v), .fill 4256 0, .data windowsSec, .data ringSec, .fill 6656 0, .data unitSig] := by
  have h : ((plainPkg v).take 680).drop 96 = plainRecs v := by
    have e : plainPkg v = (leBytes 4 0x5A575550 ++ (leBytes 2 1 ++ (leBytes 2 0 ++ (leBytes 4 744 ++ (leBytes 2 v ++ (zeros 6 ++
        (leBytes 4 15432 ++ (zeros 32 ++ (sha256 (plainImg v) ++ zeros 8))))))))) ++ (plainRecs v ++ zeros 64) := by
      simp [plainPkg]
    have hl : (plainRecs v).length = 584 := by simp [plainRecs]
    rw [e, List.drop_take, drop_skip (by simp [length_sha256])]
    simp only [List.length_append, length_leBytes, length_zeros, length_sha256, Nat.reduceAdd, Nat.reduceSub, List.drop_zero]
    rw [List.take_append_of_le_length (by rw [hl]), List.take_of_length_le (by rw [hl])]
  rw [packageRecords, length_plainPkg, h]
  exact pkgRecords_plain 735 v

theorem plainPkg_builds (s : State) (v : Nat) : s.buildImage (plainPkg v) = plainImg v := by
  have hz (n : Nat) : List.replicate n (0 : Byte) = zeros n := rfl
  rw [State.buildImage, plainPkg_records, plainImg, plainBits_front]
  simp only [Option.getD_some, List.flatMap_cons, List.flatMap_nil, List.append_nil, hz]

theorem plainPkg_digest (v : Nat) : slice (plainPkg v) 56 32 = sha256 (plainImg v) := by
  unfold plainPkg
  rw [slice_skip (by simp), slice_skip (by simp), slice_skip (by simp), slice_skip (by simp), slice_skip (by simp), slice_skip (by simp),
    slice_skip (by simp), slice_skip (by simp)]
  simp only [length_leBytes, length_zeros, Nat.reduceSub]
  exact slice_front (length_sha256 _)

theorem plainImg_header (v : Nat) : imageHeaderOk (plainImg v) = true := by
  have hz : allZero ((plainImg v).take 4096 |>.drop 72) = true := by
    rw [plainImg, List.drop_take, drop_skip (by simp), length_imgFront, Nat.sub_self, List.drop_zero,
      List.take_append_of_le_length (by simp), List.take_of_length_le (by simp)]
    have h := allZero_zeros 4024 []
    rw [List.append_nil] at h
    rw [h]
    rfl
  unfold imageHeaderOk componentOk
  rw [hz, length_plainImg]
  simp [plainImg, imgFront, List.append_assoc, leAt_skip, leAt_front]

theorem plainImg_parts (v : Nat) : slice (plainImg v) (leAt (plainImg v) 16 4) (leAt (plainImg v) 20 4) = [] ∧
    slice (plainImg v) 40 32 = sha256 [] ∧ slice (plainImg v) (leAt (plainImg v) 24 4) (leAt (plainImg v) 28 4) = plainBits v := by
  have h1 : leAt (plainImg v) 20 4 = 0 := by simp [plainImg, imgFront, List.append_assoc, leAt_skip, leAt_front]
  have h2 : leAt (plainImg v) 24 4 = 4096 := by simp [plainImg, imgFront, List.append_assoc, leAt_skip, leAt_front]
  have h3 : leAt (plainImg v) 28 4 = 11336 := by simp [plainImg, imgFront, List.append_assoc, leAt_skip, leAt_front]
  refine ⟨by rw [h1]; simp [slice], ?_, ?_⟩
  · simp [plainImg, imgFront, List.append_assoc, slice_skip, slice_front (length_sha256 _)]
  · rw [h2, h3, plainImg, slice_skip (by simp), slice_skip (by simp)]
    simp only [length_imgFront, length_zeros, Nat.reduceSub]
    exact slice_all (length_plainBits v)

/-- A hub whose staging area holds the package, under a key `k`. -/
def plainHub (b : State) (k : BitVec 256 × BitVec 256) : State :=
  { b with flash := mputList 0xFF [] stagingBase (plainPkg b.variant.code), rootKey := k }

theorem plainHub_package (b : State) (k : BitVec 256 × BitVec 256) (he : b.eccMarks = []) (hu : b.upd.stagingUndef = []) :
    (plainHub b k).packageBytes = plainPkg b.variant.code := by
  have rd (i n : Nat) (h : i + n ≤ 744) : (plainHub b k).readFlash (stagingBase + i) n = ((plainPkg b.variant.code).drop i).take n := by
    have e : (plainHub b k).eccMarks.isEmpty = true := by simp [plainHub, he]
    have u : (plainHub b k).upd.stagingUndef.isEmpty = true := by simp [plainHub, hu]
    rw [State.readFlash, if_pos e, State.flashBytes, if_pos u]
    have f : (plainHub b k).flash = mputList 0xFF [] stagingBase (plainPkg b.variant.code) := by simp only [plainHub]
    rw [f]
    generalize stagingBase = base
    exact mgetList_mputList _ _ _ n i (by rw [length_plainPkg]; exact h)
  have hl : leNat (((plainPkg b.variant.code).drop 8).take 4) = 744 := by
    rw [← slice_within (by rw [length_plainPkg]; omega), ← leAt, plainPkg]
    simp [leAt_skip, leAt_front]
  have h0 := rd 0 744 (by omega)
  rw [State.packageBytes, rd 8 4 (by omega), hl]
  rw [Nat.add_zero, List.drop_zero, List.take_of_length_le (by rw [length_plainPkg])] at h0
  exact h0

/-- Under some key the checks 7 and 8 of R673 find nothing. -/
theorem plainHub_built (b : State) (he : b.eccMarks = []) (hu : b.upd.stagingUndef = []) : ∃ k, ∀ t : State,
    t.rootKey = k → t.variant = b.variant → t.storedEpoch = 0 →
      t.builtFault (plainHub b k).packageBytes ((plainHub b k).buildImage (plainHub b k).packageBytes) = none := by
  obtain ⟨k, hk⟩ := plainBits_pass b.variant.code (by cases b.variant <;> decide)
  refine ⟨k, fun t h1 h2 h3 => ?_⟩
  obtain ⟨p1, p2, p3⟩ := plainImg_parts b.variant.code
  rw [plainHub_package b k he hu, plainPkg_builds]
  unfold State.builtFault
  simp only [plainPkg_digest, p1, p2, p3, plainImg_header, h1, h2, h3, hk]
  simp

/-! #### The Steep of that bit-stream -/

theorem leAt_zero (m o n : Nat) : leAt (zeros m) o n = 0 ∧ slice (zeros m) o n = zeros n := by
  have hs : slice (zeros m) o n = zeros n := by
    simp only [slice, zeros, List.drop_replicate, List.take_replicate, List.length_replicate, List.replicate_append_replicate]
    congr 1; omega
  refine ⟨?_, hs⟩
  have h := leAt_zeros n n [] (Nat.le_refl n)
  rw [List.append_nil, leAt, slice_all (length_zeros n)] at h
  rw [leAt, hs, h]

theorem allZero_all (n : Nat) : allZero (zeros n) = true := by
  have h := allZero_zeros n []
  rwa [List.append_nil] at h

@[simp] theorem variant_cfg (s : State) (f : Fld) (v : Nat) : (s.cfg f v).variant = s.variant := rfl
@[simp] theorem variant_cfgWord (s : State) (a : Nat) (w : Word) : (s.cfgWord a w).variant = s.variant := rfl

theorem variant_foldl {α : Type} (f : State → α → State) (h : ∀ t a, (f t a).variant = t.variant) (l : List α) :
    ∀ s, (l.foldl f s).variant = s.variant := by
  induction l with
  | nil => intro s; rfl
  | cons a l ih => intro s; rw [List.foldl_cons, ih, h]

theorem rd_cfg (s : State) (f g : Fld) (v : Nat) : (s.cfg f v).rd g = (s.wr f v).rd g := rfl

/-- No safe value is set. -/
def safeZero (s : State) : Prop := ∀ i, i < 384 → s.rd (R.BAY_PIN_safe i) = 0

theorem orElseFail_then {c : Bool} {k : Cause} {f : Unit → Applied} (h : c = true) : (orElseFail c k >>= f) = f () := by subst h; rfl

theorem safe_foldl (l : List Nat) : ∀ s : State, (∀ i, i < 384 → i ∉ l → s.rd (R.BAY_PIN_safe i) = 0) → (∀ i ∈ l, i < 384) →
    safeZero (l.foldl (fun t g => t.cfg (R.BAY_PIN_safe g) (leAt (zeros 416) g 1)) s) := by
  induction l with
  | nil => intro s h _ i hi; exact h i hi (by simp)
  | cons a l ih =>
    intro s h hl
    refine ih _ (fun i hi hn => ?_) (fun i hi => hl i (List.mem_cons_of_mem _ hi))
    show (s.cfg (R.BAY_PIN_safe a) (leAt (zeros 416) a 1)).rd (R.BAY_PIN_safe i) = 0
    rw [(leAt_zero 416 a 1).1, rd_cfg]
    by_cases e : i = a
    · subst e; rw [rd_wr_same _ _ _ (by simp [R.BAY_PIN_safe])]; simp
    · rw [rd_wr_addr _ _ _ _ (by simp [R.BAY_PIN_safe, R.BAY_PIN, bayBase]; omega)]
      exact h i hi (by simp [e, hn])

theorem applySafe_plain (s : State) : ∃ t, s.applySafe (zeros 416) = .ok t ∧ t.variant = s.variant ∧ safeZero t := by
  unfold State.applySafe
  rw [orElseFail_then (by simp [leAt_zero]), orElseFail_then (by simp [leAt_zero])]
  refine ⟨_, rfl, ?_, ?_⟩
  · refine (variant_foldl _ (fun _ _ => ?_) _ _).trans ((variant_foldl _ (fun _ _ => ?_) _ _).trans rfl)
    · rfl
    · simp only [variant_cfg]
  · have h := safe_foldl (List.range 384) s (fun i hi hn => absurd (List.mem_range.2 hi) hn) (fun i hi => List.mem_range.1 hi)
    have k (l : List Nat) : ∀ t : State, safeZero t → safeZero (l.foldl (fun (t : State) k =>
        { t with loaded := { t.loaded with portSafe := mput 0 t.loaded.portSafe k (leAt (zeros 416) (384 + k) 1) } }) t) := by
      induction l with
      | nil => intro t ht; exact ht
      | cons a l ih => intro t ht; exact ih _ ht
    exact k _ _ h

theorem applyPinCells_plain (s : State) (g : Image) (hs : safeZero s) :
    ∃ t, s.applyPinCells g (zeros 3840) = .ok t ∧ t.variant = s.variant := by
  unfold State.applyPinCells
  simp only [leAt_zero]
  rw [orElseFail_then (by simp [allZero_all]), orElseFail_then ?_]
  · refine ⟨_, rfl, ?_⟩
    refine (variant_foldl _ (fun _ _ => ?_) _ _).trans ((variant_foldl _ (fun _ _ => ?_) _ _).trans rfl) <;> simp only [variant_cfg]
  · simp only [Bool.and_eq_true, List.all_eq_true, List.mem_range]
    refine ⟨fun i hi => ⟨?_, ?_⟩, fun n _ => ?_⟩
    · simp [pinEntryOk, leAt_zero, pinModeOk, bitAt]
    · rw [hs i hi]; simp [safeValueOk]
    · simp [bayEntryOk, leAt_zero]

theorem applyWindows_plain (s : State) : ∃ t, s.applyWindows windowsSec = .ok t ∧ t.variant = s.variant := by
  have hc (i : Nat) : leAt windowsSec (24 + 2 * i) 2 = 0 := by
    have e : windowsSec = (leBytes 2 0 ++ (leBytes 2 1 ++ (zeros 4 ++ (leBytes 4 0x10001 ++ (leBytes 4 0x10001 ++ (leBytes 4 0x10001 ++
        leBytes 4 0x10001)))))) ++ zeros 192 := by simp [windowsSec]
    rw [e, leAt_skip (by simp), (leAt_zero _ _ _).1]
  have h0 : leAt windowsSec 0 2 = 0 := by simp [windowsSec, leAt_front]
  unfold State.applyWindows
  simp only [hc, h0]
  rw [orElseFail_then (by simp), orElseFail_then (by decide +kernel)]
  generalize leAt windowsSec = word
  refine ⟨_, rfl, ?_⟩
  simp only
  refine (variant_foldl _ (fun _ _ => ?_) _ _).trans (variant_cfg _ _ _)
  simp only [variant_cfg]

theorem applyRing_plain (s : State) (hv : s.variant ≠ .c3248) : ∃ t, s.applyRing ringSec = .ok t ∧ t.variant = s.variant := by
  have hd : (s.variant != .c3248) = true := by simp [hv]
  unfold State.applyRing
  rw [hd]
  simp only [if_neg hv]
  rw [orElseFail_then (by decide +kernel), orElseFail_then (by decide +kernel)]
  exact ⟨_, rfl, by simp only [variant_cfg]⟩

theorem applyKettle_plain (s : State) : ∃ t, s.applyKettle (zeros 6656) = .ok t ∧ t.variant = s.variant := by
  unfold State.applyKettle
  simp only [leAt_zero, allZero_all]
  rw [orElseFail_then (by simp), orElseFail_then ?_]
  · refine ⟨_, rfl, ?_⟩
    refine (variant_foldl _ (fun t l => ?_) _ _).trans ((variant_foldl _ (fun _ _ => ?_) _ _).trans rfl)
    · refine (variant_foldl _ (fun _ _ => ?_) _ _).trans rfl
      simp only [variant_cfgWord]
    · simp only [variant_cfg]
  · simp [sourceOk, leAt_zero, argOk, bitAt]

theorem clearConfig_variant (s : State) : s.clearConfig.variant = s.variant := by
  refine (variant_foldl (fun (t : State) kv => t.setWord kv.1 (kv.2 &&& ~~~(bsMask kv.1))) (fun _ _ => rfl) s.regs s)

/-- The sections of the bit-stream. -/
def plainSecs : List (Nat × List Byte) := [(1, zeros 416), (2, zeros 3840), (3, windowsSec), (4, ringSec), (5, zeros 6656), (6, [])]

theorem applyFrom_cons {s t : State} {g : Image} {c : Nat} {b : List Byte} {rest : List (Nat × List Byte)}
    (h : s.applySection g c b = .ok t) : State.applyFrom s g ((c, b) :: rest) = State.applyFrom t g rest := by
  rw [State.applyFrom, h]

theorem applyFrom_plain (s : State) (g : Image) (hv : s.variant ≠ .c3248) : (State.applyFrom s g plainSecs).2 = none := by
  obtain ⟨t1, h1, v1, z1⟩ := applySafe_plain s
  obtain ⟨t2, h2, v2⟩ := applyPinCells_plain t1 g z1
  obtain ⟨t3, h3, v3⟩ := applyWindows_plain t2
  obtain ⟨t4, h4, v4⟩ := applyRing_plain t3 (by rw [v3, v2, v1]; exact hv)
  obtain ⟨t5, h5, v5⟩ := applyKettle_plain t4
  obtain ⟨t6, h6⟩ : ∃ t, t5.applyTuning [] = .ok t := ⟨_, rfl⟩
  unfold plainSecs
  rw [applyFrom_cons (c := 1) h1, applyFrom_cons (c := 2) h2, applyFrom_cons (c := 3) h3, applyFrom_cons (c := 4) h4,
    applyFrom_cons (c := 5) h5, applyFrom_cons (c := 6) h6]
  rfl

theorem plainBits_image (v : Nat) : (imageOf (plainBits v)).secs = plainSecs := by
  obtain ⟨s1, s2, s3, s4, s5, s6⟩ := plainBits_slices v
  simp only [imageOf, plainBits_directory, plainDir, List.map_cons, List.map_nil, s1, s2, s3, s4, s5, s6, plainSecs]

/-- A read of all that was written to an empty flash. -/
theorem readFlash_whole {s : State} {o : Nat} {bs : List Byte} (he : s.eccMarks = []) (hu : s.upd.stagingUndef = [])
    (hf : s.flash = mputList 0xFF [] o bs) : s.readFlash o bs.length = bs := by
  rw [State.readFlash, if_pos (by rw [he]; rfl), State.flashBytes, if_pos (by rw [hu]; rfl), hf]
  have h := mgetList_mputList (0xFF : Byte) bs [] (k := o) bs.length 0 (by omega)
  rwa [Nat.add_zero, List.drop_zero, List.take_length] at h

/-- A hub that Steeps the bit-stream from its staging area, under a key `k`. -/
def steepHub (b : State) (k : BitVec 256 × BitVec 256) : State :=
  { b with
    flash := mputList 0xFF [] stagingBase (plainBits b.variant.code)
    rootKey := k
    hub := { b.hub with mode := .steep, steepSrc := 2 } }

theorem steepHub_source {b : State} {k : BitVec 256 × BitVec 256} (hr : b.rd R.STP_LOAD_STATUS_received = 11336) (he : b.eccMarks = [])
    (hu : b.upd.stagingUndef = []) : (steepHub b k).sourceBytes (steepHub b k).hub.steepSrc = plainBits b.variant.code := by
  have hr' : (steepHub b k).rd R.STP_LOAD_STATUS_received = (plainBits b.variant.code).length := by
    rw [length_plainBits]
    exact hr
  have h : (steepHub b k).sourceBytes (steepHub b k).hub.steepSrc =
      (steepHub b k).readFlash stagingBase ((steepHub b k).rd R.STP_LOAD_STATUS_received) := if_pos rfl
  rw [h, hr']
  exact readFlash_whole he hu (by simp only [steepHub])

theorem applyImage_plain (s : State) (g : Image) (hg : g.secs = plainSecs) (hv : s.variant ≠ .c3248) : (s.applyImage g).2 = none := by
  unfold State.applyImage
  rw [hg]
  refine applyFrom_plain _ _ ?_
  show s.clearConfig.defaultSwitch.defaultTime.defaultPorts.defaultStates.variant ≠ _
  have h1 (t : State) : t.defaultSwitch.variant = t.variant := by
    unfold State.defaultSwitch
    refine variant_foldl _ (fun _ _ => ?_) _ _
    simp only [variant_cfg]
  have h2 (t : State) : t.defaultTime.variant = t.variant := rfl
  have h3 (t : State) : t.defaultPorts.variant = t.variant := by
    unfold State.defaultPorts
    refine variant_foldl _ (fun _ _ => ?_) _ _
    simp only [variant_cfg]
  have h4 (t : State) : t.defaultStates.variant = t.variant := by simp only [State.defaultStates, variant_cfg]
  rw [h4, h3, h2, h1, clearConfig_variant]
  exact hv

theorem steep_witness_of (b : State) (hr : b.rd R.STP_LOAD_STATUS_received = 11336) (he : b.eccMarks = [])
    (hu : b.upd.stagingUndef = []) (hv : b.variant ≠ .c3248) (h0 : b.storedEpoch = 0) : ∃ (s t : State) (g : Image), s.hub.mode = .steep ∧
      s.steepFault = none ∧ g = imageOf (s.sourceBytes s.hub.steepSrc) ∧ s.applyImage g = (t, none) := by
  obtain ⟨k, hk⟩ := plainBits_pass b.variant.code (by cases b.variant <;> decide)
  have epoch : (steepHub b k).storedEpoch = b.storedEpoch := rfl
  refine ⟨steepHub b k, _, _, rfl, ?_, rfl, Prod.ext rfl ?_⟩
  · rw [State.steepFault, steepHub_source hr he hu, epoch, h0]
    exact hk
  · rw [steepHub_source hr he hu]
    exact applyImage_plain _ _ (plainBits_image _) hv

theorem steep_witness : ∃ (s t : State) (g : Image), s.hub.mode = .steep ∧ s.steepFault = none ∧
    g = imageOf (s.sourceBytes s.hub.steepSrc) ∧ s.applyImage g = (t, none) :=
  steep_witness_of (State.reset.wr R.STP_LOAD_STATUS_received 11336) (by decide +kernel) rfl rfl (by decide +kernel) (by decide +kernel)

theorem built_witness_of (b : State) (h3 : b.rd R.UPD_STATUS_state = 3) (he : b.eccMarks = []) (hu : b.upd.stagingUndef = [])
    (h0 : b.storedEpoch = 0) : ∃ s t : State, CleanFlash s ∧ s.rd R.UPD_STATUS_state = 3 ∧
      t = { s with flash := mputList 0xFF s.flash (slotBase (!s.upd.running)) (s.buildImage s.packageBytes) } ∧
      t.builtFault s.packageBytes (s.buildImage s.packageBytes) = none := by
  obtain ⟨k, hk⟩ := plainHub_built b he hu
  have epoch (f : SMap Byte) : ({ plainHub b k with flash := f } : State).storedEpoch = b.storedEpoch := rfl
  exact ⟨plainHub b k, _, cleanFlash he, h3, rfl, hk _ rfl rfl ((epoch _).trans h0)⟩

theorem built_witness : ∃ s t : State, CleanFlash s ∧ s.rd R.UPD_STATUS_state = 3 ∧
    t = { s with flash := mputList 0xFF s.flash (slotBase (!s.upd.running)) (s.buildImage s.packageBytes) } ∧
    t.builtFault s.packageBytes (s.buildImage s.packageBytes) = none :=
  built_witness_of (State.reset.wr R.UPD_STATUS_state 3) (by decide +kernel) rfl rfl (by decide +kernel)

/-! #### Of modes, resets and supplies -/

namespace Wa

def late (s : State) : State := { s with clk := 20000000000 }
def us (s : State) (b : Bool) (c : Nat) : State := { s with clk := c, hub := { s.hub with usLowSince := some 0, reserve := b } }
def iso (s : State) (i : Iso) (sup : Bool) : State := ((late s).setGroup 0 { iso := i, supply := sup, since := 0 }).wr (R.PWP_CMD_on 2) 1
def ov (s : State) : State := ((late s).setOverSince 1 (some (0, false))).setGroup 0 { overSince := some 3 }
def hib0 : Hib := ⟨.entering, false, .safe, 850, 0, 0⟩
def withHib (h : Hib) : State := let s : State := (late (m .hibernate)).wr R.PWR_WAKE_CFG_hib_sources 15
  { s with power := { s.power with hib := some h, wakeDue := some 0 } }
def resOn (s : State) : State := { s with time := { s.time with resonator := true } }
def doze (x : Option DozeExit) : State := let s : State := (lk (m .doze)).wr R.PWR_STATUS_gated 0x11
  { s with power := { s.power with exit := x } }
def pinWake (s : State) : State := ((s.setWord R.PWR_WAKE_PINS 0x8005).wr (R.BAY_PIN_mode 5) 1).wr R.PWR_WAKE_CFG_doze_sources 15
def isl (x : Mode) (en : Nat) : State := ((late (m x)).wr R.RING_ISLAND_timeout 1).wr R.RING_ISLAND_enable en
def digs (s : State) : State := { s with upd := { s.upd with boot := { s.upd.boot with slotA := { s.upd.boot.slotA with fwDigest := digestNat (sha256 []) } } } }
def upd (s : State) (row : Nat) (w : Bool) : State := { s with hub := { s.hub with row := row, window := w } }
def trial (s : State) (conf : Bool) : State := { (lk s) with upd := { s.upd with trialNs := 10^18, confirming := conf, boot := { s.upd.boot with slotA := { s.upd.boot.slotA with state := 2 } } } }
def builtB (s : State) : State := { s with upd := { s.upd with boot := { s.upd.boot with slotB := { s.upd.boot.slotB with state := 1 } } } }
def ex1 : DozeExit := ⟨.run, 22, 0, true, 0⟩
def ex2 : DozeExit := ⟨.safe, 28, 0, true, 0⟩
def le (n v : Nat) : List Byte := leBytes n v
def secSizes : List Nat := [416, 3840, 216, 16, 6656, 0]
def offs : List Nat := [128, 544, 4384, 4600, 4616, 11272]
def listed (i : Nat) : Bool := sourceRanges.any (fun r => decide (r.1 ≤ i ∧ i < r.1 + r.2))
def secBytes (i : Nat) : List Byte := match i with
  | 2 => le 2 0 ++ le 2 1 ++ le 4 0 ++ (List.range 4).flatMap (fun _ => le 1 1 ++ le 1 0 ++ le 2 1) ++ List.replicate 192 0
  | 3 => le 1 1 ++ le 1 0 ++ le 2 0 ++ le 2 0 ++ le 2 100 ++ le 1 2 ++ le 3 0 ++ le 2 1 ++ le 2 0
  | 4 => (List.range 512).flatMap (fun i => if listed i then le 3 0 ++ le 1 255 ++ le 1 0 ++ le 1 (if 3 ≤ i ∧ i ≤ 5 then 50 else 1) ++ le 2 0 else le 8 0) ++ List.replicate 2560 0
  | i => List.replicate (secSizes.getD i 0) 0
def img0 : List Byte :=
  le 4 0x5A574253 ++ le 2 1 ++ le 2 0 ++ le 4 (11272+64) ++ le 2 6 ++ le 2 (m .steep).variant.code ++ le 3 0 ++ le 1 0 ++ le 4 77 ++ le 8 0 ++
  ((List.range 6).flatMap (fun i => le 2 (i+1) ++ le 2 0 ++ le 4 (offs.getD i 0) ++ le 4 (secSizes.getD i 0) ++ le 4 (crc32 (secBytes i)).toNat)) ++
  (List.range 6).flatMap secBytes
def img : List Byte := img0 ++ ((leBytes 32 0x38e3a19d171482aeefd69dd980436fe2c6f0a7f1a6795b40a858208b043cb414).reverse ++ (leBytes 32 0x1c71d0ce8b8a415777eb4eecc021b7f1637853f8d33cada0542c1045821e5a0a).reverse)
def steepS : State := let s : State := m .steep
  let s := s.wr R.STP_LOAD_STATUS_received img.length
  { s with rootKey := (0x90e11698e618b03d7912dc132294a8448307e2e315b602f8ee99642a21f2bb02, 0xa9a29d107550c4b9643427589e03281447edd33a77877eebd3856f18b4850674), hub := { s.hub with steepSrc := 2 }, flash := img.zipIdx.map (fun x => (stagingBase + x.2, x.1)) }
def sts0 : List State := ([m .run, m .safe, lk (m .run), lk (m .safe), m .quarantine, m .test, m .doze, lk (m .island), m .trial, m .boot, lk (m .trial),
  us (m .run) true 1200000, us (m .safe) false 1200000, us (m .safe) false 20000, us (m .safe) true 20000, us (m .safe) false 19999, us { m .run with hub := { (m .run).hub with rstLow := true } } true 1200000,
  iso (m .run) .opened false, iso (m .run) .delay true, iso (m .run) .closing true, iso (m .boot) .closed true, (iso (m .run) .closed true).wr R.KET_STATUS_self_fault 1,
  ov (m .run), (m .safe).wr R.STP_LOAD_CTRL_source 1, ((m .quarantine).wr R.STP_LOAD_CTRL_source 1).wr R.STP_LOAD_STATUS_state 3,
  { m .safe with upd := { (m .safe).upd with abandoned := true } },
  (lk (m .safe)).wr R.PWR_WAKE_CFG_hib_sources 3, ((m .run).wr R.PWR_WAKE_CFG_hib_sources 3).wr R.PWR_WAKE_CFG_target 3,
  withHib hib0, withHib { hib0 with phase := .down }, withHib { hib0 with phase := .down, off := true }, resOn (withHib { hib0 with phase := .powered, off := true }), withHib { hib0 with phase := .powered},
  doze none, doze (some ex1), doze (some ex2), pinWake (doze none), isl .run 1, isl .runDegraded 0, isl .trial 1, isl .doze 1, isl .doze 0, isl .run 0,
  digs (m .boot), m .steep, steepS, (State.applyImage steepS (imageOf img)).1, { m .steep with hub := { (m .steep).hub with retried := true } }, builtB (m .safe), builtB (m .quarantine),
  upd (builtB (m .update)) 30 false, upd (m .update) 30 true, upd (late (m .update)) 7 false, trial (m .trial) false, trial (m .trial) true, trial (late (m .trial)) false,
  trial { late (m .trial) with clk := 80000000000 } false])
def due (s : State) : State := { s with hub := { s.hub with ringDue := true } }
def up0 (s : State) : State := s.wr (R.RING_PORT_up 0) 1
def ringS : List State := [due (up0 (m .run)), due (lk (m .runDegraded)), due (m .run), due (m .trial), due (m .doze), due (m .safe)]
def moreS : List State := [up0 (withHib { hib0 with phase := .powered }), { digs (m .boot) with hub := { (m .boot).hub with strap := true }, upd := { (digs (m .boot)).upd with boot := { (digs (m .boot)).upd.boot with slotB := { (digs (m .boot)).upd.boot.slotB with state := 0 } } } },
  { m .boot with upd := { (m .boot).upd with other := .held { seq := 3 } } }]
def sts : List State := sts0 ++ ringS ++ moreS
def at_a (i : Nat) : State := sts.getD i State.reset

theorem witness_EveryResetLeadsToBoot :
    (∃ (s : State) (ns : Nat), 10000 ≤ ns) ∧
    (∃ (s : State) (strap : Bool), s.hub.rstLow = true) ∧
    (∃ (s : State) (since : Nat), s.hub.usLowSince = some since ∧ s.hub.held = false ∧ (if s.hub.reserve = true then 1200000
      else 20000) ≤ s.clk - since) :=
  ⟨⟨(at_a 0), 20000, by decide +kernel⟩,
   ⟨(at_a 16), true, by decide +kernel⟩,
   ⟨(at_a 11), 0, by decide +kernel⟩⟩

theorem witness_ShortLowsAndDipsLeaveTheHubAlone :
    (∃ (s : State) (ns : Nat), ns < 2000) ∧
    (∃ (s : State) (ns : Nat), 2000 ≤ ns ∧ ns < 10000) ∧
    (∃ (s : State) (ns : Nat), 10000 ≤ ns) ∧
    (∃ (s : State) (strap : Bool), s.hub.rstLow = false) ∧
    (∃ (s : State), s.hub.usLowSince = none) ∧
    (∃ (s : State), s.hub.held = false) ∧
    (∃ (s : State) (since : Nat), s.hub.usLowSince = some since ∧ s.clk - since < (if s.hub.reserve = true then 1200000 else
      20000)) :=
  ⟨⟨(at_a 0), 0, by decide +kernel⟩,
   ⟨(at_a 0), 2000, by decide +kernel⟩,
   ⟨(at_a 0), 20000, by decide +kernel⟩,
   ⟨(at_a 0), true, by decide +kernel⟩,
   ⟨(at_a 0), by decide +kernel⟩,
   ⟨(at_a 0), by decide +kernel⟩,
   ⟨(at_a 14), 0, by decide +kernel⟩⟩

theorem witness_GroupSuppliesDriveTheIsolatorsAndOverloadsAreRaised :
    (∃ (s : State) (g : Fin 2) (mv : BitVec 16), s.hasPower = true) ∧
    (∃ (s : State) (g : Fin 2) (mv : BitVec 16), s.hasPower = true ∧ (s.group g.val).supply = false ∧ (s.group g.val).iso =
      .opened) ∧
    (∃ (s : State) (g : Fin 2), (s.group g.val).iso = .delay ∧ 10000000 ≤ s.clk - (s.group g.val).since) ∧
    (∃ (s : State) (g : Fin 2), (s.group g.val).iso = .closing ∧ 1000000 ≤ s.clk - (s.group g.val).closeAt) ∧
    (∃ (s : State) (k : Fin 4), k.val < s.nGroups) ∧
    (∃ (s : State) (k : Fin 4), k.val < s.nGroups) ∧
    (∃ (s : State) (k : Fin 4) (since : Nat), s.asleep = false ∧ s.overSince k.val = some (since, false) ∧ 10000000 ≤ s.clk -
      since) ∧
    (∃ (s : State) (k : Fin 4) (since : Nat) (raised : Bool), s.overSince k.val = some (since, raised) ∧ (s.asleep = true ∨
      s.clk - since < 10000000 ∨ raised = true)) ∧
    (∃ (s : State) (k : Fin 4), s.overSince k.val = none) ∧
    (∃ (s : State) (g : Fin 2) (ma : BitVec 16) (since : Nat), s.asleep = false ∧ (s.group g.val).overSince = some since ∧
      10000000 ≤ s.clk - since ∧ s.on (R.PWP_GROUP_overload g.val) = false) :=
  ⟨⟨(at_a 0), 0, 0x0000#16, by decide +kernel⟩,
   ⟨(at_a 0), 0, 0x0000#16, by decide +kernel⟩,
   ⟨(at_a 18), 0, by decide +kernel⟩,
   ⟨(at_a 19), 0, by decide +kernel⟩,
   ⟨(at_a 0), 0, by decide +kernel⟩,
   ⟨(at_a 0), 0, by decide +kernel⟩,
   ⟨(at_a 22), 1, 0, by decide +kernel⟩,
   ⟨(at_a 22).setOverSince 1 (some (0, true)), 1, 0, true, by decide +kernel⟩,
   ⟨(at_a 0), 0, by decide +kernel⟩,
   ⟨(at_a 22), 0, 0x0000#16, 3, by decide +kernel⟩⟩

theorem witness_RequestsFromSafeFollowTheTable :
    (∃ (s : State) (r : ModeReq), Asks s r ∧ s.hub.mode = .safe) ∧
    (∃ (s : State) (r : ModeReq), Asks s r ∧ (s.hub.mode = .safe ∨ s.hub.mode = .quarantine) ∧ s.on R.STP_LOAD_CTRL_source =
      false) ∧
    (∃ (s : State) (r : ModeReq), Asks s r ∧ (s.hub.mode = .safe ∨ s.hub.mode = .quarantine) ∧ s.on R.STP_LOAD_CTRL_source =
      true ∧ s.rd R.STP_LOAD_STATUS_state = 3) ∧
    (∃ (s : State) (r : ModeReq), Asks s r ∧ (s.hub.mode = .safe ∨ s.hub.mode = .quarantine) ∧ s.updState = 4 ∧ s.storedEpoch
      ≤ s.slotEpoch (!s.upd.running)) ∧
    (∃ (s : State) (r : ModeReq), Asks s r ∧ s.hub.mode = .safe ∧ s.on R.UPD_STATUS_migration_fail = false ∧ s.on
      R.KET_STATUS_self_fault = false ∧ s.on (R.RING_PORT_up 0) = true ∧ s.on (R.RING_PORT_up 1) = true) ∧
    (∃ (s : State) (r : ModeReq), Asks s r ∧ (s.hub.mode = .safe ∨ s.hub.mode = .run) ∧ s.hibernateRefuser = none) ∧
    (∃ (s : State) (r : ModeReq), Asks s r ∧ (s.hub.mode = .safe ∨ s.hub.mode = .quarantine) ∧ s.upd.abandoned = true) :=
  ⟨⟨(at_a 1), { who := { master := 0, level := Level.supervisor }, raced := false }, by decide +kernel⟩,
   ⟨(at_a 1), { who := { master := 0, level := Level.supervisor }, raced := false }, by decide +kernel⟩,
   ⟨(at_a 24), { who := { master := 0, level := Level.supervisor }, raced := false }, by decide +kernel⟩,
   ⟨(at_a 48), { who := { master := 0, level := Level.supervisor }, raced := false }, by decide +kernel⟩,
   ⟨(at_a 3), { who := { master := 0, level := Level.supervisor }, raced := false }, by decide +kernel⟩,
   ⟨(at_a 26), { who := { master := 0, level := Level.supervisor }, raced := false }, by decide +kernel⟩,
   ⟨(at_a 25), { who := { master := 0, level := Level.supervisor }, raced := false }, by decide +kernel⟩⟩

theorem witness_RequestsFromTheRunningModesFollowTheTable :
    (∃ (s : State) (r : ModeReq), Asks s r ∧ (s.hub.mode = .run ∨ s.hub.mode = .runDegraded ∨ s.hub.mode = .island ∨
      s.hub.mode = .trial)) ∧
    (∃ (s : State) (r : ModeReq), Asks s r ∧ s.hub.mode = .doze ∧ s.power.exit = none) ∧
    (∃ (s : State) (r : ModeReq), Asks s r ∧ s.hub.mode = .island ∧ s.on R.UPD_STATUS_migration_fail = false ∧ s.on
      R.KET_STATUS_self_fault = false ∧ s.on (R.RING_PORT_up 0) = true ∧ s.on (R.RING_PORT_up 1) = true) ∧
    (∃ (s : State) (r : ModeReq), Asks s r ∧ s.hub.mode = .doze ∧ s.power.exit = none ∧ s.on R.UPD_STATUS_migration_fail =
      false ∧ s.on R.KET_STATUS_self_fault = false) ∧
    (∃ (s : State) (r : ModeReq) (groups : BitVec 4) (quads : BitVec 4), Asks s r ∧ s.hub.mode = .run ∧ dozeDomains
      groups.toNat quads.toNat ≠ [] ∧ ((s.variant = .l3224 → groups.getLsbD 2 = false ∧ groups.getLsbD 3 = false)) ∧ ((∀ d ∈
      dozeDomains groups.toNat quads.toNat, s.refuser d = none)) ∧ (s.on (R.RING_PORT_up 0) = true ∨ s.on (R.RING_PORT_up 1)
      = true)) ∧
    (∃ (s : State) (r : ModeReq), Asks s r ∧ s.hub.mode = .test) :=
  ⟨⟨(at_a 0), { who := { master := 0, level := Level.supervisor }, raced := false }, by decide +kernel⟩,
   ⟨(at_a 6), { who := { master := 0, level := Level.supervisor }, raced := false }, by decide +kernel⟩,
   ⟨(at_a 7), { who := { master := 0, level := Level.supervisor }, raced := false }, by decide +kernel⟩,
   ⟨(at_a 6), { who := { master := 0, level := Level.supervisor }, raced := false }, by decide +kernel⟩,
   ⟨(at_a 2), { who := { master := 0, level := Level.supervisor }, raced := false }, 0x0#4, 0x1#4, by decide +kernel⟩,
   ⟨(at_a 5), { who := { master := 0, level := Level.supervisor }, raced := false }, by decide +kernel⟩⟩

theorem witness_UnlistedRequestsAreRefused :
    (∃ (s : State) (r : ModeReq), Asks s r ∧ s.hub.mode ≠ .safe) ∧
    (∃ (s : State) (r : ModeReq), Asks s r ∧ s.hub.mode ≠ .test ∧ ((s.hub.mode = .safe ∨ s.hub.mode = .quarantine →
      s.upd.abandoned = false))) ∧
    (∃ (s : State) (r : ModeReq), Asks s r ∧ s.arbMode ≠ .safe ∧ s.arbMode ≠ .island ∧ s.arbMode ≠ .doze) ∧
    (∃ (s : State) (r : ModeReq), Asks s r ∧ s.arbMode ≠ .quarantine ∧ s.arbMode ≠ .run ∧ s.arbMode ≠ .runDegraded ∧
      s.arbMode ≠ .island ∧ s.arbMode ≠ .doze ∧ s.arbMode ≠ .trial) ∧
    (∃ (s : State) (r : ModeReq), Asks s r ∧ s.hub.mode ≠ .safe ∧ s.hub.mode ≠ .quarantine) ∧
    (∃ (s : State) (r : ModeReq) (groups : BitVec 4) (quads : BitVec 4), Asks s r ∧ s.hub.mode ≠ .run) ∧
    (∃ (s : State) (r : ModeReq), Asks s r ∧ s.hub.mode ≠ .run ∧ s.hub.mode ≠ .safe) ∧
    (∃ (s : State) (r : ModeReq) (code : Nat) (a : _), code < 16 ∧ a ≠ R.TOP_MODE_REFUSED) :=
  ⟨⟨(at_a 0), { who := { master := 0, level := Level.supervisor }, raced := false }, by decide +kernel⟩,
   ⟨(at_a 0), { who := { master := 0, level := Level.supervisor }, raced := false }, by decide +kernel⟩,
   ⟨(at_a 0), { who := { master := 0, level := Level.supervisor }, raced := false }, by decide +kernel⟩,
   ⟨(at_a 1), { who := { master := 0, level := Level.supervisor }, raced := false }, by decide +kernel⟩,
   ⟨(at_a 0), { who := { master := 0, level := Level.supervisor }, raced := false }, by decide +kernel⟩,
   ⟨(at_a 1), { who := { master := 0, level := Level.supervisor }, raced := false }, 0x0#4, 0x0#4, by decide +kernel⟩,
   ⟨(at_a 4), { who := { master := 0, level := Level.supervisor }, raced := false }, by decide +kernel⟩,
   ⟨(at_a 0), { who := { master := 0, level := Level.supervisor }, raced := false }, 0, 0, by decide +kernel⟩⟩

theorem witness_RingMonitorMasterWatchAndJtagFollowTheTable :
    (∃ (s : State), s.islandDue = true ∧ (s.hub.mode = .run ∨ s.hub.mode = .runDegraded) ∧ s.on R.RING_ISLAND_enable = true) ∧
    (∃ (s : State), s.islandDue = true ∧ (s.hub.mode = .run ∨ s.hub.mode = .runDegraded) ∧ s.on R.RING_ISLAND_enable = false) ∧
    (∃ (s : State), s.islandDue = true ∧ s.hub.mode = .trial) ∧
    (∃ (s : State), s.islandDue = true ∧ s.hub.mode = .doze ∧ s.power.exit = none) ∧
    (∃ (s : State), s.islandDue = false) ∧
    (∃ (s : State), s.hub.mode = .boot ∧ s.inReset = false) ∧
    (∃ (s : State), s.hub.mode = .test) ∧
    (∃ (s : State) (v : State), v = State.intake 16 s ∧ v.hub.ringDue = true ∧ v.hub.mode = .run ∧ v.on (R.RING_PORT_up 0) ≠
      v.on (R.RING_PORT_up 1)) ∧
    (∃ (s : State) (v : State), v = State.intake 16 s ∧ v.hub.ringDue = true ∧ v.hub.mode = .runDegraded ∧ v.on
      (R.RING_PORT_up 0) = true ∧ v.on (R.RING_PORT_up 1) = true) ∧
    (∃ (s : State) (v : State), v = State.intake 16 s ∧ v.hub.ringDue = true ∧ (v.hub.mode = .run ∨ v.hub.mode =
      .runDegraded) ∧ v.on (R.RING_PORT_up 0) = false ∧ v.on (R.RING_PORT_up 1) = false) ∧
    (∃ (s : State) (v : State), v = State.intake 16 s ∧ v.hub.ringDue = true ∧ v.hub.mode = .trial ∧ v.on (R.RING_PORT_up 0)
      = false ∧ v.on (R.RING_PORT_up 1) = false) ∧
    (∃ (s : State) (v : State), v = State.intake 16 s ∧ v.hub.ringDue = true ∧ v.hub.mode = .doze ∧ v.power.exit = none ∧
      v.on (R.RING_PORT_up 0) = false ∧ v.on (R.RING_PORT_up 1) = false) ∧
    (∃ (s : State) (v : State), v = State.intake 16 s ∧ v.hub.ringDue = true ∧ v.hub.mode = .safe) :=
  ⟨⟨(at_a 37), by decide +kernel⟩,
   ⟨(at_a 38), by decide +kernel⟩,
   ⟨(at_a 39), by decide +kernel⟩,
   ⟨(at_a 40), by decide +kernel⟩,
   ⟨(at_a 0), by decide +kernel⟩,
   ⟨(at_a 9), by decide +kernel⟩,
   ⟨(at_a 5), by decide +kernel⟩,
   ⟨(at_a 57), (State.intake 16 ((at_a 57))), rfl, by decide +kernel⟩,
   ⟨(at_a 58), (State.intake 16 ((at_a 58))), rfl, by decide +kernel⟩,
   ⟨(at_a 59), (State.intake 16 ((at_a 59))), rfl, by decide +kernel⟩,
   ⟨(at_a 60), (State.intake 16 ((at_a 60))), rfl, by decide +kernel⟩,
   ⟨(at_a 61), (State.intake 16 ((at_a 61))), rfl, by decide +kernel⟩,
   ⟨(at_a 62), (State.intake 16 ((at_a 62))), rfl, by decide +kernel⟩⟩

theorem witness_DozeEndsWithEveryDomainPowered :
    (∃ (s : State) (d : Fin 8), s.power.exit = none) ∧
    (∃ (s : State) (w : State) (lost : BitVec 16) (x : DozeExit) (d : _), s.hub.mode = .doze ∧ s.power.exit = some x ∧
      x.ready = true ∧ (x.mode = .run ∨ x.mode = .island ∨ x.mode = .safe) ∧ w = (List.range 8).foldl (fun (t : State) d =>
      t.ungateDomain d (bitAt lost.toNat (6 + d))) s ∧ d < 8) ∧
    (∃ (s : State) (w : State) (lost : BitVec 16) (x : DozeExit), s.hub.mode = .doze ∧ s.power.exit = some x ∧ x.ready = true
      ∧ (x.mode = .run ∨ x.mode = .island ∨ x.mode = .safe) ∧ w = (List.range 8).foldl (fun (t : State) d => t.ungateDomain d
      (bitAt lost.toNat (6 + d))) s ∧ w.raised = []) ∧
    (∃ (s : State) (v : State) (lost : BitVec 16) (x : DozeExit) (y : DozeExit), s.hub.mode = .doze ∧ s.power.exit = some x ∧
      x.ready = true ∧ v = State.intake 16 ((List.range 8).foldl (fun (t : State) d => t.ungateDomain d (bitAt lost.toNat (6
      + d))) s) ∧ v.power.exit = some y ∧ (y.mode = .run ∨ y.mode = .island ∨ y.mode = .safe)) :=
  ⟨⟨(at_a 0), 0, by decide +kernel⟩,
   by refine ⟨(at_a 34), ((List.range 8).foldl (fun (t : State) d => t.ungateDomain d (bitAt (0x0000#16).toNat (6 + d)))
     ((at_a 34))), 0x0000#16, { mode := Mode.run, row := 22, since := 0, ready := true, aborted := 0x00#8 }, 0, ?_, ?_, ?_,
     ?_, rfl, ?_⟩ <;> decide +kernel,
   by refine ⟨(at_a 34), ((List.range 8).foldl (fun (t : State) d => t.ungateDomain d (bitAt (0x0000#16).toNat (6 + d)))
     ((at_a 34))), 0x0000#16, { mode := Mode.run, row := 22, since := 0, ready := true, aborted := 0x00#8 }, ?_, ?_, ?_, ?_,
     rfl, ?_⟩ <;> decide +kernel,
   by refine ⟨(at_a 34), (State.intake 16 ((List.range 8).foldl (fun (t : State) d => t.ungateDomain d (bitAt
     (0x0000#16).toNat (6 + d))) ((at_a 34)))), 0x0000#16, { mode := Mode.run, row := 22, since := 0, ready := true, aborted := 0x00#8 },
     { mode := Mode.run, row := 22, since := 0, ready := true, aborted := 0x00#8 }, ?_, ?_, ?_, rfl, ?_⟩ <;> decide +kernel⟩

theorem witness_WakingFollowsTheSequence :
    (∃ (s : State) (h : Hib), s.power.hib = some h ∧ h.phase = .entering) ∧
    (∃ (s : State) (w : Wake) (h : Hib), w.code.val ≠ 0 ∧ ((w.code.val = 4 → s.timeioWakes w.element.toNat = true)) ∧
      s.hub.mode = .hibernate ∧ s.bitOn R.PWR_WAKE_CFG_hib_sources (w.code.val - 1) = true ∧ s.power.hib = some h ∧ h.phase =
      .down) ∧
    (∃ (s : State) (j : Fin 4) (rising : Bool) (ns : Nat), 5000 ≤ ns ∧ bitAt (fget (s.word R.PWR_WAKE_PINS) (16 * j.val) 16)
      15 = true ∧ rising ≠ bitAt (fget (s.word R.PWR_WAKE_PINS) (16 * j.val) 16) 14 ∧ ((s.pinMode (fget (s.word
      R.PWR_WAKE_PINS) (16 * j.val) 16 % 512) = 1 ∨ s.pinMode (fget (s.word R.PWR_WAKE_PINS) (16 * j.val) 16 % 512) = 2)) ∧
      s.hub.mode = .doze ∧ s.power.exit = none ∧ s.bitOn R.PWR_WAKE_CFG_doze_sources 2 = true) ∧
    (∃ (s : State) (t : Word) (h : Hib), s.power.wakeDue = some t ∧ 0 ≤ tdiff s.now t ∧ s.hub.mode = .hibernate ∧ s.bitOn
      R.PWR_WAKE_CFG_hib_sources 1 = true ∧ s.power.hib = some h ∧ h.phase = .down) ∧
    (∃ (s : State) (r : Requester) (t : BitVec 40), Grants s r R.PWR_WAKE_AT .write ∧ 0 ≤ sdiff40 t.toNat s.now) ∧
    (∃ (s : State) (r : Requester) (t : BitVec 40), Grants s r R.PWR_WAKE_AT .write ∧ sdiff40 t.toNat s.now < 0) ∧
    (∃ (s : State) (r : Requester), Grants s r R.PWR_WAKE_AT .write) ∧
    (∃ (s : State) (lost : BitVec 16) (h : Hib), s.power.hib = some h ∧ h.phase = .powered ∧ s.time.resonator = true ∧
      h.target = .safe) ∧
    (∃ (s : State) (h : Hib), s.power.hib = some h ∧ h.phase = .powered ∧ h.off = false ∧ 5000000 ≤ s.clk - h.wakeAt ∧
      s.clockNow = 3) ∧
    (∃ (s : State) (h : Hib), s.power.hib = some h ∧ h.phase = .powered ∧ h.off = false ∧ 5000000 ≤ s.clk - h.wakeAt ∧
      (h.target = .run ∨ h.target = .safe) ∧ (s.clockNow = 1 ∨ s.clockNow = 2)) :=
  ⟨⟨(at_a 28), { phase := HibPhase.entering, off := false, target := Mode.safe, mv := 850, wakeAt := 0, since := 0 },
     by decide +kernel⟩,
   ⟨(at_a 29), { code := 1, element := 0x03#8, toSafe := true }, { phase := HibPhase.down, off := false, target := Mode.safe, mv := 850, wakeAt := 0, since := 0 },
     by decide +kernel⟩,
   ⟨(at_a 36), 0, true, 20000, by decide +kernel⟩,
   ⟨(at_a 29), 0x0000000000000000#64, { phase := HibPhase.down, off := false, target := Mode.safe, mv := 850, wakeAt := 0, since := 0 },
     by decide +kernel⟩,
   ⟨(at_a 0), { master := 0, level := Level.supervisor }, 0x0000000000#40, by decide +kernel⟩,
   ⟨(at_a 0), { master := 0, level := Level.supervisor }, 0xffffffffff#40, by decide +kernel⟩,
   ⟨(at_a 0), { master := 0, level := Level.supervisor }, by decide +kernel⟩,
   ⟨(at_a 31), 0x0000#16, { phase := HibPhase.powered, off := true, target := Mode.safe, mv := 850, wakeAt := 0, since := 0 },
     by decide +kernel⟩,
   ⟨(at_a 32), { phase := HibPhase.powered, off := false, target := Mode.safe, mv := 850, wakeAt := 0, since := 0 },
     by decide +kernel⟩,
   ⟨(at_a 63), { phase := HibPhase.powered, off := false, target := Mode.safe, mv := 850, wakeAt := 0, since := 0 },
     by decide +kernel⟩⟩

theorem witness_BootAndSteepFollowTheTable :
    (∃ (s : State) (t : State), s.hub.mode = .boot ∧ s.inReset = false ∧ s.hub.bootFail = false ∧ s.hub.nextSlot = none ∧
      s.hub.strap = false ∧ t = s.readRecords ∧ (t.slotOf t.upd.boot.active).state = 3 ∧ t.firmwareOk t.upd.boot.active =
      true) ∧
    (∃ (s : State) (t : State), s.hub.mode = .boot ∧ s.inReset = false ∧ s.hub.bootFail = false ∧ s.hub.nextSlot = none ∧
      s.hub.strap = true ∧ s.hub.retried = false ∧ t = s.readRecords ∧ (t.slotOf (!t.upd.boot.active)).state = 0 ∧ (t.slotOf
      t.upd.boot.active).state = 3 ∧ t.firmwareOk t.upd.boot.active = true) ∧
    (∃ (s : State), s.upd.other = .blank) ∧
    (∃ (s : State) (r : BootRec), s.upd.other = .held r) ∧
    (∃ (s : State), s.hub.mode = .boot ∧ s.inReset = false) ∧
    (∃ (s : State) (t : State) (g : Image), s.hub.mode = .steep ∧ s.steepFault = none ∧ g = imageOf (s.sourceBytes
      s.hub.steepSrc) ∧ s.applyImage g = (t, none)) ∧
    (∃ (s : State) (c : Cause) (storeError : Option (BitVec 32)), s.hub.mode = .steep ∧ s.steepFault = some c ∧
      s.hub.steepSrc ≤ 1 ∧ s.hub.retried = false) ∧
    (∃ (s : State) (c : Cause), s.hub.mode = .steep ∧ s.steepFault = some c ∧ s.hub.steepSrc ≤ 1 ∧ s.hub.retried = true) :=
  ⟨by refine ⟨(at_a 43), (((at_a 43)).readRecords), ?_, ?_, ?_, ?_, ?_, rfl, ?_⟩ <;> decide +kernel,
   by refine ⟨(at_a 64), (((at_a 64)).readRecords), ?_, ?_, ?_, ?_, ?_, ?_, rfl, ?_⟩ <;> decide +kernel,
   ⟨(at_a 0), by decide +kernel⟩,
   ⟨(at_a 65), { seq := 3, copy := false, active := false, slotA := { state := 3, build := 0, version := 0, imageDigest := 0x0000000000000000000000000000000000000000000000000000000000000000#256, fwDigest := 0x0000000000000000000000000000000000000000000000000000000000000000#256 }, slotB := { state := 3, build := 0, version := 0, imageDigest := 0x0000000000000000000000000000000000000000000000000000000000000000#256, fwDigest := 0x0000000000000000000000000000000000000000000000000000000000000000#256 }, trialBoots := 0, migration := false, fallback := 0 },
     by decide +kernel⟩,
   ⟨(at_a 9), by decide +kernel⟩,
   steep_witness,
   ⟨(at_a 44), Cause.format, none, by decide +kernel⟩,
   ⟨(at_a 47), Cause.format, by decide +kernel⟩⟩

theorem witness_ActivationAndTrialFollowTheTable :
    (∃ (s : State), s.hub.mode = .update ∧ s.hub.row = 30 ∧ s.hub.window = false) ∧
    (∃ (s : State), s.hub.mode = .update ∧ s.hub.window = true) ∧
    (∃ (s : State) (ok : Bool), s.hub.mode = .update ∧ s.hub.row = 7) ∧
    (∃ (s : State), s.hub.mode = .update ∧ s.hub.row = 7 ∧ 10000000000 ≤ s.clk - s.hub.enteredAt) ∧
    (∃ (s : State), s.hub.mode = .trial ∧ s.upd.confirming = false ∧ fget s.policy 48 8 * 60000000000 ≤ s.upd.trialNs ∧
      s.confirmConditions = false) ∧
    (∃ (s : State), s.confirmConditions = true) ∧
    (∃ (s : State), s.confirmConditions = true ∧ s.upd.confirming = false ∧ fget s.policy 48 8 * 60000000000 ≤ s.upd.trialNs) ∧
    (∃ (s : State), s.confirmConditions = false) ∧
    (∃ (s : State), s.upd.confirming = true ∧ s.upd.confirmEnded = false ∧ s.hub.mode = .trial ∧ s.on (R.RING_PORT_up 0) =
      true ∧ s.on (R.RING_PORT_up 1) = true) ∧
    (∃ (s : State), (s.upd.confirming = false ∨ s.upd.confirmEnded = true)) ∧
    (∃ (s : State) (r : Requester), Grants s r R.UPD_CTRL .write ∧ r.level = .supervisor ∧ s.upd.confirming = false ∧
      (s.slotOf s.upd.running).state = 2 ∧ s.hub.mode = .trial) ∧
    (∃ (s : State) (r : Requester), Grants s r R.UPD_CTRL .write ∧ r.level = .supervisor ∧ s.upd.confirming = true) :=
  ⟨⟨(at_a 50), by decide +kernel⟩,
   ⟨(at_a 51), by decide +kernel⟩,
   ⟨(at_a 52), true, by decide +kernel⟩,
   ⟨(at_a 52), by decide +kernel⟩,
   ⟨(at_a 53), by decide +kernel⟩,
   ⟨(at_a 56), by decide +kernel⟩,
   ⟨(at_a 56), by decide +kernel⟩,
   ⟨(at_a 0), by decide +kernel⟩,
   ⟨(at_a 54), by decide +kernel⟩,
   ⟨(at_a 56), by decide +kernel⟩,
   ⟨(at_a 53), { master := 0, level := Level.supervisor }, by decide +kernel⟩,
   ⟨(at_a 54), { master := 0, level := Level.supervisor }, by decide +kernel⟩⟩

end Wa

/-! #### Of requests -/

namespace Wb

def w1 : Window := ⟨0x20000000, 0x1000, 16, 0xFFFF, 1⟩
def n1 (s : State) : State := { s with hub := { s.hub with node := 1 } }
def noTab (s : State) : State := { s with hub := { s.hub with accessTable := false } }
def win (s : State) : State := { s with loaded := { s.loaded with windows := [w1], initTimeout := 5 }, pimem := [(17, 4), (24, 9), (25, 1)] }
def full (s : State) : State := { s with switch := { s.switch with frames := (List.range 161).map (fun i => { id := i, frame := ⟨0,0,0,0,[],0⟩, ingress := 0, cls := 0, outs := [0], answers := some (0, 3 + i) }) } }
def q1 : InitReq := ⟨0, 0, 0, 2, 0⟩
def req (s : State) (k : Nat) : State := let s : State := { s with initReqs := [(0, some { q1 with kind := k }), (3, some q1)], clk := 5000 }
  s.setCtx 0 0 { st := .waiting, wait := 8, slot := some 0 }
def clm (s : State) : State := { s with switch := { s.switch with claimed := [⟨0, 9, 0, 3, ⟨2, true, true⟩⟩] } }
def fullB (s : State) : State := { s with switch := { s.switch with frames := (List.range 161).map (fun i => { id := i, frame := ⟨0,0,0,0,[],0⟩, ingress := 0, cls := 0, outs := [0], answers := some (0, 40 + i) }) } }
def sts : List State := [clm (n1 (m .run)), n1 (m .run), win (n1 (m .run)), m .safe, noTab (m .safe), m .steep, m .update, m .boot, m .quarantine, m .test, full (win (n1 (m .run))), win (req (m .run) 2), win (req (m .run) 1),
  fullB (n1 (m .run)), { (m .run).wr (R.TOP_NOTICE_RATE_interval 1) 5 with clk := 20000 }, (((n1 (m .run)).setWord (R.TOP_SCRATCH 3) 0xFF).setWord (R.TOP_SCRATCH 4) 3)]
def at_b (i : Nat) : State := sts.getD i State.reset

theorem witness_WritesAreCheckedBeforeTheyAct :
    (∃ (s : State) (r : Requester) (a : Nat) (eff : State → State), s.targetUp = false) ∧
    (∃ (s : State) (r : Requester) (a : Nat) (eff : State → State) (c : _) (b : _), s.targetUp = true ∧ s.screenOne r a
      .write = some c ∧ ¬(0x80000 ≤ b ∧ b < 0x90000)) ∧
    (∃ (s : State) (r : Requester) (a : Nat) (eff : State → State) (b : _), Grants s r a .write ∧ ¬(0x80000 ≤ b ∧ b <
      0x90000)) ∧
    (∃ (s : State) (r : Requester) (a : BitVec 32) (v : Word) (hw : Word), s.targetUp = false) ∧
    (∃ (s : State) (r : Requester) (a : BitVec 32) (v : Word) (hw : Word), s.targetUp = true ∧ s.placeOf a.toNat 8 false =
      none) ∧
    (∃ (s : State) (r : Requester) (a : BitVec 32) (v : Word) (hw : Word) (p : Place) (c : RCode), s.targetUp = true ∧
      s.placeOf a.toNat 8 false = some p ∧ s.placeScreen r a.toNat .write p = some c) ∧
    (∃ (s : State) (r : Requester) (a : BitVec 32) (v : Word) (hw : Word), Grants s r a.toNat .write ∧ a.toNat % 8 = 0 ∧
      s.windowAt a.toNat 8 = none) ∧
    (∃ (s : State) (r : Requester) (a : BitVec 32) (v : Word) (hw : Word) (w : Window), s.targetUp = true ∧ s.windowAt
      a.toNat 8 = some w ∧ s.windowScreen r w .write = none ∧ CleanMem s) :=
  ⟨⟨(at_b 7), { master := 0, level := Level.supervisor }, 0, ((fun (z : State) => z)), by decide +kernel⟩,
   ⟨(at_b 0), { master := 0, level := Level.supervisor }, 10000000, ((fun (z : State) => z)), RCode.absent, 0,
     by decide +kernel⟩,
   ⟨(at_b 0), { master := 0, level := Level.supervisor }, 0, ((fun (z : State) => z)), 0, by decide +kernel⟩,
   ⟨(at_b 7), { master := 0, level := Level.supervisor }, 0x00000000#32, 0x0000000000000000#64, 0x0000000000000000#64,
     by decide +kernel⟩,
   ⟨(at_b 0), { master := 0, level := Level.supervisor }, 0x00000003#32, 0x0000000000000000#64, 0x0000000000000000#64,
     by decide +kernel⟩,
   ⟨(at_b 0), { master := 0, level := Level.supervisor }, 0x01000000#32, 0x0000000000000000#64, 0x0000000000000000#64,
     Place.caddy, RCode.priv, by decide +kernel⟩,
   ⟨(at_b 0), { master := 0, level := Level.supervisor }, 0x00000000#32, 0x0000000000000000#64, 0x0000000000000000#64,
     by decide +kernel⟩,
   by refine ⟨(at_b 2), { master := 0, level := Level.supervisor }, 0x20000000#32, 0x0000000000000000#64,
     0x0000000000000000#64, { base := 536870912, size := 4096, memOffset := 16, access := 65535, flags := 1 }, ?_, ?_, ?_,
     clean rfl⟩ <;> decide +kernel⟩

theorem witness_RightsFollowModeAndLevel :
    (∃ (s : State) (r : Requester) (a : Nat) (b : Nat) (k : Kind), (s.hub.mode = .steep ∨ s.hub.mode = .update) ∧ blockOf a =
      some b ∧ 2 ≤ b ∧ s.absentReg a = false) ∧
    (∃ (s : State) (r : Requester) (a : Nat) (b : Nat) (k : Kind), (s.hub.mode = .quarantine ∨ s.hub.mode = .test) ∧ r.level
      = .operator ∧ blockOf a = some b ∧ s.absentReg a = false) ∧
    (∃ (s : State) (r : Requester) (a : Nat) (b : Nat) (k : Kind), s.hub.accessTable = false ∧ r.level = .operator ∧
      s.hub.mode = .safe ∧ blockOf a = some b ∧ s.absentReg a = false) ∧
    (∃ (s : State) (r : Requester) (a : Nat) (b : Nat) (k : Kind), s.hub.accessTable = false ∧ r.level = .supervisor ∧
      s.hub.mode = .safe ∧ blockOf a = some b ∧ s.absentReg a = false ∧ 2 ≤ b) ∧
    (∃ (s : State) (r : Requester) (a : Nat) (b : Nat), blockOf a = some b ∧ s.absentReg a = false ∧ isScratch a = false ∧
      s.hub.mode ≠ .steep ∧ s.hub.mode ≠ .update) ∧
    (∃ (s : State) (r : Requester) (a : Nat) (k : Kind), blockOf a = none) ∧
    (∃ (s : State) (t : Txn) (c : Claimed) (n : Nat) (k : Kind) (p : Place), s.claimOf t = some c ∧ c.claim.masters.getLsbD
      t.who.master.val = false ∧ s.placeOf t.addr.toNat n (k == .atomic) = some p ∧ s.modeScreen t.who p.low = none) :=
  ⟨⟨(at_b 5), { master := 0, level := Level.supervisor }, 458808, 7, Kind.read, by decide +kernel⟩,
   ⟨(at_b 8), { master := 1, level := Level.operator }, 0, 0, Kind.read, by decide +kernel⟩,
   ⟨(at_b 4), { master := 1, level := Level.operator }, 0, 0, Kind.read, by decide +kernel⟩,
   ⟨(at_b 4), { master := 0, level := Level.supervisor }, 458808, 7, Kind.read, by decide +kernel⟩,
   ⟨(at_b 0), { master := 0, level := Level.supervisor }, 0, 0, by decide +kernel⟩,
   ⟨(at_b 0), { master := 0, level := Level.supervisor }, 10000000, Kind.read, by decide +kernel⟩,
   ⟨(at_b 0), { who := { master := 0, level := Level.supervisor }, tag := 0x03#8, from_ := 0x09#8, node := 0x01#8, addr := 0x000000d8#32, port := some 0, src := 0x09#8, srcRing := 0, dstRing := 0, claim := none },
     { srcRing := 0, src := 9, master := 0, tag := 3, claim := { masters := 0x2#4, supervisor := true, operator := true } },
     8, Kind.read, Place.regs 0 1, by decide +kernel⟩⟩

theorem witness_ChecksThatFailAnswerTheirCode :
    (∃ (s : State) (t : Txn) (n : Nat) (c : RCode), 1 ≤ n ∧ n ≤ 256 ∧ Arrives s t false ∧ s.checkTxn (s.withClaim t).2 n
      .read = .error c) ∧
    (∃ (s : State) (t : Txn) (data : List Byte) (c : RCode), 1 ≤ data.length ∧ data.length ≤ 256 ∧ Arrives s t false ∧
      s.checkTxn (s.withClaim t).2 data.length .write = .error c ∧ c ≠ .ok) ∧
    (∃ (s : State) (t : Txn) (data : List Byte) (c : RCode), 1 ≤ data.length ∧ data.length ≤ 256 ∧ Arrives s t true ∧
      s.checkTxn (s.withClaim t).2 data.length .write = .error c ∧ c ≠ .ok) ∧
    (∃ (s : State) (t : Txn) (v : Word) (w : Word) (c : RCode), Arrives s t false ∧ s.checkTxn (s.withClaim t).2 8 .atomic =
      .error c) :=
  ⟨⟨(at_b 0), { who := { master := 0, level := Level.supervisor }, tag := 0x03#8, from_ := 0x09#8, node := 0x01#8, addr := 0x000000d8#32, port := some 0, src := 0x09#8, srcRing := 0, dstRing := 0, claim := none },
     1, RCode.absent, by decide +kernel⟩,
   ⟨(at_b 0), { who := { master := 0, level := Level.supervisor }, tag := 0x03#8, from_ := 0x09#8, node := 0x01#8, addr := 0x000000d8#32, port := some 0, src := 0x09#8, srcRing := 0, dstRing := 0, claim := none },
     [0x01#8], RCode.absent, by decide +kernel⟩,
   ⟨(at_b 0), { who := { master := 0, level := Level.supervisor }, tag := 0x03#8, from_ := 0x09#8, node := 0x01#8, addr := 0x000000d8#32, port := some 0, src := 0x09#8, srcRing := 0, dstRing := 0, claim := none },
     [0x01#8], RCode.absent, by decide +kernel⟩,
   ⟨(at_b 0), { who := { master := 0, level := Level.supervisor }, tag := 0x03#8, from_ := 0x09#8, node := 0x01#8, addr := 0x000000d8#32, port := some 0, src := 0x09#8, srcRing := 0, dstRing := 0, claim := none },
     0x0000000000000000#64, 0x0000000000000000#64, RCode.priv, by decide +kernel⟩⟩

theorem witness_WindowsReadAndWriteProcessImageMemory :
    (∃ (s : State) (t : Txn) (n : Nat) (w : Window), 1 ≤ n ∧ n ≤ 256 ∧ Arrives s t false ∧ s.checkTxn (s.withClaim t).2 n
      .read = .ok (.window w) ∧ CleanMem s) ∧
    (∃ (s : State) (t : Txn) (data : List Byte) (w : Window), 1 ≤ data.length ∧ data.length ≤ 256 ∧ Arrives s t false ∧
      s.checkTxn (s.withClaim t).2 data.length .write = .ok (.window w) ∧ CleanMem s) ∧
    (∃ (s : State) (t : Txn) (data : List Byte) (w : Window), 1 ≤ data.length ∧ data.length ≤ 256 ∧ Arrives s t true ∧
      s.checkTxn (s.withClaim t).2 data.length .write = .ok (.window w) ∧ CleanMem s) ∧
    (∃ (s : State) (t : Txn) (v : Word) (w : Window), Arrives s t false ∧ s.checkTxn (s.withClaim t).2 8 .atomic = .ok
      (.window w) ∧ CleanMem s) ∧
    (∃ (s : State) (t : Txn) (compare : Word) (swap : Word) (w : Window), Arrives s t false ∧ s.checkTxn (s.withClaim t).2 8
      .atomic = .ok (.window w) ∧ CleanMem s) :=
  ⟨by refine ⟨(at_b 2), { who := { master := 0, level := Level.supervisor }, tag := 0x03#8, from_ := 0x09#8, node := 0x01#8, addr := 0x20000000#32, port := some 0, src := 0x09#8, srcRing := 0, dstRing := 0, claim := none },
     1, { base := 536870912, size := 4096, memOffset := 16, access := 65535, flags := 1 }, ?_, ?_, ?_, ?_, clean rfl⟩ <;>
     decide +kernel,
   by refine ⟨(at_b 2), { who := { master := 0, level := Level.supervisor }, tag := 0x03#8, from_ := 0x09#8, node := 0x01#8, addr := 0x20000000#32, port := some 0, src := 0x09#8, srcRing := 0, dstRing := 0, claim := none },
     [0x01#8], { base := 536870912, size := 4096, memOffset := 16, access := 65535, flags := 1 }, ?_, ?_, ?_, ?_, clean rfl⟩
     <;> decide +kernel,
   by refine ⟨(at_b 2), { who := { master := 0, level := Level.supervisor }, tag := 0x03#8, from_ := 0x09#8, node := 0x01#8, addr := 0x20000000#32, port := some 0, src := 0x09#8, srcRing := 0, dstRing := 0, claim := none },
     [0x01#8], { base := 536870912, size := 4096, memOffset := 16, access := 65535, flags := 1 }, ?_, ?_, ?_, ?_, clean rfl⟩
     <;> decide +kernel,
   ⟨(at_b 2), { who := { master := 0, level := Level.supervisor }, tag := 0x03#8, from_ := 0x09#8, node := 0x01#8, addr := 0x20000000#32, port := some 0, src := 0x09#8, srcRing := 0, dstRing := 0, claim := none },
     0x0000000000000000#64, { base := 536870912, size := 4096, memOffset := 16, access := 65535, flags := 1 },
     by decide +kernel, by decide +kernel, clean rfl⟩,
   ⟨(at_b 2), { who := { master := 0, level := Level.supervisor }, tag := 0x03#8, from_ := 0x09#8, node := 0x01#8, addr := 0x20000000#32, port := some 0, src := 0x09#8, srcRing := 0, dstRing := 0, claim := none },
     0x0000000000000000#64, 0x0000000000000000#64, { base := 536870912, size := 4096, memOffset := 16, access := 65535, flags := 1 },
     by decide +kernel, by decide +kernel, clean rfl⟩⟩

theorem witness_ScratchRegistersTakeWritesAndAtomics :
    (∃ (s : State) (r : Requester) (i : Fin 8) (v : Word), Grants s r (R.TOP_SCRATCH i.val) .write ∧ s.loaded.windows = []) ∧
    (∃ (s : State) (t : Txn) (i : Fin 8) (v : Word), Arrives s t false ∧ t.addr.toNat = R.TOP_SCRATCH i.val ∧ s.checkTxn
      (s.withClaim t).2 8 .atomic = .ok (.regs 0 1)) ∧
    (∃ (s : State) (t : Txn) (i : Fin 8), Arrives s t false ∧ t.addr.toNat = R.TOP_SCRATCH i.val ∧ s.checkTxn (s.withClaim
      t).2 8 .read = .ok (.regs 0 1)) :=
  ⟨⟨(at_b 0), { master := 0, level := Level.supervisor }, 0, 0x0000000000000000#64, by decide +kernel⟩,
   ⟨(at_b 0), { who := { master := 0, level := Level.supervisor }, tag := 0x03#8, from_ := 0x09#8, node := 0x00#8, addr := 0x000000d8#32, port := none, src := 0x09#8, srcRing := 0, dstRing := 0, claim := none },
     3, 0x0000000000000000#64, by decide +kernel⟩,
   ⟨(at_b 0), { who := { master := 0, level := Level.supervisor }, tag := 0x03#8, from_ := 0x09#8, node := 0x00#8, addr := 0x000000d8#32, port := none, src := 0x09#8, srcRing := 0, dstRing := 0, claim := none },
     3, by decide +kernel⟩⟩

theorem witness_RecordsThatAreNotTakenAreCounted :
    (∃ (s : State) (t : Txn) (n : Nat) (data : List Byte), s.targetUp = false) ∧
    (∃ (s : State) (t : Txn) (n : Nat), s.targetUp = true ∧ (n = 0 ∨ 256 < n)) ∧
    (∃ (s : State) (t : Txn) (v : Word), s.targetUp = true ∧ s.nodeOk t false = false) ∧
    (∃ (s : State) (t : Txn) (data : List Byte), s.targetUp = true ∧ 1 ≤ data.length ∧ data.length ≤ 256 ∧ s.nodeOk t true =
      true ∧ s.tagBusy t = true) ∧
    (∃ (s : State) (t : Txn) (n : Nat), s.targetUp = true ∧ 1 ≤ n ∧ n ≤ 256 ∧ s.nodeOk t false = true ∧ s.tagBusy t = false ∧
      t.port.isSome = true ∧ s.slotsFull t.who.master.val = true) :=
  ⟨⟨(at_b 7), { who := { master := 0, level := Level.supervisor }, tag := 0x03#8, from_ := 0x09#8, node := 0x01#8, addr := 0x000000d8#32, port := some 0, src := 0x09#8, srcRing := 0, dstRing := 0, claim := none },
     0, [0x01#8], by decide +kernel⟩,
   ⟨(at_b 0), { who := { master := 0, level := Level.supervisor }, tag := 0x03#8, from_ := 0x09#8, node := 0x01#8, addr := 0x000000d8#32, port := some 0, src := 0x09#8, srcRing := 0, dstRing := 0, claim := none },
     0, by decide +kernel⟩,
   ⟨(at_b 0), { who := { master := 0, level := Level.supervisor }, tag := 0x03#8, from_ := 0x09#8, node := 0x07#8, addr := 0x00010000#32, port := some 0, src := 0x09#8, srcRing := 0, dstRing := 0, claim := none },
     0x0000000000000000#64, by decide +kernel⟩,
   ⟨(at_b 10), { who := { master := 0, level := Level.supervisor }, tag := 0x03#8, from_ := 0x09#8, node := 0x01#8, addr := 0x000000d8#32, port := some 0, src := 0x09#8, srcRing := 0, dstRing := 0, claim := none },
     [0x01#8], by decide +kernel⟩,
   ⟨(at_b 13), { who := { master := 0, level := Level.supervisor }, tag := 0x03#8, from_ := 0x09#8, node := 0x01#8, addr := 0x000000d8#32, port := some 0, src := 0x09#8, srcRing := 0, dstRing := 0, claim := none },
     1, by decide +kernel⟩⟩

theorem witness_ResponsesAndTimeoutsEndRequests :
    (∃ (s : State) (m : Fin 4) (tag : Byte) (data : List Byte) (q : InitReq), s.targetUp = true ∧ mget none s.initReqs
      tag.toNat = some q ∧ q.master = m.val ∧ q.kind = 2 ∧ data.length = 8 ∧ (s.ctx q.engine q.ctx).slot = some tag.toNat) ∧
    (∃ (s : State) (m : Fin 4) (tag : Byte) (code : BitVec 4) (data : List Byte) (q : InitReq), s.targetUp = true ∧ code ≠ 0
      ∧ mget none s.initReqs tag.toNat = some q ∧ q.master = m.val ∧ (s.ctx q.engine q.ctx).slot = some tag.toNat) ∧
    (∃ (s : State) (m : Fin 4) (level : Level) (tag : Byte) (code : BitVec 4) (data : List Byte), s.targetUp = true ∧ mget
      none s.initReqs tag.toNat = none) ∧
    (∃ (s : State) (slot : Byte) (q : InitReq), s.asleep = false ∧ mget none s.initReqs slot.toNat = some q ∧ q.sentAt +
      s.loaded.initTimeout * 1000 ≤ s.clk ∧ (s.ctx q.engine q.ctx).slot = some slot.toNat) ∧
    (∃ (s : State) (slot : Byte), mget none s.initReqs slot.toNat = none) ∧
    (∃ (s : State) (m : Fin 4), s.asleep = false ∧ s.rd (R.TOP_NOTICE_RATE_interval m.val) ≠ 0 ∧ (s.bucket m.val).lastFill +
      s.rd (R.TOP_NOTICE_RATE_interval m.val) * 1000 ≤ s.clk) :=
  ⟨⟨(at_b 11), 0, 0x00#8, [0x01#8, 0x02#8, 0x03#8, 0x04#8, 0x05#8, 0x06#8, 0x07#8, 0x08#8], { engine := 0, ctx := 0, master := 0, kind := 2, sentAt := 0 },
     by decide +kernel⟩,
   ⟨(at_b 11), 0, 0x00#8, 0x1#4, [0x01#8], { engine := 0, ctx := 0, master := 0, kind := 2, sentAt := 0 }, by decide +kernel⟩,
   ⟨(at_b 0), 0, Level.supervisor, 0x00#8, 0x0#4, [0x01#8], by decide +kernel⟩,
   ⟨(at_b 11), 0x00#8, { engine := 0, ctx := 0, master := 0, kind := 2, sentAt := 0 }, by decide +kernel⟩,
   ⟨(at_b 0), 0x00#8, by decide +kernel⟩,
   ⟨(at_b 14), 1, by decide +kernel⟩⟩

end Wb

/-! #### Of settings, loads and packages -/

namespace Wc

def cm (s : State) (c : Commit) : State := { s with upd := { s.upd with commit := some c } }
def c1 : Commit := ⟨false, 0, 5, 77⟩
def rec0 : SetRec := ⟨4, 7, 2, 44, {}, 0⟩
def pend (s : State) : State := { s with hub := { s.hub with pendSeal := some 3, pendEpoch := some 3, node := 5 } }
def own (s : State) : State := ({ s with upd := { s.upd with loadOpen := true } } : State).wr R.STP_LOAD_STATUS_state 1
def hdr : List Byte := leBytes 4 0x5A575550 ++ leBytes 2 1 ++ leBytes 2 0 ++ leBytes 4 200
def fl (s : State) (bs : List Byte) : State := { s with flash := (bs.zipIdx.map (fun x => (stagingBase + x.2, x.1))), upd := { s.upd with journal := [(0, some 1)] } }
def p1 : Put := ⟨5, [1, 0xFFFFFFFFFFFFFFFF, 0x1234]⟩
def putS (s : State) (e : Bool) : State := { s with upd := { s.upd with put := some p1, erasing := e } }
def badFlash : State := { ((m .safe).wr R.STP_LOAD_STATUS_received 200) with upd := { (m .safe).upd with loadVerifying := true }, eccMarks := [(.flash, stagingBase / 8, .bad)] }
def built (s : State) : State := { s with upd := { s.upd with boot := { s.upd.boot with slotB := { s.upd.boot.slotB with state := 1 } } } }
def sts : List State := [({ (m .safe) with upd := { (m .safe).upd with copy0 := { cur := some rec0 } } } : State).wr R.STP_LOADED_epoch 3, m .run, m .safe, m .quarantine, pend (m .quarantine), (pend (m .quarantine)).wr R.STP_LOADED_epoch 3, (m .safe).wr R.STP_LOADED_epoch 3,
  { (cm (m .safe) c1) with hub := { (m .safe).hub with sealCalc := some 3, node := 7 } }, cm (pend (m .quarantine)) { c1 with admission := true }, cm (m .run) c1, { (m .safe) with upd := { (m .safe).upd with copy0 := { cur := some rec0 } } },
  own (m .safe), own (m .quarantine), (own (m .safe)).wr R.STP_LOAD_STATUS_busy 1, fl (m .safe) hdr, fl (own (m .safe)) hdr, { m .safe with upd := { (m .safe).upd with loadVerifying := true } },
  putS (own (m .safe)) true, putS (own (m .safe)) false, putS (m .safe) true, built (m .safe), (m .safe).wr R.UPD_STATUS_state 2, (m .run).wr R.UPD_STATUS_state 3,
  badFlash]
def pkgHead : List Byte := leBytes 4 0x5A575550 ++ leBytes 2 1 ++ leBytes 2 0 ++ leBytes 4 160 ++ leBytes 2 1 ++ List.replicate 82 0
def pkg : List Byte := pkgHead ++ ((leBytes 32 0x66b53cf8b294c63f912aa24f523684d60bfd18010e059fcf5015af1501a47806).reverse ++ (leBytes 32 0x335a9e7c594a631fc8955127a91b426b05fe8c008702cfe7a80ad78a80d23c03).reverse)
def pkgS : State := { (fl (m .safe) pkg).wr R.UPD_STATUS_state 2 with rootKey := (0x11fd4979ca21d426722f1ba302048c9568a03cefe999691c43042203eaf74dc8, 0x560f00729bd73e313eaf8e4ecf1ee6a9bf2c1e91bdafde01969b2a626c5ffa32) }
def at_c (i : Nat) : State := sts.getD i State.reset

theorem pkg_verifies : verifies pkgS.rootKey pkgHead (((leBytes 32 0x66b53cf8b294c63f912aa24f523684d60bfd18010e059fcf5015af1501a47806).reverse ++ (leBytes 32 0x335a9e7c594a631fc8955127a91b426b05fe8c008702cfe7a80ad78a80d23c03).reverse)) = true := by decide +kernel
set_option maxRecDepth 100000 in
theorem pkg_bytes : pkgS.packageBytes = pkg := rfl
theorem pkg_ok : pkgS.packageFault = none := by
  have h : pkgS.readFlash stagingBase 96 = pkgHead := by decide +kernel
  have hr : pkgS.recordsOk pkg = true := by decide +kernel
  have hv : leAt pkg 12 2 = pkgS.variant.code := by decide +kernel
  have hd : bitAt (leAt pkg 6 2) 0 = false := by decide +kernel
  have hl : leAt pkgHead 8 4 = 160 := by decide +kernel
  have ht : pkg.take 96 = pkgHead := rfl
  have hs : pkg.drop 96 = ((leBytes 32 0x66b53cf8b294c63f912aa24f523684d60bfd18010e059fcf5015af1501a47806).reverse ++ (leBytes 32 0x335a9e7c594a631fc8955127a91b426b05fe8c008702cfe7a80ad78a80d23c03).reverse) := rfl
  have hj : (mget none pkgS.upd.journal 0).isSome = true := by decide +kernel
  have hm : leAt pkgHead 0 4 = 0x5A575550 := by decide +kernel
  have hn : leAt pkgHead 4 2 = 1 := by decide +kernel
  simp only [State.packageFault, h, pkg_bytes, hl, hm, hn]
  simp [ht, hs, hv, hd, hr, pkg_verifies, firstFailing, hj]

theorem witness_SealEpochAndPolicyAreCommittedByRecords :
    (∃ (s : State) (r : Requester) (v : Word), Grants s r R.TOP_SEAL .write ∧ r.level = .supervisor ∧ s.hub.mode =
      .quarantine ∧ s.on R.UPD_STATUS_migration_fail = false) ∧
    (∃ (s : State) (r : Requester) (v : Word), Grants s r R.TOP_SEAL .write ∧ r.level = .supervisor ∧ s.hub.mode = .safe ∧
      s.on R.UPD_STATUS_migration_fail = false ∧ s.upd.commit = none) ∧
    (∃ (s : State) (r : Requester) (v : BitVec 24), Grants s r R.TOP_EPOCH .write ∧ r.level = .supervisor ∧ s.hub.mode =
      .quarantine ∧ s.on R.UPD_STATUS_migration_fail = false) ∧
    (∃ (s : State) (r : Requester) (v : BitVec 24), Grants s r R.TOP_EPOCH .write ∧ r.level = .supervisor ∧ s.hub.mode =
      .safe ∧ s.on R.UPD_STATUS_migration_fail = false ∧ s.upd.commit = none ∧ s.sealWord ≠ 0 ∧ s.storedEpoch ≤ v.toNat ∧
      v.toNat ≤ s.rd R.STP_LOADED_epoch) ∧
    (∃ (s : State) (r : Requester) (v : Word), Grants s r R.UPD_TRIAL .write ∧ r.level = .supervisor ∧ s.hub.mode = .safe ∧
      s.on R.UPD_STATUS_migration_fail = false ∧ s.upd.commit = none ∧ 1 ≤ fget v 48 8 ∧ fget v 48 8 ≤ 60 ∧ 1 ≤ fget v 42 2 ∧
      10 ≤ fget v 16 16 ∧ fget v 16 16 ≤ 600) ∧
    (∃ (s : State) (c : Commit), s.upd.commit = some c) ∧
    (∃ (s : State) (r : ModeReq) (w : Word) (e : Nat), Asks s r ∧ s.hub.mode = .quarantine ∧ s.hub.pendSeal = some w ∧ w ≠ 0
      ∧ s.hub.pendEpoch = some e ∧ e = s.rd R.STP_LOADED_epoch ∧ s.on R.UPD_STATUS_migration_fail = false ∧ s.upd.commit =
      none) ∧
    (∃ (s : State) (r : Requester) (v : Word), Grants s r R.TOP_SEAL_CHAL .write ∧ r.level = .supervisor ∧ (s.hub.mode =
      .quarantine ∨ s.hub.mode = .safe)) ∧
    (∃ (s : State) (c : Word), s.asleep = false ∧ s.hub.sealCalc = some c) :=
  ⟨⟨(at_c 3), { master := 0, level := Level.supervisor }, 0x0000000000000000#64, by decide +kernel⟩,
   ⟨(at_c 0), { master := 0, level := Level.supervisor }, 0x0000000000000000#64, by decide +kernel⟩,
   ⟨(at_c 3), { master := 0, level := Level.supervisor }, 0x000000#24, by decide +kernel⟩,
   ⟨(at_c 0), { master := 0, level := Level.supervisor }, 0x000003#24, by decide +kernel⟩,
   ⟨(at_c 0), { master := 0, level := Level.supervisor }, 0x0001040000140000#64, by decide +kernel⟩,
   ⟨(at_c 7), { admission := false, epoch := 0, sealWord := 0x0000000000000005#64, policy := 0x000000000000004d#64 },
     by decide +kernel⟩,
   ⟨(at_c 5), { who := { master := 0, level := Level.supervisor }, raced := false }, 0x0000000000000003#64, 3,
     by decide +kernel⟩,
   ⟨(at_c 0), { master := 0, level := Level.supervisor }, 0x0000000000000000#64, by decide +kernel⟩,
   ⟨(at_c 7), 0x0000000000000003#64, by decide +kernel⟩⟩

theorem witness_LoadsFollowTheirOwner :
    (∃ (s : State) (r : Requester), Grants s r R.STP_LOAD_CTRL .write ∧ r.level = .supervisor ∧ (s.hub.mode = .quarantine ∨
      s.hub.mode = .safe) ∧ s.upd.loadOpen = false ∧ s.stagedImage = false) ∧
    (∃ (s : State) (r : Requester), Grants s r R.STP_LOAD_CTRL .write ∧ r.level = .supervisor ∧ (s.hub.mode = .quarantine ∨
      s.hub.mode = .safe) ∧ s.upd.loadOpen = false) ∧
    (∃ (s : State) (r : Requester), Grants s r R.STP_LOAD_CTRL .write ∧ r.level = .supervisor ∧ (s.hub.mode = .quarantine ∨
      s.hub.mode = .safe) ∧ s.upd.loadOpen = false ∧ s.stagedImage = true) ∧
    (∃ (s : State) (r : Requester), Grants s r R.STP_LOAD_CTRL .write ∧ r.level = .supervisor ∧ (s.hub.mode = .quarantine ∨
      s.hub.mode = .safe) ∧ s.upd.loadOpen = true) ∧
    (∃ (s : State) (r : Requester), Grants s r R.STP_LOAD_CTRL .write ∧ s.ownsLoad r = true ∧ s.rd R.STP_LOAD_STATUS_state =
      1) ∧
    (∃ (s : State), s.upd.loadVerifying = true) ∧
    (∃ (s : State) (i : Nat), s.upd.loadVerifying = true ∧ s.eccMarks = [(.flash, i, .bad)] ∧ stagingBase ≤ 8 * i ∧ 8 * i <
      stagingBase + s.rd R.STP_LOAD_STATUS_received) ∧
    (∃ (s : State) (r : Requester) (i : Fin 32) (v : Word), Grants s r (R.STP_LOAD_BUF i.val) .write ∧ s.ownsLoad r = true ∧
      s.on R.STP_LOAD_STATUS_busy = false) ∧
    (∃ (s : State) (r : Requester) (i : Fin 32) (v : Word), Grants s r (R.STP_LOAD_BUF i.val) .write ∧ s.ownsLoad r = true ∧
      s.on R.STP_LOAD_STATUS_busy = true) ∧
    (∃ (s : State) (r : Requester) (block : BitVec 14) (words : BitVec 6), Grants s r R.STP_LOAD_PUT .write ∧ s.ownsLoad r =
      true ∧ s.on R.STP_LOAD_STATUS_busy = false ∧ words ≠ 0 ∧ words.toNat ≤ 32) ∧
    (∃ (s : State) (p : Put), s.upd.put = some p ∧ s.upd.loadOpen = true ∧ p.block < 16384 ∧ p.words.length ≤ 32) ∧
    (∃ (s : State), s.upd.erasing = true) :=
  ⟨⟨(at_c 0), { master := 0, level := Level.supervisor }, by decide +kernel⟩,
   ⟨(at_c 0), { master := 0, level := Level.supervisor }, by decide +kernel⟩,
   ⟨(at_c 14), { master := 0, level := Level.supervisor }, by decide +kernel⟩,
   ⟨(at_c 11), { master := 0, level := Level.supervisor }, by decide +kernel⟩,
   ⟨(at_c 11), { master := 0, level := Level.supervisor }, by decide +kernel⟩,
   ⟨(at_c 16), by decide +kernel⟩,
   ⟨at_c 23, stagingBase / 8, by decide +kernel⟩,
   ⟨(at_c 11), { master := 0, level := Level.supervisor }, 0, 0x0000000000000000#64, by decide +kernel⟩,
   ⟨(at_c 13), { master := 0, level := Level.supervisor }, 0, 0x0000000000000000#64, by decide +kernel⟩,
   ⟨(at_c 11), { master := 0, level := Level.supervisor }, 0x0000#14, 0x01#6, by decide +kernel⟩,
   ⟨(at_c 17), { block := 5, words := [0x0000000000000001#64, 0xffffffffffffffff#64, 0x0000000000001234#64] },
     by decide +kernel⟩,
   ⟨(at_c 17), by decide +kernel⟩⟩

theorem witness_PackagesAreCheckedAndBuilt :
    (∃ (s : State) (r : Requester), Grants s r R.UPD_CTRL .write ∧ s.ownsLoad r = true ∧ s.rd R.STP_LOAD_STATUS_state = 1 ∧
      s.stagedImage = true ∧ (s.slotOf s.upd.running).state = 3) ∧
    (∃ (s : State) (c : Nat), CleanFlash s ∧ s.rd R.UPD_STATUS_state = 2 ∧ s.packageFault = some c) ∧
    (∃ (s : State), s.rd R.UPD_STATUS_state = 2 ∧ s.packageFault = none) ∧
    (∃ (s : State) (t : State), s.rd R.UPD_STATUS_state = 3 ∧ t = { s with flash := mputList 0xFF s.flash (slotBase (!s.upd.running)) (s.buildImage s.packageBytes) }
      ∧ t.builtFault s.packageBytes (s.buildImage s.packageBytes) = none) ∧
    (∃ (s : State) (t : State) (i : BitVec 32), CleanFlash s ∧ s.rd R.UPD_STATUS_state = 3 ∧ t = { s with flash := mputList 0xFF s.flash (slotBase (!s.upd.running)) (s.buildImage s.packageBytes) }
      ∧ t.builtFault s.packageBytes (s.buildImage s.packageBytes) = none) ∧
    (∃ (s : State) (r : Requester), Grants s r R.UPD_CTRL .write ∧ r.level = .supervisor ∧ (s.hub.mode = .quarantine ∨
      s.hub.mode = .safe) ∧ s.upd.loadOpen = false) ∧
    (∃ (s : State) (r : Requester), Grants s r R.UPD_CTRL .write ∧ r.level = .supervisor ∧ (s.hub.mode = .quarantine ∨
      s.hub.mode = .safe) ∧ s.updState = 4 ∧ s.rd R.UPD_STATUS_state = 0) :=
  ⟨⟨(at_c 15), { master := 0, level := .supervisor }, by decide +kernel⟩,
   ⟨(m .safe).wr R.UPD_STATUS_state 2, 1, cleanFlash rfl, by decide +kernel⟩,
   ⟨pkgS, by decide +kernel, pkg_ok⟩,
   (have ⟨s, t, h⟩ := built_witness; ⟨s, t, h.2⟩),
   (have ⟨s, t, h⟩ := built_witness; ⟨s, t, 5, h⟩),
   ⟨(at_c 2), { master := 0, level := .supervisor }, by decide +kernel⟩,
   ⟨(at_c 20), { master := 0, level := .supervisor }, by decide +kernel⟩⟩

end Wc

/-! #### Of the ring and the Steam channel -/

namespace Wd

def late (s : State) : State := { s with clk := 20000000000, now := 7000 }
def hear (s : State) : State := { s with hub := { s.hub with node := 7 } }
def coup (s : State) (c : Cpl) : State := let s : State := (((late (lk s)).wr (R.RING_PORT_function 2) 1).wr (R.RING_PORT_function 3) 1).wr R.RING_CFG_sub_ring 1
  let s : State := (((s.wr R.RING_CPL_partner_main 9).wr R.RING_CPL_partner_sub 8).wr R.RING_CPL_period 1000).wr R.RING_CPL_miss_limit 3 |>.wr R.RING_CPL_role 1
  let s : State := (s.wr R.TIM_SYNC_CFG_gateway_eligible 1).wr R.RING_NODE_sub_node 4
  { s with ring := { s.ring with cpl := c } }
def cp1 : Cpl := { state := 1 }
def rates (s : State) : State := (s.wr R.RING_RATE_allowed 7).wr R.RING_CTRL_tx_enable 15
def lnk (s : State) (p : Nat) (l : Link) : State := s.setLink p l
def hib0 : Hib := ⟨.down, true, .safe, 850, 0, 0⟩
def str1 (s : State) : State := { s with ring := { s.ring with strainer := [(5, ⟨.live, 1, 1, 3⟩), (261, ⟨.live, 1, 1, 3⟩)] } }
def rd_ (s : State) (d : Word) : State := { s with ring := { s.ring with rateDue := some d } }
def sts : List State := [lnk (rates (late (m .safe))) 0 { hunt := 2, lockSince := some 19999999000, lastRate := 1 }, lnk (rates (late (m .safe))) 0 { hunt := 2, lockSince := some 5, berAt := some 19999999000, lastRate := 1 }, rd_ ((late (m .safe)).wr R.RING_RATE_next 2) 6000, rd_ ((late (m .safe)).wr R.RING_RATE_next 2) 8000, { late (m .safe) with hub := { (late (m .safe)).hub with node := 0 } }, m .boot, hear (lk (m .run)), rates (late (m .safe)), rates (late (lk (m .runDegraded))), rates (late ((m .runDegraded).wr (R.RING_PORT_up 0) 1)), (late ((m .runDegraded).wr (R.RING_PORT_up 0) 1)).wr R.RING_ISLAND_enable 1, 
  coup (m .run) { cp1 with gwMain := some 19999999000 }, coup (m .safe) cp1, coup (m .run) { cp1 with state := 2, drive := true, highSince := some 0, gwSub := some 3 }, coup (m .run) { cp1 with state := 2, drive := true, highSince := some 0 },
  coup (m .run) { cp1 with state := 2, drive := true, highSince := some 0, faulted := true }, coup (m .run) { cp1 with state := 3, line := false }, coup (m .run) { cp1 with state := 3, backoffEnd := 5 },
  lnk (rates (late (m .safe))) 0 { hunt := 2, lockSince := some 0, lastRate := 1 }, lnk (rates (late ((m .runDegraded).wr (R.RING_PORT_up 1) 1))) 0 { hunt := 2, lockSince := some 0, lastRate := 1, txOffSince := none }, 
  lnk (late (m .run)) 0 { txOffSince := some 5, lockSince := some 6 }, lnk (late (m .run)) 1 { txOffSince := some 19999999999, lockSince := some 19999999999 },
  (((late (m .safe)).wr R.RING_RATE_next 2).wr R.RING_RATE_switch_time 6000), (((late (m .safe)).wr R.RING_RATE_next 2).wr R.RING_RATE_switch_time 8000),
  str1 ((((late (m .safe)).wr R.RING_NODE_offer 6).wr R.RING_NODE_sub_offer 5).wr R.RING_CFG_sub_ring 1), { (late (m .hibernate)).wr R.PWR_WAKE_CFG_hib_sources 1 with power := { (m .run).power with hib := some hib0 } },
  lnk (((late (m .run)).wr R.RING_STATUS_closed 1).wr R.RING_STATUS_sub_closed 1) 0 { beaconBack := some 5 }, { lnk (late (m .run)) 0 {} with variant := .c3248 }] ++ [{ late (m .run) with ring := { (late (m .run)).ring with cpl := { (late (m .run)).ring.cpl with syncDue := 30000000000 } } }, coup (m .run) { cp1 with gwMain := some 19999999000, pad := false, line := false }, coup (m .run) { cp1 with yielded := true }, { coup (m .run) cp1 with clk := 20000000001, now := 7502 }]
def at_d (i : Nat) : State := sts.getD i State.reset

theorem witness_LinksComeUpAndGoDown :
    (∃ (s : State) (p : Fin 4), s.inReset = false ∧ s.linked p.val = true) ∧
    (∃ (s : State) (p : Fin 4), s.inReset = false ∧ s.linked p.val = true) ∧
    (∃ (s : State) (p : Fin 4) (highBer : Bool), s.inReset = false ∧ s.linked p.val = true) ∧
    (∃ (s : State) (p : Fin 4), s.inReset = false ∧ s.linked p.val = true ∧ (s.link p.val).lockSince = none) ∧
    (∃ (s : State) (p : Fin 2), s.inReset = false ∧ s.unsteeped = false ∧ s.optical = true ∧ (s.link p.val).lockSince = none
      ∧ s.rateOk (s.link p.val).hunt = false) ∧
    (∃ (s : State) (p : Fin 2) (l : Link), s.inReset = false ∧ s.optical = true ∧ s.link p.val = l ∧ l.lockSince = none ∧
      4000000 ≤ s.clk - l.huntSince) ∧
    (∃ (s : State) (p : Fin 4) (t : Nat), s.inReset = false ∧ s.linked p.val = true ∧ s.txOn p.val = true ∧ s.loopedBack
      p.val = false ∧ s.rateMismatch p.val = false ∧ (s.link p.val).lockSince = some t ∧ 1000000 ≤ s.clk - max t ((s.link
      p.val).berAt.getD 0) ∧ s.on (R.RING_PORT_up p.val) = false) ∧
    (∃ (s : State) (p : Fin 4) (t : Nat), (s.link p.val).lockSince = some t ∧ s.clk - max t ((s.link p.val).berAt.getD 0) <
      1000000) ∧
    (∃ (s : State) (p : Fin 4) (n : Nat), s.inReset = false ∧ s.asleep = false ∧ s.ringPort p.val = true ∧ 1000 < n) ∧
    (∃ (s : State) (p : Fin 4) (n : Nat), s.inReset = false ∧ s.asleep = false ∧ s.ringPort p.val = true ∧ n ≤ 1000) :=
  ⟨⟨(at_d 0), 0, by decide +kernel⟩,
   ⟨(at_d 0), 0, by decide +kernel⟩,
   ⟨(at_d 0), 0, true, by decide +kernel⟩,
   ⟨(at_d 0), 1, by decide +kernel⟩,
   ⟨(at_d 2), 0, by decide +kernel⟩,
   ⟨(at_d 0), 1, { lockSince := none, berAt := none, downSince := some 0, hunt := 1, huntSince := 0, lastRate := 0, txOffSince := none, beaconBack := none, mac := 0x000000000000#48, riskSince := none },
     by decide +kernel⟩,
   ⟨(at_d 18), 0, 0, by decide +kernel⟩,
   ⟨(at_d 0), 0, 19999999000, by decide +kernel⟩,
   ⟨(at_d 0), 0, 1001, by decide +kernel⟩,
   ⟨(at_d 0), 0, 0, by decide +kernel⟩⟩

theorem witness_RatesAndTransmittersAreSet :
    (∃ (s : State) (r : Requester) (n : BitVec 3) (t : BitVec 40), Grants s r R.RING_RATE .write ∧ s.hub.mode = .safe ∧
      s.rateOk n.toNat = true ∧ 0 ≤ sdiff40 t.toNat s.now) ∧
    (∃ (s : State) (r : Requester) (n : BitVec 3) (t : BitVec 40), Grants s r R.RING_RATE .write ∧ s.hub.mode = .safe ∧
      s.rateOk n.toNat = true ∧ sdiff40 t.toNat s.now < 0) ∧
    (∃ (s : State) (r : Requester) (n : BitVec 3) (t : BitVec 40), Grants s r R.RING_RATE .write ∧ (s.hub.mode ≠ .safe ∨
      s.rateOk n.toNat = false)) ∧
    (∃ (s : State) (due : Word), s.ring.rateDue = some due ∧ tdiff due s.now ≤ 0) ∧
    (∃ (s : State) (due : Word), s.ring.rateDue = some due ∧ 0 < tdiff due s.now) ∧
    (∃ (s : State) (r : Requester) (v : Word), Grants s r R.RING_CTRL .write ∧ s.hub.mode = .safe ∧ s.tuneAllowed
      ⟨R.RING_CTRL_lpi, fget v 8 2, s.lpiBitsOk (fget v 8 2)⟩ = true ∧ s.tuneAllowed ⟨R.RING_CTRL_tx_enable, fget v 0 4,
      s.txBitsOk (fget v 0 4)⟩ = true) ∧
    (∃ (s : State) (p : Fin 4) (t : Nat), (s.link p.val).txOffSince = some t ∧ 1000000 ≤ s.clk - t) ∧
    (∃ (s : State) (p : Fin 4) (t : Nat), (s.link p.val).txOffSince = some t ∧ s.clk - t < 1000000) :=
  ⟨⟨(at_d 0), { master := 0, level := Level.supervisor }, 0x1#3, 0x0000001b58#40, by decide +kernel⟩,
   ⟨(at_d 0), { master := 0, level := Level.supervisor }, 0x1#3, 0x0000000000#40, by decide +kernel⟩,
   ⟨(at_d 0), { master := 0, level := Level.supervisor }, 0x0#3, 0x0000000000#40, by decide +kernel⟩,
   ⟨(at_d 2), 0x0000000000001770#64, by decide +kernel⟩,
   ⟨(at_d 3), 0x0000000000001f40#64, by decide +kernel⟩,
   ⟨(at_d 0), { master := 0, level := Level.supervisor }, 0x0000000000000000#64, by decide +kernel⟩,
   ⟨(at_d 20), 0, 5, by decide +kernel⟩,
   ⟨(at_d 21), 1, 19999999999, by decide +kernel⟩⟩

theorem witness_NodeNumbersAreAdoptedAndTheStrainerIsReset :
    (∃ (s : State) (r : Requester), Grants s r R.RING_NODE .write ∧ r.level = .supervisor ∧ (s.hub.mode = .safe ∨ s.hub.mode
      = .quarantine) ∧ s.rd R.RING_NODE_offer ≠ 0) ∧
    (∃ (s : State) (r : Requester), Grants s r R.RING_NODE .write ∧ r.level = .supervisor ∧ (s.hub.mode = .safe ∨ s.hub.mode
      = .quarantine) ∧ s.rd R.RING_NODE_sub_offer ≠ 0) ∧
    (∃ (s : State) (r : Requester), Grants s r R.RING_NODE .write ∧ s.hub.mode ≠ .safe ∧ s.hub.mode ≠ .quarantine) ∧
    (∃ (s : State) (r : Requester), Grants s r R.STR_CTRL .write) :=
  ⟨⟨(at_d 24), { master := 0, level := Level.supervisor }, by decide +kernel⟩,
   ⟨(at_d 24), { master := 0, level := Level.supervisor }, by decide +kernel⟩,
   ⟨(at_d 6), { master := 0, level := Level.supervisor }, by decide +kernel⟩,
   ⟨(at_d 0), { master := 0, level := Level.supervisor }, by decide +kernel⟩⟩

theorem witness_SteamMessagesAreSentForwardedAndActedOn :
    (∃ (s : State) (p : Fin 4) (m : SteamMsg), s.inReset = false ∧ s.ringPort p.val = true ∧ m.intact = false ∧ m.type = 2) ∧
    (∃ (s : State) (p : Fin 4) (m : SteamMsg), s.inReset = false ∧ s.ringPort p.val = true ∧ m.intact = false ∧ m.type = 3) ∧
    (∃ (s : State) (p : Nat) (m : SteamMsg), s.nodeOf p ≠ m.src.toNat ∧ s.nodeOf p ≠ m.dst.toNat ∧ m.hops.toNat < 250 ∧
      m.words.length ≤ 64 ∧ s.steam (opposite p) = []) ∧
    (∃ (s : State) (p : Fin 4) (m : SteamMsg), s.inReset = false ∧ s.ringPort p.val = true ∧ m.intact = true ∧ (m.type = 1 ∨
      m.type = 4) ∧ s.nodeOf p.val ≠ m.src.toNat) ∧
    (∃ (s : State) (m : SteamMsg) (n : Nat) (a : Nat) (l : Nat), s.inReset = false ∧ m.type = 2 ∧ m.intact = true ∧
      s.hub.node = 0 ∧ s.steamActed 1 m = false ∧ a = (m.body.getD 0 0).toNat ∧ l = (m.body.getD 1 0).toNat ∧ n = (if l = 0
      then a + (m.hops.toNat + 1) else (a + m.hops.toNat) % l + 1) ∧ 1 ≤ n ∧ n ≤ 250) ∧
    (∃ (s : State) (m : SteamMsg) (n : Nat) (a : Nat) (l : Nat), s.inReset = false ∧ m.type = 2 ∧ m.intact = true ∧
      s.hub.node ≠ 0 ∧ s.hub.node ≠ m.src.toNat ∧ s.steamActed 1 m = false ∧ a = (m.body.getD 0 0).toNat ∧ l = (m.body.getD 1
      0).toNat ∧ n = (if l = 0 then a + (m.hops.toNat + 1) else (a + m.hops.toNat) % l + 1) ∧ 1 ≤ n ∧ n ≤ 250 ∧ n ≠
      s.hub.node) ∧
    (∃ (s : State) (p : Fin 4) (m : SteamMsg) (h : Hib), s.inReset = false ∧ s.ringPort p.val = true ∧ m.type = 3 ∧ m.intact
      = true ∧ s.nodeOf p.val ≠ m.src.toNat ∧ s.steamActed p.val m = false ∧ m.body.getD 0 0 = 0xFF ∧ s.hub.mode = .hibernate
      ∧ s.bitOn R.PWR_WAKE_CFG_hib_sources 0 = true ∧ s.power.hib = some h ∧ h.phase = .down) ∧
    (∃ (s : State), s.inReset = false ∧ s.ring.beaconAt + (if s.hub.mode = .hibernate then 100000000 else 10000000) ≤ s.clk ∧
      s.steam 0 = []) ∧
    (∃ (s : State), s.inReset = false ∧ s.ring.cpl.state = 2 ∧ s.ring.enumAt + 100000000 ≤ s.clk ∧ s.steam 2 = []) ∧
    (∃ (s : State) (sub : Bool) (t : Nat), s.on (if sub = true then R.RING_STATUS_sub_closed else R.RING_STATUS_closed) =
      true ∧ (s.link (if sub = true then 2 else 0)).beaconBack = some t ∧ t + 30000000 < s.clk) :=
  ⟨⟨(at_d 0), 0, { type := 0x02#8, src := 0x03#8, dst := 0xff#8, hops := 0x02#8, seq := 0x05#8, body := ([0x01#8, 0x02#8] ++ List.replicate 6 0x00#8), check := 0x000000000000#48 },
     by decide +kernel⟩,
   ⟨(at_d 0), 0, { type := 0x03#8, src := 0x03#8, dst := 0xff#8, hops := 0x02#8, seq := 0x05#8, body := ([0x01#8, 0x02#8] ++ List.replicate 6 0x00#8), check := 0x000000000000#48 },
     by decide +kernel⟩,
   ⟨(at_d 0), 0, { type := 0x01#8, src := 0x03#8, dst := 0xff#8, hops := 0x02#8, seq := 0x05#8, body := ([0x01#8, 0x02#8] ++ List.replicate 6 0x00#8), check := 0x000000000000#48 },
     by decide +kernel⟩,
   ⟨(at_d 0), 0, { type := 0x01#8, src := 0x03#8, dst := 0xff#8, hops := 0x02#8, seq := 0x05#8, body := ([0x01#8, 0x02#8] ++ List.replicate 6 0x00#8), check := 0x000000001b15#48 },
     by decide +kernel⟩,
   ⟨(at_d 0), { type := 0x02#8, src := 0x03#8, dst := 0xff#8, hops := 0x02#8, seq := 0x05#8, body := [0x01#8, 0x00#8, 0x00#8], check := 0x000000004d23#48 },
     4, 1, 0, by decide +kernel⟩,
   ⟨(at_d 6), { type := 0x02#8, src := 0x03#8, dst := 0xff#8, hops := 0x02#8, seq := 0x05#8, body := [0x01#8, 0x00#8, 0x00#8], check := 0x000000004d23#48 },
     4, 1, 0, by decide +kernel⟩,
   ⟨(at_d 25), 0, { type := 0x03#8, src := 0x03#8, dst := 0xff#8, hops := 0x02#8, seq := 0x05#8, body := [0xff#8, 0x06#8, 0x00#8], check := 0x0000000029d8#48 },
     { phase := HibPhase.down, off := true, target := Mode.safe, mv := 850, wakeAt := 0, since := 0 }, by decide +kernel⟩,
   ⟨(at_d 0), by decide +kernel⟩,
   ⟨(at_d 13), by decide +kernel⟩,
   ⟨(at_d 26), false, 5, by decide +kernel⟩⟩

theorem witness_LineFormatsAreReadBack :
    (∃ (bs : List Byte), 7 ≤ bs.length) ∧
    (∃ (bs : List Byte), 7 ≤ bs.length) ∧
    (∃ (bs : List Byte) (k : Nat), 7 ≤ bs.length ∧ 1 ≤ k ∧ k < (frameBlocks bs).length) ∧
    (∃ (w : SteamWord), w.payload.length = 6) ∧
    (∃ (m : SteamMsg), m.body.length ≤ 48) :=
  ⟨⟨[0x07#8, 0x2c#8, 0x51#8, 0x76#8, 0x9b#8, 0xc0#8, 0xe5#8], by decide +kernel⟩,
   ⟨[0x07#8, 0x2c#8, 0x51#8, 0x76#8, 0x9b#8, 0xc0#8, 0xe5#8], by decide +kernel⟩,
   ⟨[1, 2, 3, 4, 5, 6, 7], 1, by decide +kernel⟩,
   ⟨{ first := true, payload := [0x01#8, 0x02#8, 0x03#8, 0x04#8, 0x05#8, 0x06#8] }, by decide +kernel⟩,
   ⟨{ type := 0x01#8, src := 0x03#8, dst := 0xff#8, hops := 0x02#8, seq := 0x05#8, body := ([0x01#8, 0x02#8] ++ List.replicate 6 0x00#8), check := 0x000000000000#48 },
     by decide +kernel⟩⟩

theorem witness_CouplersShareTheGatewayRole :
    (∃ (s : State) (sub : Bool) (f : Frame), s.coreUp = true ∧ s.ring.cpl.state ≠ 0 ∧ f.ftype = 4 ∧ f.src = (if sub = true
      then s.rd R.RING_CPL_partner_sub else s.rd R.RING_CPL_partner_main) ∧ f.srcRing = s.ringOf (if sub = true then 2 else
      0)) ∧
    (∃ (s : State), s.coreUp = true ∧ s.ring.cpl.state ≠ 0 ∧ s.isCoupler = true ∧ s.rd R.RING_CFG_ring ≠ s.rd
      R.RING_CFG_sub_ring ∧ s.rd R.RING_CPL_partner_main ≠ 0 ∧ s.rd R.RING_CPL_partner_sub ≠ 0 ∧ s.ring.cpl.lastSent + s.rd
      R.RING_CPL_period * 1000 ≤ s.clk) ∧
    (∃ (s : State), s.wholeMicrosecond = true ∧ s.inReset = false ∧ s.ring.cpl.state = 1 ∧ s.ring.cpl.yielded = false ∧
      s.ring.cpl.pad = true ∧ s.ring.cpl.padSince + 1000 ≤ s.clk) ∧
    (∃ (s : State) (t : Nat), s.wholeMicrosecond = true ∧ s.inReset = false ∧ s.ring.cpl.state = 1 ∧ s.ring.cpl.pad = false ∧
      s.ring.cpl.padSince + 1000 ≤ s.clk ∧ (s.ring.cpl.gwMain = some t ∨ s.ring.cpl.gwSub = some t) ∧ s.clk < t + s.rd
      R.RING_CPL_miss_limit * s.rd R.RING_CPL_period * 1000) ∧
    (∃ (s : State) (high : Bool), s.wholeMicrosecond = true ∧ s.inReset = false ∧ s.ring.cpl.state = 1 ∧ s.ring.cpl.yielded =
      true) ∧
    (∃ (s : State) (high : Bool), s.wholeMicrosecond = true ∧ high ≠ s.ring.cpl.pad) ∧
    (∃ (s : State) (high : Bool), s.wholeMicrosecond = false) ∧
    (∃ (s : State) (high : Bool), s.wholeMicrosecond = true ∧ s.inReset = false ∧ s.ring.cpl.state = 2 ∧
      (s.ring.cpl.gwMain.isSome = true ∨ s.ring.cpl.gwSub.isSome = true)) ∧
    (∃ (s : State), s.ring.cpl.state = 3 ∧ s.ring.cpl.backoffEnd ≤ s.clk) ∧
    (∃ (s : State) (t : Nat), s.ring.cpl.state = 2 ∧ s.ring.cpl.drive = true ∧ s.ring.cpl.highSince = some t ∧
      s.ring.cpl.faulted = false ∧ 10000 ≤ s.clk - t) ∧
    (∃ (s : State), s.ring.cpl.faulted = true) ∧
    (∃ (s : State) (r : Requester), Grants s r R.RING_CPL .write ∧ r.level = .supervisor ∧ s.ring.cpl.state = 2) ∧
    (∃ (s : State), s.timeGateway = true ∧ s.ring.cpl.syncDue ≤ s.clk) ∧
    (∃ (s : State), s.clk < s.ring.cpl.syncDue) :=
  ⟨⟨at_d 11, true, { w0 := 0x1410080000000010#64, w1 := 0x0000000200000000#64, w2 := 0x0000000000000000#64, w3 := 0xb23c000000000000#64, payload := [0x02#8, 0x00#8], crc := 0x8e30678e#32 },
     by decide +kernel⟩,
   ⟨at_d 11, by decide +kernel⟩,
   ⟨at_d 12, by decide +kernel⟩,
   ⟨at_d 29, 19999999000, by decide +kernel⟩,
   ⟨at_d 30, true, by decide +kernel⟩,
   ⟨at_d 12, false, by decide +kernel⟩,
   ⟨at_d 31, true, by decide +kernel⟩,
   ⟨at_d 13, true, by decide +kernel⟩,
   ⟨at_d 17, by decide +kernel⟩,
   ⟨at_d 14, 0, by decide +kernel⟩,
   ⟨at_d 15, by decide +kernel⟩,
   ⟨at_d 13, { master := 0, level := .supervisor }, by decide +kernel⟩,
   ⟨at_d 13, by decide +kernel⟩,
   ⟨at_d 28, by decide +kernel⟩⟩

end Wd

/-! #### Of frames and the switch -/

namespace We

def late (s : State) : State := { s with clk := 20000000000, now := 65000 }
def hear (s : State) : State := { s with hub := { s.hub with node := 7 } }
def f1 : Frame := Head.frame { ftype := 1, src := 3, dst := 9, seq := 77 } (List.replicate 30 5)
def f7 : Frame := Head.frame { ftype := 1, src := 3, dst := 7, seq := 77 } (List.replicate 30 5)
def rx (f : Frame) (p : Fin 4) : RxFrame := { port := p, frame := f, start := 60000, tail := 65000, poisoned := false, aborted := false, etherType := 0, mac := 0 }
def on (s : State) : State := (((late (lk s)).wr (R.SIV_ENTRY_default 0) 1).wr (R.SIV_ENTRY_default 1) 1)
def thr (s : State) : State := (List.range 24).foldl (fun (s : State) p => s.wr (R.SWC_ADMIT_lo p) 64) s
def str (s : State) (e : StrEntry) : State := { s with ring := { s.ring with strainer := [(3, e)] } }
def pour (s : State) : State := let s : State := ((s.wr R.CYC_CTRL_enable 1).wr (R.CYC_CYCLE_units 0) 4).wr (R.CYC_POINT_apply_offset 0) 100000
  s.setWord (R.CYC_CUP 3) ((3 <<< 62) ||| (4 <<< 55) ||| (4 <<< 38) ||| (3 <<< 27))
def st1 : Stored := { id := 4, frame := f1, leaves := [9], ingress := 0, cls := 1, outs := [1] }
def st2 : Stored := { st1 with id := 5, frame := f7, cls := 3 }
def q (s : State) (fs : List Stored) : State := { s with switch := { s.switch with frames := fs, outputs := [(1, { queue := fs.map (·.id), shUsed := 1, holdEnded := false })], keys := [⟨1, 0, 3, 0, none, 5⟩] } }
def gu (s : State) : State := ((s.wr R.SWC_GUARD_enable 3).wr (R.CYC_CYCLE_units 0) 4)
def tapS : State := { (((thr (on (m .run))).wr (R.RING_PORT_function 2) 2).wr (R.RING_PORT_up 2) 1).wr R.RING_CFG_tap_ethertype 0x88B5 with hub := { (m .run).hub with node := 7 } }
def tr (x : RxFrame) : RxFrame := { x with etherType := 0x88B5, frame := (Head.frame { ftype := 1, src := 0, dst := 0 } []) }
def sts : List State := [m .boot, lk (m .boot), { thr (hear (on (m .run))) with pending := [.frameReceive (rx f7 0)] }, m .run, hear (on (m .run)), thr (hear (on (m .run))), thr (hear (on (m .safe))), str (hear (thr (on (m .run)))) ⟨.live, 77, 5, 19999999000⟩, str (hear (thr (on (m .run)))) ⟨.live, 77, 1, 19999999000⟩,
  pour (hear (on (m .run))), q (on (m .run)) [st1], q (on (m .run)) [st1, st2], q (on (m .run)) [{ st1 with frame := Head.frame { ftype := 1, src := 3, dst := 9, deadline := 1 } [1] }], q ((on (m .run)).setLink 1 { downSince := some 5 } |>.wr (R.RING_PORT_up 1) 0) [st1], q ((on (m .run)).setLink 1 { downSince := some 19999999999 } |>.wr (R.RING_PORT_up 1) 0) [st1],
  q (on (m .run)) [{ st1 with held := [(1, 5)] }], { on (m .run) with switch := { (m .run).switch with keys := [⟨1, 0, 3, 0, none, 5⟩, ⟨2, 0, 3, 0, none, 5⟩], leaked := [5, 6], failed := [6, 7] } },
  gu { (on (m .run)) with now := 126000, cyc := { (m .run).cyc with arrivals := [(0, some (0, 1000)), (64, some (0,1000))] } }, (on (m .run)).setOutp 0 { guards := [(5, 0), (19999999999, 64)] }, (on (m .run)).setOutp 1 { guards := [(19999999999, 3)] }]
def at_e (i : Nat) : State := sts.getD i State.reset

theorem witness_TheFirstFailedCheckDropsTheFrame :
    (∃ (s : State) (rx : RxFrame) (c : Nat), Hears s rx ∧ ((rx.frame.hcs ≠ rx.frame.hcsOf ∧ c = 1) ∨ (rx.frame.hcs =
      rx.frame.hcsOf ∧ c = 4 ∧ (rx.frame.version ≠ 1 ∨ rx.frame.ftype = 0 ∨ 5 < rx.frame.ftype ∨ rx.frame.reservedZero =
      false ∨ s.ringNamed rx.port.val rx.frame.srcRing = false ∨ s.ringNamed rx.port.val rx.frame.dstRing = false)) ∨
      (rx.frame.hcs = rx.frame.hcsOf ∧ c = 5 ∧ rx.frame.version = 1 ∧ 0 < rx.frame.ftype ∧ rx.frame.ftype ≤ 5 ∧
      rx.frame.reservedZero = true ∧ s.ringNamed rx.port.val rx.frame.srcRing = true ∧ s.ringNamed rx.port.val
      rx.frame.dstRing = true ∧ 250 ≤ rx.frame.hops))) ∧
    (∃ (s : State) (rx : RxFrame) (c : Nat), Hears s rx ∧ s.headFault rx.port.val rx.frame = none ∧
      (((rx.frame.payload.length ≠ rx.frame.length ∨ 2048 < rx.frame.length) ∧ c = 3) ∨ (rx.frame.payload.length =
      rx.frame.length ∧ rx.frame.length ≤ 2048 ∧ rx.poisoned = true ∧ c = 2) ∨ (rx.frame.payload.length = rx.frame.length ∧
      rx.frame.length ≤ 2048 ∧ rx.poisoned = false ∧ rx.frame.crc ≠ rx.frame.crcOf ∧ c = 0))) ∧
    (∃ (s : State) (rx : RxFrame), s.coreUp = true ∧ s.ringPort rx.port.val = true ∧ rx.aborted = true) ∧
    (∃ (s : State) (rx : RxFrame), s.coreUp = true ∧ s.linked rx.port.val = true ∧ 2 ≤ rx.port.val ∧ s.portFunction
      rx.port.val = 2 ∧ s.on (R.RING_PORT_up rx.port.val) = true ∧ rx.aborted = false ∧ rx.etherType.toNat = s.rd
      R.RING_CFG_tap_ethertype ∧ s.headFault rx.port.val rx.frame = none ∧ rx.frame.payload.length = rx.frame.length ∧
      rx.frame.length ≤ 1464 ∧ rx.poisoned = false ∧ rx.fcs ≠ ethernetFcs rx.toMac rx.mac rx.etherType rx.frame ∧
      rx.frame.ftype ≠ 2) ∧
    (∃ (s : State) (rx : RxFrame), rx.frame.ftype = 2) :=
  ⟨⟨(at_e 2), { port := 0, frame := { w0 := 0x11100309004d0000#64, w1 := 0x0000001e00000000#64, w2 := 0x0000000000000000#64, w3 := 0x0000000000000000#64, payload := (List.replicate 30 0x05#8), crc := 0x7357ada1#32 }, start := 0x000000000000ea60#64, tail := 0x000000000000fde8#64, poisoned := false, aborted := false, mac := 0x000000000000#48, etherType := 0x0000#16 },
     1, by decide +kernel⟩,
   ⟨(at_e 2), { port := 0, frame := { w0 := 0x11100309004d0000#64, w1 := 0x0000001e00000000#64, w2 := 0x0000000000000000#64, w3 := 0x5b63000000000000#64, payload := (List.replicate 30 0x05#8), crc := 0x7357ada1#32 }, start := 0x000000000000ea60#64, tail := 0x000000000000fde8#64, poisoned := true, aborted := false, mac := 0x000000000000#48, etherType := 0x0000#16 },
     2, by decide +kernel⟩,
   ⟨(at_e 2), { port := 0, frame := { w0 := 0x11100309004d0000#64, w1 := 0x0000001e00000000#64, w2 := 0x0000000000000000#64, w3 := 0x5b63000000000000#64, payload := (List.replicate 30 0x05#8), crc := 0x7357ada1#32 }, start := 0x000000000000ea60#64, tail := 0x000000000000fde8#64, poisoned := false, aborted := true, mac := 0x000000000000#48, etherType := 0x0000#16 },
     by decide +kernel⟩,
   ⟨tapS, { tr (rx f1 2) with fcs := 7 }, by decide +kernel⟩,
   ⟨(at_e 0), { port := 0, frame := { w0 := 0x12d0030700070000#64, w1 := 0x0000002000000000#64, w2 := 0x0000000000000000#64, w3 := 0x126a000000000000#64, payload := ([0x00#8, 0xfc#8] ++ List.replicate 30 0x05#8), crc := 0xb80ebf2e#32 }, start := 0x000000000000ea60#64, tail := 0x000000000000fde8#64, poisoned := false, aborted := false, mac := 0x000000000000#48, etherType := 0x0000#16 },
     by decide +kernel⟩⟩

theorem witness_FramesAreForwardedThroughTheOtherPort :
    (∃ (s : State) (rx : RxFrame), s.retimersOnly = true ∧ rx.port.val < 2 ∧ s.on (R.RING_PORT_up 0) = true ∧ s.on
      (R.RING_PORT_up 1) = true ∧ rx.aborted = false) ∧
    (∃ (s : State) (rx : RxFrame) (q : Nat), Hears s rx ∧ rx.port.val < 2 ∧ q = opposite rx.port.val ∧ PlainCore s
      rx.port.val ∧ s.headFault rx.port.val rx.frame = none ∧ s.tailFault rx = none ∧ rx.frame.ftype = 1 ∧ rx.frame.deadline
      = 0 ∧ s.flowEntry rx.frame.flow = none ∧ 28 ≤ rx.frame.length ∧ rx.frame.dstRing = s.ringOf rx.port.val ∧ s.addressed
      rx.frame rx.port.val = false ∧ s.forwardsRound rx.frame rx.port.val = true ∧ s.portDown q = false ∧ s.idleAtHead q rx =
      true ∧ (s.outp q).queue = [] ∧ (s.admits q rx.frame.tclass rx.frame.leaves).isSome = true ∧ s.rd R.SWC_GUARD_enable = 0
      ∧ s.time.launches = []) :=
  ⟨⟨(at_e 1), { port := 0, frame := { w0 := 0x11100309004d0000#64, w1 := 0x0000001e00000000#64, w2 := 0x0000000000000000#64, w3 := 0x5b63000000000000#64, payload := (List.replicate 30 0x05#8), crc := 0x7357ada1#32 }, start := 0x000000000000ea60#64, tail := 0x000000000000fde8#64, poisoned := false, aborted := false, mac := 0x000000000000#48, etherType := 0x0000#16 },
     by decide +kernel⟩,
   ⟨(at_e 2), { port := 0, frame := { w0 := 0x11100309004d0000#64, w1 := 0x0000001e00000000#64, w2 := 0x0000000000000000#64, w3 := 0x5b63000000000000#64, payload := (List.replicate 30 0x05#8), crc := 0x7357ada1#32 }, start := 0x000000000000ea60#64, tail := 0x000000000000fde8#64, poisoned := false, aborted := false, mac := 0x000000000000#48, etherType := 0x0000#16 },
     1, by decide +kernel⟩⟩

theorem witness_TheStrainerAcceptsASequenceNumberOnce :
    (∃ (e : StrEntry) (seq : Nat) (t : Nat) (t' : Nat), (strJudge e seq t).2.2 = true) ∧
    (∃ (e : StrEntry) (seq : Nat) (t : Nat), (strJudge e seq t).2.2 = false) ∧
    (∃ (s : State) (rx : RxFrame) (e : StrEntry), Hears s rx ∧ PlainCore s rx.port.val ∧ s.headFault rx.port.val rx.frame =
      none ∧ s.tailFault rx = none ∧ rx.frame.ftype = 1 ∧ rx.frame.dual = true ∧ rx.frame.dstRing = s.ringOf rx.port.val ∧
      s.nodeOf rx.port.val ≠ 0 ∧ rx.frame.dst = s.nodeOf rx.port.val ∧ rx.frame.src ≠ s.nodeOf rx.port.val ∧ s.strEntry (256
      * rx.frame.srcRing + rx.frame.src) = e ∧ e.st = .empty ∧ s.rivalCopy rx = false ∧ s.flowEntry rx.frame.flow = none ∧
      (s.admits 5 rx.frame.tclass rx.frame.leaves).isSome = true) ∧
    (∃ (s : State) (rx : RxFrame) (e : StrEntry), Hears s rx ∧ PlainCore s rx.port.val ∧ s.headFault rx.port.val rx.frame =
      none ∧ s.tailFault rx = none ∧ rx.frame.ftype = 1 ∧ rx.frame.dual = true ∧ rx.frame.dstRing = s.ringOf rx.port.val ∧
      s.nodeOf rx.port.val ≠ 0 ∧ rx.frame.dst = s.nodeOf rx.port.val ∧ rx.frame.src ≠ s.nodeOf rx.port.val ∧ s.strEntry (256
      * rx.frame.srcRing + rx.frame.src) = e ∧ e.st ≠ .empty ∧ s.clk - e.last < 10000000 ∧ e.top = BitVec.ofNat 16
      rx.frame.seqNo ∧ e.map.getLsbD 0 = true ∧ s.rivalCopy rx = false) ∧
    (∃ (s : State) (rx : RxFrame), Hears s rx ∧ PlainCore s rx.port.val ∧ s.headFault rx.port.val rx.frame = none ∧
      s.tailFault rx = none ∧ rx.frame.ftype = 1 ∧ rx.frame.dual = true ∧ rx.frame.dstRing = s.ringOf rx.port.val ∧ s.nodeOf
      rx.port.val ≠ 0 ∧ rx.frame.dst = s.nodeOf rx.port.val ∧ rx.frame.src ≠ s.nodeOf rx.port.val ∧ s.rivalCopy rx = true ∧
      s.strainOk rx.frame = true) :=
  ⟨⟨{ st := StrState.empty, top := 0x0000#16, map := 0x00000000000000000000000000000000#128, last := 0 }, 0, 0, 0,
     by decide +kernel⟩,
   ⟨{ st := StrState.live, top := 0x004d#16, map := 0x00000000000000000000000000000001#128, last := 19999999000 }, 77, 0,
     by decide +kernel⟩,
   ⟨(at_e 2), { port := 0, frame := { w0 := 0x11100307004d0000#64, w1 := 0x0000001e00000000#64, w2 := 0x0000000000000000#64, w3 := 0xb1eb000000000000#64, payload := (List.replicate 30 0x05#8), crc := 0x58947dc0#32 }, start := 0x000000000000ea60#64, tail := 0x000000000000fde8#64, poisoned := false, aborted := false, mac := 0x000000000000#48, etherType := 0x0000#16 },
     { st := StrState.empty, top := 0x0000#16, map := 0x00000000000000000000000000000000#128, last := 0 }, by decide +kernel⟩,
   ⟨(at_e 8), { port := 0, frame := { w0 := 0x11100307004d0000#64, w1 := 0x0000001e00000000#64, w2 := 0x0000000000000000#64, w3 := 0xb1eb000000000000#64, payload := (List.replicate 30 0x05#8), crc := 0x58947dc0#32 }, start := 0x000000000000ea60#64, tail := 0x000000000000fde8#64, poisoned := false, aborted := false, mac := 0x000000000000#48, etherType := 0x0000#16 },
     { st := StrState.live, top := 0x004d#16, map := 0x00000000000000000000000000000001#128, last := 19999999000 },
     by decide +kernel⟩,
   ⟨(at_e 2), { port := 1, frame := { w0 := 0x11100307004d0000#64, w1 := 0x0000001e00000000#64, w2 := 0x0000000000000000#64, w3 := 0xb1eb000000000000#64, payload := (List.replicate 30 0x05#8), crc := 0x58947dc0#32 }, start := 0x000000000000ea60#64, tail := 0x000000000000fde8#64, poisoned := false, aborted := false, mac := 0x000000000000#48, etherType := 0x0000#16 },
     by decide +kernel⟩⟩

theorem witness_OutputsSendTheHighestClassFirst :
    (∃ (s : State) (p : Fin 24) (f : Stored), s.outputIdle p.val = true ∧ p.val ≠ 5 ∧ p.val ≠ 22 ∧ p.val ≠ 23 ∧
      s.switch.frames = [f] ∧ (s.outp p.val).queue = [f.id] ∧ f.outs = [p.val] ∧ s.selectable f p.val = true ∧ s.frameStale
      f.frame = false ∧ s.guardBlocks p.val f.cls (s.lineTime p.val f.frame.size) = false ∧ s.launchBlocks p.val f.cls
      (s.lineTime p.val f.frame.size) = false ∧ s.eccMarks = [] ∧ f.launch = none ∧ f.cut = false ∧ (f.frame.ftype = 1 ∨
      f.frame.ftype = 4) ∧ s.on R.SWC_CTRL_mirror = false) ∧
    (∃ (s : State) (p : Fin 24) (f : Stored) (g : Stored), s.outputIdle p.val = true ∧ p.val ≠ 5 ∧ p.val ≠ 22 ∧ p.val ≠ 23 ∧
      s.switch.frames = [f, g] ∧ f.id ≠ g.id ∧ (s.outp p.val).queue = [f.id, g.id] ∧ f.outs = [p.val] ∧ g.outs = [p.val] ∧
      f.cls < g.cls ∧ s.selectable f p.val = true ∧ s.selectable g p.val = true ∧ s.frameStale g.frame = false ∧
      s.guardBlocks p.val g.cls (s.lineTime p.val g.frame.size) = false ∧ s.launchBlocks p.val g.cls (s.lineTime p.val
      g.frame.size) = false ∧ s.eccMarks = [] ∧ g.launch = none ∧ g.cut = false ∧ (g.frame.ftype = 1 ∨ g.frame.ftype = 4) ∧
      s.on R.SWC_CTRL_mirror = false) ∧
    (∃ (s : State) (p : Fin 24) (f : Stored), s.outputIdle p.val = true ∧ p.val ≠ 5 ∧ p.val ≠ 22 ∧ p.val ≠ 23 ∧
      s.switch.frames = [f] ∧ (s.outp p.val).queue = [f.id] ∧ f.outs = [p.val] ∧ s.selectable f p.val = true ∧ s.syncBarred f
      p.val = false ∧ s.frameStale f.frame = true) ∧
    (∃ (s : State) (p : Fin 24), s.outputIdle p.val = false) :=
  ⟨⟨(at_e 10), 1, { id := 4, frame := { w0 := 0x11100309004d0000#64, w1 := 0x0000001e00000000#64, w2 := 0x0000000000000000#64, w3 := 0x5b63000000000000#64, payload := (List.replicate 30 0x05#8), crc := 0x7357ada1#32 }, leaves := [9], ingress := 0, cls := 1, outs := [1], start := 0x0000000000000000#64, fromReserve := [], held := [], notBefore := 0, launch := none, answers := none, deferred := [], waited := [], claim := none, exchanged := none, cut := false },
     by decide +kernel⟩,
   ⟨(at_e 11), 1, { id := 4, frame := { w0 := 0x11100309004d0000#64, w1 := 0x0000001e00000000#64, w2 := 0x0000000000000000#64, w3 := 0x5b63000000000000#64, payload := (List.replicate 30 0x05#8), crc := 0x7357ada1#32 }, leaves := [9], ingress := 0, cls := 1, outs := [1], start := 0x0000000000000000#64, fromReserve := [], held := [], notBefore := 0, launch := none, answers := none, deferred := [], waited := [], claim := none, exchanged := none, cut := false },
     { id := 5, frame := { w0 := 0x11100307004d0000#64, w1 := 0x0000001e00000000#64, w2 := 0x0000000000000000#64, w3 := 0xb1eb000000000000#64, payload := (List.replicate 30 0x05#8), crc := 0x58947dc0#32 }, leaves := [9], ingress := 0, cls := 3, outs := [1], start := 0x0000000000000000#64, fromReserve := [], held := [], notBefore := 0, launch := none, answers := none, deferred := [], waited := [], claim := none, exchanged := none, cut := false },
     by decide +kernel⟩,
   ⟨(at_e 12), 1, { id := 4, frame := { w0 := 0x1110030900000000#64, w1 := 0x0000000100000001#64, w2 := 0x0000000000000000#64, w3 := 0xf392000000000000#64, payload := [0x01#8], crc := 0x2a128a70#32 }, leaves := [9], ingress := 0, cls := 1, outs := [1], start := 0x0000000000000000#64, fromReserve := [], held := [], notBefore := 0, launch := none, answers := none, deferred := [], waited := [], claim := none, exchanged := none, cut := false },
     by decide +kernel⟩,
   ⟨(at_e 0), 0, by decide +kernel⟩⟩

theorem witness_HoldsKeysLeavesAndGuardsEnd :
    (∃ (s : State) (p : Fin 24) (t : Nat), s.downFrom p.val = some t ∧ s.portDown p.val = true ∧ (s.outp p.val).holdEnded =
      false ∧ s.rd (R.SWC_PORT_hold p.val) * 1000 < s.clk - t ∧ ((∀ id ∈ (s.outp p.val).queue, (s.stored? id).isSome =
      true))) ∧
    (∃ (s : State) (p : Fin 24) (t : Nat), s.downFrom p.val = some t ∧ s.clk - t ≤ s.rd (R.SWC_PORT_hold p.val) * 1000) ∧
    (∃ (s : State) (p : Fin 24) (id : Nat) (f : Stored) (h : Nat × Nat) (k : Key), s.stored? id = some f ∧ f.held.find? (fun
      h => h.1 == p.val) = some h ∧ s.switch.keys.find? (fun k => k.is p.val f.frame) = some k ∧ s.rd R.SWC_RESEQ_window *
      1000 ≤ s.clk - h.2) ∧
    (∃ (s : State) (gone : List Nat), s.coreUp = true ∧ s.switch.auditAt + 1000000 ≤ s.clk ∧ gone = (s.leavesUsed.filter (fun
      l => !s.leafOk l)).filter s.switch.failed.contains) ∧
    (∃ (s : State), s.clk < s.switch.auditAt + 1000000) ∧
    (∃ (s : State) (l : Fin 16384), s.coreUp = true ∧ s.switch.auditAt + 1000000 ≤ s.clk ∧ l.val ∉ s.leavesUsed ∧
      s.leavesUsed.filter (fun l => !s.leafOk l) = []) ∧
    (∃ (s : State) (p : Fin 2) (t : Nat) (k : Nat), s.coreUp = true ∧ s.bitOn R.SWC_GUARD_enable p.val = true ∧ (t, k) ∈
      s.guardOpenings p.val ∧ t ≤ s.now.toNat ∧ s.now.toNat < t + 2 ∧ ((∀ x ∈ (s.outp p.val).guards, x.2 ≠ k))) :=
  ⟨⟨(at_e 2), 3, 0, by decide +kernel⟩,
   ⟨(at_e 0), 0, 0, by decide +kernel⟩,
   ⟨(at_e 15), 1, 4, { id := 4, frame := { w0 := 0x11100309004d0000#64, w1 := 0x0000001e00000000#64, w2 := 0x0000000000000000#64, w3 := 0x5b63000000000000#64, payload := (List.replicate 30 0x05#8), crc := 0x7357ada1#32 }, leaves := [9], ingress := 0, cls := 1, outs := [1], start := 0x0000000000000000#64, fromReserve := [], held := [(1, 5)], notBefore := 0, launch := none, answers := none, deferred := [], waited := [], claim := none, exchanged := none, cut := false },
     (1, 5), { out := 1, srcRing := 0, src := 3, flow := 0, last := none, idleSince := 5 }, by decide +kernel⟩,
   ⟨(at_e 2), [], by decide +kernel⟩,
   ⟨(at_e 0), by decide +kernel⟩,
   ⟨(at_e 2), 0, by decide +kernel⟩,
   ⟨(at_e 17), 1, 126000, 0, by decide +kernel⟩⟩

end We

/-! #### Of time and cups -/

namespace Wf

def late (s : State) : State := { s with clk := 20000000000, now := 1000000 }
def on (s : State) : State := (((late (lk s)).wr (R.SIV_ENTRY_default 7) 1).wr (R.SIV_ENTRY_default 1) 1)
def thr (s : State) : State := (List.range 24).foldl (fun (s : State) p => s.wr (R.SWC_ADMIT_lo p) 64) s
def base (s : State) : State := let s : State := thr (on s)
  let s : State := ((s.wr R.TIM_SYNC_CFG_gm_primary 3).wr R.TIM_SYNC_CFG_gm_backup 4)
  let s : State := (((s.wr (R.TIM_PDELAY_valid 0) 1).wr (R.TIM_PDELAY_valid 1) 1).wr (R.TIM_PDELAY_delay 0) 1000).wr R.TIM_CTRL_auto_step_fwd 1
  { s with loaded := { s.loaded with sections := [9, 0xD] }, hub := { s.hub with node := 7 } }
def B : State := base (m .run)
def sv (n run : Nat) (o : Int) : State := { B with time := { B.time with servo := n, run := run, offset := o } }
def syn (src : Nat) (orig : Nat) : Frame := Head.frame { ftype := 3, src := src, dst := 0xFF, dual := false, tinfo := 2 ^ 44 } (wordBytes (BitVec.ofNat 64 orig) ++ wordBytes 0x0025050100000000)
def pd : PDelay := { pending := some (5, 900000) }
def pds (d : PDelay) : State := { B with time := { B.time with pdelay := [(0, d), (1, d)] } }
def spur (v : Nat) : State := (((((base (m .run)).wr (R.RING_PORT_function 2) 2).wr (R.RING_PORT_function 3) 2).wr R.TIM_SYNC_CFG_gptp 3).wr R.TIM_STATUS_valid v).wr (R.RING_PORT_up 2) 1
def sch (w : Word) : State := (B.setWord (R.TIM_SCHED_A 0) w).wr (R.TIM_IO_function 2) 3
def e1 : Sched := ⟨999990, 0x32000000⟩
def lch (words : Nat) : State := let s : State := ((B.setWord (R.TIM_LAUNCH_BUF 0) 0x1100000000000000).setWord (R.TIM_LAUNCH_BUF 1) 0x0000001000000000).wr (R.TIM_LAUNCH_CTL_words 0) words
  { s with time := { s.time with launches := [(0, some 1001000)] } }
def tio (f : Nat) (t : TimeIo) : State := let s : State := (((B.wr (R.TIM_IO_function 2) f).wr (R.TIM_IO_PER_period 2) 1000).wr (R.TIM_IO_edges 2) 1).wr (R.TIM_IO_width 2) 100
  s.setTio 2 t
def st (n : Nat) : Stamp := ⟨true, false, BitVec.ofNat 64 n⟩
def ot (msg : Nat) : Stored := { id := 4, frame := Head.frame { ftype := 3, src := 3, dst := 0xFF, dual := false, tinfo := msg * 2 ^ 44 + 5 * 65536 } (wordBytes 0), leaves := [9], ingress := 7, cls := 1, outs := [1], start := 999000 }
def otS (msg : Nat) : State := let s : State := pds pd
  { s with switch := { s.switch with frames := [ot msg], outputs := [(1, { queue := [4], shUsed := 1 })] } }
def cyc (dir kind n : Nat) : State := let s : State := (((B.wr R.CYC_CTRL_enable 1).wr (R.CYC_CYCLE_units 0) 32).wr (R.CYC_POINT_sample_offset 0) 500000).wr (R.CYC_POINT_apply_offset 0) 500000
  let s : State := (s.setWord (R.CYC_CUP 5) (pack [(63, 1), (62, dir), (58, kind), (55, 7), (38, 20), (27, 10), (0, 64)])).wr (R.CYC_STATUS_fresh_limit 0) 3
  { s with now := BitVec.ofNat 64 n }
def b1 : List Byte := [0x80, 1, 9, 8]
def shots : List Shot := [⟨[1, 2], 1, 1500000, none⟩]
def withShots : State := { cyc 0 0 1500000 with cyc := { (cyc 0 0 1500000).cyc with snaps := [(5, { shots := shots })] } }
def withCommits : State := { cyc 1 0 1500000 with cyc := { (cyc 1 0 1500000).cyc with commits := [⟨0, 1, 1, [(5, b1)]⟩, ⟨0, 0, 1, [(5, b1)]⟩] } }
def pour : State :=
  let s : State := ((((lk (m .run)).wr (R.SIV_ENTRY_default 0) 1).wr R.CYC_CTRL_enable 1).wr (R.CYC_CYCLE_units 0) 4).wr (R.CYC_POINT_apply_offset 0) 100000
  let s : State := s.setWord (R.CYC_CUP 3) ((3 <<< 62) ||| (4 <<< 55) ||| (4 <<< 38) ||| (3 <<< 27))
  { s with clk := 20000000000, now := 65000, hub := { s.hub with node := 7 } }
def only1 : State := (m .run).wr (R.RING_PORT_up 1) 1
def res : State := { m .run with time := { (m .run).time with resonator := true } }
def sts : List State := [otS 2, otS 3, { sv 2 0 0 with time := { (sv 2 0 0).time with tried := true } }, ((sv 2 0 0).wr R.TIM_STATUS_gm_node 4).wr R.TIM_SYNC_CFG_gateway_only 1, m .run, m .safe, B, thr (on (m .safe)), sv 0 0 0, sv 1 3 0, sv 1 2 0, sv 2 7 0, sv 2 3 0, sv 3 0 0, sv 4 0 0, sv 5 0 (5000 * 65536), pds pd, pds { pd with results := [1,2,3,4,5,6,7] }, pds { pd with fails := 7 }, pds { pd with fails := 3, results := [1] },
  (sv 2 0 0).wr R.TIM_SYNC_CFG_gm_backup 0, (sv 2 0 0).wr R.TIM_STATUS_gm_node 3, { m .run with time := { (m .run).time with starting := true, resonator := false } }, { B with time := { B.time with starting := true, resonator := false } },
  { late (m .run) with time := { (m .run).time with starting := false, resonator := false } }, { (late (m .run)).setLink 1 { lockSince := some 3 } with time := { (m .run).time with starting := false, resonator := false } }, spur 1, spur 0,
  sch 0, sch 0x12000000, sch 0x0000001E12000000, { sch 0 with time := { (sch 0).time with sched := [(0, some e1)] } }, { (sch 0).wr (R.TIM_SCHED_A_status 0) 1 with time := { (sch 0).time with sched := [(0, some { e1 with due := 1000010 })] } }, lch 6, lch 7,
  (tio 2 {}).wr R.TIM_STATUS_valid 1, { (tio 1 {}).wr R.TIM_STATUS_valid 1 with now := 2000000000 }, tio 1 { pulseEnd := some 19999999990, level := true }, tio 1 { pulseEnd := some 30000000000, level := true }, tio 4 {}, tio 4 { fifo := (List.range 16).map st }, tio 4 { fifo := [st 0], lost := true }] ++ [cyc 0 0 1500000, cyc 1 0 1500000, withShots, withCommits, only1, res, pour]
def at_f (i : Nat) : State := sts.getD i State.reset

theorem witness_PeerDelayIsMeasured :
    (∃ (s : State) (p : Fin 4) (f : Frame) (w : Word), s.coreUp = true ∧ s.ringPort p.val = true ∧ s.portDown p.val = false ∧
      f.ftype = 3 ∧ f.tinfo / 2 ^ 44 = 2 ∧ s.takesPeer f p.val = true ∧ PlainCore s 7 ∧ s.flowEntry 0 = none ∧ (s.admits
      p.val (s.rd (R.SWC_PORT_orig_class 7)) 1).isSome = true) ∧
    (∃ (s : State) (p : Fin 4) (f : Frame) (w : Word), s.takesPeer f p.val = false) ∧
    (∃ (s : State) (p : Fin 24) (f : Stored), s.outputIdle p.val = true ∧ p.val < 4 ∧ s.switch.frames = [f] ∧ (s.outp
      p.val).queue = [f.id] ∧ f.outs = [p.val] ∧ s.selectable f p.val = true ∧ s.frameStale f.frame = false ∧ s.eccMarks = []
      ∧ f.launch = none ∧ f.cut = false ∧ s.guardBlocks p.val f.cls (s.lineTime p.val f.frame.size) = false ∧ s.launchBlocks
      p.val f.cls (s.lineTime p.val f.frame.size) = false ∧ s.on R.SWC_CTRL_mirror = false ∧ f.ownTime 3 = true) ∧
    (∃ (s : State) (p : Fin 24) (f : Stored) (t : Word), s.outputIdle p.val = true ∧ p.val < 4 ∧ s.switch.frames = [f] ∧
      (s.outp p.val).queue = [f.id] ∧ f.outs = [p.val] ∧ s.selectable f p.val = true ∧ s.frameStale f.frame = false ∧
      s.eccMarks = [] ∧ f.launch = none ∧ f.cut = false ∧ s.guardBlocks p.val f.cls (s.lineTime p.val f.frame.size) = false ∧
      s.launchBlocks p.val f.cls (s.lineTime p.val f.frame.size) = false ∧ s.on R.SWC_CTRL_mirror = false ∧ f.ownTime 2 =
      true ∧ (s.pdelay p.val).pending = some (tseqOf f.frame, t)) ∧
    (∃ (s : State) (p : Fin 4), s.coreUp = true ∧ s.ringPort p.val = true ∧ (s.pdelay p.val).sentAt + logNs (s.rdInt
      R.TIM_SYNC_CFG_pdelay_log) ≤ s.clk) ∧
    (∃ (s : State) (p : Fin 4) (f : Frame) (t4 : Word) (t1 : Word) (d : PDelay), s.coreUp = true ∧ s.ringPort p.val = true ∧
      s.pdelay p.val = d ∧ d.pending = some (tseqOf f, t1) ∧ s.takesPeer f p.val = true ∧ f.ftype = 3 ∧ f.tinfo / 2 ^ 44 = 3
      ∧ d.results.length ≤ 7) ∧
    (∃ (s : State) (p : Fin 4) (f : Frame) (t4 : Word), (s.pdelay p.val).pending = none) ∧
    (∃ (s : State) (p : Fin 4) (d : PDelay) (x : Nat × Word), s.pdelay p.val = d ∧ d.pending = some x ∧ d.sentAt + 10000000 ≤
      s.clk ∧ s.asleep = false) :=
  ⟨⟨(at_f 2), 0, { w0 := 0x130003ff00000000#64, w1 := 0x0000000000000000#64, w2 := 0x0000000000000000#64, w3 := 0x8b28200000050000#64, payload := [], crc := 0x1b146a09#32 },
     0x00000000000f4240#64, by decide +kernel⟩,
   ⟨at_f 2, 0, { (syn 9 0) with w0 := 0 }, 0, by decide +kernel⟩,
   ⟨(at_f 1), 1, { id := 4, frame := { w0 := 0x130003ff00000000#64, w1 := 0x0000000800000000#64, w2 := 0x0000000000000000#64, w3 := 0x6876300000050000#64, payload := (List.replicate 8 0x00#8), crc := 0xdde31601#32 }, leaves := [9], ingress := 7, cls := 1, outs := [1], start := 0x00000000000f3e58#64, fromReserve := [], held := [], notBefore := 0, launch := none, answers := none, deferred := [], waited := [], claim := none, exchanged := none, cut := false },
     by decide +kernel⟩,
   ⟨(at_f 0), 1, { id := 4, frame := { w0 := 0x130003ff00000000#64, w1 := 0x0000000800000000#64, w2 := 0x0000000000000000#64, w3 := 0x7a47200000050000#64, payload := (List.replicate 8 0x00#8), crc := 0x7612513b#32 }, leaves := [9], ingress := 7, cls := 1, outs := [1], start := 0x00000000000f3e58#64, fromReserve := [], held := [], notBefore := 0, launch := none, answers := none, deferred := [], waited := [], claim := none, exchanged := none, cut := false },
     0x00000000000dbba0#64, by decide +kernel⟩,
   ⟨(at_f 0), 0, by decide +kernel⟩,
   ⟨(at_f 0), 0, { w0 := 0x130003ff00000000#64, w1 := 0x0000000800000000#64, w2 := 0x0000000000000000#64, w3 := 0x6876300000050000#64, payload := ([0x64#8] ++ List.replicate 7 0x00#8), crc := 0x8942b840#32 },
     0x00000000000f4240#64, 0x00000000000dbba0#64, { pending := some (5, 0x00000000000dbba0#64), sentAt := 0, results := [], fails := 0 },
     by decide +kernel⟩,
   ⟨(at_f 0), 2, { w0 := 0x130003ff00000000#64, w1 := 0x0000001000000000#64, w2 := 0x0000000000000000#64, w3 := 0xf3c1100000000000#64, payload := ([0x40#8, 0x42#8, 0x0f#8] ++ List.replicate 9 0x00#8 ++ [0x01#8, 0x05#8, 0x25#8, 0x00#8]), crc := 0xd83b45aa#32 },
     0x00000000000f4240#64, by decide +kernel⟩,
   ⟨(at_f 0), 0, { pending := some (5, 0x00000000000dbba0#64), sentAt := 0, results := [], fails := 0 }, (5,
     0x00000000000dbba0#64), by decide +kernel⟩⟩

theorem witness_TheServoAndTheCounterFollowTheirSources :
    (∃ (s : State) (p : Fin 4) (f : Frame) (t : Word) (o : Int), s.coreUp = true ∧ p.val < 2 ∧ f.ftype = 3 ∧ f.tinfo / 2 ^ 44
      = 1 ∧ f.src ≠ s.hub.node ∧ f.srcRing = s.rd R.RING_CFG_ring ∧ s.loaded.sections.contains 9 = true ∧ f.src = s.rd
      R.TIM_SYNC_CFG_gm_primary ∧ (s.rd R.TIM_STATUS_gm_node = 0 ∨ s.rd R.TIM_STATUS_gm_node = f.src) ∧ s.on
      R.TIM_SYNC_CFG_gateway_only = false ∧ s.on (R.TIM_PDELAY_valid p.val) = true ∧ o = s.syncOffset p.val f t) ∧
    (∃ (s : State) (p : Fin 4) (f : Frame) (t : Word), s.coreUp = true ∧ p.val < 2 ∧ f.ftype = 3 ∧ f.tinfo / 2 ^ 44 = 1 ∧
      f.src ≠ s.hub.node ∧ f.srcRing = s.rd R.RING_CFG_ring ∧ s.loaded.sections.contains 9 = true ∧ f.src ≠ s.rd
      R.TIM_SYNC_CFG_gm_primary ∧ f.src ≠ s.rd R.TIM_SYNC_CFG_gm_backup) ∧
    (∃ (s : State), s.coreUp = true ∧ 3 * s.syncNs ≤ s.clk - s.time.lastHeard ∧ s.loaded.sections.contains 9 = true ∧ s.rd
      R.TIM_SYNC_CFG_gm_backup ≠ 0 ∧ (s.on R.TIM_SYNC_CFG_gateway_only = false ∨ s.time.tried = false) ∧ (s.rd
      R.TIM_STATUS_gm_node = s.rd R.TIM_SYNC_CFG_gm_primary ∨ (s.rd R.TIM_STATUS_gm_node = s.rd R.TIM_SYNC_CFG_gm_backup ∧
      s.on R.TIM_SYNC_CFG_gateway_only = true ∧ s.rd R.TIM_SYNC_CFG_gm_primary ≠ 0))) ∧
    (∃ (s : State), s.coreUp = true ∧ 3 * s.syncNs ≤ s.clk - s.time.lastHeard ∧ 3 * s.syncNs ≤ s.clk - s.time.lastSync ∧ s.rd
      R.TIM_SYNC_CFG_gm_backup = 0 ∧ 1 ≤ s.time.servo ∧ s.time.servo ≤ 3) ∧
    (∃ (s : State), s.clk - s.time.lastHeard < 3 * s.syncNs) ∧
    (∃ (s : State) (r : Requester), Grants s r R.TIM_CTRL .write ∧ r.level = .supervisor ∧ s.time.servo = 5) ∧
    (∃ (s : State) (r : Requester), Grants s r R.TIM_CTRL .write ∧ s.time.servo ≠ 5) ∧
    (∃ (s : State), s.recovered 0 = true ∧ s.hub.mode ≠ .hibernate) ∧
    (∃ (s : State), s.recovered 0 = false ∧ s.recovered 1 = true ∧ s.hub.mode ≠ .hibernate) ∧
    (∃ (s : State), s.hub.mode ≠ .hibernate ∧ s.hub.held = false ∧ s.power.hib = none) ∧
    (∃ (s : State), s.time.starting = true ∧ s.time.resonator = false ∧ s.time.resStart + 5000000 ≤ s.clk ∧ s.hub.mode ≠
      .hibernate ∧ s.recovered 0 = true) ∧
    (∃ (s : State), s.time.starting = true ∧ s.clk < s.time.resStart + 5000000) ∧
    (∃ (s : State), s.time.resonator = false ∧ s.time.starting = false ∧ s.recovered 0 = false ∧ s.recovered 1 = false ∧
      s.time.lost = false) ∧
    (∃ (s : State), (s.time.resonator = true ∨ s.time.lost = true)) :=
  ⟨⟨(at_f 0), 0, { w0 := 0x130003ff00000000#64, w1 := 0x0000001000000000#64, w2 := 0x0000000000000000#64, w3 := 0xf3c1100000000000#64, payload := ([0x40#8, 0x42#8, 0x0f#8] ++ List.replicate 9 0x00#8 ++ [0x01#8, 0x05#8, 0x25#8, 0x00#8]), crc := 0xd83b45aa#32 },
     0x00000000000f4240#64, -65536, by decide +kernel⟩,
   ⟨(at_f 0), 0, { w0 := 0x130009ff00000000#64, w1 := 0x0000001000000000#64, w2 := 0x0000000000000000#64, w3 := 0x754b100000000000#64, payload := (List.replicate 12 0x00#8 ++ [0x01#8, 0x05#8, 0x25#8, 0x00#8]), crc := 0xb8d1c249#32 },
     0x00000000000f4240#64, by decide +kernel⟩,
   ⟨(at_f 3), by decide +kernel⟩,
   ⟨(at_f 20), by decide +kernel⟩,
   ⟨(at_f 4), by decide +kernel⟩,
   ⟨(at_f 15), { master := 0, level := Level.supervisor }, by decide +kernel⟩,
   ⟨(at_f 0), { master := 0, level := Level.supervisor }, by decide +kernel⟩,
   ⟨(at_f 0), by decide +kernel⟩,
   ⟨(at_f 46), by decide +kernel⟩,
   ⟨(at_f 0), by decide +kernel⟩,
   ⟨(at_f 0), by decide +kernel⟩,
   ⟨(at_f 4), by decide +kernel⟩,
   ⟨(at_f 24), by decide +kernel⟩,
   ⟨(at_f 47), by decide +kernel⟩⟩

theorem witness_SpurPortsSpeakGptp :
    (∃ (s : State) (p : Fin 2), s.gptpPort p.val = true ∧ s.on R.TIM_STATUS_valid = true ∧ s.portDown (2 + p.val) = false ∧
      ((∀ x, mget none s.time.gptp p.val = some x → x.sentAt + logNs (s.rdInt R.TIM_SYNC_CFG_gptp_log) ≤ s.clk))) ∧
    (∃ (s : State) (p : Fin 2), s.gptpPort p.val = true ∧ s.on R.TIM_STATUS_valid = true ∧ s.portDown (2 + p.val) = false ∧
      ((∀ x, mget none s.time.announce p.val = some x → x.sentAt + 1000000000 ≤ s.clk))) ∧
    (∃ (s : State) (p : Fin 2), s.gptpPort p.val = true) ∧
    (∃ (s : State) (p : Fin 2), s.on R.TIM_STATUS_valid = false) :=
  ⟨⟨(at_f 26), 0, by decide +kernel⟩,
   ⟨(at_f 26), 0, by decide +kernel⟩,
   ⟨(at_f 26), 0, by decide +kernel⟩,
   ⟨(at_f 0), 0, by decide +kernel⟩⟩

theorem witness_ScheduledActionsRunAtTheirTime :
    (∃ (s : State) (r : Requester) (i : Fin 32) (t : BitVec 40), Grants s r (R.TIM_SCHED_T i.val) .write ∧ s.schedActs
      (s.word (R.TIM_SCHED_A i.val)) = true ∧ 0 ≤ sdiff40 t.toNat s.now) ∧
    (∃ (s : State) (r : Requester) (i : Fin 32) (t : BitVec 40), Grants s r (R.TIM_SCHED_T i.val) .write ∧ s.rd
      (R.TIM_SCHED_A_action i.val) = 1 ∧ s.rd (R.TIM_SCHED_A_target i.val) < 4 ∧ s.rd (R.TIM_IO_function (s.rd
      (R.TIM_SCHED_A_target i.val))) = 3 ∧ sdiff40 t.toNat s.now < 0 ∧ -(sdiff40 t.toNat s.now) < s.rd
      (R.TIM_SCHED_A_late_window i.val)) ∧
    (∃ (s : State) (r : Requester) (i : Fin 32) (t : BitVec 40), Grants s r (R.TIM_SCHED_T i.val) .write ∧ sdiff40 t.toNat
      s.now < 0 ∧ s.rd (R.TIM_SCHED_A_late_window i.val) ≤ -(sdiff40 t.toNat s.now)) ∧
    (∃ (s : State) (r : Requester) (i : Fin 32), Grants s r (R.TIM_SCHED_T i.val) .write ∧ s.rd (R.TIM_SCHED_A_status i.val)
      = 1) ∧
    (∃ (s : State) (i : Fin 32) (e : Sched), mget none s.time.sched i.val = some e ∧ 0 ≤ s.ticksPast e.due ∧ s.asleep = false
      ∧ s.dueEntries = [(i.val, e)] ∧ s.schedActs e.fields = true ∧ fget e.fields 28 4 = 3) ∧
    (∃ (s : State) (i : Fin 32), s.asleep = false ∧ s.dueEntries.any (fun x => x.1 == i.val) = true) ∧
    (∃ (s : State), s.time.sched.Pairwise (fun x y => x.1 < y.1)) ∧
    (∃ (s : State) (i : Fin 32), (s.asleep = true ∨ s.dueEntries.any (fun x => x.1 == i.val) = false)) ∧
    (∃ (s : State) (r : Requester) (i : Fin 4) (n : BitVec 6), Grants s r (R.TIM_LAUNCH_CTL i.val) .write) ∧
    (∃ (s : State) (i : Fin 4) (due : Word) (f : Frame), s.armedFor i.val = some due ∧ -2000 ≤ tdiff s.now due ∧
      s.launchFrame i.val = f ∧ f.ftype = 1 ∧ f.dst = 0 ∧ s.flowEntry f.flow = none ∧ s.rd (R.TIM_LAUNCH_CTL_words i.val) = 4
      + (f.length + 7) / 8 ∧ s.coreUp = true ∧ PlainCore s 7 ∧ (s.admits 5 f.tclass f.leaves).isSome = true) ∧
    (∃ (s : State) (i : Fin 4) (due : Word), s.armedFor i.val = some due ∧ -2000 ≤ tdiff s.now due ∧ s.asleep = false ∧ s.rd
      (R.TIM_LAUNCH_CTL_words i.val) ≠ 4 + ((s.launchFrame i.val).length + 7) / 8) :=
  ⟨⟨(at_f 0), { master := 0, level := Level.supervisor }, 0, 0x00000f4240#40, by decide +kernel⟩,
   ⟨(at_f 30), { master := 0, level := Level.supervisor }, 0, 0x00000f4236#40, by decide +kernel⟩,
   ⟨(at_f 0), { master := 0, level := Level.supervisor }, 0, 0x00000f4236#40, by decide +kernel⟩,
   ⟨(at_f 32), { master := 0, level := Level.supervisor }, 0, by decide +kernel⟩,
   ⟨(at_f 31), 0, { due := 0x00000000000f4236#64, fields := 0x0000000032000000#64 }, by decide +kernel⟩,
   ⟨(at_f 31), 0, by decide +kernel⟩,
   ⟨at_f 31, by decide +kernel⟩,
   ⟨(at_f 0), 0, by decide +kernel⟩,
   ⟨(at_f 0), { master := 0, level := Level.supervisor }, 0, 0x00#6, by decide +kernel⟩,
   ⟨(at_f 33), 0, 0x00000000000f4628#64, { w0 := 0x1100000000000000#64, w1 := 0x0000001000000000#64, w2 := 0x0000000000000000#64, w3 := 0x0000000000000000#64, payload := (List.replicate 16 0x00#8), crc := 0x00000000#32 },
     by decide +kernel⟩,
   ⟨(at_f 34), 0, 0x00000000000f4628#64, by decide +kernel⟩⟩

theorem witness_TimeIoPinsFollowTheirFunction :
    (∃ (s : State) (k : Fin 4), s.coreUp = true ∧ s.rd (R.TIM_IO_function k.val) = 2 ∧ s.on R.TIM_STATUS_valid = true ∧
      (s.tio k.val).old = none ∧ s.rd (R.TIM_IO_PER_period k.val) ≠ 0 ∧ ((s.now.toNat : Int) - (s.rd (R.TIM_IO_PER_phase
      k.val) : Int)) % (s.rd (R.TIM_IO_PER_period k.val) : Int) = 0) ∧
    (∃ (s : State) (k : Fin 4), s.coreUp = true ∧ s.rd (R.TIM_IO_function k.val) = 1 ∧ s.on R.TIM_STATUS_valid = true ∧
      (s.tio k.val).old = none ∧ ((s.now.toNat : Int) - (s.rd (R.TIM_IO_PER_phase k.val) : Int)) % 1000000000 = 0) ∧
    (∃ (s : State) (k : Fin 4) (t : Nat), (s.tio k.val).pulseEnd = some t ∧ t ≤ s.clk ∧ s.asleep = false) ∧
    (∃ (s : State) (k : Fin 4) (t : Nat), (s.tio k.val).pulseEnd = some t ∧ s.clk < t) ∧
    (∃ (s : State) (k : Fin 4) (rising : Bool) (t : Word), s.coreUp = true ∧ s.rd (R.TIM_IO_function k.val) = 4 ∧ s.bitOn
      (R.TIM_IO_edges k.val) (if rising = true then 0 else 1) = true ∧ (s.tio k.val).fifo.length < 16) ∧
    (∃ (s : State) (k : Fin 4) (rising : Bool) (t : Word), s.coreUp = true ∧ s.rd (R.TIM_IO_function k.val) = 4 ∧ s.bitOn
      (R.TIM_IO_edges k.val) (if rising = true then 0 else 1) = true ∧ 16 ≤ (s.tio k.val).fifo.length) ∧
    (∃ (s : State) (r : Requester) (k : Fin 4) (x : Stamp) (rest : List Stamp), Grants s r (R.TIM_CAPTURE k.val) .read ∧
      (s.tio k.val).fifo = x :: rest) ∧
    (∃ (s : State) (r : Requester) (k : Fin 4), Grants s r (R.TIM_CAPTURE k.val) .read ∧ (s.tio k.val).fifo = []) ∧
    (∃ (s : State) (r : Requester) (k : Fin 4) (v : Word), Grants s r (R.TIM_IO_PER k.val) .write ∧ s.loaded.tuning = [] ∧
      s.rd (R.TIM_IO_function k.val) = 2 ∧ v ≠ s.word (R.TIM_IO_PER k.val) ∧ (s.tio k.val).old = none ∧ timeIoOk 2 (s.rd
      (R.TIM_IO_edges k.val)) (s.rd (R.TIM_IO_width k.val)) (fget v 32 32) (fget v 0 32) = true) :=
  ⟨⟨(at_f 35), 2, by decide +kernel⟩,
   ⟨(at_f 36), 2, by decide +kernel⟩,
   ⟨(at_f 37), 2, 19999999990, by decide +kernel⟩,
   ⟨(at_f 38), 2, 30000000000, by decide +kernel⟩,
   ⟨(at_f 39), 2, true, 0x00000000000f4240#64, by decide +kernel⟩,
   ⟨(at_f 40), 2, true, 0x00000000000f4240#64, by decide +kernel⟩,
   ⟨(at_f 40), { master := 0, level := Level.supervisor }, 2, { rising := true, lost := false, time := 0x0000000000000000#64 },
     [{ rising := true, lost := false, time := 0x0000000000000001#64 }, { rising := true, lost := false, time := 0x0000000000000002#64 },
     { rising := true, lost := false, time := 0x0000000000000003#64 }, { rising := true, lost := false, time := 0x0000000000000004#64 },
     { rising := true, lost := false, time := 0x0000000000000005#64 }, { rising := true, lost := false, time := 0x0000000000000006#64 },
     { rising := true, lost := false, time := 0x0000000000000007#64 }, { rising := true, lost := false, time := 0x0000000000000008#64 },
     { rising := true, lost := false, time := 0x0000000000000009#64 }, { rising := true, lost := false, time := 0x000000000000000a#64 },
     { rising := true, lost := false, time := 0x000000000000000b#64 }, { rising := true, lost := false, time := 0x000000000000000c#64 },
     { rising := true, lost := false, time := 0x000000000000000d#64 }, { rising := true, lost := false, time := 0x000000000000000e#64 },
     { rising := true, lost := false, time := 0x000000000000000f#64 }], by decide +kernel⟩,
   ⟨(at_f 0), { master := 0, level := Level.supervisor }, 0, by decide +kernel⟩,
   ⟨(at_f 35), { master := 0, level := Level.supervisor }, 2, 0x000001f400000000#64, by decide +kernel⟩⟩

theorem witness_CupsAreSampledAndApplied :
    (∃ (s : State) (i : Fin 4) (n : Nat) (j : Nat), s.pointsRun i.val = true ∧ s.cycleAt i.val s.now.toNat = n ∧ 1 ≤ n ∧
      s.samplePoint i.val n = s.now.toNat ∧ s.samplePoint i.val (n - 1) + 2 ≤ s.now.toNat ∧ s.samplePoint i.val (n - 2) + 2 ≤
      s.now.toNat ∧ (s.overOf false i.val).has n = false ∧ s.cups false i.val = [j] ∧ CleanMem s) ∧
    (∃ (s : State) (i : Fin 4) (j : Nat) (a : Shot) (rest : List Shot), s.cups false i.val = [j] ∧ (mget {} s.cyc.snaps
      j).shots = a :: rest) ∧
    (∃ (s : State) (i : Fin 4) (n : Nat) (j : Nat) (b : List Byte) (c : List Byte), s.pointsRun i.val = true ∧ s.cycleAt
      i.val s.now.toNat = n ∧ 1 ≤ n ∧ s.applyPoint i.val n = s.now.toNat ∧ s.applyPoint i.val (n - 1) + 2 ≤ s.now.toNat ∧
      s.applyPoint i.val (n - 2) + 2 ≤ s.now.toNat ∧ (s.overOf true i.val).has n = false ∧ s.cups true i.val = [j] ∧
      s.cupGated j = false ∧ s.cupsApply = true ∧ s.rd (R.CYC_CUP_kind j) ≠ 1 ∧ CleanMem s ∧ s.cyc.commits = [⟨i.val, 1, n,
      [(j, c)]⟩, ⟨i.val, 0, n, [(j, b)]⟩] ∧ cupGood n b = true) ∧
    (∃ (s : State) (i : Fin 4) (n : Nat) (j : Nat), s.pointsRun i.val = true ∧ s.cycleAt i.val s.now.toNat = n ∧ 1 ≤ n ∧
      s.applyPoint i.val n = s.now.toNat ∧ s.applyPoint i.val (n - 1) + 2 ≤ s.now.toNat ∧ s.applyPoint i.val (n - 2) + 2 ≤
      s.now.toNat ∧ (s.overOf true i.val).has n = false ∧ s.cups true i.val = [j] ∧ s.cupGated j = false ∧ s.cupsApply = true
      ∧ s.cyc.commits = [] ∧ mget 0 s.cyc.misses j + 1 < s.rd (R.CYC_STATUS_fresh_limit i.val)) ∧
    (∃ (s : State) (rx : RxFrame) (n : Nat) (i : Nat), Hears s rx ∧ rx.port.val < 2 ∧ s.headFault rx.port.val rx.frame = none
      ∧ s.tailFault rx = none ∧ s.servesPour rx.frame rx.port.val = true ∧ s.cupsApply = true ∧ i = rx.frame.pourStream ∧
      s.pourCycleOf rx.frame rx.tail = n ∧ rx.tail.toNat + 1000 ≤ s.applyPoint i n ∧ s.applyPoint i n ≤ rx.tail.toNat + 2 *
      s.cycleNs i ∧ s.outCups rx.frame ≠ [] ∧ s.committedAt i n rx.port.val = none) :=
  ⟨by refine ⟨(at_f 42), 0, 1, 5, ?_, ?_, ?_, ?_, ?_, ?_, ?_, ?_, clean rfl⟩ <;> decide +kernel,
   ⟨(at_f 44), 0, 5, { data := [0x01#8, 0x02#8], cycle := 1, at_ := 0x000000000016e360#64, done := none }, [],
     by decide +kernel⟩,
   by refine ⟨(at_f 45), 0, 1, 5, [0x80#8, 0x01#8, 0x09#8, 0x08#8], [0x80#8, 0x01#8, 0x09#8, 0x08#8], ?_, ?_, ?_, ?_, ?_, ?_,
     ?_, ?_, ?_, ?_, ?_, clean rfl, ?_⟩ <;> decide +kernel,
   ⟨(at_f 43), 0, 1, 5, by decide +kernel⟩,
   ⟨(at_f 43), { port := 0, frame := { w0 := 0x12d0030700070000#64, w1 := 0x0000002000000000#64, w2 := 0x0000000000000000#64, w3 := 0x126a000000000000#64, payload := ([0x00#8, 0xfc#8] ++ List.replicate 30 0x05#8), crc := 0xb80ebf2e#32 }, start := 0x000000000000ea60#64, tail := 0x000000000000fde8#64, poisoned := false, aborted := false, mac := 0x000000000000#48, etherType := 0x0000#16 },
     0, 0, by decide +kernel⟩⟩

end Wf

/-! #### Of pins and bay FIFOs -/

namespace Wg

def late (s : State) : State := { s with clk := 20000000000, now := 1000000 }
def on (s : State) : State := (((late (lk s)).wr (R.SIV_ENTRY_default 10) 1).wr (R.SIV_ENTRY_default 11) 1)
def thr (s : State) : State := (List.range 24).foldl (fun (s : State) p => s.wr (R.SWC_ADMIT_lo p) 64) s
def B (x : Mode) : State := thr (on (m x))
def pins (s : State) (mode own safe inv : Nat) : State := [0,1,9,383].foldl (fun (s : State) g => (((s.wr (R.BAY_PIN_mode g) mode).wr (R.BAY_PIN_owner g) own).wr (R.BAY_PIN_safe g) safe).wr (R.BAY_PIN_invert g) inv) s
def eng (s : State) : State := let s : State := (s.wr (R.INF_CTX_CFG_enabled 1 3) 1).setWord (R.INF_MAP 1 12) 0xC000C001C0098009
  s.setCtx 1 3 { st := .running }
def cur (s : State) (o : Drive) (p : Drive) (lim : Option Nat) (k : Bool) : State := [0,1,9,383].foldl (fun (s : State) g => s.setPin g { owner := o, pad := p, limitSince := lim, kept := k }) s
def ovl (s : State) : State := (s.wr (R.BAY_PINSTAT_overload 0) 0x3).wr (R.BAY_PINSTAT_overload 1) 0xFF
def w1 : FWord := { data := 77, sop := true, eop := true }
def w2 : FWord := { data := 78, sop := true }
def f1 : Fifo := { words := [w1], released := true }
def fl : List Fifo := [f1, { words := [w2, { data := 5 }], released := true, opened := true }, { words := [w2], opened := true }, { words := [{ data := 5 }], taken := true, opened := true, released := true }, { words := List.replicate 64 w1, released := true }, { words := w2 :: List.replicate 63 { data := 5 }, opened := true, released := true }, {}]
def ff (s : State) (f : Fifo) : State := { s with bays := { s.bays with rx := [(0, f), (47, f)], tx := [(0, f), (47, f)] } }
def rt (s : State) : State := ((((s.wr (R.BAY_ROUTE_rx_consumer 0) 1).wr (R.BAY_ROUTE_tx_producer 0) 1).wr (R.BAY_ROUTE_dst_node 0) 9).wr (R.BAY_ROUTE_flow 0) 3)
def seg (n : Nat) (ws : List FWord) (ps ss : Nat) : Frame := Head.frame { ftype := 5, src := 3, dst := 7, flow := 3 } (wordBytes (segHeader n ws ps ss) ++ (ws.map (·.data)).flatMap wordBytes)
def s1 : Frame := seg 0 [w1] 5 0
def s2 : Frame := seg 0 (w2 :: List.replicate 63 { data := 5 }) 5 0
def hd (s : State) (f : Frame) (t : Nat) : State := { s with bays := { s.bays with held := [(0, some ⟨f, t⟩)] } }
def sts : List State := ([B .run, pins (B .run) 3 1 1 0, pins (B .run) 5 1 2 1, pins (B .safe) 3 1 2 0, pins (B .safe) 3 1 3 1, pins (eng (B .run)) 3 1 2 0, pins (eng (B .run)) 6 0 2 1, pins (eng (B .run)) 1 0 2 1, cur (pins (B .run) 3 0 3 0) .high .high (some 5) false, cur (pins (B .run) 8 0 0 1) .high .low (some 19999999990) false,
  ovl (cur (pins (B .run) 3 2 0 1) .high .released none false), ovl (cur (pins (B .run) 4 2 0 0) .high .released none true), ovl (cur (pins (B .safe) 4 2 0 0) .high .released none false), cur (pins (B .run) 3 1 2 1) .low .high none true, (pins (B .run) 3 1 1 0).wr R.PWR_STATUS_gated 1, pins (B .island) 3 1 1 0, pins (B .doze) 4 1 1 0, (pins (B .run) 4 1 1 0).wr R.KET_FORCE_forced 3]
  ++ fl.map (ff (B .run)) ++ (fl.map (ff (B .run))).map (fun (s : State) => s.wr (R.BAY_TXTAG_tags 0) 3) ++ (fl.map (ff (B .run))).map (fun (s : State) => s.wr (R.BAY_TXTAG_tags 0) 4) ++ fl.map (fun f => rt (ff (B .run) f)) ++ [hd (rt (B .run)) s1 5, hd (rt (B .run)) s2 5, hd (rt (B .run)) s1 19999999990, ff (hd (rt (B .run)) s1 5) { words := List.replicate 64 w1, released := true }]) ++ [rt (ff (B .run) f1), rt (B .run), rt (ff (B .run) { words := List.replicate 64 w1, released := true }), ((ff (B .run) { words := List.replicate 64 w1, released := true }).wr (R.BAY_TXTAG_tags 0) 1), (pins (B .run) 1 0 2 1).wr (R.BAY_PIN_filter 0) 1000]
def at_g (i : Nat) : State := sts.getD i State.reset

theorem witness_PinsStampEdgesAndTakeTheirDriveStates :
    (∃ (s : State) (g : Fin 384) (level : Bool) (t : Word), g.val < s.nPins ∧ s.acceptedLevel g.val ≠ level ∧ s.ownLine g.val
      = none ∧ s.pinMode g.val ≠ 0 ∧ ((s.pinMode g.val = 1 ∨ s.pinMode g.val = 2 → (s.rd (R.BAY_PIN_filter g.val) * 1000 :
      Int) ≤ tdiff s.now t)) ∧ s.pairOdd g.val = false ∧ s.groupGated (groupOfPin g.val) = false ∧ s.asleep = false) ∧
    (∃ (s : State) (g : Fin 384) (level : Bool) (t : Word), (s.pinMode g.val = 1 ∨ s.pinMode g.val = 2) ∧ tdiff s.now t <
      (s.rd (R.BAY_PIN_filter g.val) * 1000 : Int)) ∧
    (∃ (s : State) (g : Fin 384) (level : Bool) (t : Word), (s.ownLine g.val).isSome = true) ∧
    (∃ (s : State) (g : Fin 384), s.limits g.val = true) ∧
    (∃ (s : State) (g : Fin 384), s.limits g.val = true) ∧
    (∃ (s : State) (g : Fin 384) (t : Nat), s.limits g.val = true ∧ (s.pin g.val).limitSince = some t ∧ t + 1000000 ≤ s.clk) ∧
    (∃ (s : State) (g : Fin 384) (t : Nat), (s.pin g.val).limitSince = some t ∧ s.clk < t + 1000000) ∧
    (∃ (s : State) (r : Requester) (n : Fin 48) (mask : Byte), Grants s r (R.BAY_PINSTAT n.val) .write) ∧
    (∃ (s : State) (r : Requester) (n : Fin 48) (v : Word), Grants s r (R.BAY_OUT n.val) .write) :=
  ⟨⟨(at_g 1), 0, true, 0x0000000000000005#64, by decide +kernel⟩,
   ⟨(at_g 54), 0, true, 0x00000000000f423f#64, by decide +kernel⟩,
   ⟨cur (pins (B .run) 3 1 2 1) .high .high none true, 1, false, 5, by decide +kernel⟩,
   ⟨(at_g 1), 0, by decide +kernel⟩,
   ⟨(at_g 1), 0, by decide +kernel⟩,
   ⟨(at_g 8), 0, 5, by decide +kernel⟩,
   ⟨(at_g 9), 0, 19999999990, by decide +kernel⟩,
   ⟨(at_g 0), { master := 0, level := Level.supervisor }, 0, 0x01#8, by decide +kernel⟩,
   ⟨(at_g 0), { master := 0, level := Level.supervisor }, 0, 0x0000000000000005#64, by decide +kernel⟩⟩

theorem witness_EntryToSafeDrivesTheSafeValues :
    ∃ (s : State) (r : ModeReq), Asks s r ∧ s.hub.mode = .run :=
  ⟨(at_g 0), { who := { master := 0, level := Level.supervisor }, raced := false }, by decide +kernel⟩

theorem witness_BayFifosPushPopAndFlush :
    (∃ (s : State) (r : Requester) (n : Fin 48) (w : FWord) (rest : List FWord), Grants s r (R.BAY_RXPOP n.val) .read ∧ (s.rx
      n.val).words = w :: rest ∧ (s.rx n.val).released = true ∧ w.dataEcc = .clean ∧ w.tagEcc = .clean) ∧
    (∃ (s : State) (r : Requester) (n : Fin 48), Grants s r (R.BAY_RXPOP n.val) .read ∧ ((s.rx n.val).words = [] ∨ (s.rx
      n.val).released = false)) ∧
    (∃ (s : State) (r : Requester) (n : Fin 48) (v : Word) (tags : Nat), Grants s r (R.BAY_TXPUSH n.val) .write ∧ s.rd
      (R.BAY_TXTAG_tags n.val) = tags ∧ (bitAt tags 0 = true ∨ (s.tx n.val).opened = true) ∧ ((bitAt tags 0 = true → (s.tx
      n.val).opened = false)) ∧ (s.tx n.val).skipPush = false ∧ (s.tx n.val).words.length < 64) ∧
    (∃ (s : State) (r : Requester) (n : Fin 48) (v : Word), Grants s r (R.BAY_TXPUSH n.val) .write ∧ bitAt (s.rd
      (R.BAY_TXTAG_tags n.val)) 0 = false ∧ (s.tx n.val).opened = false ∧ (s.tx n.val).skipPush = false) ∧
    (∃ (s : State) (r : Requester) (n : Fin 48) (v : Word), Grants s r (R.BAY_TXPUSH n.val) .write ∧ bitAt (s.rd
      (R.BAY_TXTAG_tags n.val)) 0 = true ∧ (s.tx n.val).words.length = 64) ∧
    (∃ (s : State) (r : Requester) (n : Fin 48), Grants s r (R.BAY_RXCTL n.val) .write) ∧
    (∃ (s : State) (r : Requester) (n : Fin 48), Grants s r (R.BAY_TXCTL n.val) .write) ∧
    (∃ (f : Fifo) (ct : Nat), (f.released = false ∨ f.words = [])) ∧
    (∃ (f : Fifo) (g : Fifo) (ct : Nat) (w : FWord), f.push ct w = (g, .stored)) ∧
    (∃ (f : Fifo) (g : Fifo) (ct : Nat) (n : Nat) (w : FWord) (d : FWord) (rest : List FWord), f.words = w :: rest ∧
      w.dataEcc = .clean ∧ w.tagEcc = .clean ∧ f.pop ct = some (g, d, n)) :=
  ⟨⟨(at_g 18), { master := 0, level := Level.supervisor }, 0, { data := 0x000000000000004d#64, sop := true, eop := true, err := false, flushed := false, dataEcc := Ecc.clean, tagEcc := Ecc.clean },
     [], by decide +kernel⟩,
   ⟨(at_g 0), { master := 0, level := Level.supervisor }, 0, by decide +kernel⟩,
   ⟨(at_g 19), { master := 0, level := Level.supervisor }, 0, 0x0000000000000005#64, 0, by decide +kernel⟩,
   ⟨(at_g 0), { master := 0, level := Level.supervisor }, 0, 0x0000000000000005#64, by decide +kernel⟩,
   ⟨(at_g 29), { master := 0, level := Level.supervisor }, 0, 0x0000000000000005#64, by decide +kernel⟩,
   ⟨(at_g 0), { master := 0, level := Level.supervisor }, 0, by decide +kernel⟩,
   ⟨(at_g 0), { master := 0, level := Level.supervisor }, 0, by decide +kernel⟩,
   ⟨{ words := [{ data := 0x000000000000004e#64, sop := true, eop := false, err := false, flushed := false, dataEcc := Ecc.clean, tagEcc := Ecc.clean }], opened := true, taken := false, released := false, skipPush := false, pseq := 0x0000#16, sseq := 0x0000#16, dropping := false, markDue := false, partPushed := false },
     0, by decide +kernel⟩,
   ⟨{ words := [{ data := 0x000000000000004e#64, sop := true, eop := false, err := false, flushed := false, dataEcc := Ecc.clean, tagEcc := Ecc.clean }], opened := true, taken := false, released := false, skipPush := false, pseq := 0x0000#16, sseq := 0x0000#16, dropping := false, markDue := false, partPushed := false },
     { words := [{ data := 0x000000000000004e#64, sop := true, eop := false, err := false, flushed := false, dataEcc := Ecc.clean, tagEcc := Ecc.clean }, { data := 0x0000000000000005#64, sop := false, eop := false, err := false, flushed := false, dataEcc := Ecc.clean, tagEcc := Ecc.clean }], opened := true, taken := false, released := true, skipPush := false, pseq := 0x0000#16, sseq := 0x0000#16, dropping := false, markDue := false, partPushed := false },
     1, { data := 0x0000000000000005#64, sop := false, eop := false, err := false, flushed := false, dataEcc := Ecc.clean, tagEcc := Ecc.clean },
     by decide +kernel⟩,
   ⟨{ words := [{ data := 0x000000000000004d#64, sop := true, eop := true, err := false, flushed := false, dataEcc := Ecc.clean, tagEcc := Ecc.clean }], opened := false, taken := false, released := true, skipPush := false, pseq := 0x0000#16, sseq := 0x0000#16, dropping := false, markDue := false, partPushed := false },
     { words := [], opened := false, taken := false, released := false, skipPush := false, pseq := 0x0000#16, sseq := 0x0000#16, dropping := false, markDue := false, partPushed := false },
     0, 0, { data := 0x000000000000004d#64, sop := true, eop := true, err := false, flushed := false, dataEcc := Ecc.clean, tagEcc := Ecc.clean },
     { data := 0x000000000000004d#64, sop := true, eop := true, err := false, flushed := false, dataEcc := Ecc.clean, tagEcc := Ecc.clean },
     [], by decide +kernel⟩⟩

theorem witness_BaySegmentsTravelWhole :
    (∃ (s : State) (n : Fin 48) (w : FWord), s.on (R.BAY_ROUTE_rx_consumer n.val) = true ∧ (s.rx n.val).words = [w] ∧ (s.rx
      n.val).released = true ∧ w.sop = true ∧ w.eop = true ∧ w.dataEcc = .clean ∧ w.tagEcc = .clean ∧ s.groupGated (n.val /
      12) = false ∧ s.coreUp = true ∧ n.val < s.nBays ∧ s.isCoupler = false ∧ s.rd (R.BAY_ROUTE_dst_node n.val) ≠ 0 ∧
      s.flowEntry (s.rd (R.BAY_ROUTE_flow n.val)) = none ∧ PlainCore s (10 + n.val / 4) ∧ s.portDown 0 = false ∧ (s.admits 0
      (s.rd (R.SWC_PORT_orig_class (10 + n.val / 4))) 1).isSome = true) ∧
    (∃ (s : State) (p : Fin 12) (f : Frame), s.portPresent (10 + p.val) = true ∧ s.groupGated (p.val / 3) = false ∧ s.coreUp
      = true ∧ mget none s.bays.held p.val = none ∧ s.segmentOk p.val f = true ∧ (Frame.segment f).sop = true ∧ ((∀ w ∈
      (Frame.segment f).words, w.err = false)) ∧ (s.tx (Frame.segment f).bay).opened = false ∧ (s.tx (Frame.segment
      f).bay).markDue = false ∧ (s.tx (Frame.segment f).bay).words.length + (Frame.segment f).words.length ≤ 64) ∧
    (∃ (s : State) (p : Fin 12) (f : Frame), s.portPresent (10 + p.val) = true ∧ s.groupGated (p.val / 3) = false ∧ s.coreUp
      = true ∧ mget none s.bays.held p.val = none ∧ s.segmentOk p.val f = true ∧ (Frame.segment f).sop = true ∧ (s.tx
      (Frame.segment f).bay).opened = false ∧ 64 < (s.tx (Frame.segment f).bay).words.length + (Frame.segment
      f).words.length) ∧
    (∃ (s : State) (p : Fin 12) (f : Frame), s.portPresent (10 + p.val) = true ∧ s.groupGated (p.val / 3) = false ∧ s.coreUp
      = true ∧ mget none s.bays.held p.val = none ∧ s.segmentOk p.val f = false ∧ (Frame.segment f).bay / 4 = p.val) ∧
    (∃ (s : State) (p : Fin 12) (h : Held), mget none s.bays.held p.val = some h ∧ s.groupGated (p.val / 3) = false ∧
      (Frame.segment h.frame).sop = true ∧ ((∀ w ∈ (Frame.segment h.frame).words, w.err = false)) ∧ (s.tx (Frame.segment
      h.frame).bay).opened = false ∧ (s.tx (Frame.segment h.frame).bay).markDue = false ∧ (s.tx (Frame.segment
      h.frame).bay).words.length + (Frame.segment h.frame).words.length ≤ 64) ∧
    (∃ (s : State) (p : Fin 12) (h : Held), mget none s.bays.held p.val = some h ∧ h.since + 100000 ≤ s.clk ∧ s.asleep =
      false) ∧
    (∃ (s : State) (p : Fin 12) (h : Held), mget none s.bays.held p.val = some h ∧ s.clk < h.since + 100000) :=
  ⟨⟨(at_g 39), 0, { data := 0x000000000000004d#64, sop := true, eop := true, err := false, flushed := false, dataEcc := Ecc.clean, tagEcc := Ecc.clean },
     by decide +kernel⟩,
   ⟨(at_g 39), 0, { w0 := 0x1510030700000000#64, w1 := 0x0003001000000000#64, w2 := 0x0000000000000000#64, w3 := 0x1a4c000000000000#64, payload := ([0x00#8, 0x00#8, 0x05#8, 0x00#8, 0x00#8, 0x01#8, 0xc0#8, 0x00#8, 0x4d#8] ++ List.replicate 7 0x00#8), crc := 0xdacc381f#32 },
     by decide +kernel⟩,
   ⟨(at_g 39), 0, { w0 := 0x1510030700000000#64, w1 := 0x0003020800000000#64, w2 := 0x0000000000000000#64, w3 := 0x3818000000000000#64, payload := ([0x00#8, 0x00#8, 0x05#8, 0x00#8, 0x00#8, 0x40#8, 0x80#8, 0x00#8, 0x4e#8] ++ List.replicate 7 0x00#8 ++ [0x05#8] ++ List.replicate 7 0x00#8 ++ [0x05#8] ++ List.replicate 7 0x00#8 ++ [0x05#8] ++ List.replicate 7 0x00#8 ++ [0x05#8] ++ List.replicate 7 0x00#8 ++ [0x05#8] ++ List.replicate 7 0x00#8 ++ [0x05#8] ++ List.replicate 7 0x00#8 ++ [0x05#8] ++ List.replicate 7 0x00#8 ++ [0x05#8] ++ List.replicate 7 0x00#8 ++ [0x05#8] ++ List.replicate 7 0x00#8 ++ [0x05#8] ++ List.replicate 7 0x00#8 ++ [0x05#8] ++ List.replicate 7 0x00#8 ++ [0x05#8] ++ List.replicate 7 0x00#8 ++ [0x05#8] ++ List.replicate 7 0x00#8 ++ [0x05#8] ++ List.replicate 7 0x00#8 ++ [0x05#8] ++ List.replicate 7 0x00#8 ++ [0x05#8] ++ List.replicate 7 0x00#8 ++ [0x05#8] ++ List.replicate 7 0x00#8 ++ [0x05#8] ++ List.replicate 7 0x00#8 ++ [0x05#8] ++ List.replicate 7 0x00#8 ++ [0x05#8] ++ List.replicate 7 0x00#8 ++ [0x05#8] ++ List.replicate 7 0x00#8 ++ [0x05#8] ++ List.replicate 7 0x00#8 ++ [0x05#8] ++ List.replicate 7 0x00#8 ++ [0x05#8] ++ List.replicate 7 0x00#8 ++ [0x05#8] ++ List.replicate 7 0x00#8 ++ [0x05#8] ++ List.replicate 7 0x00#8 ++ [0x05#8] ++ List.replicate 7 0x00#8 ++ [0x05#8] ++ List.replicate 7 0x00#8 ++ [0x05#8] ++ List.replicate 7 0x00#8 ++ [0x05#8] ++ List.replicate 7 0x00#8 ++ [0x05#8] ++ List.replicate 7 0x00#8 ++ [0x05#8] ++ List.replicate 7 0x00#8 ++ [0x05#8] ++ List.replicate 7 0x00#8 ++ [0x05#8] ++ List.replicate 7 0x00#8 ++ [0x05#8] ++ List.replicate 7 0x00#8 ++ [0x05#8] ++ List.replicate 7 0x00#8 ++ [0x05#8] ++ List.replicate 7 0x00#8 ++ [0x05#8] ++ List.replicate 7 0x00#8 ++ [0x05#8] ++ List.replicate 7 0x00#8 ++ [0x05#8] ++ List.replicate 7 0x00#8 ++ [0x05#8] ++ List.replicate 7 0x00#8 ++ [0x05#8] ++ List.replicate 7 0x00#8 ++ [0x05#8] ++ List.replicate 7 0x00#8 ++ [0x05#8] ++ List.replicate 7 0x00#8 ++ [0x05#8] ++ List.replicate 7 0x00#8 ++ [0x05#8] ++ List.replicate 7 0x00#8 ++ [0x05#8] ++ List.replicate 7 0x00#8 ++ [0x05#8] ++ List.replicate 7 0x00#8 ++ [0x05#8] ++ List.replicate 7 0x00#8 ++ [0x05#8] ++ List.replicate 7 0x00#8 ++ [0x05#8] ++ List.replicate 7 0x00#8 ++ [0x05#8] ++ List.replicate 7 0x00#8 ++ [0x05#8] ++ List.replicate 7 0x00#8 ++ [0x05#8] ++ List.replicate 7 0x00#8 ++ [0x05#8] ++ List.replicate 7 0x00#8 ++ [0x05#8] ++ List.replicate 7 0x00#8 ++ [0x05#8] ++ List.replicate 7 0x00#8 ++ [0x05#8] ++ List.replicate 7 0x00#8 ++ [0x05#8] ++ List.replicate 7 0x00#8 ++ [0x05#8] ++ List.replicate 7 0x00#8 ++ [0x05#8] ++ List.replicate 7 0x00#8 ++ [0x05#8] ++ List.replicate 7 0x00#8 ++ [0x05#8] ++ List.replicate 7 0x00#8), crc := 0x0948ff4c#32 },
     by decide +kernel⟩,
   ⟨(at_g 0), 0, { w0 := 0x1510030700000000#64, w1 := 0x0003001000000000#64, w2 := 0x0000000000000000#64, w3 := 0x1a4c000000000000#64, payload := ([0x00#8, 0x00#8, 0x05#8, 0x00#8, 0x00#8, 0x01#8, 0xc0#8, 0x00#8, 0x4d#8] ++ List.replicate 7 0x00#8), crc := 0xdacc381f#32 },
     by decide +kernel⟩,
   ⟨(at_g 46), 0, { frame := { w0 := 0x1510030700000000#64, w1 := 0x0003001000000000#64, w2 := 0x0000000000000000#64, w3 := 0x1a4c000000000000#64, payload := ([0x00#8, 0x00#8, 0x05#8, 0x00#8, 0x00#8, 0x01#8, 0xc0#8, 0x00#8, 0x4d#8] ++ List.replicate 7 0x00#8), crc := 0xdacc381f#32 }, since := 5 },
     by decide +kernel⟩,
   ⟨(at_g 46), 0, { frame := { w0 := 0x1510030700000000#64, w1 := 0x0003001000000000#64, w2 := 0x0000000000000000#64, w3 := 0x1a4c000000000000#64, payload := ([0x00#8, 0x00#8, 0x05#8, 0x00#8, 0x00#8, 0x01#8, 0xc0#8, 0x00#8, 0x4d#8] ++ List.replicate 7 0x00#8), crc := 0xdacc381f#32 }, since := 5 },
     by decide +kernel⟩,
   ⟨(at_g 48), 0, { frame := { w0 := 0x1510030700000000#64, w1 := 0x0003001000000000#64, w2 := 0x0000000000000000#64, w3 := 0x1a4c000000000000#64, payload := ([0x00#8, 0x00#8, 0x05#8, 0x00#8, 0x00#8, 0x01#8, 0xc0#8, 0x00#8, 0x4d#8] ++ List.replicate 7 0x00#8), crc := 0xdacc381f#32 }, since := 19999999990 },
     by decide +kernel⟩⟩

end Wg

/-! #### Of instructions -/

namespace Wh

def late (s : State) : State := { s with clk := 20000000000, now := 1000000 }
def on (s : State) : State := (((late (lk s)).wr (R.SIV_ENTRY_default 7) 1).wr (R.SIV_ENTRY_default 1) 1)
def thr (s : State) : State := (List.range 24).foldl (fun (s : State) p => s.wr (R.SWC_ADMIT_lo p) 64) s
def X0 : Ctx := { st := .running, pc := 4, c0 := 7, c1 := 0xFFF0, outSh := 0x123456789ABCDEF0, outCnt := 40, inSh := 0x1122334455667788, inCnt := 20, tau := 1000100, flags := 4, flagTime := [(2, 1000200)], riseL := 8, fallL := 8 }
def B : State := let s : State := thr (on (m .run))
  let s : State := ((s.wr (R.INF_CTX_CFG_enabled 2 2) 1).wr (R.INF_CTX_CFG_region_hi 2 2) 1023).wr (R.INF_CTX_CFG_late_window 2 2) 100
  let s : State := (s.setWord (R.INF_MAP 2 8) 0xC000C0018009C00A).wr (R.INF_BAYS_bays 2) 0x11
  let s : State := (s.wr (R.TOP_MASTER_known 1) 1).wr (R.TOP_MASTER_node 1) 9
  let s : State := [0,1,9,10].foldl (fun (s : State) g => (s.wr (R.BAY_PIN_mode g) 3).wr (R.BAY_PIN_owner g) 2) s
  { s with hub := { s.hub with node := 7 }, loaded := { s.loaded with access := s.loaded.access ++ [(2000,1)] } }
def run (s : State) (x : Ctx) (i : Insn) : State := s.setCtx 2 2 { x with pre := some (x.pc / 2, BitVec.ofNat 64 ((encodeInsn i).toNat)) }
def w1 : FWord := { data := 77, sop := true, eop := true }
def f1 : Fifo := { words := [w1], released := true }
def ff (s : State) (f : Fifo) : State := { s with bays := { s.bays with rx := [(0, f), (4, f)], tx := [(0, f), (4, f)] } }
def es (s : State) : State := (s.setPin 9 { edges := [(5, true)] }).setPin 10 { edges := [(1000110, true)], level := some true }
def g1 : State := B.wr R.PWR_STATUS_gated 1

theorem witness_AluOperationsWriteTheirCounter :
    (∃ (s : State) (e : Fin 16) (c : Fin 16) (c1 : Bool) (other : Bool) (imm : Nat) (d : BitVec 16) (v : BitVec 16), d =
      (s.ctx e c).counter c1 ∧ v = (if other = true then (s.ctx e c).counter (!c1) else BitVec.ofNat 16 imm) ∧ Fetched s e c
      (.alu 0 c1 other imm)) ∧
    (∃ (s : State) (e : Fin 16) (c : Fin 16) (c1 : Bool) (other : Bool) (imm : Nat) (d : BitVec 16) (v : BitVec 16), d =
      (s.ctx e c).counter c1 ∧ v = (if other = true then (s.ctx e c).counter (!c1) else BitVec.ofNat 16 imm) ∧ Fetched s e c
      (.alu 1 c1 other imm)) ∧
    (∃ (s : State) (e : Fin 16) (c : Fin 16) (c1 : Bool) (other : Bool) (imm : Nat) (d : BitVec 16) (v : BitVec 16), d =
      (s.ctx e c).counter c1 ∧ v = (if other = true then (s.ctx e c).counter (!c1) else BitVec.ofNat 16 imm) ∧ Fetched s e c
      (.alu 2 c1 other imm)) ∧
    (∃ (s : State) (e : Fin 16) (c : Fin 16) (c1 : Bool) (other : Bool) (imm : Nat) (d : BitVec 16) (v : BitVec 16), d =
      (s.ctx e c).counter c1 ∧ v = (if other = true then (s.ctx e c).counter (!c1) else BitVec.ofNat 16 imm) ∧ Fetched s e c
      (.alu 3 c1 other imm)) ∧
    (∃ (s : State) (e : Fin 16) (c : Fin 16) (c1 : Bool) (other : Bool) (imm : Nat) (d : BitVec 16) (v : BitVec 16), d =
      (s.ctx e c).counter c1 ∧ v = (if other = true then (s.ctx e c).counter (!c1) else BitVec.ofNat 16 imm) ∧ Fetched s e c
      (.alu 4 c1 other imm)) ∧
    (∃ (s : State) (e : Fin 16) (c : Fin 16) (c1 : Bool) (other : Bool) (imm : Nat) (d : BitVec 16) (v : BitVec 16), d =
      (s.ctx e c).counter c1 ∧ v = (if other = true then (s.ctx e c).counter (!c1) else BitVec.ofNat 16 imm) ∧ Fetched s e c
      (.alu 5 c1 other imm)) ∧
    (∃ (s : State) (e : Fin 16) (c : Fin 16) (c1 : Bool) (other : Bool) (imm : Nat) (d : BitVec 16) (v : BitVec 16), d =
      (s.ctx e c).counter c1 ∧ v = (if other = true then (s.ctx e c).counter (!c1) else BitVec.ofNat 16 imm) ∧ Fetched s e c
      (.alu 6 c1 other imm)) ∧
    (∃ (s : State) (e : Fin 16) (c : Fin 16) (c1 : Bool) (other : Bool) (imm : Nat) (d : BitVec 16) (v : BitVec 16), d =
      (s.ctx e c).counter c1 ∧ v = (if other = true then (s.ctx e c).counter (!c1) else BitVec.ofNat 16 imm) ∧ Fetched s e c
      (.alu 7 c1 other imm)) :=
  ⟨⟨(es (run B X0 (.alu 0 false false 5))), 2, 2, false, false, 5, 0x0007#16, 0x0005#16, by decide +kernel, by decide +kernel, fetched (by decide +kernel)⟩,
   ⟨(es (run B X0 (.alu 1 false false 5))), 2, 2, false, false, 5, 0x0007#16, 0x0005#16, by decide +kernel, by decide +kernel, fetched (by decide +kernel)⟩,
   ⟨(es (run B X0 (.alu 2 true true 0))), 2, 2, true, true, 0, 0xfff0#16, 0x0007#16, by decide +kernel, by decide +kernel, fetched (by decide +kernel)⟩,
   ⟨(es (run B X0 (.alu 3 false false 5))), 2, 2, false, false, 5, 0x0007#16, 0x0005#16, by decide +kernel, by decide +kernel, fetched
     (by decide +kernel)⟩,
   ⟨(es (run B X0 (.alu 4 true true 0))), 2, 2, true, true, 0, 0xfff0#16, 0x0007#16, by decide +kernel, by decide +kernel, fetched (by decide +kernel)⟩,
   ⟨(es (run B X0 (.alu 5 false false 5))), 2, 2, false, false, 5, 0x0007#16, 0x0005#16, by decide +kernel, by decide +kernel, fetched
     (by decide +kernel)⟩,
   ⟨(es (run B X0 (.alu 6 true true 0))), 2, 2, true, true, 0, 0xfff0#16, 0x0007#16, by decide +kernel, by decide +kernel, fetched (by decide +kernel)⟩,
   ⟨(es (run B X0 (.alu 7 true true 0))), 2, 2, true, true, 0, 0xfff0#16, 0x0007#16, by decide +kernel, by decide +kernel, fetched (by decide +kernel)⟩⟩

theorem witness_ShifterAndSetInstructionsWriteTheContext :
    (∃ (s : State) (e : Fin 16) (c : Fin 16) (o : Bool) (n : Nat) (poly : Nat), Fetched s e c (.crc o n poly)) ∧
    (∃ (s : State) (e : Fin 16) (c : Fin 16) (c1 : Bool) (o : Bool), Fetched s e c (.ins c1 o) ∧ (o = true ∨ (s.ctx e
      c).inBusy = false) ∧ (s.ctx e c).shCount o ≤ 48) ∧
    (∃ (s : State) (e : Fin 16) (c : Fin 16) (c1 : Bool) (o : Bool), Fetched s e c (.ins c1 o) ∧ (o = true ∨ (s.ctx e
      c).inBusy = false) ∧ 48 < (s.ctx e c).shCount o) ∧
    (∃ (s : State) (e : Fin 16) (c : Fin 16) (c1 : Bool) (o : Bool), Fetched s e c (.extr c1 o) ∧ (o = true ∨ (s.ctx e
      c).inBusy = false)) ∧
    (∃ (s : State) (e : Fin 16) (c : Fin 16) (imm : Nat), Fetched s e c (.set 0 imm)) ∧
    (∃ (s : State) (e : Fin 16) (c : Fin 16) (imm : Nat), Fetched s e c (.set 1 imm)) ∧
    (∃ (s : State) (e : Fin 16) (c : Fin 16) (imm : Nat), Fetched s e c (.set 2 imm) ∧ imm ≠ 0) ∧
    (∃ (s : State) (e : Fin 16) (c : Fin 16), Fetched s e c (.set 2 0)) ∧
    (∃ (s : State) (e : Fin 16) (c : Fin 16) (imm : Nat), Fetched s e c (.set 3 imm) ∧ nbits imm 0 10 ≤ nbits imm 10 10) ∧
    (∃ (s : State) (e : Fin 16) (c : Fin 16) (imm : Nat), Fetched s e c (.set 4 imm) ∧ nbits imm 16 7 ≤ 64) ∧
    (∃ (s : State) (e : Fin 16) (c : Fin 16) (imm : Nat), Fetched s e c (.set 5 imm) ∧ (s.ctx e c).inBusy = false) ∧
    (∃ (s : State) (e : Fin 16) (c : Fin 16) (imm : Nat), Fetched s e c (.set 6 imm)) :=
  ⟨⟨(es (run B X0 (.crc true 65 0))), 2, 2, true, 65, 0, fetched (by decide +kernel)⟩,
   ⟨(es (run B X0 (.ins false true))), 2, 2, false, true, fetched (by decide +kernel), by decide +kernel⟩,
   ⟨(es (run B ({ X0 with inCnt := 60, outCnt := 60 }) (.ins false true))), 2, 2, false, true, fetched (by decide +kernel), by decide +kernel⟩,
   ⟨(es (run B X0 (.extr false false))), 2, 2, false, false, fetched (by decide +kernel), by decide +kernel⟩,
   ⟨(es (run B X0 (.set 0 5))), 2, 2, 5, fetched (by decide +kernel)⟩,
   ⟨(es (run B X0 (.set 1 7))), 2, 2, 7, fetched (by decide +kernel)⟩,
   ⟨(es (run B X0 (.set 2 100))), 2, 2, 100, fetched (by decide +kernel), by decide +kernel⟩,
   ⟨(es (run B X0 (.set 2 0))), 2, 2, fetched (by decide +kernel)⟩,
   ⟨(es (run B X0 (.set 3 (2 ^ 20 + 2 ^ 10 * 9 + 4)))), 2, 2, 1057796, fetched (by decide +kernel), by decide +kernel⟩,
   ⟨(es (run B X0 (.set 4 (5 + 16 * 2 ^ 16)))), 2, 2, 1048581, fetched (by decide +kernel), by decide +kernel⟩,
   ⟨(es (run B X0 (.set 5 0))), 2, 2, 0, fetched (by decide +kernel), by decide +kernel⟩,
   ⟨(es (run B X0 (.set 6 0x0F05))), 2, 2, 3845, fetched (by decide +kernel)⟩⟩

theorem witness_ControlInstructionsJumpSignalAndNote :
    (∃ (s : State) (e : Fin 16) (c : Fin 16) (cond : Nat) (operand : Nat) (target : Nat), Fetched s e c (.jmp cond operand
      target) ∧ s.jmpFault e c cond operand = none ∧ (cond ≠ 0x0C ∨ (s.ctx e c).inBusy = false)) ∧
    (∃ (s : State) (e : Fin 16) (c : Fin 16) (cond : Nat) (operand : Nat) (target : Nat) (f : Nat), Fetched s e c (.jmp cond
      operand target) ∧ s.jmpFault e c cond operand = some f) ∧
    (∃ (s : State) (x : Ctx) (e : Nat) (c : Nat) (k : Nat), k < 16) ∧
    (∃ (s : State) (x : Ctx) (e : Nat) (c : Nat) (k : Nat), k < 16) ∧
    (∃ (s : State) (e : Fin 16) (c : Fin 16) (en : Nat) (ct : Nat) (flag : Nat), Fetched s e c (.signal en ct flag) ∧ s.on
      (R.INF_CTX_CFG_enabled en ct) = true ∧ s.quadGated (en / 4) = false) ∧
    (∃ (s : State) (e : Fin 16) (c : Fin 16) (en : Nat) (ct : Nat) (flag : Nat), Fetched s e c (.signal en ct flag) ∧ s.on
      (R.INF_CTX_CFG_enabled en ct) = false) ∧
    (∃ (s : State) (e : Fin 16) (c : Fin 16) (adopt : Bool) (flag : Nat), Fetched s e c (.await adopt flag) ∧ (s.ctx e
      c).flag flag = true) ∧
    (∃ (s : State) (e : Fin 16) (c : Fin 16) (adopt : Bool) (flag : Nat), Fetched s e c (.await adopt flag) ∧ (s.ctx e
      c).flag flag = false) ∧
    (∃ (s : State) (e : Fin 16) (c : Fin 16) (code : Nat), Fetched s e c (.note true 0 code)) ∧
    (∃ (s : State) (e : Fin 16) (c : Fin 16) (masters : Nat) (code : Nat), Fetched s e c (.note false masters code)) ∧
    (∃ (s : State) (e : Fin 16) (c : Fin 16), Fetched s e c .nop) ∧
    (∃ (s : State) (e : Fin 16) (c : Fin 16), Fetched s e c .halt) ∧
    (∃ (s : State) (e : Fin 16) (c : Fin 16) (counter : Bool), Fetched s e c (.gett counter) ∧ (s.ctx e c).inBusy = false) :=
  ⟨⟨(es (run B X0 (.jmp 2 0 9))), 2, 2, 2, 0, 9, fetched (by decide +kernel), by decide +kernel⟩,
   ⟨(es (run B X0 (.jmp 6 4 9))), 2, 2, 6, 4, 9, 11, fetched (by decide +kernel), by decide +kernel⟩,
   ⟨State.reset, {}, 0, 0, 5, by decide +kernel⟩,
   ⟨State.reset, {}, 0, 0, 5, by decide +kernel⟩,
   ⟨(es (run B X0 (.signal 2 2 5))), 2, 2, 2, 2, 5, fetched (by decide +kernel), by decide +kernel⟩,
   ⟨(es (run B X0 (.signal 1 2 3))), 2, 2, 1, 2, 3, fetched (by decide +kernel), by decide +kernel⟩,
   ⟨(es (run B X0 (.await true 2))), 2, 2, true, 2, fetched (by decide +kernel), by decide +kernel⟩,
   ⟨(es (run B X0 (.await false 3))), 2, 2, false, 3, fetched (by decide +kernel), by decide +kernel⟩,
   ⟨(es (run B X0 (.note true 0 9))), 2, 2, 9, fetched (by decide +kernel)⟩,
   ⟨(es (run B X0 (.note false 3 9))), 2, 2, 3, 9, fetched (by decide +kernel)⟩,
   ⟨(es (run B X0 .nop)), 2, 2, fetched (by decide +kernel)⟩,
   ⟨(es (run B X0 .halt)), 2, 2, fetched (by decide +kernel)⟩,
   ⟨(es (run B X0 (.gett true))), 2, 2, true, fetched (by decide +kernel), by decide +kernel⟩⟩

theorem witness_GridInstructionsArePlanned :
    (∃ (s : State) (e : Fin 16) (c : Fin 16) (count : Nat), Fetched s e c (.wait false count)) ∧
    (∃ (s : State) (e : Fin 16) (c : Fin 16), Fetched s e c (.wait true 0)) ∧
    (∃ (s : State) (e : Fin 16) (c : Fin 16) (onpast : Bool) (d : Int), Fetched s e c (.at_ onpast 0 0) ∧ d = sdiff40 ((s.ctx
      e c).outSh.toNat % 2 ^ 40) s.now ∧ 0 ≤ d) ∧
    (∃ (s : State) (e : Fin 16) (c : Fin 16) (onpast : Bool) (d : Int), Fetched s e c (.at_ onpast 0 0) ∧ d = sdiff40 ((s.ctx
      e c).outSh.toNat % 2 ^ 40) s.now ∧ d < 0 ∧ -d < s.rd (R.INF_CTX_CFG_late_window e c)) ∧
    (∃ (s : State) (e : Fin 16) (c : Fin 16) (onpast : Bool) (d : Int), Fetched s e c (.at_ onpast 0 0) ∧ d = sdiff40 ((s.ctx
      e c).outSh.toNat % 2 ^ 40) s.now ∧ d < 0 ∧ s.rd (R.INF_CTX_CFG_late_window e c) ≤ -d ∧ onpast = false) ∧
    (∃ (s : State) (e : Fin 16) (c : Fin 16) (onpast : Bool) (d : Int), Fetched s e c (.at_ onpast 0 0) ∧ d = sdiff40 ((s.ctx
      e c).outSh.toNat % 2 ^ 40) s.now ∧ d < 0 ∧ s.rd (R.INF_CTX_CFG_late_window e c) ≤ -d ∧ onpast = true) ∧
    (∃ (s : State) (e : Fin 16) (c : Fin 16) (onpast : Bool) (phase : Nat), Fetched s e c (.at_ onpast 2 phase) ∧ phase <
      1000 * (s.ctx e c).c0.toNat) ∧
    (∃ (s : State) (e : Fin 16) (c : Fin 16) (bank : Bool) (rel : Bool) (mask : Nat) (value : Nat) (k : Nat), Fetched s e c
      (.out bank rel mask value k) ∧ (rel = false ∨ value = 0) ∧ ((∀ j, j < 8 → bitAt mask j = true → (s.slotDrive e c (8 *
      bit01 bank + j)).isSome = true))) ∧
    (∃ (s : State) (e : Fin 16) (c : Fin 16) (bank : Bool) (rel : Bool) (mask : Nat) (value : Nat) (k : Nat) (j : Nat),
      Fetched s e c (.out bank rel mask value k) ∧ (rel = false ∨ value = 0) ∧ j < 8 ∧ bitAt mask j = true ∧ s.slotDrive e c
      (8 * bit01 bank + j) = none) ∧
    (∃ (s : State) (e : Fin 16) (c : Fin 16) (first : Nat) (nm1 : Nat) (k : Nat), Fetched s e c (.inp first nm1 k) ∧ first +
      nm1 ≤ 15 ∧ ((∀ j, j ≤ nm1 → (s.slotRead e c (first + j)).isSome = true)) ∧ (s.ctx e c).inBusy = false ∧ (s.ctx e
      c).inCnt + nm1 + 1 ≤ 64) ∧
    (∃ (s : State) (e : Fin 16) (c : Fin 16) (nm1 : Nat) (stuff : Nat) (k : Nat) (adv : Bool) (cont : Bool), Fetched s e c
      (.shift false nm1 adv stuff cont k) ∧ (nm1 + 1) * 2 ^ s.rd (R.INF_CTX_SHIFT_width e c) ≤ 64 ∧ (stuff = 0 ∨ s.rd
      (R.INF_CTX_SHIFT_width e c) = 0) ∧ (s.ctx e c).outLane.holds s.now = false ∧ (nm1 + 1) * 2 ^ s.rd
      (R.INF_CTX_SHIFT_width e c) ≤ (s.ctx e c).outCnt) ∧
    (∃ (s : State) (e : Fin 16) (c : Fin 16) (nm1 : Nat) (stuff : Nat) (k : Nat) (adv : Bool) (cont : Bool), Fetched s e c
      (.shift true nm1 adv stuff cont k) ∧ (s.ctx e c).inCnt + (nm1 + 1) * 2 ^ s.rd (R.INF_CTX_SHIFT_width e c) ≤ 64 ∧ (stuff
      = 0 ∨ s.rd (R.INF_CTX_SHIFT_width e c) = 0) ∧ (s.ctx e c).inLane.holds s.now = false) ∧
    (∃ (s : State) (e : Fin 16) (c : Fin 16) (slot : Nat) (cond : Nat) (timeout : Nat), Fetched s e c (.wpin slot cond
      timeout) ∧ (s.slotRead e c slot).isSome = true ∧ s.watchHit e c slot cond timeout (s.ctx e c).tau = none) ∧
    (∃ (s : State) (e : Fin 16) (c : Fin 16) (slot : Nat) (cond : Nat) (timeout : Nat) (t : Word), Fetched s e c (.wpin slot
      cond timeout) ∧ (s.slotRead e c slot).isSome = true ∧ s.watchHit e c slot cond timeout (s.ctx e c).tau = some t) ∧
    (∃ (s : State) (e : Fin 16) (c : Fin 16) (slot : Nat) (g : Nat) (err : Bool) (eop : Bool) (sop : Bool) (nowait : Bool)
      (rose : Bool) (t : Word) (rest : List (Word × Bool)), Fetched s e c (.stamp slot 0 err eop sop true nowait) ∧
      s.slotRead e c slot = some g ∧ (s.ctx e c).inBusy = false ∧ (s.ctx e c).stampWord = none ∧ s.groupGated (groupOfPin g)
      = false ∧ (s.pin g).edges = (t, rose) :: rest) :=
  ⟨⟨(es (run B X0 (.wait false 5))), 2, 2, 5, fetched (by decide +kernel)⟩,
   ⟨(es (run B X0 (.wait true 0))), 2, 2, fetched (by decide +kernel)⟩,
   ⟨(es (run B X0 (.at_ true 0 0))), 2, 2, true, 517991144624, fetched (by decide +kernel), by decide +kernel⟩,
   ⟨(es (run B ({ X0 with c0 := 0, outSh := 999950, outCnt := 64, inCnt := 0 }) (.at_ true 0 0))), 2, 2, true, -50, fetched (by decide +kernel), by decide +kernel⟩,
   ⟨(es (run B ({ X0 with outSh := 999850, outCnt := 64, inCnt := 0 }) (.at_ false 0 0))), 2, 2, false, -150, fetched (by decide +kernel), by decide +kernel⟩,
   ⟨(es (run B ({ X0 with outSh := 999850, outCnt := 64, inCnt := 0 }) (.at_ true 0 0))), 2, 2, true, -150, fetched (by decide +kernel), by decide +kernel⟩,
   ⟨(es (run B X0 (.at_ false 2 100))), 2, 2, false, 100, fetched (by decide +kernel), by decide +kernel⟩,
   ⟨(es (run B X0 (.out false false 1 3 4))), 2, 2, false, false, 1, 3, 4, fetched (by decide +kernel), by decide +kernel⟩,
   ⟨(es (run B X0 (.out false false 2 3 4))), 2, 2, false, false, 2, 3, 4, 1, fetched (by decide +kernel), by decide +kernel⟩,
   ⟨(es (run B X0 (.inp 0 1 4))), 2, 2, 0, 1, 4, fetched (by decide +kernel), by decide +kernel⟩,
   ⟨(es (run B X0 (.shift false 7 false 0 false 3))), 2, 2, 7, 0, 3, false, false, fetched (by decide +kernel), by decide +kernel⟩,
   ⟨(es (run B X0 (.shift true 7 true 0 false 3))), 2, 2, 7, 0, 3, true, false, fetched (by decide +kernel), by decide +kernel⟩,
   ⟨(es (run B X0 (.wpin 1 0 100))), 2, 2, 1, 0, 100, fetched (by decide +kernel), by decide +kernel⟩,
   ⟨(es (run B X0 (.wpin 0 0 100))), 2, 2, 0, 0, 100, 0x00000000000f42ae#64, fetched (by decide +kernel), by decide +kernel⟩,
   ⟨(es (run B X0 (.stamp 1 0 false false false true false))), 2, 2, 1, 9, false, false, false, false, true, 0x0000000000000005#64, [], fetched (by decide +kernel),
     by decide +kernel⟩⟩

theorem witness_TransfersMoveWords :
    (∃ (s : State) (e : Fin 16) (c : Fin 16) (err : Bool) (eop : Bool) (sop : Bool) (keep : Bool) (nowait : Bool) (bay :
      Nat), Fetched s e c (.qput err eop sop keep bay nowait) ∧ s.serves e bay = true ∧ (s.ctx e c).inBusy = false ∧
      s.groupGated (bay / 12) = false ∧ (s.rx bay).skipPush = false ∧ (s.rx bay).opened = !sop ∧ (s.rx bay).words.length <
      64) ∧
    (∃ (s : State) (e : Fin 16) (c : Fin 16) (err : Bool) (eop : Bool) (sop : Bool) (keep : Bool) (nowait : Bool) (bay :
      Nat), Fetched s e c (.qput err eop sop keep bay nowait) ∧ s.serves e bay = true ∧ (s.ctx e c).inBusy = false ∧
      s.groupGated (bay / 12) = true) ∧
    (∃ (s : State) (e : Fin 16) (c : Fin 16) (bay : Nat) (nowait : Bool) (w : FWord) (rest : List FWord), Fetched s e c
      (.qget bay nowait) ∧ s.serves e bay = true ∧ s.groupGated (bay / 12) = false ∧ (s.tx bay).words = w :: rest ∧ (s.tx
      bay).released = true ∧ w.dataEcc = .clean ∧ w.tagEcc = .clean) ∧
    (∃ (s : State) (e : Fin 16) (c : Fin 16) (bay : Nat) (nowait : Bool), Fetched s e c (.qget bay nowait) ∧ s.serves e bay =
      true ∧ (s.groupGated (bay / 12) = true ∨ (s.tx bay).words = [] ∨ (s.tx bay).released = false)) ∧
    (∃ (s : State) (e : Fin 16) (c : Fin 16) (bay : Nat) (tx : Bool), Fetched s e c (.flush bay tx) ∧ s.serves e bay = true) ∧
    (∃ (s : State) (e : Fin 16) (c : Fin 16) (o : Bool) (idx : Bool) (word : Nat) (w : Nat), w = word + (if idx = true then
      (s.ctx e c).c0.toNat else 0) ∧ w < 32768 ∧ (o = true ∨ (s.ctx e c).inBusy = false) ∧ Fetched s e c (.ldm o idx word)) ∧
    (∃ (s : State) (e : Fin 16) (c : Fin 16) (o : Bool) (idx : Bool) (word : Nat) (w : Nat), w = word + (if idx = true then
      (s.ctx e c).c0.toNat else 0) ∧ w < 32768 ∧ (o = true ∨ (s.ctx e c).inBusy = false) ∧ Fetched s e c (.stm o idx word)) ∧
    (∃ (s : State) (e : Fin 16) (c : Fin 16) (o : Bool) (idx : Bool) (word : Nat) (w : Nat), Fetched s e c (.ldm o idx word)
      ∧ CleanMem s ∧ s.quiet = true ∧ w = word + (if idx = true then (s.ctx e c).c0.toNat else 0) ∧ w < 32768 ∧ (o = true ∨
      (s.ctx e c).inBusy = false) ∧ (s.ctx e c).slot = none) ∧
    (∃ (s : State) (e : Fin 16) (c : Fin 16) (o : Bool) (idx : Bool) (word : Nat) (w : Nat), Fetched s e c (.stm o idx word)
      ∧ s.quiet = true ∧ w = word + (if idx = true then (s.ctx e c).c0.toNat else 0) ∧ w < 32768 ∧ (o = true ∨ (s.ctx e
      c).inBusy = false) ∧ (s.ctx e c).slot = none) ∧
    (∃ (s : State) (e : Fin 16) (c : Fin 16) (o : Bool) (idx : Bool) (word : Nat), 32768 ≤ word + (if idx = true then (s.ctx
      e c).c0.toNat else 0) ∧ Fetched s e c (.ldm o idx word)) ∧
    (∃ (s : State) (e : Fin 16) (c : Fin 16) (o : Bool) (idx : Bool) (word : Nat), 32768 ≤ word + (if idx = true then (s.ctx
      e c).c0.toNat else 0) ∧ Fetched s e c (.stm o idx word)) ∧
    (∃ (s : State) (e : Fin 16) (c : Fin 16) (m : Nat), Fetched s e c (.rq m 0) ∧ (s.ctx e c).inBusy = false ∧ s.on
      (R.TOP_MASTER_known m) = true ∧ s.freeSlots ≠ [] ∧ s.coreUp = true ∧ s.isCoupler = false ∧ s.rd (R.TOP_MASTER_node m) ≠
      0) ∧
    (∃ (s : State) (e : Fin 16) (c : Fin 16) (m : Nat), Fetched s e c (.rq m 1) ∧ (s.ctx e c).inBusy = false ∧ s.on
      (R.TOP_MASTER_known m) = true ∧ s.freeSlots ≠ []) ∧
    (∃ (s : State) (e : Fin 16) (c : Fin 16) (m : Nat), Fetched s e c (.rq m 2) ∧ (s.ctx e c).inBusy = false ∧ s.on
      (R.TOP_MASTER_known m) = true ∧ s.freeSlots ≠ []) ∧
    (∃ (s : State) (e : Fin 16) (c : Fin 16) (m : Nat), s.on (R.TOP_MASTER_known m) = false ∧ (s.ctx e c).inBusy = false ∧
      Fetched s e c (.rq m 0)) ∧
    (∃ (s : State) (e : Fin 16) (c : Fin 16) (m : Nat), s.on (R.TOP_MASTER_known m) = false ∧ (s.ctx e c).inBusy = false ∧
      Fetched s e c (.rq m 1)) ∧
    (∃ (s : State) (e : Fin 16) (c : Fin 16) (m : Nat), s.on (R.TOP_MASTER_known m) = false ∧ (s.ctx e c).inBusy = false ∧
      Fetched s e c (.rq m 2)) ∧
    (∃ (s : State) (e : Fin 16) (c : Fin 16), Fetched s e c .rdreg ∧ s.reaches e ((s.ctx e c).outSh.toNat % 2 ^ 32) = true ∧
      (s.ctx e c).inBusy = false) ∧
    (∃ (s : State) (e : Fin 16) (c : Fin 16) (a : Nat), Fetched s e c .rdreg ∧ a = (s.ctx e c).outSh.toNat % 2 ^ 32 ∧
      s.reaches e a = true ∧ (s.ctx e c).inBusy = false ∧ (s.ctx e c).slot = none ∧ s.quiet = true ∧ Grants s localReq a
      .read ∧ s.regNotReady a = false ∧ progAt a = none) ∧
    (∃ (s : State) (e : Fin 16) (c : Fin 16), Fetched s e c .rdreg ∧ s.reaches e ((s.ctx e c).outSh.toNat % 2 ^ 32) = false) :=
  ⟨⟨(es (run B X0 (.qput true true true false 4 false))), 2, 2, true, true, true, false, false, 4, fetched (by decide +kernel), by decide +kernel⟩,
   ⟨(run g1 X0 (.qput true true true false 4 false)), 2, 2, true, true, true, false, false, 4, fetched (by decide +kernel), by decide +kernel⟩,
   ⟨(ff (run B X0 (.qget 0 false)) f1), 2, 2, 0, false, { data := 0x000000000000004d#64, sop := true, eop := true, err := false, flushed := false, dataEcc := Ecc.clean, tagEcc := Ecc.clean },
     [], fetched (by decide +kernel), by decide +kernel⟩,
   ⟨(es (run B X0 (.qget 0 false))), 2, 2, 0, false, fetched (by decide +kernel), by decide +kernel⟩,
   ⟨(es (run B X0 (.flush 0 true))), 2, 2, 0, true, fetched (by decide +kernel), by decide +kernel⟩,
   by refine ⟨(es (run B X0 (.ldm true true 3))), 2, 2, true, true, 3, 10, ?_, ?_, ?_, fetched (by decide +kernel)⟩ <;> decide +kernel,
   by refine ⟨(es (run B X0 (.stm true true 3))), 2, 2, true, true, 3, 10, ?_, ?_, ?_, fetched (by decide +kernel)⟩ <;> decide +kernel,
   ⟨(es (run B X0 (.ldm true true 3))), 2, 2, true, true, 3, 10, fetched (by decide +kernel), clean rfl, by decide +kernel⟩,
   ⟨(es (run B X0 (.stm true true 3))), 2, 2, true, true, 3, 10, fetched (by decide +kernel), by decide +kernel⟩,
   ⟨(es (run B X0 (.ldm true true 32765))), 2, 2, true, true, 32765, by decide +kernel, fetched (by decide +kernel)⟩,
   ⟨(es (run B X0 (.stm true true 32765))), 2, 2, true, true, 32765, by decide +kernel, fetched (by decide +kernel)⟩,
   ⟨(es (run B X0 (.rq 1 0))), 2, 2, 1, fetched (by decide +kernel), by decide +kernel⟩,
   ⟨(es (run B X0 (.rq 1 1))), 2, 2, 1, fetched (by decide +kernel), by decide +kernel⟩,
   ⟨(es (run B X0 (.rq 1 2))), 2, 2, 1, fetched (by decide +kernel), by decide +kernel⟩,
   ⟨(es (run B X0 (.rq 0 0))), 2, 2, 0, by decide +kernel, by decide +kernel, fetched (by decide +kernel)⟩,
   ⟨(es (run B X0 (.rq 0 1))), 2, 2, 0, by decide +kernel, by decide +kernel, fetched (by decide +kernel)⟩,
   ⟨(es (run B X0 (.rq 0 2))), 2, 2, 0, by decide +kernel, by decide +kernel, fetched (by decide +kernel)⟩,
   ⟨(es (run B ({ X0 with outSh := 0x30 }) .rdreg)), 2, 2, fetched (by decide +kernel), by decide +kernel⟩,
   ⟨(es (run B ({ X0 with outSh := 0x30 }) .rdreg)), 2, 2, 48, fetched (by decide +kernel), by decide +kernel⟩,
   ⟨(es (run B X0 .rdreg)), 2, 2, fetched (by decide +kernel), by decide +kernel⟩⟩

end Wh

/-! #### Of issues, starts and the grid -/

namespace Wi

def late (s : State) : State := { s with clk := 20000000000, now := 1000000 }
def on (s : State) : State := (((late (lk s)).wr (R.SIV_ENTRY_default 7) 1).wr (R.SIV_ENTRY_default 1) 1)
def thr (s : State) : State := (List.range 24).foldl (fun (s : State) p => s.wr (R.SWC_ADMIT_lo p) 64) s
def X0 : Ctx := { st := .running, pc := 4, c0 := 7, c1 := 0xFFF0, outSh := 0x123456789ABCDEF0, outCnt := 40, inSh := 0x1122334455667788, inCnt := 20, tau := 1000100, flags := 4, flagTime := [(2, 1000200)], riseL := 8, fallL := 8 }
def B : State := let s : State := thr (on (m .run))
  let s : State := ((s.wr (R.INF_CTX_CFG_enabled 2 2) 1).wr (R.INF_CTX_CFG_region_hi 2 2) 1023).wr (R.INF_CTX_CFG_late_window 2 2) 100
  let s : State := (s.setWord (R.INF_MAP 2 8) 0xC000C0018009C00A).wr (R.INF_BAYS_bays 2) 0x11
  let s : State := (s.wr (R.TOP_MASTER_known 1) 1).wr (R.TOP_MASTER_node 1) 9
  let s : State := [0,1,9,10].foldl (fun (s : State) g => (s.wr (R.BAY_PIN_mode g) 3).wr (R.BAY_PIN_owner g) 2) s
  { s with hub := { s.hub with node := 7 }, loaded := { s.loaded with access := s.loaded.access ++ [(2000,1)] } }
def run (s : State) (x : Ctx) (i : Insn) : State := s.setCtx 2 2 { x with pre := some (x.pc / 2, BitVec.ofNat 64 ((encodeInsn i).toNat)) }
def lane : Lane := { cur := some { planned := 5, t := 5, pc := 0, b := 5, n := 3, w := 1, order := false, sample := 0, clkMode := 0, clkSlot := 0, slot := 0, stuff := 0, cont := false, adv := false, bits := [] } }
def op (i : Insn) (t : Word) : GridOp := ⟨encodeInsn i, 4, t⟩
def gx (i : Insn) (t : Word) (w : Nat) : Ctx := { X0 with st := .waiting, wait := w, grid := some (op i t), pre := some (2, 0) }
def gstates : List State := [ (B.setCtx 2 2 (gx (.wait false 5) 1000000 1)), (B.setCtx 2 2 (gx (.wait false 5) 1900000 1)), (B.setCtx 2 2 (gx (.out false false 3 2 4) 1000010 1)),
  (B.setCtx 2 2 { X0 with acts := [{ t := 999990, drives := [(9, .low)], sample := none }] }), (B.setCtx 2 2 { X0 with acts := [{ t := 999990, drives := [], sample := some (0, 2) }] }), (B.setCtx 2 2 (gx (.wpin 0 0 100) 999000 3)), ((B.setCtx 2 2 (gx (.wpin 0 0 100) 999700 3)).setPin 10 { edges := [(999750, true)], level := some true }).setPin 9 { edges := [(999750, true)], level := some true },
  (B.setCtx 2 2 { X0 with outLane := lane, outSh := 5 }), (B.setCtx 2 2 { X0 with outLane := { lane with idx := 3 } }), (B.setCtx 2 2 { X0 with inLane := lane }), (B.setCtx 2 2 { X0 with inLane := { lane with idx := 3, full := true, got := [true, false, true] } }), (B.setCtx 2 2 { X0 with st := .waiting, wait := 9 }), (B.setCtx 2 2 { X0 with st := .waiting, wait := 9, pc := 9 }),
  B.setCtx 2 2 X0, B.setCtx 2 2 { X0 with pre := some (2, 0xF0000000F0000000) }, B.setCtx 2 2 { X0 with pc := 1023, pre := some (511, 5) }, B.setCtx 2 2 { X0 with st := .idle }, (B.setCtx 2 2 { X0 with pre := some (2, 0x0) }).wr (R.INF_CTX_CFG_region_hi 2 2) 3, B.setCtx 2 2 { X0 with pre := some (2, 0), loopOn := true, loopStart := 1, loopEnd := 4 }]
def lane2 : Lane := { cur := some { planned := 5, t := 5, pc := 0, b := 5, n := 3, w := 1, order := false, sample := 0, clkMode := 0, clkSlot := 0, slot := 0, stuff := 0, cont := false, adv := false, bits := [true, false, true] } }
def sts : List State := gstates ++ [{ B with loaded := { B.loaded with tuning := [⟨R.INF_PROG 2 2, 0, 32, false, 0, 0⟩] } }, (B.setCtx 2 2 (gx (.out false false 1 0 4) 1000010 1)), (B.setCtx 2 2 { X0 with outLane := lane2, outSh := 5 }), (B.setCtx 2 2 { X0 with pre := some (2, 0xF8000000F8000000), pc := 4 }), (B.setCtx 2 2 { X0 with pre := some (2, 0xFF000000FF000000), pc := 4 }), { (B.setCtx 2 2 { X0 with pre := some (2, 0xF8000000F8000000), pc := 4 }) with eccMarks := [(.prog, 512*2+2, .bad)] }]
def at_i (i : Nat) : State := sts.getD i State.reset

theorem witness_IssuesMoveTheContextOrFault :
    (∃ (s : State) (u : State) (e : Fin 16) (c : Fin 16) (w : BitVec 32) (k : _), (s.ctx e c).pre.isSome = true ∧ (s.ctx e
      c).loopOn = false ∧ u = s.finish e c w .next ∧ k ≠ c.val) ∧
    (∃ (s : State) (u : State) (e : Fin 16) (c : Fin 16) (w : BitVec 32), (s.ctx e c).pre.isSome = true ∧ (s.ctx e c).loopOn
      = true ∧ (s.ctx e c).pc = (s.ctx e c).loopEnd ∧ (s.ctx e c).loopPend = none ∧ u = s.finish e c w .next) ∧
    (∃ (s : State) (u : State) (e : Fin 16) (c : Fin 16) (w : BitVec 32), (s.ctx e c).pre.isSome = true ∧ (s.ctx e c).loopOn
      = false ∧ u = s.finish e c w .skip) ∧
    (∃ (s : State) (u : State) (e : Fin 16) (c : Fin 16) (target : Nat) (w : BitVec 32), s.inRegion e c target = true ∧ u =
      s.finish e c w (.jump target)) ∧
    (∃ (s : State) (u : State) (e : Fin 16) (c : Fin 16) (target : Nat) (w : BitVec 32), s.inRegion e c target = false ∧ u =
      s.finish e c w (.jump target)) ∧
    (∃ (s : State) (u : State) (e : Fin 16) (c : Fin 16) (r : Nat) (w : BitVec 32), u = s.finish e c w (.stay r)) ∧
    (∃ (s : State) (u : State) (e : Fin 16) (c : Fin 16) (f : Nat) (w : BitVec 32), f < 16 ∧ (s.ctx e c).pc < 1024 ∧ u =
      s.finish e c w (.fault f)) ∧
    (∃ (s : State) (u : State) (e : Fin 16) (c : Fin 16) (w : BitVec 32), u = s.finish e c w .halt) ∧
    (∃ (s : State) (u : State) (e : Fin 16) (c : Fin 16) (w : BitVec 32) (t : Word), s.windowOpen t = false ∧ (s.ctx e
      c).loopOn = false ∧ u = s.finish e c w (.grid t)) ∧
    (∃ (s : State) (u : State) (e : Fin 16) (c : Fin 16) (w : BitVec 32), u = s.finish e c w .watch) ∧
    (∃ (s : State) (e : Fin 16) (c : Fin 16), s.nextTurn e = some c.val ∧ s.inRegion e c (s.ctx e c).pc = false) ∧
    (∃ (s : State) (e : Fin 16) (c : Fin 16) (w : BitVec 32), s.nextTurn e = some c.val ∧ s.wordAt e c = some w ∧ s.inRegion
      e c (s.ctx e c).pc = true ∧ nbits w.toNat 28 4 = 15 ∧ s.eccOf .prog (512 * e + (s.ctx e c).pc / 2) = .bad) ∧
    (∃ (s : State) (e : Fin 16) (c : Fin 16) (w : BitVec 32), s.nextTurn e = some c.val ∧ s.wordAt e c = some w ∧ s.inRegion
      e c (s.ctx e c).pc = true ∧ nbits w.toNat 28 4 = 15 ∧ s.eccOf .prog (512 * e + (s.ctx e c).pc / 2) ≠ .bad ∧ decodeInsn
      w = none) ∧
    (∃ (s : State) (e : Fin 16) (c : Fin 16), ((s.ctx e c).st ≠ .running ∨ s.nextTurn e ≠ some c.val)) :=
  ⟨by refine ⟨(at_i 0), (((at_i 0)).finish (2) (2) (0xf0000000#32) .next), 2, 2, 0xf0000000#32, 0, ?_, ?_, rfl, ?_⟩ <;>
     decide +kernel,
   by refine ⟨(at_i 18), (((at_i 18)).finish (2) (2) (0xf0000000#32) .next), 2, 2, 0xf0000000#32, ?_, ?_, ?_, ?_, rfl⟩ <;>
     decide +kernel,
   ⟨(at_i 0), (((at_i 0)).finish (2) (2) (0xf0000000#32) .skip), 2, 2, 0xf0000000#32, by decide +kernel, by decide +kernel,
     rfl⟩,
   ⟨(at_i 0), (((at_i 0)).finish (2) (2) (0xf0000000#32) (.jump (0))), 2, 2, 0, 0xf0000000#32, by decide +kernel, rfl⟩,
   ⟨(at_i 17), (((at_i 17)).finish (2) (2) (0xf0000000#32) (.jump (4))), 2, 2, 4, 0xf0000000#32, by decide +kernel, rfl⟩,
   ⟨(at_i 0), (((at_i 0)).finish (2) (2) (0xf0000000#32) (.stay (0))), 2, 2, 0, 0xf0000000#32, rfl⟩,
   ⟨(at_i 0), (((at_i 0)).finish (2) (2) (0xf0000000#32) (.fault (0))), 2, 2, 0, 0xf0000000#32, by decide +kernel,
     by decide +kernel, rfl⟩,
   ⟨(at_i 0), (((at_i 0)).finish (2) (2) (0xf0000000#32) .halt), 2, 2, 0xf0000000#32, rfl⟩,
   ⟨(at_i 0), (((at_i 0)).finish (2) (2) (0xf0000000#32) (.grid (0x00000000001cfde0#64))), 2, 2, 0xf0000000#32,
     0x00000000001cfde0#64, by decide +kernel, by decide +kernel, rfl⟩,
   ⟨(at_i 0), (((at_i 0)).finish (2) (2) (0xf0000000#32) .watch), 2, 2, 0xf0000000#32, rfl⟩,
   ⟨(at_i 17), 2, 2, by decide +kernel⟩,
   ⟨(at_i 24), 2, 2, 0xf8000000#32, by decide +kernel⟩,
   ⟨(at_i 22), 2, 2, 0xf8000000#32, by decide +kernel⟩,
   ⟨(at_i 0), 2, 2, by decide +kernel⟩⟩

theorem witness_ContextsStartStopAndArePatched :
    (∃ (s : State) (r : Requester) (e : Fin 16) (c : Fin 16), Grants s r (R.INF_CTRL e) .write ∧ (s.ctx e c).runs = false ∧
      s.mayRun e c = true ∧ s.inRegion e c (s.rd (R.INF_CTX_STATE_start_pc e c)) = true) ∧
    (∃ (s : State) (r : Requester) (e : Fin 16) (c : Fin 16), Grants s r (R.INF_CTRL e) .write ∧ ((s.ctx e c).runs = true ∨
      s.mayRun e c = false)) ∧
    (∃ (s : State) (r : Requester) (e : Fin 16) (c : Fin 16), Grants s r (R.INF_CTRL e) .write ∧ (s.ctx e c).st ≠ .idle) ∧
    (∃ (s : State) (r : Requester) (e : Fin 16) (c : Fin 16) (m : BitVec 16), Grants s r (R.INF_CTRL e) .write ∧ m.getLsbD c
      = true ∧ (s.ctx e c).st ≠ .idle) ∧
    (∃ (s : State) (r : Requester) (e : Fin 16) (i : Fin 512) (v : Word), Grants s r (R.INF_PROG e i) .write ∧ s.limitsAllow
      (R.INF_PROG_odd e i) (fget v 32 32) = true ∧ s.limitsAllow (R.INF_PROG_even e i) (fget v 0 32) = true ∧ ((∀ c, c < 16 →
      s.touches e i c = true → s.on (R.INF_CTX_CFG_hot_patch e c) = true))) ∧
    (∃ (s : State) (r : Requester) (e : Fin 16) (c : Fin 16) (i : Fin 512) (v : Word), Grants s r (R.INF_PROG e i) .write ∧
      s.limitsAllow (R.INF_PROG_odd e i) (fget v 32 32) = true ∧ s.limitsAllow (R.INF_PROG_even e i) (fget v 0 32) = true ∧
      s.touches e i c = true ∧ s.on (R.INF_CTX_CFG_hot_patch e c) = false) ∧
    (∃ (s : State) (r : Requester) (e : Fin 16) (i : Fin 512) (v : Word), Grants s r (R.INF_PROG e i) .write ∧ (s.limitsAllow
      (R.INF_PROG_odd e i) (fget v 32 32) = false ∨ s.limitsAllow (R.INF_PROG_even e i) (fget v 0 32) = false)) :=
  ⟨⟨(at_i 16), { master := 0, level := Level.supervisor }, 2, 2, by decide +kernel⟩,
   ⟨(at_i 0), { master := 0, level := Level.supervisor }, 2, 2, by decide +kernel⟩,
   ⟨(at_i 0), { master := 0, level := Level.supervisor }, 2, 2, by decide +kernel⟩,
   ⟨(at_i 0), { master := 0, level := Level.supervisor }, 2, 2, 0x0004#16, by decide +kernel⟩,
   ⟨(at_i 16), { master := 0, level := Level.supervisor }, 2, 2, 0x00000000000f4236#64, by decide +kernel⟩,
   ⟨(at_i 0), { master := 0, level := Level.supervisor }, 2, 2, 2, 0x00000000000f4236#64, by decide +kernel⟩,
   ⟨(at_i 19), { master := 0, level := Level.supervisor }, 2, 2, 0x00000000000f4236#64, by decide +kernel⟩⟩

theorem witness_TheGridReleasesActsAndResumes :
    (∃ (s : State) (e : Fin 16) (c : Fin 16) (op : GridOp) (reg : Bool) (n : Nat), (s.ctx e c).st = .waiting ∧ (s.ctx e
      c).wait = 1 ∧ (s.ctx e c).grid = some op ∧ s.windowOpen op.t = true ∧ decodeInsn op.instr = some (.wait reg n) ∧ (s.ctx
      e c).pre.map (·.1) = some ((s.ctx e c).pc / 2)) ∧
    (∃ (s : State) (e : Fin 16) (c : Fin 16) (op : GridOp) (bank : Bool) (rel : Bool) (mask : Nat) (value : Nat) (k : Nat)
      (ds : List (Nat × Drive)), (s.ctx e c).st = .waiting ∧ (s.ctx e c).wait = 1 ∧ (s.ctx e c).grid = some op ∧ s.windowOpen
      op.t = true ∧ tdiff s.now (deadline op.t) ≤ 0 ∧ decodeInsn op.instr = some (.out bank rel mask value k) ∧ s.outDrives e
      c bank rel mask value = some ds) ∧
    (∃ (s : State) (e : Fin 16) (c : Fin 16) (op : GridOp), (s.ctx e c).grid = some op ∧ s.windowOpen op.t = false) ∧
    (∃ (s : State) (e : Fin 16) (c : Fin 16) (g : Nat) (d : Drive) (t : Word) (o : Bool), (s.ctx e c).acts = [⟨t, [(g, d)],
      none, o⟩] ∧ 0 ≤ tdiff s.now t ∧ s.groupGated (groupOfPin g) = false ∧ (s.pin g).acted = none) ∧
    (∃ (s : State) (e : Fin 16) (c : Fin 16) (first : Nat) (n : Nat) (t : Word) (o : Bool), (s.ctx e c).acts = [⟨t, [], some
      (first, n), o⟩] ∧ 0 ≤ tdiff s.now t ∧ n ≤ 16) ∧
    (∃ (s : State) (e : Fin 16) (c : Fin 16) (sh : Shift) (i : Nat) (g : Nat), (s.ctx e c).outLane.cur = some sh ∧ (s.ctx e
      c).outLane.idx = i ∧ i < (s.ctx e c).outLane.outPeriods sh ∧ 0 ≤ tdiff s.now (sh.t + BitVec.ofNat 64 (i * sh.b)) ∧ sh.w
      = 1 ∧ s.slotDrive e c sh.slot = some g ∧ s.groupGated (groupOfPin g) = false ∧ (s.pin g).acted = none) ∧
    (∃ (s : State) (e : Fin 16) (c : Fin 16) (sh : Shift) (g : Nat), (s.ctx e c).inLane.cur = some sh ∧ (s.ctx e
      c).inLane.inDone = false ∧ 0 ≤ tdiff s.now (sh.t + BitVec.ofNat 64 ((s.ctx e c).inLane.idx * sh.b + sh.sample)) ∧ sh.w
      = 1 ∧ sh.stuff = 0 ∧ s.slotRead e c sh.slot = some g) ∧
    (∃ (s : State) (e : Fin 16) (c : Fin 16) (sh : Shift) (n : Nat), (s.ctx e c).outLane.cur = some sh ∧ (s.ctx e
      c).outLane.queued = none ∧ (s.ctx e c).outLane.outPeriods sh = n ∧ n ≤ (s.ctx e c).outLane.idx ∧ 0 ≤ tdiff s.now (sh.t
      + BitVec.ofNat 64 (n * sh.b))) ∧
    (∃ (s : State) (e : Fin 16) (c : Fin 16) (sh : Shift), (s.ctx e c).inLane.cur = some sh ∧ (s.ctx e c).inLane.queued =
      none ∧ (s.ctx e c).inLane.inDone = true ∧ 0 ≤ tdiff s.now (sh.t + BitVec.ofNat 64 ((s.ctx e c).inLane.idx * sh.b)) ∧
      (s.ctx e c).tauDue = false) ∧
    (∃ (s : State) (e : Fin 16) (c : Fin 16) (op : GridOp) (slot : Nat) (cond : Nat) (timeout : Nat) (t : Word), (s.ctx e
      c).watching = some (op, slot, cond, timeout) ∧ s.watchHit e c slot cond timeout op.t = some t) ∧
    (∃ (s : State) (e : Fin 16) (c : Fin 16) (op : GridOp) (slot : Nat) (cond : Nat) (timeout : Nat), (s.ctx e c).watching =
      some (op, slot, cond, timeout) ∧ s.watchHit e c slot cond timeout op.t = none) ∧
    (∃ (s : State) (e : Fin 16) (c : Fin 16) (op : GridOp) (slot : Nat) (cond : Nat) (timeout : Nat), (s.ctx e c).watching =
      some (op, slot, cond, timeout) ∧ s.watchHit e c slot cond timeout op.t = none ∧ timeout ≠ 0 ∧ 0 ≤ tdiff s.now (op.t +
      BitVec.ofNat 64 (2 * timeout)) ∧ (s.ctx e c).loopOn = false) ∧
    (∃ (s : State) (e : Fin 16) (c : Fin 16), (s.ctx e c).st = .waiting ∧ (s.ctx e c).wait = 9 ∧ (s.ctx e c).slot = none ∧
      (s.ctx e c).cur = none ∧ s.eccOf .prog (512 * e + (s.ctx e c).pc / 2) = .clean) :=
  ⟨⟨(at_i 0), 2, 2, { instr := 0x00000005#32, pc := 4, t := 0x00000000000f4240#64 }, false, 5, by decide +kernel⟩,
   ⟨(at_i 20), 2, 2, { instr := 0x10040004#32, pc := 4, t := 0x00000000000f424a#64 }, false, false, 1, 0, 4, [(10,
     Drive.low)], by decide +kernel⟩,
   ⟨(at_i 1), 2, 2, { instr := 0x00000005#32, pc := 4, t := 0x00000000001cfde0#64 }, by decide +kernel⟩,
   ⟨(at_i 3), 2, 2, 9, .low, 999990, false, by decide +kernel⟩,
   ⟨(at_i 4), 2, 2, 0, 2, 999990, false, by decide +kernel⟩,
   ⟨(at_i 21), 2, 2, { planned := 0x0000000000000005#64, t := 0x0000000000000005#64, pc := 0, b := 5, n := 3, w := 1, order := false, sample := 0, clkMode := 0, clkSlot := 0, slot := 0, stuff := 0, cont := false, adv := false, bits := [true, false, true] },
     0, 10, by decide +kernel⟩,
   ⟨(at_i 9), 2, 2, { planned := 0x0000000000000005#64, t := 0x0000000000000005#64, pc := 0, b := 5, n := 3, w := 1, order := false, sample := 0, clkMode := 0, clkSlot := 0, slot := 0, stuff := 0, cont := false, adv := false, bits := [] },
     10, by decide +kernel⟩,
   ⟨(at_i 7), 2, 2, { planned := 0x0000000000000005#64, t := 0x0000000000000005#64, pc := 0, b := 5, n := 3, w := 1, order := false, sample := 0, clkMode := 0, clkSlot := 0, slot := 0, stuff := 0, cont := false, adv := false, bits := [] },
     0, by decide +kernel⟩,
   ⟨(at_i 10), 2, 2, { planned := 0x0000000000000005#64, t := 0x0000000000000005#64, pc := 0, b := 5, n := 3, w := 1, order := false, sample := 0, clkMode := 0, clkSlot := 0, slot := 0, stuff := 0, cont := false, adv := false, bits := [] },
     by decide +kernel⟩,
   ⟨(at_i 6), 2, 2, { instr := 0x90000064#32, pc := 4, t := 0x00000000000f4114#64 }, 0, 0, 100, 0x00000000000f4146#64,
     by decide +kernel⟩,
   ⟨(at_i 5), 2, 2, { instr := 0x90000064#32, pc := 4, t := 0x00000000000f3e58#64 }, 0, 0, 100, by decide +kernel⟩,
   ⟨(at_i 5), 2, 2, { instr := 0x90000064#32, pc := 4, t := 0x00000000000f3e58#64 }, 0, 0, 100, by decide +kernel⟩,
   ⟨(at_i 11), 2, 2, by decide +kernel⟩⟩

theorem witness_InfuserWordsReadBack :
    (∃ (i : Insn), i.wf = true) ∧
    (∃ (w : BitVec 32) (i : Insn), decodeInsn w = some i) :=
  ⟨⟨Insn.wait true 0, by decide +kernel⟩,
   ⟨0xf0000000#32, Insn.nop, by decide +kernel⟩⟩

end Wi

/-! #### Of power ports -/

namespace Wj

def late (s : State) : State := { s with clk := 20000000000, now := 1000000 }
def B (x : Mode) : State := let s : State := late (lk (m x))
  let s : State := { s with loaded := { s.loaded with sections := [0xD, 0xE] } }
  let s : State := [0,5,31].foldl (fun (s : State) k => (((s.wr (R.PWP_CFG_timer k) 10).wr (R.PWP_CFG_off_settle k) 5).wr (R.PWP_CFG_retry k) 3)) s
  let s : State := [0,1].foldl (fun (s : State) g => (s.setGroup g { iso := .closed, supply := true, since := 5 }).wr (R.PWP_GROUP_supply g) 24000) s
  s
def P (s : State) (p : Port) (st : Nat) (pg : Nat) : State := [0,5,31].foldl (fun (s : State) k => ((s.setPort k p).wr (R.PWP_STAT_state k) st).wr (R.PWP_STAT_pg k) pg) s
def p1 : Port := { passOn := true, inReg := true, acc := 792, diode := 40, estimate := 45 }
def ps : List State := [B .run, P (B .run) p1 1 0, P (B .run) { p1 with acc := 20 } 1 0, P (B .run) { p1 with inReg := false, acc := 30 } 2 1, P (B .run) { p1 with inReg := false, acc := 30 } 3 0, P (B .run) { p1 with inReg := false, acc := 900 } 3 0,
  P (B .run) { latchedAt := 19999900000, resetDue := true } 4 0, P (B .run) { latchedAt := 5, resetDue := true } 4 0, P (B .run) { diode := 200 } 5 0, P (B .run) { } 6 0, P (B .safe) { } 0 0, (P (B .run) {condSince := some 5} 0 0).wr (R.PWP_MEAS_vout 0) 3000,
  ((P (B .run) {condSince := some 5} 0 0).wr (R.PWP_MEAS_vout 0) 3000).wr (R.PWP_STAT_damaged 0) 1, ((P (B .run) {condSince := some 5} 0 0).setGroup 0 { supply := true, since := 7}), ((P (B .run) {} 5 0).wr (R.PWP_CMD_on 0) 1).wr (R.PWP_CMD_on 5) 1, (((P (B .run) { latchedAt := 5, resetDue := true } 4 0).wr (R.PWP_CMD_on 0) 1).wr (R.PWP_CMD_on 5) 1), ((P (B .run) { latchedAt := 5, resetDue := true, diode := 150 } 4 0).wr (R.PWP_CMD_on 0) 1),
  { P (B .run) p1 1 0 with loaded := { (B .run).loaded with sections := [0xE] } }, { P (B .run) p1 1 0 with variant := .c3248 }]
def sts : List State := ps
def at_j (i : Nat) : State := sts.getD i State.reset

theorem witness_PortsRampTripAndReportPowerGood :
    (∃ (s : State) (r : Requester) (k : Fin 32), Grants s r (R.PWP_CMD k) .write ∧ s.loaded.sections.contains 0xD = true ∧
      s.limitsAllow (R.PWP_CMD_on k) 1 = true ∧ s.isolatorsForced = false ∧ s.portRule = .command ∧ (s.rd (R.PWP_STAT_state
      k) = 0 ∨ s.rd (R.PWP_STAT_state k) = 5 ∨ s.rd (R.PWP_STAT_state k) = 6) ∧ (s.group (groupOfPort k)).iso = .closed ∧
      s.on (R.PWP_STAT_damaged k) = false ∧ s.portCool k = true) ∧
    (∃ (s : State) (r : Requester) (k : Fin 32), Grants s r (R.PWP_CMD k) .write ∧ s.limitsAllow (R.PWP_CMD_on k) 0 = true ∧
      s.isolatorsForced = false ∧ s.portRule = .command ∧ (s.group (groupOfPort k)).iso = .closed) ∧
    (∃ (s : State) (r : Requester) (k : Fin 32), Grants s r (R.PWP_CMD k) .write ∧ s.loaded.sections.contains 0xD = false) ∧
    (∃ (s : State) (k : Fin 32) (tj : Int), s.portsLive = true ∧ (s.port k).passOn = true ∧ s.rd (R.PWP_STAT_state k) ≠ 4 ∧
      160 ≤ tj) ∧
    (∃ (s : State) (k : Fin 32) (mw : Nat) (tj : Int) (d : Rat), s.portsLive = true ∧ (s.port k).passOn = true ∧ s.rd
      (R.PWP_STAT_state k) ≠ 4 ∧ s.modelRuns (groupOfPort k) = true ∧ d = (s.port k).delayed + ((mw : Rat) / 1000 - (s.port
      k).delayed) / 5 ∧ 160 ≤ (tj : Rat) + ((mw : Rat) / 1000 - d) / 2) ∧
    (∃ (s : State) (k : Fin 32), s.portsLive = true ∧ (s.port k).passOn = true ∧ s.rd (R.PWP_STAT_state k) ≠ 4 ∧ 80 * s.rd
      (R.PWP_CFG_timer k) ≤ (if (s.port k).inReg = true then (s.port k).acc + 8 else (s.port k).acc - 1)) ∧
    (∃ (s : State) (k : Fin 32), s.portsLive = true ∧ (s.port k).passOn = true ∧ s.rd (R.PWP_STAT_state k) ≠ 4 ∧ 80 * s.rd
      (R.PWP_CFG_timer k) ≤ (s.port k).acc) ∧
    (∃ (s : State) (k : Fin 32), (s.portsLive = false ∨ (s.port k).passOn = false ∨ s.rd (R.PWP_STAT_state k) = 4)) ∧
    (∃ (s : State) (k : Fin 32) (tj : Int), tj < 160) ∧
    (∃ (s : State) (k : Fin 32) (mw : Nat) (tj : Int) (d : Rat) (e : Rat), s.modelRuns (groupOfPort k) = true ∧ d = (s.port
      k).delayed + ((mw : Rat) / 1000 - (s.port k).delayed) / 5 ∧ e = (tj : Rat) + ((mw : Rat) / 1000 - d) / 2 ∧ e < 160) ∧
    (∃ (s : State) (k : Fin 32), s.portsLive = true ∧ (s.port k).passOn = false) ∧
    (∃ (s : State) (k : Fin 32) (n : Nat), s.portsLive = true ∧ (s.port k).passOn = true ∧ n = (if (s.port k).inReg = true
      then (s.port k).acc + 8 else (s.port k).acc - 1) ∧ n < 80 * s.rd (R.PWP_CFG_timer k)) ∧
    (∃ (s : State) (k : Fin 32), (s.port k).passOn = true ∧ (s.port k).inReg = false) ∧
    (∃ (s : State) (k : Fin 32), (s.port k).passOn = true) ∧
    (∃ (s : State) (k : Fin 32) (vout : BitVec 16), (s.port k).passOn = true ∧ (s.port k).inReg = false ∧ s.rd
      (R.PWP_GROUP_supply (groupOfPort k)) ≤ vout.toNat + 1000 ∧ vout.toNat ≤ s.rd (R.PWP_GROUP_supply (groupOfPort k)) +
      1000 ∧ (s.rd (R.PWP_STAT_state k) = 1 ∨ s.rd (R.PWP_STAT_state k) = 3) ∧ ((s.port k).acc < 80 * s.rd (R.PWP_CFG_timer
      k) ∨ s.portsLive = false)) ∧
    (∃ (s : State) (k : Fin 32) (vout : BitVec 16), (s.port k).passOn = true ∧ (s.port k).inReg = false ∧ s.rd
      (R.PWP_GROUP_supply (groupOfPort k)) ≤ vout.toNat + 1000 ∧ vout.toNat ≤ s.rd (R.PWP_GROUP_supply (groupOfPort k)) +
      1000 ∧ s.rd (R.PWP_STAT_state k) ≠ 4 ∧ s.portsLive = true ∧ 80 * s.rd (R.PWP_CFG_timer k) ≤ (s.port k).acc) ∧
    (∃ (s : State) (k : Fin 32) (vout : BitVec 16), ((s.port k).passOn = false ∨ (s.port k).inReg = true ∨ vout.toNat + 1000
      < s.rd (R.PWP_GROUP_supply (groupOfPort k)) ∨ s.rd (R.PWP_GROUP_supply (groupOfPort k)) + 1000 < vout.toNat)) ∧
    (∃ (s : State) (k : Fin 32) (vout : BitVec 16), vout.toNat + 1500 < s.rd (R.PWP_GROUP_supply (groupOfPort k))) ∧
    (∃ (s : State) (k : Fin 32) (vout : BitVec 16), s.rd (R.PWP_GROUP_supply (groupOfPort k)) ≤ vout.toNat + 1500) ∧
    (∃ (s : State) (k : Fin 32) (tj : Int), s.portsLive = true ∧ s.rd (R.PWP_STAT_state k) = 5 ∧ tj ≤ 130 ∧ (s.port
      k).estimate ≤ 130 ∧ (s.group (groupOfPort k)).iso = .closed ∧ s.effective k = true ∧ s.on (R.PWP_STAT_damaged k) =
      false) ∧
    (∃ (s : State) (k : Fin 32), s.asleep = false ∧ (s.port k).resetDue = true ∧ s.rd (R.PWP_STAT_state k) = 4 ∧ s.rd
      (R.PWP_CFG_retry k) * 100000000 ≤ s.clk - (s.port k).latchedAt ∧ (s.group (groupOfPort k)).iso = .closed ∧ s.on
      (R.PWP_STAT_damaged k) = false) ∧
    (∃ (s : State) (k : Fin 32), (s.asleep = true ∨ (s.port k).resetDue = false)) :=
  ⟨⟨(at_j 0), { master := 0, level := Level.supervisor }, 0, by decide +kernel⟩,
   ⟨(at_j 0), { master := 0, level := Level.supervisor }, 0, by decide +kernel⟩,
   ⟨(at_j 17), { master := 0, level := Level.supervisor }, 0, by decide +kernel⟩,
   ⟨(at_j 1), 0, 160, by decide +kernel⟩,
   ⟨(at_j 1), 0, 0, 160, 0, by decide +kernel⟩,
   ⟨(at_j 1), 0, by decide +kernel⟩,
   ⟨(at_j 5), 0, by decide +kernel⟩,
   ⟨(at_j 0), 0, by decide +kernel⟩,
   ⟨(at_j 0), 0, -50, by decide +kernel⟩,
   ⟨(at_j 0), 0, 0, -50, 0, -50, by decide +kernel⟩,
   ⟨(at_j 0), 0, by decide +kernel⟩,
   ⟨(at_j 2), 0, 28, by decide +kernel⟩,
   ⟨(at_j 3), 0, by decide +kernel⟩,
   ⟨(at_j 1), 0, by decide +kernel⟩,
   ⟨(at_j 4), 0, 0x59d8#16, by decide +kernel⟩,
   ⟨(at_j 5), 0, 0x59d8#16, by decide +kernel⟩,
   ⟨(at_j 0), 0, 0x0000#16, by decide +kernel⟩,
   ⟨(at_j 0), 0, 0x0000#16, by decide +kernel⟩,
   ⟨(at_j 0), 0, 0x59d8#16, by decide +kernel⟩,
   ⟨(at_j 14), 0, -50, by decide +kernel⟩,
   ⟨(at_j 7), 0, by decide +kernel⟩,
   ⟨(at_j 0), 0, by decide +kernel⟩⟩

theorem witness_PortSettingsDamageAndIsolators :
    (∃ (s : State) (r : Requester) (k : Fin 32) (v : Word), Grants s r (R.PWP_CFG k) .write ∧ s.loaded.tuning = [] ∧ 1 ≤ fget
      v 48 16 ∧ fget v 48 16 ≤ 10000 ∧ 5 ≤ fget v 37 11 ∧ fget v 37 11 ≤ 2000 ∧ 2 ≤ fget v 32 5 ∧ fget v 32 5 ≤ 30 ∧ 150 ≤
      fget v 16 10 ∧ fget v 16 10 ≤ 600 ∧ 10 ≤ fget v 8 8 ∧ fget v 8 8 ≤ 200 ∧ 1 ≤ fget v 2 6 ∧ fget v 32 5 ^ 2 * fget v 37
      11 ≤ 100000 ∧ 3 * fget v 8 8 ≤ 2 * fget v 16 10) ∧
    (∃ (s : State) (r : Requester) (k : Fin 32) (v : Word), Grants s r (R.PWP_CFG k) .write ∧ s.loaded.tuning = [] ∧ 1 ≤ fget
      v 48 16 ∧ fget v 48 16 ≤ 10000 ∧ 5 ≤ fget v 37 11 ∧ fget v 37 11 ≤ 2000 ∧ 2 ≤ fget v 32 5 ∧ fget v 32 5 ≤ 30 ∧ 150 ≤
      fget v 16 10 ∧ fget v 16 10 ≤ 600 ∧ 10 ≤ fget v 8 8 ∧ fget v 8 8 ≤ 200 ∧ 1 ≤ fget v 2 6 ∧ (100000 < fget v 32 5 ^ 2 *
      fget v 37 11 ∨ 2 * fget v 16 10 < 3 * fget v 8 8)) ∧
    (∃ (s : State) (k : Fin 32) (t : Nat), s.portsLive = true ∧ (s.port k).condSince = some t ∧ s.on (R.PWP_STAT_damaged k) =
      false ∧ s.damageCond k = true ∧ t + s.rd (R.PWP_CFG_off_settle k) * 1000000 ≤ s.clk) ∧
    (∃ (s : State) (k : Fin 32), (s.portsLive = false ∨ (s.port k).condSince = none ∨ s.damageCond k = false)) ∧
    (∃ (s : State) (r : Requester) (k : Fin 32), Grants s r (R.PWP_STAT k) .write ∧ r.level = .supervisor ∧ s.on
      (R.PWP_STAT_damaged k) = true ∧ (s.port k).passOn = false ∧ s.rd (R.PWP_STAT_state k) ≠ 4 ∧ s.effective k = false ∧
      (s.group (groupOfPort k)).iso = .closed) ∧
    (∃ (s : State) (r : Requester) (k : Fin 32), Grants s r (R.PWP_STAT k) .write ∧ r.level ≠ .supervisor) ∧
    (∃ (s : State) (k : Fin 32) (vout : BitVec 16) (ma : BitVec 16) (supply : BitVec 16) (groupMa : BitVec 16) (tj : Int) (g
      : Nat), s.portsLive = true ∧ g = groupOfPort k) ∧
    (∃ (s : State) (r : Requester) (g : Fin 2), Grants s r (R.PWP_GROUP g) .write ∧ r.level = .supervisor) ∧
    (∃ (s : State) (r : Requester) (g : Fin 2), Grants s r (R.PWP_GROUP g) .write ∧ r.level = .supervisor ∧ (s.group
      g).supply = true ∧ s.isolatorsForced = false ∧ (s.group g).iso = .opened ∧ ((∀ k ∈ groupPorts g, s.on
      (R.PWP_STAT_damaged k) = false))) ∧
    (∃ (s : State) (r : Requester) (g : Fin 2), Grants s r (R.PWP_GROUP g) .write ∧ (r.level ≠ .supervisor ∨ (s.group
      g).supply = false ∨ (∃ k ∈ groupPorts g, s.on (R.PWP_STAT_damaged k) = true))) :=
  ⟨⟨(at_j 0), { master := 0, level := Level.supervisor }, 0, 0x0005014a012c640c#64, by decide +kernel⟩,
   ⟨(at_j 0), { master := 0, level := Level.supervisor }, 0, 0x0005fa1e012c640c#64, by decide +kernel⟩,
   ⟨(at_j 11), 0, 5, by decide +kernel⟩,
   ⟨(at_j 0), 0, by decide +kernel⟩,
   ⟨(at_j 12), { master := 0, level := Level.supervisor }, 0, by decide +kernel⟩,
   ⟨(at_j 0), { master := 1, level := Level.operator }, 0, by decide +kernel⟩,
   ⟨(at_j 0), 0, 0x0000#16, 0x0000#16, 0x0000#16, 0x0000#16, -50, 0, by decide +kernel⟩,
   ⟨(at_j 0), { master := 0, level := Level.supervisor }, 0, by decide +kernel⟩,
   ⟨(at_j 13), { master := 0, level := Level.supervisor }, 0, by decide +kernel⟩,
   ⟨(at_j 0), { master := 1, level := Level.operator }, 0, by decide +kernel⟩⟩

end Wj

/-! #### Of scripts and core voltage -/

namespace Wk

def late (s : State) : State := { s with clk := 20000000000, now := 1000000 }
def B (x : Mode) : State := let s : State := late (lk (m x))
  let s : State := { s with loaded := { s.loaded with sections := [0xD, 0xE] } }
  let s : State := (((s.wr R.PWR_WINDOW_ceiling 900).wr R.PWR_WINDOW_run_floor 720).wr R.PWR_WINDOW_doze_floor 650).wr R.PWR_STATUS_core_mv 850
  let s : State := (((s.wr R.PWR_STATUS_requested 850).wr R.PWR_LOOP_enable 1).wr R.PWR_LOOP_slack_low 4).wr R.PWR_LOOP_slack_high 10
  let s : State := ((s.wr (R.KET_SRC_threshold 3) 100).wr (R.KET_SRC_threshold 4) 110).wr (R.KET_SRC_threshold 5) 120
  let s : State := [0,1].foldl (fun (s : State) g => (s.setGroup g { iso := .closed, supply := true, since := 5 }).wr (R.PWP_GROUP_supply g) 24000) s
  (s.wr (R.PWP_SEQ_STAT_defined 0) 1).wr (R.PWP_SEQ_STAT_entry 0) 7
def sc (i w : Nat) (st : Nat) (s : State) : State := ((s.wr (R.PWP_SEQ_STAT_state i) st).wr (R.PWP_SEQ_STAT_pc i) 9).setWord (R.PWP_SEQ_PROG 4) (BitVec.ofNat 64 (w * 2 ^ 32))
def wds : List Nat := [0, 0x10000003, 0x10018001, 0x20000003, 0x20010001, 0x30000003, 0x300A0001, 0x30018000, 0x40000005, 0x5000000C, 0x60000321, 0x61000105, 0x70030123]
def vs : List Vsi := [⟨800, 1, 5, false, false⟩, ⟨800, 2, 5, true, false⟩, ⟨1200, 1, 5, true, true⟩, ⟨800, 1, 19999900000, false, true⟩, ⟨650, 1, 5, false, true⟩]
def scs : List State := wds.flatMap (fun w => [sc 0 w 1 (B .run), sc 3 w 1 ((B .run).wr (R.PWP_STAT_pg 0) 1)]) ++ [B .run, sc 0 0x30000003 2 (B .run), sc 0 0x10000003 2 (B .run), sc 0 0x10000003 3 (B .run), sc 0 0x60000321 1 ((B .run).wr (R.PWP_STAT_state 1) 4), sc 0 0x30000003 1 (((B .run).wr (R.PWP_STAT_pg 0) 1).wr (R.PWP_STAT_pg 1) 1),
 (sc 0 0x30000003 2 (B .run)).setScript 0 ⟨some 5, 3, true⟩, (sc 0 0x30000003 2 (((B .run).wr (R.PWP_STAT_pg 0) 1).wr (R.PWP_STAT_pg 1) 1)).setScript 0 ⟨some 5, 3, true⟩, (sc 0 0x30000003 2 (B .run)).setScript 0 ⟨some 5, 0, false⟩, (sc 0 0x30000003 2 (B .run)).setScript 0 ⟨some 20000000001, 0, false⟩]
def vss : List State := vs.map (fun v => { B .run with power := { (B .run).power with vsi := some v } }) ++ [B .run, { B .safe with power := { (B .safe).power with vsi := some ⟨800, 2, 5, true, false⟩ } }, (B .run).wr R.PWR_LOOP_frozen 1, (B .run).wr R.PWR_STATUS_core_mv 700, { B .run with power := { (B .run).power with slack := 2 } }, { B .run with power := { (B .run).power with slack := 6 } }, { B .run with power := { (B .run).power with missed := true } }, (B .run).wr R.PWR_STATUS_requested 725, { B .run with kettle := { (B .run).kettle with hot := 1 } }, (B .boot), B .doze]
def sts : List State := scs ++ vss
def at_k (i : Nat) : State := sts.getD i State.reset

theorem witness_ScriptsRunTheirInstructions :
    (∃ (s : State) (r : Requester) (i : Fin 4), Grants s r R.PWP_SEQ_CTRL .write ∧ s.on (R.PWP_SEQ_STAT_defined i) = true ∧
      (s.rd (R.PWP_SEQ_STAT_state i) = 0 ∨ s.rd (R.PWP_SEQ_STAT_state i) = 3)) ∧
    (∃ (s : State) (r : Requester) (i : Fin 4), Grants s r R.PWP_SEQ_CTRL .write ∧ (s.on (R.PWP_SEQ_STAT_defined i) = false ∨
      s.rd (R.PWP_SEQ_STAT_state i) = 1 ∨ s.rd (R.PWP_SEQ_STAT_state i) = 2)) ∧
    (∃ (s : State) (r : Requester) (m : BitVec 4), Grants s r R.PWP_SEQ_CTRL .write) ∧
    (∃ (s : State) (i : Fin 4) (w : Nat), ScriptAt s i w ∧ nbits w 28 4 = 0) ∧
    (∃ (s : State) (i : Fin 4) (w : Nat), ScriptAt s i w ∧ nbits w 28 4 = 1) ∧
    (∃ (s : State) (i : Fin 4) (w : Nat), ScriptAt s i w ∧ nbits w 28 4 = 2) ∧
    (∃ (s : State) (i : Fin 4) (w : Nat), ScriptAt s i w ∧ nbits w 28 4 = 3 ∧ s.allPg (seqPorts (nbits w 16 1) (nbits w 0
      16)) = true) ∧
    (∃ (s : State) (i : Fin 4) (w : Nat), ScriptAt s i w ∧ nbits w 28 4 = 3 ∧ s.allPg (seqPorts (nbits w 16 1) (nbits w 0
      16)) = false) ∧
    (∃ (s : State) (i : Fin 4), s.waitsPg i = true ∧ s.allPg (s.script i).ports = true) ∧
    (∃ (s : State) (i : Fin 4), s.allPg (s.script i).ports = false) ∧
    (∃ (s : State) (i : Fin 4) (t : Nat), s.waitsPg i = true ∧ (s.script i).waitEnd = some t ∧ t ≤ s.clk ∧ s.allPg (s.script
      i).ports = false) ∧
    (∃ (s : State) (i : Fin 4), ((s.script i).waitEnd = none ∨ s.allPg (s.script i).ports = true)) ∧
    (∃ (s : State) (i : Fin 4) (w : Nat), ScriptAt s i w ∧ nbits w 28 4 = 4) ∧
    (∃ (s : State) (i : Fin 4) (t : Nat), s.rd (R.PWP_SEQ_STAT_state i) = 2 ∧ (s.script i).onPg = false ∧ (s.script
      i).waitEnd = some t ∧ t ≤ s.clk) ∧
    (∃ (s : State) (i : Fin 4) (t : Nat), s.rd (R.PWP_SEQ_STAT_state i) = 2 ∧ (s.script i).onPg = false ∧ (s.script
      i).waitEnd = some t ∧ s.clk < t) ∧
    (∃ (s : State) (i : Fin 4) (w : Nat), ScriptAt s i w ∧ nbits w 28 4 = 5) ∧
    (∃ (s : State) (i : Fin 4) (w : Nat), ScriptAt s i w ∧ nbits w 28 4 = 6) ∧
    (∃ (s : State) (i : Fin 4) (w : Nat), ScriptAt s i w ∧ nbits w 28 4 = 7) ∧
    (∃ (s : State) (i : Fin 4), s.rd (R.PWP_SEQ_STAT_state i) ≠ 1) ∧
    (∃ (s : State) (i : Fin 4) (w : Nat), ScriptAt s i w ∧ nbits w 28 4 ≠ 1) :=
  ⟨⟨(at_k 1), { master := 0, level := Level.supervisor }, 0, by decide +kernel⟩,
   ⟨(at_k 0), { master := 0, level := Level.supervisor }, 0, by decide +kernel⟩,
   ⟨(at_k 0), { master := 0, level := Level.supervisor }, 0x0#4, by decide +kernel⟩,
   ⟨(at_k 0), 0, 0, by decide +kernel⟩,
   ⟨(at_k 2), 0, 268435459, by decide +kernel⟩,
   ⟨(at_k 6), 0, 536870915, by decide +kernel⟩,
   ⟨(at_k 13), 3, 805961729, by decide +kernel⟩,
   ⟨(at_k 10), 0, 805306371, by decide +kernel⟩,
   ⟨(at_k 33), 0, by decide +kernel⟩,
   ⟨(at_k 32), 0, by decide +kernel⟩,
   ⟨(at_k 32), 0, 5, by decide +kernel⟩,
   ⟨(at_k 0), 0, by decide +kernel⟩,
   ⟨(at_k 16), 0, 1073741829, by decide +kernel⟩,
   ⟨(at_k 34), 0, 5, by decide +kernel⟩,
   ⟨(at_k 35), 0, 20000000001, by decide +kernel⟩,
   ⟨(at_k 18), 0, 1342177292, by decide +kernel⟩,
   ⟨(at_k 20), 0, 1610613537, by decide +kernel⟩,
   ⟨(at_k 24), 0, 1879245091, by decide +kernel⟩,
   ⟨(at_k 0), 3, by decide +kernel⟩,
   ⟨(at_k 0), 0, 0, by decide +kernel⟩⟩

theorem witness_TheCoreVoltageFollowsItsRequests :
    (∃ (s : State) (v : Vsi), s.power.vsi = some v ∧ v.target < 2 ^ 16 ∧ s.power.vsiWait = [] ∧ s.power.exit = none ∧
      s.power.hib = none ∧ s.hub.mode ≠ .hibernate ∧ s.mvWindow.1 ≤ v.target ∧ v.target ≤ s.mvWindow.2) ∧
    (∃ (s : State), s.power.vsi = none) ∧
    (∃ (s : State) (v : Vsi), s.power.vsi = some v ∧ v.retry = false ∧ 200000 ≤ s.clk - v.sentAt ∧ v.target < 2 ^ 16) ∧
    (∃ (s : State) (v : Vsi), s.power.vsi = some v ∧ v.retry = true ∧ 200000 ≤ s.clk - v.sentAt ∧ s.hub.mode ≠ .boot ∧
      s.hub.mode ≠ .hibernate ∧ s.power.exit = none ∧ s.power.hib = none ∧ s.power.vsiWait = []) ∧
    (∃ (s : State) (v : Vsi), s.power.vsi = some v ∧ s.clk - v.sentAt < 200000) ∧
    (∃ (s : State) (r : Requester) (v : Word), Grants s r R.PWR_WINDOW .write ∧ s.loaded.tuning = [] ∧ s.power.late = false ∧
      s.on R.PWR_LOOP_at_risk = false ∧ windowMvOk (fget v 48 16) (fget v 32 16) (fget v 16 16) = true ∧ s.power.vsi = none ∧
      s.hub.mode = .run ∧ fget v 32 16 ≤ s.rd R.PWR_STATUS_core_mv ∧ s.rd R.PWR_STATUS_core_mv ≤ fget v 48 16) ∧
    (∃ (s : State) (r : Requester) (v : Word), Grants s r R.PWR_WINDOW .write ∧ s.loaded.tuning = [] ∧ s.power.late = false ∧
      s.on R.PWR_LOOP_at_risk = false ∧ windowMvOk (fget v 48 16) (fget v 32 16) (fget v 16 16) = true ∧ s.power.vsi = none ∧
      s.hub.mode = .run ∧ s.rd R.PWR_STATUS_core_mv < fget v 32 16) ∧
    (∃ (s : State) (r : Requester) (v : Word), Grants s r R.PWR_WINDOW .write ∧ s.loaded.tuning = [] ∧ s.power.late = false ∧
      s.on R.PWR_LOOP_at_risk = false ∧ windowMvOk (fget v 48 16) (fget v 32 16) (fget v 16 16) = false ∧ s.power.vsi = none
      ∧ s.hub.mode = .run ∧ s.rd R.PWR_WINDOW_run_floor ≤ s.rd R.PWR_STATUS_core_mv ∧ s.rd R.PWR_STATUS_core_mv ≤ s.rd
      R.PWR_WINDOW_ceiling) ∧
    (∃ (s : State) (r : Requester), Grants s r R.PWR_LOOP .write ∧ r.level = .supervisor) ∧
    (∃ (s : State) (r : Requester), Grants s r R.PWR_LOOP .write ∧ r.level ≠ .supervisor) ∧
    (∃ (s : State) (counts : List (BitVec 16)) (t : Nat), s.loopRuns = true ∧ s.power.vsi = none ∧ s.hub.mode = .run ∧ s.on
      R.PWR_LOOP_ring_guard = false ∧ s.rd R.PWR_WINDOW_run_floor ≤ s.rd R.PWR_STATUS_requested ∧ s.rd R.PWR_STATUS_requested
      < s.rd R.PWR_WINDOW_ceiling ∧ (t = (if s.power.missed = true ∨ s.power.slack < (s.rd R.PWR_LOOP_slack_low : Int) then
      min (s.rd R.PWR_STATUS_requested + 10) (s.rd R.PWR_WINDOW_ceiling) else if (s.rd R.PWR_LOOP_slack_high : Int) <
      s.power.slack then max (s.rd R.PWR_WINDOW_run_floor) (s.rd R.PWR_STATUS_requested - 5) else s.rd
      R.PWR_STATUS_requested))) ∧
    (∃ (s : State) (counts : List (BitVec 16)), s.loopRuns = false) :=
  ⟨⟨(at_k 36), { target := 800, source := 1, sentAt := 5, retry := false, rise := false }, by decide +kernel⟩,
   ⟨(at_k 0), by decide +kernel⟩,
   ⟨(at_k 36), { target := 800, source := 1, sentAt := 5, retry := false, rise := false }, by decide +kernel⟩,
   ⟨(at_k 37), { target := 800, source := 2, sentAt := 5, retry := true, rise := false }, by decide +kernel⟩,
   ⟨(at_k 39), { target := 800, source := 1, sentAt := 19999900000, retry := false, rise := true }, by decide +kernel⟩,
   ⟨(at_k 0), { master := 0, level := Level.supervisor }, 0x038402d0028a0000#64, by decide +kernel⟩,
   ⟨(at_k 0), { master := 0, level := Level.supervisor }, 0x0384035c028a0000#64, by decide +kernel⟩,
   ⟨(at_k 0), { master := 0, level := Level.supervisor }, 0x02bc035c028a0000#64, by decide +kernel⟩,
   ⟨(at_k 0), { master := 0, level := Level.supervisor }, by decide +kernel⟩,
   ⟨(at_k 0), { master := 0, level := Level.localLevel }, by decide +kernel⟩,
   ⟨(at_k 0), [], 845, by decide +kernel⟩,
   ⟨(at_k 43), [], by decide +kernel⟩⟩

end Wk

/-! #### Of the Kettle, performance counters and the step -/

namespace Wl

def late (s : State) : State := { s with clk := 20000000000, now := 1000000 }
def B (x : Mode) : State := let s : State := late (lk (m x))
  let s : State := [0,1].foldl (fun (s : State) n => [8*n,8*n+1].foldl (fun (s : State) g => (((s.wr (R.BAY_PIN_mode g) 3).wr (R.BAY_PIN_owner g) 1).wr (R.BAY_PIN_safe g) 2).setPin g { owner := .high, pad := .low }) s) s
  (s.wr (R.BAY_OUT_enable 0) 3).wr (R.BAY_OUT_value 0) 1
def ta : Tally := ⟨5, 8, 2, 5, 1, [(0, 3)]⟩
def w0 : Wrap := ⟨ta, 77, 5, 3⟩
def sm : Sample := ⟨5, 2, 3, 4, 1, false, false, 99⟩
def k1 : State := { B .run with kettle := { (B .run).kettle with pulseEnd := some 5 } }
def sts : List State := [B .run, B .safe, B .hibernate, B .trial, B .island, k1, { k1 with kettle := { k1.kettle with pulseEnd := some 20000000001, selfFault := true } },
  { B .run with kettle := { (B .run).kettle with masks := [⟨3, [3, 0x100], 1, some 5⟩, ⟨4, [7], 1, none⟩] } }, (B .run).wr R.KET_FORCE_forced 3, (B .run).wr (R.KET_CNT_count 6) 65535, (B .run).wr R.PMC_CTRL_freeze 1, (B .run).wr R.PMC_STATUS_snap_busy 1,
  { (B .run).wr R.PMC_STATUS_snap_busy 1 with pmc := { (B .run).pmc with heldCounts := [ta], snapAt := 5 } }, { (B .run).wr (R.PMC_CNT_count 5) (2^48 - 1) with pmc := { (B .run).pmc with fifo := [sm, sm] } }, { B .run with pmc := { (B .run).pmc with waiting := [w0] } },
  { B .run with pmc := { (B .run).pmc with waiting := [w0], fifo := List.replicate 16 sm } }, { (B .run) with hub := { (B .run).hub with rstLow := true } }, { ((B .run).wr R.PMC_CTRL_freeze 1) with pmc := { (B .run).pmc with waiting := [w0] } }, { B .run with kettle := { (B .run).kettle with differs := [3] } }, (B .run).wr R.KET_STATUS_self_fault 1]
def putS : State := State.reset.setCtx 2 2 { st := .running, pre := some (0, BitVec.ofNat 64 (encodeInsn (.qput true false false false 0 false)).toNat) }
def limS : State := B .run
def at_l (i : Nat) : State := sts.getD i State.reset

theorem witness_TheKettleScrubsAndItsEffectsEnd :
    (∃ (s : State) (n : Nat), s.kettleUp = true ∧ s.markedCopies = []) ∧
    (∃ (s : State) (n : Nat) (b : Option (Fin 512 × Bool)), s.kettleUp = false) ∧
    (∃ (s : State) (n : Nat) (i : Fin 512) (unc : Bool), s.kettleUp = true ∧ s.on R.KET_STATUS_self_fault = false ∧
      s.markedCopies = [] ∧ (s.hub.mode = .run ∨ s.hub.mode = .runDegraded ∨ s.hub.mode = .island ∨ s.hub.mode = .trial)) ∧
    (∃ (s : State) (n : Nat) (i : Fin 512) (unc : Bool), s.kettleUp = true ∧ s.on R.KET_STATUS_self_fault = true ∧
      s.markedCopies = []) ∧
    (∃ (s : State) (n : Nat) (i : Fin 512), s.kettleUp = true ∧ s.on R.KET_STATUS_self_fault = false ∧ s.eccMarks = [] ∧
      s.kettle.differs = [i.val] ∧ (s.hub.mode = .run ∨ s.hub.mode = .runDegraded ∨ s.hub.mode = .island ∨ s.hub.mode =
      .trial)) ∧
    (∃ (s : State) (t : Nat), s.kettle.pulseEnd = some t ∧ t ≤ s.clk) ∧
    (∃ (s : State) (t : Nat), s.kettle.pulseEnd = some t ∧ s.clk < t) ∧
    (∃ (s : State) (r : Requester) (bays : BitVec 48), Grants s r R.KET_FORCE .write) :=
  ⟨⟨(at_l 0), 0, by decide +kernel⟩,
   ⟨(at_l 2), 0, none, by decide +kernel⟩,
   ⟨(at_l 0), 0, 3, true, by decide +kernel⟩,
   ⟨(at_l 19), 0, 3, true, by decide +kernel⟩,
   ⟨(at_l 18), 0, 3, by decide +kernel⟩,
   ⟨(at_l 5), 5, by decide +kernel⟩,
   ⟨(at_l 6), 20000000001, by decide +kernel⟩,
   ⟨(at_l 0), { master := 0, level := Level.supervisor }, 0x000000000000#48, by decide +kernel⟩⟩

theorem witness_PerformanceCountersFreezeClearAndSnapshot :
    (∃ (s : State) (r : Requester), Grants s r R.PMC_CTRL .write ∧ s.on R.PMC_STATUS_snap_busy = false) ∧
    (∃ (s : State) (r : Requester), Grants s r R.PMC_CTRL .write ∧ s.on R.PMC_STATUS_snap_busy = false) ∧
    (∃ (s : State) (r : Requester), Grants s r R.PMC_CTRL .write ∧ s.on R.PMC_STATUS_snap_busy = true) ∧
    (∃ (s : State) (cls : Nat) (ev : Nat) (x : Nat) (n : Nat) (a : Attrs), s.on R.PMC_CTRL_freeze = true) ∧
    (∃ (s : State) (h : Tally), h.counter < 64 ∧ h.amount < 2 ^ 48 ∧ 2 ^ 48 ≤ s.rd (R.PMC_CNT_count h.counter) + h.amount) ∧
    (∃ (s : State), s.asleep = false ∧ s.on R.PMC_STATUS_snap_busy = true ∧ s.pmc.heldCounts = [] ∧ s.pmc.waiting = []) ∧
    (∃ (s : State) (h : Tally), s.asleep = false ∧ s.on R.PMC_STATUS_snap_busy = true ∧ s.pmc.heldCounts = [h] ∧ h.counter <
      64 ∧ s.rd (R.PMC_CNT_count h.counter) + h.amount < 2 ^ 48) ∧
    (∃ (s : State), (s.asleep = true ∨ s.on R.PMC_STATUS_snap_busy = false)) ∧
    (∃ (s : State) (r : Requester) (x : Sample) (rest : List Sample), Grants s r R.PMC_SAMPLE .read ∧ s.pmc.fifo = x :: rest) ∧
    (∃ (s : State) (r : Requester), Grants s r R.PMC_SAMPLE .read ∧ s.pmc.fifo = []) ∧
    (∃ (s : State) (i : Fin 64) (w : Wrap), s.pmc.waiting = [w] ∧ w.tally.counter = i.val ∧ w.tally.seen.length ≤ w.tally.own
      ∧ w.since + 10000 ≤ s.clk ∧ s.asleep = false) ∧
    (∃ (s : State) (i : Fin 64), (s.asleep = true ∨ s.pmc.waiting = [])) :=
  ⟨⟨(at_l 0), { master := 0, level := Level.supervisor }, by decide +kernel⟩,
   ⟨(at_l 0), { master := 0, level := Level.supervisor }, by decide +kernel⟩,
   ⟨(at_l 11), { master := 0, level := Level.supervisor }, by decide +kernel⟩,
   ⟨(at_l 10), 0, 0, 0, 0, { priv := none, master := none, addr := none }, by decide +kernel⟩,
   ⟨(at_l 13), { counter := 5, amount := 8, element := 2, start := 5, own := 1, seen := [(0, 3)] }, by decide +kernel⟩,
   ⟨(at_l 11), by decide +kernel⟩,
   ⟨(at_l 12), { counter := 5, amount := 8, element := 2, start := 5, own := 1, seen := [(0, 3)] }, by decide +kernel⟩,
   ⟨(at_l 0), by decide +kernel⟩,
   ⟨(at_l 13), { master := 0, level := Level.supervisor }, { counter := 5, engine := 2, ctx := 3, pc := 4, skid := 1, lost := false, idle := false, time := 0x0000000000000063#64 },
     [{ counter := 5, engine := 2, ctx := 3, pc := 4, skid := 1, lost := false, idle := false, time := 0x0000000000000063#64 }],
     by decide +kernel⟩,
   ⟨(at_l 0), { master := 0, level := Level.supervisor }, by decide +kernel⟩,
   ⟨(at_l 14), 5, { tally := { counter := 5, amount := 8, element := 2, start := 5, own := 1, seen := [(0, 3)] }, time := 0x000000000000004d#64, since := 5, skid := 3 },
     by decide +kernel⟩,
   ⟨(at_l 0), 0, by decide +kernel⟩⟩

theorem witness_AStepPerformsTheCommandAtTheFront :
    (∃ (s : State) (c : Instr) (rest : List Instr), s.pending = c :: rest) ∧
    (∃ (s : State), s.pending = []) ∧
    (∃ (s : State) (c : Instr) (d : Instr) (r : Requester) (q : Requester) (a : Nat) (b : Nat) (v : Option Word) (w : Option
      Word), regOf c = some (r, a, v) ∧ regOf d = some (q, b, w) ∧ r.level ≠ .localLevel ∧ q.level ≠ .localLevel ∧
      q.master.val < r.master.val) ∧
    (∃ (s : State) (c : Instr) (d : Instr) (b : Nat) (m : Nat) (n : Nat), MeetAt s c d 1 [.access b m] [.access b n] ∧ n < m) ∧
    (∃ (s : State) (c : Instr) (d : Instr) (b : Nat) (m : Nat) (n : Nat), MeetAt s c d 1 [.access b m] [.access b n] ∧ m < n) ∧
    (∃ (s : State) (c : Instr) (d : Instr) (a : Nat), MeetAt s c d 2 [.field a true] [.field a false] ∧ a ≠ R.KET_ERRPIN) ∧
    (∃ (s : State) (c : Instr) (d : Instr) (o : Nat) (p : Nat) (i : Nat) (j : Nat), MeetAt s c d 3 [.mode o i] [.mode p j] ∧
      (p < o ∨ (p = o ∧ j < i))) ∧
    (∃ (s : State) (c : Instr) (d : Instr), MeetAt s c d 4 [.leaves true] [.leaves false]) ∧
    (∃ (s : State) (c : Instr) (d : Instr) (e : Nat) (k : Nat) (n : Nat) (m : Nat) (rx : Bool), MeetAt s c d 6 [.turn e k,
      .fifo rx n (.push m)] [.fifo rx n .pop]) ∧
    (∃ (s : State) (c : Instr) (d : Instr) (e : Nat) (j : Nat) (k : Nat), MeetAt s c d 6 [.turn e j] [.turn e k] ∧ (k + 15 -
      (s.ahead.engine e).turn) % 16 < (j + 15 - (s.ahead.engine e).turn) % 16) :=
  ⟨⟨{ State.reset with pending := [.vsiAck] }, .vsiAck, [], rfl⟩,
   ⟨(at_l 0), by decide +kernel⟩,
   ⟨State.reset, .pmcFreeze { master := 1, level := .supervisor } false, .pmcFreeze { master := 0, level := .supervisor }
     false, { master := 1, level := .supervisor }, { master := 0, level := .supervisor }, R.PMC_CTRL, R.PMC_CTRL, some 0,
     some 0, by decide +kernel⟩,
   ⟨State.reset.setCtx 2 2 { st := .waiting, wait := 9 }, .contextResume 2 2, .progWrite { master := 0, level := .supervisor }
     2 3 5, 66, 4, 0, by decide +kernel⟩,
   ⟨State.reset.setCtx 2 2 { st := .waiting, wait := 9 }, .progWrite { master := 0, level := .supervisor } 2 3 5,
     .contextResume 2 2, 66, 0, 4, by decide +kernel⟩,
   ⟨limS, .driverCurrentLimit 0 true, .overloadClear { master := 0, level := .supervisor } 0 0 0, R.BAY_PINSTAT 0,
     by decide +kernel⟩,
   ⟨State.reset, .linkUp 0, .islandTimeout, 4, 3, 0, 0, by decide +kernel⟩,
   ⟨State.reset, .frameReceive { port := 0, frame := { w0 := 0, w1 := 0, w2 := 0, w3 := 0, payload := [], crc := 0 }, start := 0, tail := 0, poisoned := false, aborted := false, mac := 0, etherType := 0 },
     .holdTimeExpire 0, by decide +kernel⟩,
   ⟨putS, .infQput 2 2, .baySegmentSend 0, 2, 2, 0, 0, true, by decide +kernel⟩,
   ⟨State.reset, .extNop 2 5, .extNop 2 2, 2, 5, 2, by decide +kernel⟩⟩

theorem witness_EveryStepKeepsTheInvariant :
    ∃ (s : State) (t : State), s.memOk = true ∧ s.quiet = true ∧ step s = .next t :=
  ⟨State.reset, State.reset.tick, by decide +kernel, by decide +kernel, rfl⟩

end Wl

end Sys2Proof.Tests
end

/-!
Certificates of the scope statements: what the reset state holds, and that every reset leads to it.
-/

namespace Sys2Proof.Machine

/-! ### What a reset leaves of the flash writes in progress -/

/-- The state without the records of flash, its contents and marks, and the count of free values: what cutting the writes in
progress may change. -/
def State.sansFlash (s : State) : State := { s with flash := [], eccMarks := [], upd := {}, fresh := 0 }

/-- The state without the records of flash, but with the put and the erase in progress, and without the count of free values: what
cutting the record writes in progress may change. -/
def State.sansRecords (s : State) : State :=
  { s with upd := { put := s.upd.put, erasing := s.upd.erasing }, fresh := 0 }

/-- The settings record that `State.cutWrites` leaves (R154), whole or torn by the free value `k`. -/
def State.cutSettings (s : State) (k : Nat) : State :=
  match s.upd.commit with
  | some c =>
    if decide (Config.freeNat k % 2 = 1) then s.writeSettings s.upd.running c
    else s.setSettings s.upd.running (s.settingsOf s.upd.running).tear
  | none => s

/-- The boot record that `State.cutWrites` leaves (R154), whole or torn by the free value `k`. -/
def State.cutBoot (s : State) (k : Nat) : State :=
  if s.upd.confirming ∧ !s.upd.confirmEnded ∧ decide (Config.freeNat k % 2 = 1) then
    s.writeBoot (fun r => r.confirm s.upd.running)
  else if s.bootWriting then { s with upd := { s.upd with other := .torn k } }
  else s

/-- The staging area that `State.cutWrites` leaves (R693), by the free value `k`. -/
def State.cutStaging (s : State) (k : Nat) : State :=
  let s : State := match s.upd.put with
    | some p =>
      let t := s.putFlash (stagingBase + 256 * p.block)
        ((List.range (8 * p.words.length)).map (fun i => Config.freeByte k (stagingBase + 256 * p.block + i)))
      { t with upd := { t.upd with blocks := mput false t.upd.blocks p.block false } }
    | none => s
  if s.upd.erasing then s.undefineStaging else s

/-- The three steps of `State.cutWrites`, all by one free value. -/
theorem cutWrites_eq (s : State) :
    s.cutWrites = ((s.takeFree.2.cutSettings s.fresh).cutBoot s.fresh).cutStaging s.fresh := rfl

@[simp] theorem setSettings_sansRecords (s : State) (b : Bool) (x : Settings) :
    (s.setSettings b x).sansRecords = s.sansRecords := by
  cases b <;> rfl

@[simp] theorem writeSettings_sansRecords (s : State) (b : Bool) (c : Commit) :
    (s.writeSettings b c).sansRecords = s.sansRecords := setSettings_sansRecords ..

theorem cutSettings_sansRecords (s : State) (k : Nat) : (s.cutSettings k).sansRecords = s.sansRecords := by
  unfold State.cutSettings
  split
  · split
    · exact writeSettings_sansRecords ..
    · exact setSettings_sansRecords ..
  · rfl

theorem cutBoot_sansRecords (s : State) (k : Nat) : (s.cutBoot k).sansRecords = s.sansRecords := by
  unfold State.cutBoot
  (repeat' split) <;> rfl

/-- Cutting the record writes in progress leaves the put and the erase in progress, flash and all else. -/
theorem cutRecords_sansRecords (s : State) (k : Nat) :
    ((s.takeFree.2.cutSettings k).cutBoot k).sansRecords = s.sansRecords :=
  (cutBoot_sansRecords _ k).trans (cutSettings_sansRecords _ k)

theorem cutStaging_sansFlash (s : State) (k : Nat) : (s.cutStaging k).sansFlash = s.sansFlash := by
  unfold State.cutStaging
  cases s.upd.put <;> (dsimp only; split) <;> rfl

/-- Where no put and no erase is in progress, the staging area has nothing to cut. -/
theorem cutStaging_quiet (s : State) (k : Nat) (hput : s.upd.put = none) (herase : s.upd.erasing = false) : s.cutStaging k = s := by
  simp [State.cutStaging, hput, herase]

/-- Cutting the writes in progress changes flash and its records only. -/
theorem cutWrites_sansFlash (s : State) : s.cutWrites.sansFlash = s.sansFlash := by
  have records := congrArg State.sansFlash (cutRecords_sansRecords s s.fresh)
  rw [cutWrites_eq, cutStaging_sansFlash]
  exact records

/-- With no put and no erase in progress, flash keeps its contents. -/
theorem cutWrites_flash (s : State) (hput : s.upd.put = none) (herase : s.upd.erasing = false) : s.cutWrites.flash = s.flash := by
  have records := cutRecords_sansRecords s s.fresh
  have hput' := (congrArg (·.upd.put) records).trans hput
  have herase' := (congrArg (·.upd.erasing) records).trans herase
  have staging := cutStaging_quiet ((s.takeFree.2.cutSettings s.fresh).cutBoot s.fresh) s.fresh hput' herase'
  rw [cutWrites_eq, staging]
  exact congrArg (·.flash) records

/-! ### What the sensors and the regulator link change -/

/-- The state without its registers, and of power only with the ports and the port groups: what the readings of sensors and a request
on the regulator link may change is gone. -/
def State.sansRail (s : State) : State :=
  { s with regs := [], power := { ports := s.power.ports, groups := s.power.groups } }

@[simp] theorem wr_sansRail (s : State) (f : Fld) (v : Nat) : (s.wr f v).sansRail = s.sansRail := rfl

@[simp] theorem endRisk_sansRail (s : State) : s.endRisk.sansRail = s.sansRail := by
  unfold State.endRisk
  split <;> rfl

@[simp] theorem vsiRequest_sansRail (s : State) (q : VsiReq) : (s.vsiRequest q).sansRail = s.sansRail := by
  unfold State.vsiRequest
  split
  · exact endRisk_sansRail _
  · split <;> rfl

@[simp] theorem sensorRegs_sansRail (s t : State) : (s.sensorRegs t).sansRail = t.sansRail := by
  unfold State.sensorRegs
  dsimp only
  split
  · simp only [wr_sansRail]
  · refine List.foldlRecOn (motive := fun u : State => u.sansRail = t.sansRail) _ _ ?_ (fun u hu g _ => ?_)
    · simp only [wr_sansRail]
    · rw [wr_sansRail, hu]

theorem endRisk_word (s : State) {a : Nat} (h : a ≠ R.PWR_LOOP) : s.endRisk.word a = s.word a := by
  unfold State.endRisk
  split
  · rfl
  · exact word_wr_ne s _ _ h

theorem vsiSend_word (s : State) (q : VsiReq) (retry : Bool) {a : Nat} (hst : a ≠ R.PWR_STATUS) (hvsi : a ≠ R.PWR_VSI)
    (hloop : a ≠ R.PWR_LOOP) : (s.vsiSend q retry).word a = s.word a := by
  unfold State.vsiSend State.bump State.bumpBy
  rw [endRisk_word _ hloop, word_wr_ne _ _ _ hvsi, word_wr_ne _ _ _ hst, word_wr_ne _ _ _ hst]
  rfl

/-- A request on the regulator link writes registers of the power states' block only. -/
theorem vsiRequest_word (s : State) (q : VsiReq) {a : Nat} (h : ¬(0x70000 ≤ a ∧ a < 0x80000)) :
    (s.vsiRequest q).word a = s.word a := by
  unfold State.vsiRequest
  split
  · exact vsiSend_word s q _ (by unfold R.PWR_STATUS; omega) (by unfold R.PWR_VSI; omega) (by unfold R.PWR_LOOP; omega)
  · split <;> rfl

/-- The readings of sensors stand in the two power blocks. -/
theorem sensorRegs_word (s t : State) {a : Nat} (h7 : ¬(0x70000 ≤ a ∧ a < 0x80000)) (h9 : ¬(0x90000 ≤ a ∧ a < 0xA0000)) :
    (s.sensorRegs t).word a = t.word a := by
  have htemp : a ≠ R.PWR_TEMP := by unfold R.PWR_TEMP; omega
  have h0 : a ≠ R.PWP_GROUP 0 := by unfold R.PWP_GROUP; omega
  have h1 : a ≠ R.PWP_GROUP 1 := by unfold R.PWP_GROUP; omega
  have temps (v0 v1 v2 v3 : Nat) : ((((t.wr R.PWR_TEMP_hub v0).wr R.PWR_TEMP_power v1).wr R.PWR_TEMP_regulator v2).wr
      R.PWR_TEMP_hub_peak v3).word a = t.word a := by
    rw [word_wr_ne _ _ _ htemp, word_wr_ne _ _ _ htemp, word_wr_ne _ _ _ htemp, word_wr_ne _ _ _ htemp]
  unfold State.sensorRegs
  dsimp only
  split
  · exact temps ..
  · exact (word_wr_ne _ _ _ h1).trans ((word_wr_ne _ _ _ h0).trans (temps ..))

/-! ### The state after a reset -/

/-- A property of the default and of every value written holds at every key of a map built by writes. -/
theorem forall_mget_foldl_mput {α β : Type} [DecidableEq α] (P : α → Prop) (d : α) (f : Nat × β → α) (hf : ∀ x, P (f x))
    (l : SMap β) (m : SMap α) (hm : ∀ k, P (mget d m k)) (k : Nat) :
    P (mget d (l.foldl (fun m x => mput d m x.1 (f x)) m) k) := by
  induction l generalizing m with
  | nil => exact hm k
  | cons x l ih =>
    refine ih _ (fun j => ?_)
    by_cases hj : j = x.1
    · rw [hj, mget_mput_same]
      exact hf x
    · rw [mget_mput_ne d m _ hj]
      exact hm j

theorem padLevels_released (s : State) (g : Nat) : (mget {} s.padLevels g).pad = .released :=
  forall_mget_foldl_mput (fun p : Pin => p.pad = .released) {} (fun x : Nat × Pin => { level := x.2.level }) (fun _ => rfl)
    s.bays.pins [] (fun _ => rfl) g

theorem portReadings_off (s : State) (k : Nat) : (mget {} s.portReadings k).passOn = false :=
  forall_mget_foldl_mput (fun p : Port => p.passOn = false) {}
    (fun x : Nat × Port => { diode := x.2.diode, estimate := x.2.estimate, delayed := x.2.delayed }) (fun _ => rfl)
    s.power.ports [] (fun _ => rfl) k

theorem groupSupplies_opened (s : State) (g : Nat) : (mget {} s.groupSupplies g).iso = .opened :=
  forall_mget_foldl_mput (fun x : Group => x.iso = .opened) {}
    (fun x : Nat × Group => { supply := x.2.supply, since := x.2.since }) (fun _ => rfl) s.power.groups [] (fun _ => rfl) g

/-- The state that `State.resetWith` makes of `s`, whose writes have been cut, before the readings of sensors, UPD_STATUS and the
request on the regulator link. -/
def State.resetBase (s : State) (h : Hub) : State :=
  { State.reset with
    pending := s.pending
    variant := s.variant
    rootKey := s.rootKey
    clk := s.clk
    flash := s.flash
    eccMarks := s.eccMarks.filter (fun x => decide (x.1 = .flash))
    hub := { h with enteredAt := s.clk, heardAt := s.clk }
    upd := s.upd.kept
    ring := { links := s.freshLinks, cpl := { line := s.ring.cpl.line, pad := s.ring.cpl.pad, padSince := s.ring.cpl.padSince }, restartAt := s.clk }
    time := { resStart := s.clk }
    bays := { pins := s.padLevels }
    power := { ports := s.portReadings, groups := s.groupSupplies }
    fresh := s.fresh }

/-- What `State.resetWith` adds to its base: registers only, and the request on the regulator link. -/
theorem resetWith_eq (s : State) (h : Hub) : ∃ v, s.resetWith h =
    ((s.cutWrites.sensorRegs (s.cutWrites.resetBase h)).wr R.UPD_STATUS_state v).vsiRequest ⟨850, 2, false⟩ :=
  ⟨_, rfl⟩

theorem resetWith_sansRail (s : State) (h : Hub) : (s.resetWith h).sansRail = (s.cutWrites.resetBase h).sansRail := by
  obtain ⟨v, hv⟩ := resetWith_eq s h
  rw [hv, vsiRequest_sansRail, wr_sansRail, sensorRegs_sansRail]

/-- What a reset leaves of a part of the state that holds no register and nothing of the regulator link. -/
theorem resetWith_proj {β : Type} (p : State → β) (hp : ∀ s : State, p s.sansRail = p s) (s : State) (h : Hub) :
    p (s.resetWith h) = p (s.cutWrites.resetBase h) := by
  rw [← hp, resetWith_sansRail, hp]

/-- Cutting the writes in progress leaves a part of the state that holds nothing of flash. -/
theorem cutWrites_proj {β : Type} (p : State → β) (hp : ∀ s : State, p s.sansFlash = p s) (s : State) : p s.cutWrites = p s := by
  rw [← hp, cutWrites_sansFlash, hp]

/-- Every register outside the power blocks but UPD_STATUS is at its reset value (R9). -/
theorem resetWith_word (s : State) (h : Hub) {a : Nat} (h7 : ¬(0x70000 ≤ a ∧ a < 0x80000)) (h9 : ¬(0x90000 ≤ a ∧ a < 0xA0000))
    (hu : a ≠ R.UPD_STATUS) : (s.resetWith h).word a = resetWord a := by
  obtain ⟨v, hv⟩ := resetWith_eq s h
  rw [hv, vsiRequest_word _ _ h7, word_wr_ne _ _ _ hu, sensorRegs_word _ _ h7 h9]
  rfl

theorem resetWith_hub (s : State) (h : Hub) : (s.resetWith h).hub = { h with enteredAt := s.clk, heardAt := s.clk } := by
  rw [resetWith_proj State.hub (fun _ => rfl)]
  simp only [State.resetBase, cutWrites_proj State.clk (fun _ => rfl)]

theorem resetWith_flash (s : State) (h : Hub) (hput : s.upd.put = none) (herase : s.upd.erasing = false) :
    (s.resetWith h).flash = s.flash := by
  rw [resetWith_proj State.flash (fun _ => rfl)]
  exact cutWrites_flash s hput herase

/-- A reset with the hub's fields in Boot by row 1 leaves the state of R9. -/
theorem resetWith_afterReset (s : State) (h : Hub) (hmode : h.mode = .boot) (hrow : h.row = 1) : AfterReset s (s.resetWith h) := by
  have base {β : Type} (p : State → β) (hp : ∀ s : State, p s.sansRail = p s) := resetWith_proj p hp s h
  have cut {β : Type} (p : State → β) (hp : ∀ s : State, p s.sansFlash = p s) := cutWrites_proj p hp s
  refine ⟨by rw [resetWith_hub]; exact hmode, by rw [resetWith_hub]; exact hrow, base State.now (fun _ => rfl),
    (base State.clk (fun _ => rfl)).trans (cut State.clk (fun _ => rfl)),
    (base State.pending (fun _ => rfl)).trans (cut State.pending (fun _ => rfl)),
    (base State.variant (fun _ => rfl)).trans (cut State.variant (fun _ => rfl)),
    (base State.rootKey (fun _ => rfl)).trans (cut State.rootKey (fun _ => rfl)),
    base State.pimem (fun _ => rfl), base State.store (fun _ => rfl), base State.loaded (fun _ => rfl),
    base State.engines (fun _ => rfl), base State.switch (fun _ => rfl), base State.cyc (fun _ => rfl),
    base State.kettle (fun _ => rfl), base State.pmc (fun _ => rfl), base (·.bays.rx) (fun _ => rfl),
    base (·.bays.tx) (fun _ => rfl), base State.raised (fun _ => rfl), base State.answer (fun _ => rfl),
    fun g => ?_, fun k => ?_, fun g => ?_, fun a => resetWith_word s h⟩
  · rw [base (·.pin g) (fun _ => rfl)]
    exact padLevels_released s.cutWrites g
  · rw [base (·.port k) (fun _ => rfl)]
    exact portReadings_off s.cutWrites k
  · rw [base (·.group g) (fun _ => rfl)]
    exact groupSupplies_opened s.cutWrites g

/-- Nothing is raised, masked or left to the ring link monitor, so the command leaves what the reset leaves. -/
theorem done_resetWith (s : State) (h : Hub) (hdue : h.ringDue = false) : done (s.resetWith h) = .next (s.resetWith h) := by
  have hraised : (s.resetWith h).raised = [] := resetWith_proj State.raised (fun _ => rfl) s h
  have hmasks : (s.resetWith h).kettle.masks = [] := resetWith_proj (·.kettle.masks) (fun _ => rfl) s h
  have hquiet : (s.resetWith h).hub.ringDue = false := by rw [resetWith_hub]; exact hdue
  rw [done_eq, settle_eq _ hraised hquiet hmasks]

/-- A command that resets the hub into Boot by row 1: what it leaves, with the hub's fields as the reset sets them. -/
theorem ends_of_resetWith {c : Instr} {s : State} {h : Hub} {P : Hub → Prop} (hexec : exec c s = done (s.resetWith h))
    (hmode : h.mode = .boot) (hrow : h.row = 1) (hdue : h.ringDue = false) (hP : P { h with enteredAt := s.clk, heardAt := s.clk }) :
    Ends c s (fun t => AfterReset s t ∧ P t.hub ∧ (s.upd.put = none → s.upd.erasing = false → t.flash = s.flash)) := by
  refine ⟨s.resetWith h, hexec.trans (done_resetWith s h hdue), resetWith_afterReset s h hmode hrow, ?_, resetWith_flash s h⟩
  rw [resetWith_hub]
  exact hP

/-- The hub's own supply has been low for its hold time, and the hub is not held yet: the hold resets it (R49). -/
theorem usHold_due (s : State) {since : Nat} (hlow : s.hub.usLowSince = some since) (hfree : s.hub.held = false)
    (hdue : (if s.hub.reserve = true then 1200000 else 20000) ≤ s.clk - since) :
    s.usHold = s.resetWith
      { usLowSince := s.hub.usLowSince, poweredAt := s.hub.poweredAt, held := true, rstLow := s.hub.rstLow, strap := s.hub.strap } := by
  have h : s.holdDue = true := by simpa [State.holdDue, hlow] using hdue
  simp [State.usHold, h, hfree]

/-! ### The statements -/

/-- Settles O1: each value is the one that the state after reset is defined with. -/
theorem resetStateHoldsTheResetValues : Obligations.ResetStateHoldsTheResetValues :=
  ⟨rfl, rfl, rfl, rfl, rfl, rfl, fun _ => rfl, fun _ => rfl, fun _ => rfl, fun _ => rfl, rfl, rfl⟩

/-- Settles O2: each of the four commands resets the hub with `State.resetWith`, which leaves the state of R9. -/
theorem everyResetLeadsToBoot : Obligations.EveryResetLeadsToBoot := by
  refine ⟨fun s strap => ?_, fun s ns hns => ?_, fun s strap hlow => ?_, fun s since hlow hfree hdue => ?_⟩
  · obtain ⟨t, ht, hafter, ⟨hstrap, hheld, hus⟩, hflash⟩ :=
      ends_of_resetWith (c := .powerOn strap) (s := s) (P := fun h => h.strap = strap ∧ h.held = false ∧ h.usLowSince = none)
        rfl rfl rfl rfl ⟨rfl, rfl, rfl⟩
    exact ⟨t, ht, hafter, hstrap, hheld, hus, hflash⟩
  · have hexec : exec (.rstNLow ns) s = done s.rstHold := by
      change execRstNLow ns s = _
      rw [execRstNLow, if_neg (by omega), if_neg (by omega)]
    exact ends_of_resetWith (P := fun h => h.rstLow = true) hexec rfl rfl rfl rfl
  · have hexec : exec (.rstNRelease strap) s = done (s.resetWith
        { usLowSince := s.hub.usLowSince, poweredAt := s.hub.poweredAt, reserve := s.hub.reserve, held := s.hub.held,
          strap := strap }) :=
      congrArg done (if_pos hlow)
    obtain ⟨t, ht, hafter, ⟨hrst, hstrap⟩, hflash⟩ :=
      ends_of_resetWith (P := fun h => h.rstLow = false ∧ h.strap = strap) hexec rfl rfl rfl ⟨rfl, rfl⟩
    exact ⟨t, ht, hafter, hrst, hstrap, hflash⟩
  · have hexec := congrArg done (usHold_due s hlow hfree hdue)
    exact ends_of_resetWith (c := .usHoldExpire) (P := fun h => h.held = true) hexec rfl rfl rfl rfl

end Sys2Proof.Machine


/-!
Certificates of the architecture statements.
-/

namespace Sys2Proof.Machine

/-! ### Accesses that go through -/

/-- An access that passes the checks leaves its own effect, which the target then counts and answers. -/
theorem asWrite_grants {s : State} {r : Requester} {a : Nat} (eff : State → State) (hg : Grants s r a .write) :
    s.asWrite r a eff = (eff s).wrote r a :=
  asWrite_ok s r a eff hg.1 hg.2

/-- A register command that passes the checks completes as a write does. -/
theorem writes_of {c : Instr} {s : State} {r : Requester} {a : Nat} {eff : State → State} {P : State → Prop}
    (hexec : exec c s = done (s.asWrite r a eff)) (hg : Grants s r a .write) (hP : P (eff s)) : Writes c s r a P :=
  ⟨eff s, by rw [hexec, asWrite_grants eff hg, done_eq], hP⟩

/-- What a mode request that is neither held back nor at another level than Supervisor comes to. -/
theorem modeRequest_asks {s : State} {r : ModeReq} (hr : Asks s r) (code : Nat) (f : Option State) :
    s.modeRequest r code f = f.getD (s.notListed r code) := by
  obtain ⟨-, hlevel, hadm⟩ := hr
  cases f <;> simp [State.modeRequest, hadm, hlevel]

/-- A mode request that passes the checks, and that R20 answers with `f` from the present mode. -/
theorem exec_modeRequest {c : Instr} {s : State} {r : ModeReq} {eff : State → State} (code : Nat) (f : Option State)
    (hexec : exec c s = done (s.asWrite r.who R.TOP_MODE_REQ eff)) (heff : eff s = s.modeRequest r code f) (hr : Asks s r) :
    exec c s = .next ((f.getD (s.notListed r code)).wrote r.who R.TOP_MODE_REQ).settle := by
  rw [hexec, asWrite_grants eff hr.1, heff, modeRequest_asks hr, done_eq]

/-! ### Mode requests that R20 does not list -/

theorem requestTest_unlisted (s : State) (r : ModeReq) (h : s.hub.mode ≠ .safe) : s.requestTest r = s.modeRequest r 11 none := by
  unfold State.requestTest
  split
  · contradiction
  · rfl

theorem requestBoot_unlisted (s : State) (r : ModeReq) (htest : s.hub.mode ≠ .test)
    (habandon : s.hub.mode = .safe ∨ s.hub.mode = .quarantine → s.upd.abandoned = false) :
    s.requestBoot r = s.modeRequest r 0 none := by
  unfold State.requestBoot
  split
  · contradiction
  · next h => rw [habandon (.inl h)]; rfl
  · next h => rw [habandon (.inr h)]; rfl
  · rfl

theorem requestRun_unlisted (s : State) (r : ModeReq) (hsafe : s.arbMode ≠ .safe) (hisland : s.arbMode ≠ .island)
    (hdoze : s.arbMode ≠ .doze) : s.requestRun r = s.modeRequest r 3 none := by
  unfold State.requestRun
  dsimp only
  split
  · contradiction
  · contradiction
  · contradiction
  · rfl

theorem requestSafe_unlisted (s : State) (r : ModeReq) (hquarantine : s.arbMode ≠ .quarantine) (hrun : s.arbMode ≠ .run)
    (hdegraded : s.arbMode ≠ .runDegraded) (hisland : s.arbMode ≠ .island) (hdoze : s.arbMode ≠ .doze) (htrial : s.arbMode ≠ .trial) :
    s.requestSafe r = s.modeRequest r 6 none := by
  unfold State.requestSafe
  split
  · contradiction
  · contradiction
  · contradiction
  · contradiction
  · contradiction
  · contradiction
  · rfl

theorem requestSteep_unlisted (s : State) (r : ModeReq) (hsafe : s.hub.mode ≠ .safe) (hquarantine : s.hub.mode ≠ .quarantine) :
    s.requestSteep r = s.modeRequest r 1 none := by
  unfold State.requestSteep
  dsimp only
  split
  · contradiction
  · contradiction
  · rfl

theorem requestUpdate_unlisted (s : State) (r : ModeReq) (hsafe : s.hub.mode ≠ .safe) (hquarantine : s.hub.mode ≠ .quarantine) :
    s.requestUpdate r = s.modeRequest r 9 none := by
  unfold State.requestUpdate
  dsimp only
  split
  · contradiction
  · contradiction
  · rfl

theorem requestHibernate_unlisted (s : State) (r : ModeReq) (hrun : s.hub.mode ≠ .run) (hsafe : s.hub.mode ≠ .safe) :
    s.requestHibernate r = s.modeRequest r 8 none := by
  unfold State.requestHibernate
  dsimp only
  split
  · contradiction
  · contradiction
  · rfl

theorem requestDoze_unlisted (s : State) (r : ModeReq) (groups quads : Nat) (hrun : s.hub.mode ≠ .run) :
    s.requestDoze r groups quads = s.modeRequest r 7 none := by
  unfold State.requestDoze
  split
  · rw [if_neg hrun]
  · rfl

/-! ### What a refusal records -/

/-- A refusal writes the five fields of TOP_MODE_REFUSED and nothing else (R213). -/
theorem refuseMode_record (s : State) (who : Requester) (code reason : Nat) (hcode : code < 16) (hreason : reason < 16) :
    (s.refuseMode who code reason).hub = s.hub ∧
    (s.refuseMode who code reason).rd R.TOP_MODE_REFUSED_requested = code ∧
    (s.refuseMode who code reason).rd R.TOP_MODE_REFUSED_reason = reason ∧
    (s.refuseMode who code reason).rd R.TOP_MODE_REFUSED_at_mode = s.hub.mode.code ∧
    (s.refuseMode who code reason).rd R.TOP_MODE_REFUSED_requester = (if who.level = .localLevel then 4 else who.master.val) ∧
    (s.refuseMode who code reason).rd R.TOP_MODE_REFUSED_count = min (s.rd R.TOP_MODE_REFUSED_count + 1) 65535 ∧
    (∀ a, a ≠ R.TOP_MODE_REFUSED → (s.refuseMode who code reason).word a = s.word a) := by
  have hrequester : (if who.level = .localLevel then 4 else who.master.val) < 8 := by
    have := who.master.isLt
    split <;> omega
  have hmode : s.hub.mode.code < 16 := by cases s.hub.mode <;> decide
  have hcount : min (s.rd R.TOP_MODE_REFUSED_count + 1) 65535 < 65536 := by omega
  refine ⟨rfl, ?_, ?_, ?_, ?_, ?_, fun a ha => ?_⟩
  · simp (disch := decide) only [State.refuseMode, rd_wr_lsb, rd_wr_same]
    exact Nat.mod_eq_of_lt hcode
  · simp (disch := decide) only [State.refuseMode, rd_wr_lsb, rd_wr_same]
    exact Nat.mod_eq_of_lt hreason
  · simp (disch := decide) only [State.refuseMode, rd_wr_same]
    exact Nat.mod_eq_of_lt hmode
  · simp (disch := decide) only [State.refuseMode, rd_wr_lsb, rd_wr_same]
    exact Nat.mod_eq_of_lt hrequester
  · simp (disch := decide) only [State.refuseMode, State.bump, State.bumpBy, rd_wr_lsb, rd_wr_same]
    exact Nat.mod_eq_of_lt hcount
  · simp only [State.refuseMode, State.bump, State.bumpBy]
    rw [word_wr_ne _ _ _ ha, word_wr_ne _ _ _ ha, word_wr_ne _ _ _ ha, word_wr_ne _ _ _ ha, word_wr_ne _ _ _ ha]

/-- Settles O7: from a mode that R20 does not list, the match of the request's meaning gives nothing, and the refusal is recorded. -/
theorem unlistedRequestsAreRefused : Obligations.UnlistedRequestsAreRefused := by
  refine ⟨fun s r hr h => exec_modeRequest 11 none rfl (requestTest_unlisted s r h) hr,
    fun s r hr htest habandon => exec_modeRequest 0 none rfl (requestBoot_unlisted s r htest habandon) hr,
    fun s r hr h1 h2 h3 => exec_modeRequest 3 none rfl (requestRun_unlisted s r h1 h2 h3) hr,
    fun s r hr h1 h2 h3 h4 h5 h6 => exec_modeRequest 6 none rfl (requestSafe_unlisted s r h1 h2 h3 h4 h5 h6) hr,
    fun s r hr h1 h2 => ⟨exec_modeRequest 1 none rfl (requestSteep_unlisted s r h1 h2) hr,
      exec_modeRequest 9 none rfl (requestUpdate_unlisted s r h1 h2) hr⟩,
    fun s r groups quads hr h => exec_modeRequest 7 none rfl (requestDoze_unlisted s r groups.toNat quads.toNat h) hr,
    fun s r hr h1 h2 => exec_modeRequest 8 none rfl (requestHibernate_unlisted s r h1 h2) hr,
    fun s r code hcode => refuseMode_record s r.who code (if r.raced = true then 2 else 1) hcode (by split <;> omega)⟩

end Sys2Proof.Machine

namespace Sys2Proof.Machine

/-! ### What the checks of R194 answer -/

theorem blockRight_no_table_operator (s : State) (r : Requester) (b : Nat) (htable : s.hub.accessTable = false)
    (hlevel : r.level = .operator) : s.blockRight r b = 0 := by
  simp [State.blockRight, hlevel, htable]

theorem blockRight_no_table_supervisor (s : State) (r : Requester) {b : Nat} (htable : s.hub.accessTable = false)
    (hlevel : r.level = .supervisor) (hb : 2 ≤ b) : s.blockRight r b = 0 := by
  have : ¬b ≤ 1 := by omega
  simp [State.blockRight, hlevel, htable, this]

/-- In a mode in which no access is checked by the mode, a requester without a right in the block is answered PRIV. -/
theorem blockScreen_no_right (s : State) (r : Requester) (b : Nat) (k : Kind) (hmode : s.modeScreen r (b ≤ 1) = none)
    (hright : s.blockRight r b = 0) : s.blockScreen r b k = some .priv := by
  cases k <;> simp [State.blockScreen, hmode, hright, rightSuffices]

/-- A check of the mode that fails answers the access of a block. -/
theorem blockScreen_mode (s : State) (r : Requester) (b : Nat) (k : Kind) {c : RCode} (hmode : s.modeScreen r (b ≤ 1) = some c) :
    s.blockScreen r b k = some c := by
  simp [State.blockScreen, hmode]

/-- An access whose block answers PRIV is answered so. -/
theorem screenOne_priv (s : State) (r : Requester) {a b : Nat} (k : Kind) (hb : blockOf a = some b) (ha : s.absentReg a = false)
    (h : s.blockScreen r b k = some .priv) : s.screenOne r a k = some .priv := by
  simp [State.screenOne, hb, ha, h]

/-- An access that the mode answers BUSY is answered so, whatever rule of its unit forbids it. -/
theorem screenOne_mode_busy (s : State) (r : Requester) {a b : Nat} (k : Kind) (hb : blockOf a = some b) (ha : s.absentReg a = false)
    (h : s.modeScreen r (b ≤ 1) = some .busy) : s.screenOne r a k = some .busy := by
  simp [State.screenOne, hb, ha, blockScreen_mode s r b k h, h]

/-- In Steep and Update every access outside blocks 0 and 1 is BUSY (R194, check 3). -/
theorem modeScreen_steep_update (s : State) (r : Requester) (hmode : s.hub.mode = .steep ∨ s.hub.mode = .update) :
    s.modeScreen r false = some .busy := by
  rcases hmode with h | h <;> simp [State.modeScreen, h]

/-- In Quarantine and Test an Operator is answered PRIV (R194, check 4). -/
theorem modeScreen_operator (s : State) (r : Requester) (low : Bool) (hmode : s.hub.mode = .quarantine ∨ s.hub.mode = .test)
    (hlevel : r.level = .operator) : s.modeScreen r low = some .priv := by
  rcases hmode with h | h <;> simp [State.modeScreen, h, hlevel]

theorem modeScreen_safe (s : State) (r : Requester) (low : Bool) (hmode : s.hub.mode = .safe) : s.modeScreen r low = none := by
  simp [State.modeScreen, hmode]

/-- Outside Steep and Update the mode answers PRIV or nothing. -/
theorem modeScreen_cases (s : State) (r : Requester) (low : Bool) (hsteep : s.hub.mode ≠ .steep) (hupdate : s.hub.mode ≠ .update) :
    s.modeScreen r low = none ∨ s.modeScreen r low = some .priv := by
  unfold State.modeScreen
  split
  · contradiction
  · contradiction
  · split <;> simp
  · split <;> simp
  · exact .inl rfl

/-- Checks 5 and 6 of R194 answer PRIV, BUSY for a gated domain, or nothing. -/
theorem blockScreen_cases (s : State) (r : Requester) (b : Nat) (k : Kind) (hmode : s.modeScreen r (b ≤ 1) = none) :
    s.blockScreen r b k = none ∨ s.blockScreen r b k = some .priv ∨ s.blockScreen r b k = some .busy := by
  simp only [State.blockScreen, hmode]
  repeat' split
  all_goals simp

/-- The unit chapters give PRIV to every atomic of a register that is no TOP_SCRATCH (R202). -/
theorem regPriv_atomic (s : State) (r : Requester) {a : Nat} (ha : isScratch a = false) : s.regPriv r a .atomic = true := by
  simp [State.regPriv, ha]

theorem screenOne_atomic (s : State) (r : Requester) {a b : Nat} (hb : blockOf a = some b) (ha : s.absentReg a = false)
    (hscratch : isScratch a = false) (hsteep : s.hub.mode ≠ .steep) (hupdate : s.hub.mode ≠ .update) :
    s.screenOne r a .atomic = some .priv := by
  rcases modeScreen_cases s r (b ≤ 1) hsteep hupdate with hmode | hmode
  · rcases blockScreen_cases s r b .atomic hmode with h | h | h <;>
      simp [State.screenOne, hb, ha, h, hmode, regPriv_atomic s r hscratch]
  · exact screenOne_priv s r .atomic hb ha (blockScreen_mode s r b .atomic hmode)

/-! ### A CLAIM that does not name the master (R321) -/

theorem claimOf_port (s : State) (t : Txn) {c : Claimed} (h : s.claimOf t = some c) : t.port.isSome = true := by
  unfold State.claimOf at h
  split at h
  · contradiction
  · next hport => exact Option.isSome_iff_ne_none.mpr (by simpa using hport)

theorem withClaim_txn (s : State) (t : Txn) {c : Claimed} (h : s.claimOf t = some c) :
    (s.withClaim t).2 = { t with claim := some c.claim } := by
  simp [State.withClaim, h]

theorem txnDenied_of_claim (t : Txn) (c : Claim) (hport : t.port.isSome = true) (hmaster : c.masters.getLsbD t.who.master.val = false) :
    txnDenied { t with claim := some c } = true := by
  simp only [txnDenied, hport, hmaster, Bool.not_false, Bool.true_or, Bool.or_true, Bool.true_and]

/-- Settles O14: the mode answers before the rights, and the rights before the rules of single registers. -/
theorem rightsFollowModeAndLevel : Obligations.RightsFollowModeAndLevel := by
  refine ⟨fun s r a b k hmode hb h2 ha => ?_, fun s r a b k hmode hlevel hb ha => ?_, fun s r a b k htable hlevel hmode hb ha => ?_,
    fun s r a b k htable hlevel hmode hb ha h2 => ?_,
    fun s r a b hb ha hscratch hsteep hupdate => screenOne_atomic s r hb ha hscratch hsteep hupdate,
    fun s r a k hb => ?_, fun s t c n k p hclaim hmaster hplace hmode => ?_⟩
  · have hlow : decide (b ≤ 1) = false := decide_eq_false (by omega)
    exact screenOne_mode_busy s r k hb ha (hlow ▸ modeScreen_steep_update s r hmode)
  · exact screenOne_priv s r k hb ha (blockScreen_mode s r b k (modeScreen_operator s r _ hmode hlevel))
  · exact screenOne_priv s r k hb ha (blockScreen_no_right s r b k (modeScreen_safe s r _ hmode)
      (blockRight_no_table_operator s r b htable hlevel))
  · exact screenOne_priv s r k hb ha (blockScreen_no_right s r b k (modeScreen_safe s r _ hmode)
      (blockRight_no_table_supervisor s r htable hlevel h2))
  · simp [State.screenOne, hb]
  · rw [withClaim_txn s t hclaim]
    simp [State.checkTxn, hplace, txnDenied_of_claim t c.claim (claimOf_port s t hclaim) hmaster, hmode]

end Sys2Proof.Machine

namespace Sys2Proof.Machine

/-! ### What counting events leaves alone -/

/-- The state without its registers, the performance counters and the count of free values: what counting an event changes is gone. -/
def State.sansCounts (s : State) : State := { s with regs := [], pmc := {}, fresh := 0 }

/-- A fold keeps what each of its steps keeps. -/
theorem foldl_keeps {α β : Type} (p : State → β) (f : State → α → State) (l : List α) (h : ∀ t, ∀ a ∈ l, p (f t a) = p t) (s : State) :
    p (l.foldl f s) = p s :=
  List.foldlRecOn (motive := fun t => p t = p s) l f rfl (fun t ht a ha => (h t a ha).trans ht)

@[simp] theorem wr_sansCounts (s : State) (f : Fld) (v : Nat) : (s.wr f v).sansCounts = s.sansCounts := rfl

/-- The registers of the performance counters (R661). -/
abbrev pmcBlock (a : Nat) : Prop := 0x80000 ≤ a ∧ a < 0x90000

theorem pmcAdd_sansCounts (s : State) (h : Tally) : (s.pmcAdd h).sansCounts = s.sansCounts := by
  unfold State.pmcAdd
  dsimp only
  (repeat' split) <;> rfl

theorem pmcAdd_word (s : State) (h : Tally) (hi : h.counter < 64) {a : Nat} (ha : ¬pmcBlock a) : (s.pmcAdd h).word a = s.word a := by
  have hcnt : a ≠ (R.PMC_CNT_count h.counter).addr := by
    simp only [R.PMC_CNT_count, R.PMC_CNT]
    omega
  have hovf : a ≠ R.PMC_OVF_ovf.addr := by
    simp only [R.PMC_OVF_ovf, R.PMC_OVF]
    omega
  unfold State.pmcAdd
  dsimp only
  split
  · exact word_wr_ne _ _ _ hcnt
  · split <;> exact (word_wr_ne _ _ _ hovf).trans (word_wr_ne _ _ _ hcnt)

/-- Counting an event changes the performance counters only. -/
theorem pmcBy_sansCounts (s : State) (cls ev x n : Nat) (a : Attrs) : (s.pmcBy cls ev x n a).sansCounts = s.sansCounts := by
  unfold State.pmcBy
  split
  · rfl
  · refine foldl_keeps State.sansCounts _ _ (fun t kv _ => ?_) s
    dsimp only
    split
    · rfl
    · exact pmcAdd_sansCounts _ _

theorem pmcBy_word (s : State) (cls ev x n : Nat) (at_ : Attrs) {a : Nat} (ha : ¬pmcBlock a) :
    (s.pmcBy cls ev x n at_).word a = s.word a := by
  unfold State.pmcBy
  split
  · rfl
  · refine foldl_keeps (fun t => t.word a) _ _ (fun t kv hkv => ?_) s
    have hrange := (List.mem_filter.mp hkv).2
    simp only [decide_eq_true_eq] at hrange
    dsimp only
    split
    · rfl
    · exact pmcAdd_word t _ (show (kv.1 - 0x80100) / 8 < 64 by omega) ha

@[simp] theorem pmcEv_sansCounts (s : State) (cls ev x : Nat) (a : Attrs) : (s.pmcEv cls ev x a).sansCounts = s.sansCounts :=
  pmcBy_sansCounts ..

theorem pmcEv_word (s : State) (cls ev x : Nat) (at_ : Attrs) {a : Nat} (ha : ¬pmcBlock a) : (s.pmcEv cls ev x at_).word a = s.word a :=
  pmcBy_word s cls ev x 1 at_ ha

/-- The state with the master noted that a request came from, and its event counted: nothing else changes (R31, R647). -/
theorem countTxn_sansCounts (s : State) (r : Requester) (a : Nat) (c : RCode) (ev bytes n : Nat) :
    (s.countTxn r a c ev bytes n).sansCounts = (s.heardFrom r).sansCounts := by
  unfold State.countTxn
  dsimp only
  split
  · exact (pmcBy_sansCounts ..).trans (pmcEv_sansCounts ..)
  · exact pmcEv_sansCounts ..

theorem heardFrom_word (s : State) (r : Requester) (a : Nat) : (s.heardFrom r).word a = s.word a := by
  unfold State.heardFrom
  split <;> rfl

theorem countTxn_word (s : State) (r : Requester) (b : Nat) (c : RCode) (ev bytes n : Nat) {a : Nat} (ha : ¬pmcBlock a) :
    (s.countTxn r b c ev bytes n).word a = s.word a := by
  unfold State.countTxn
  dsimp only
  split
  · rw [pmcBy_word _ _ _ _ _ _ ha, pmcEv_word _ _ _ _ _ ha, heardFrom_word]
  · rw [pmcEv_word _ _ _ _ _ ha, heardFrom_word]

/-- What the target adds to an access, apart from the counters: the master is noted, and the answer given. -/
theorem answeredCount_sansCounts (s : State) (r : Requester) (a : Nat) (c d : RCode) (ev bytes n : Nat) (data : List Word) :
    ((s.countTxn r a c ev bytes n).answered d data).sansCounts = { (s.heardFrom r).sansCounts with answer := some ⟨d, data⟩ } :=
  congrArg (fun t : State => { t with answer := some ⟨d, data⟩ }) (countTxn_sansCounts s r a c ev bytes n)

theorem answeredCount_hub (s : State) (r : Requester) (a : Nat) (c d : RCode) (ev bytes n : Nat) (data : List Word) :
    ((s.countTxn r a c ev bytes n).answered d data).hub = (s.heardFrom r).hub :=
  (congrArg State.hub (answeredCount_sansCounts s r a c d ev bytes n data) :)

/-- The state without its registers, the counters, the answer and the hub's own fields: an access that has no effect of its own leaves
the rest. -/
def State.sansAnswer (s : State) : State := { s.sansCounts with answer := none, hub := {} }

theorem heardFrom_sansAnswer (s : State) (r : Requester) : (s.heardFrom r).sansAnswer = s.sansAnswer := by
  unfold State.heardFrom
  split <;> rfl

theorem answeredCount_sansAnswer (s : State) (r : Requester) (a : Nat) (c d : RCode) (ev bytes n : Nat) (data : List Word) :
    ((s.countTxn r a c ev bytes n).answered d data).sansAnswer = s.sansAnswer := by
  have h := congrArg State.sansAnswer (answeredCount_sansCounts s r a c d ev bytes n data)
  exact h.trans (heardFrom_sansAnswer s r)

/-! ### What `Keeps` speaks of, as one value -/

/-- The part of the state that `Keeps` speaks of. -/
def State.lasting (s : State) : State :=
  { State.reset with
    pimem := s.pimem, flash := s.flash, eccMarks := s.eccMarks, store := s.store, loaded := s.loaded, variant := s.variant,
    rootKey := s.rootKey, pending := s.pending, now := s.now, clk := s.clk }

theorem keeps_of_lasting {s u : State} (h : u.lasting = s.lasting) : Keeps s u :=
  ⟨(congrArg State.pimem h :), (congrArg State.flash h :), (congrArg State.eccMarks h :), (congrArg State.store h :), (congrArg State.loaded h :),
    (congrArg State.variant h :), (congrArg State.rootKey h :), (congrArg State.pending h :), (congrArg State.now h :), (congrArg State.clk h :)⟩

theorem lasting_of_keeps {s u : State} (h : Keeps s u) : u.lasting = s.lasting := by
  obtain ⟨hmem, hflash, hecc, hstore, hloaded, hvariant, hkey, hpending, hnow, hclk⟩ := h
  simp only [State.lasting, hmem, hflash, hecc, hstore, hloaded, hvariant, hkey, hpending, hnow, hclk]

theorem Keeps.trans {s t u : State} (h : Keeps s t) (k : Keeps t u) : Keeps s u :=
  keeps_of_lasting ((lasting_of_keeps k).trans (lasting_of_keeps h))

/-- An accepted or refused write, at every address: what its answer and its counts change. -/
theorem answeredCount_frame (s : State) (r : Requester) (a : Nat) (c d : RCode) (ev bytes n : Nat) (data : List Word) :
    ((s.countTxn r a c ev bytes n).answered d data).answer = some ⟨d, data⟩ ∧
    Keeps s ((s.countTxn r a c ev bytes n).answered d data) ∧
    ((s.countTxn r a c ev bytes n).answered d data).hub = (s.heardFrom r).hub ∧
    ((s.countTxn r a c ev bytes n).answered d data).upd = s.upd ∧ ((s.countTxn r a c ev bytes n).answered d data).bays = s.bays ∧
    ((s.countTxn r a c ev bytes n).answered d data).engines = s.engines ∧
    ((s.countTxn r a c ev bytes n).answered d data).power = s.power ∧
    (∀ b, ¬pmcBlock b → ((s.countTxn r a c ev bytes n).answered d data).word b = s.word b) := by
  have h := answeredCount_sansAnswer s r a c d ev bytes n data
  exact ⟨rfl, keeps_of_lasting (congrArg State.lasting h :), answeredCount_hub .., (congrArg State.upd h :), (congrArg State.bays h :),
    (congrArg State.engines h :), (congrArg State.power h :), fun b hb => countTxn_word s r a c ev bytes n hb⟩

/-! ### Where a register command finds its register -/

/-- An aligned register and its last byte lie in one block. -/
theorem blockOf_last {a b : Nat} (ha : a % 8 = 0) (hb : blockOf a = some b) : blockOf (a + 8 - 1) = some b := by
  have hlast : a + 8 - 1 = 8 * (a / 8) + 7 := by omega
  have hfirst : a = 8 * (a / 8) := by omega
  generalize a / 8 = n at hlast hfirst
  rw [hlast]
  subst hfirst
  unfold blockOf at *
  grind

/-- A register that passes the checks exists, its block takes writes, and no rule of its unit forbids the write. -/
theorem screenOne_write_none {s : State} {r : Requester} {a : Nat} (h : s.screenOne r a .write = none) :
    ∃ b, blockOf a = some b ∧ b ≠ 0x50 ∧ b ≠ 0x51 ∧ s.absentReg a = false ∧ s.regPriv r a .write = false := by
  unfold State.screenOne at h
  split at h
  · contradiction
  · next b hb =>
    split at h
    · contradiction
    · next habsent =>
      split at h
      · split at h <;> contradiction
      · contradiction
      · next hblock =>
        split at h
        · contradiction
        · next hpriv =>
          refine ⟨b, hb, ?_, ?_, by simpa using habsent, by simpa using hpriv⟩ <;>
          · rintro rfl
            unfold State.blockScreen at hblock
            (repeat' split at hblock) <;> simp_all

/-- Its place is that one register. -/
theorem placeOf_register {s : State} {r : Requester} {a : Nat} (hscreen : s.screenOne r a .write = none) (ha : a % 8 = 0)
    (hwindow : s.windowAt a 8 = none) : ∃ b, s.placeOf a 8 false = some (.regs b 1) := by
  obtain ⟨b, hb, hcaddy, hflash, habsent, -⟩ := screenOne_write_none hscreen
  exact ⟨b, by
    have hlast := blockOf_last ha hb
    simp only [State.placeOf, hwindow, hb, hlast]
    simp [hcaddy, hflash, ha, habsent]⟩

theorem leNat_leBytes (n v : Nat) : leNat (leBytes n v) = v % 256 ^ n := by
  induction n generalizing v with
  | zero => simp [leBytes, leNat, Nat.mod_one]
  | succ n ih =>
    rw [leBytes, leNat, ih, BitVec.toNat_ofNat, pow_succ' 256 n, Nat.mod_mul]

/-- A word is what its bytes spell. -/
@[simp] theorem bytesWord_wordBytes (w : Word) : bytesWord (wordBytes w) = w := by
  rw [bytesWord, wordBytes, leNat_leBytes]
  apply BitVec.eq_of_toNat_eq
  rw [BitVec.toNat_ofNat]
  have := w.isLt
  omega

@[simp] theorem leBytes_length (n v : Nat) : (leBytes n v).length = n := by
  induction n generalizing v with
  | zero => rfl
  | succ n ih => rw [leBytes, List.length_cons, ih]

@[simp] theorem wordBytes_length (w : Word) : (wordBytes w).length = 8 := leBytes_length 8 _

theorem bytesWords_wordBytes (w : Word) : bytesWords 1 (wordBytes w) = [w] := by
  rw [bytesWords, bytesWords, List.take_of_length_le (wordBytes_length w).le, bytesWord_wordBytes]

/-- The write of one register that exists and that no rule of its unit forbids. -/
theorem writePlace_register (s : State) (r : Requester) (a : Nat) (hw v : Word) (b : Nat) (habsent : s.absentReg a = false)
    (hpriv : s.regPriv r a .write = false) : s.writePlace r a hw (wordBytes v) (.regs b 1) = (s.writeReg r a v hw, .ok) := by
  simp [State.writePlace, bytesWords_wordBytes, State.writeRegs, habsent, hpriv, RCode.join]

end Sys2Proof.Machine

namespace Sys2Proof.Machine

/-! ### Writes of process image memory -/

/-- The state without process image memory and the ECC marks. -/
def State.sansMem (s : State) : State := { s with pimem := [], eccMarks := [] }

/-- A word stored with fresh ECC is good, and the others are as they were. -/
theorem cleanMem_freshEcc {s : State} (h : CleanMem s) (i : Nat) : CleanMem (s.freshEcc .pimem i) := by
  intro j
  unfold State.eccOf State.freshEcc
  dsimp only
  rw [List.find?_filter]
  by_cases hj : j = i
  · subst hj
    rw [List.find?_eq_none.mpr (fun x _ => by grind)]
    simp
  · have hsame : (fun x : EccMem × Nat × Ecc => decide ((!(decide (x.1 = .pimem) && decide (x.2.1 = i))) = true ∧
        decide (x.1 = .pimem ∧ x.2.1 = j) = true)) = fun x => decide (x.1 = .pimem ∧ x.2.1 = j) := by
      funext x
      grind
    rw [hsame]
    exact h j

/-- A word that is good takes its part of a write; nothing but memory and its marks changes. -/
theorem memWriteWord_clean {s : State} (h : CleanMem s) (o : Nat) (bs : List Byte) (i : Nat) :
    (s.memWriteWord o bs i).2 = true ∧ CleanMem (s.memWriteWord o bs i).1 ∧ (s.memWriteWord o bs i).1.sansMem = s.sansMem := by
  unfold State.memWriteWord
  dsimp only
  split
  · exact ⟨rfl, cleanMem_freshEcc (s := { s with pimem := _ }) h i, rfl⟩
  · rw [if_neg (h i)]
    exact ⟨rfl, cleanMem_freshEcc (s := { s with pimem := _ }) h i, rfl⟩

/-- The bytes of word `i` that a write covers are written, the others stay. -/
theorem memWriteWord_byte {s : State} (h : CleanMem s) (o : Nat) (bs : List Byte) (i a : Nat) :
    (s.memWriteWord o bs i).1.memByte a = if o ≤ a ∧ a < o + bs.length ∧ a / 8 = i then bs.getD (a - o) 0 else s.memByte a := by
  have hmem : (s.memWriteWord o bs i).1.pimem = mputList 0 s.pimem (max o (8 * i))
      ((bs.drop (max o (8 * i) - o)).take (min (o + bs.length) (8 * i + 8) - max o (8 * i))) := by
    unfold State.memWriteWord
    dsimp only
    split
    · rfl
    · rw [if_neg (h i)]
      rfl
  unfold State.memByte
  rw [hmem]
  generalize hlo : max o (8 * i) = lo
  generalize hhi : min (o + bs.length) (8 * i + 8) = hi
  have hlen : ((bs.drop (lo - o)).take (hi - lo)).length = hi - lo := by
    rw [List.length_take, List.length_drop]
    omega
  split
  · next hin =>
    have hk : a - lo < ((bs.drop (lo - o)).take (hi - lo)).length := by omega
    have ha : a = lo + (a - lo) := by omega
    have hsum : lo - o + (a - lo) = a - o := by omega
    have hget : a - o < bs.length := by omega
    rw [ha, mget_mputList_in 0 _ _ hk, List.getElem_take, List.getElem_drop, ← ha]
    simp only [hsum, List.getD_eq_getElem?_getD, List.getElem?_eq_getElem hget, Option.getD_some]
  · next hout =>
    rcases Nat.lt_or_ge a lo with hlt | hge
    · exact mget_mputList_lt 0 _ _ hlt
    · exact mget_mputList_ge 0 _ _ (by omega)

/-- What a write of good words does, word by word. -/
theorem memWrite_foldl (o : Nat) (bs : List Byte) (ws : List Nat) (s : State) (ok : Bool) (h : CleanMem s) :
    let u := ws.foldl (fun (acc : State × Bool) i => ((acc.1.memWriteWord o bs i).1, acc.2 && (acc.1.memWriteWord o bs i).2)) (s, ok)
    u.2 = ok ∧ CleanMem u.1 ∧ u.1.sansMem = s.sansMem ∧ ∀ a, u.1.memByte a =
      if o ≤ a ∧ a < o + bs.length ∧ a / 8 ∈ ws then bs.getD (a - o) 0 else s.memByte a := by
  induction ws generalizing s ok with
  | nil => exact ⟨rfl, h, rfl, fun a => by simp⟩
  | cons w ws ih =>
    obtain ⟨hok, hclean, hrest⟩ := memWriteWord_clean h o bs w
    obtain ⟨ih1, ih2, ih3, ih4⟩ := ih (s.memWriteWord o bs w).1 (ok && (s.memWriteWord o bs w).2) hclean
    refine ⟨by rw [List.foldl_cons, ih1, hok, Bool.and_true], ih2, ih3.trans hrest, fun a => ?_⟩
    rw [List.foldl_cons, ih4, memWriteWord_byte h]
    by_cases hin : o ≤ a ∧ a < o + bs.length
    · by_cases hw : a / 8 = w <;> simp [hin, hw]
    · have hout (p : Prop) : ¬(o ≤ a ∧ a < o + bs.length ∧ p) := fun hp => hin ⟨hp.1, hp.2.1⟩
      simp only [if_neg (hout _)]

theorem mem_wordsOf {o n a : Nat} (hlo : o ≤ a) (hhi : a < o + n) : a / 8 ∈ wordsOf o n := by
  rw [wordsOf, if_neg (by omega)]
  exact List.mem_map.mpr ⟨a / 8 - o / 8, List.mem_range.mpr (by omega), by omega⟩

/-- A write where every word is good stores its bytes and changes nothing else. -/
theorem memWrite_clean {s : State} (h : CleanMem s) (o : Nat) (bs : List Byte) :
    (s.memWrite o bs).2 = true ∧ (s.memWrite o bs).1.sansMem = s.sansMem ∧
    (∀ a, a < o ∨ o + bs.length ≤ a → (s.memWrite o bs).1.memByte a = s.memByte a) ∧
    (∀ i, i < bs.length → (s.memWrite o bs).1.memByte (o + i) = bs.getD i 0) := by
  obtain ⟨hok, -, hrest, hbyte⟩ := memWrite_foldl o bs (wordsOf o bs.length) s true h
  refine ⟨hok, hrest, fun a ha => ?_, fun i hi => ?_⟩
  · refine (hbyte a).trans (if_neg ?_)
    rintro ⟨hlo, hhi, -⟩
    omega
  · refine (hbyte (o + i)).trans ?_
    rw [if_pos ⟨by omega, by omega, mem_wordsOf (by omega) (by omega)⟩, Nat.add_sub_cancel_left]

/-- Counting and answering a write of memory leaves what it has stored. -/
theorem answeredCount_stores {s t : State} {o : Nat} {bs : List Byte} (hrest : t.sansMem = s.sansMem)
    (hout : ∀ a, a < o ∨ o + bs.length ≤ a → t.memByte a = s.memByte a) (hin : ∀ i, i < bs.length → t.memByte (o + i) = bs.getD i 0)
    (r : Requester) (a : Nat) (c d : RCode) (ev bytes n : Nat) (data : List Word) :
    Stores s ((t.countTxn r a c ev bytes n).answered d data) o bs := by
  have h := answeredCount_sansAnswer t r a c d ev bytes n data
  have hmem (b : Nat) : ((t.countTxn r a c ev bytes n).answered d data).memByte b = t.memByte b :=
    (congrArg (fun u : State => u.memByte b) h :)
  have rest {β : Type} (p : State → β) (hp : ∀ u : State, p u.sansAnswer = p u) (hp' : ∀ u : State, p u.sansMem = p u) :
      p ((t.countTxn r a c ev bytes n).answered d data) = p s := by
    rw [← hp, h, hp, ← hp', hrest, hp']
  exact ⟨fun b hb => (hmem b).trans (hout b hb), fun i hi => (hmem _).trans (hin i hi), rest State.flash (fun _ => rfl) (fun _ => rfl),
    rest State.upd (fun _ => rfl) (fun _ => rfl), rest State.bays (fun _ => rfl) (fun _ => rfl),
    rest State.engines (fun _ => rfl) (fun _ => rfl), rest State.switch (fun _ => rfl) (fun _ => rfl),
    rest State.power (fun _ => rfl) (fun _ => rfl), rest State.time (fun _ => rfl) (fun _ => rfl),
    rest State.ring (fun _ => rfl) (fun _ => rfl), rest State.cyc (fun _ => rfl) (fun _ => rfl),
    rest State.kettle (fun _ => rfl) (fun _ => rfl), rest State.now (fun _ => rfl) (fun _ => rfl),
    rest State.clk (fun _ => rfl) (fun _ => rfl),
    fun b _ _ _ hb => (countTxn_word t r a c ev bytes n hb).trans (congrArg (fun u : State => u.word b) hrest :)⟩

/-- Settles O13: an access stands or falls with `State.screenOne`, and counting and answering leave what it wrote. -/
theorem writesAreCheckedBeforeTheyAct : Obligations.WritesAreCheckedBeforeTheyAct := by
  refine ⟨fun s r a eff => ⟨asWrite_down s r a eff, fun c hup hc => ?_, fun hg => ?_⟩, fun s r a v hw hdown => ?_,
    fun s r a v hw hup hplace => ?_, fun s r a v hw p c hup hplace hc => ?_, fun s r a v hw hg ha hwindow => ?_,
    fun s r a v hw w hup hwindow hscreen hclean => ?_⟩
  · rw [asWrite_refused s r a eff c hup hc]
    exact answeredCount_frame ..
  · rw [asWrite_grants eff hg]
    exact answeredCount_frame ..
  · rw [exec, execRegisterWrite, done_eq, State.registerWrite, if_pos (by rw [hdown]; rfl)]
  · simp [exec, execRegisterWrite, done_eq, State.registerWrite, hup, hplace]
  · simp [exec, execRegisterWrite, done_eq, State.registerWrite, hup, hplace, hc]
  · obtain ⟨b, hplace⟩ := placeOf_register hg.2 ha hwindow
    obtain ⟨-, -, -, -, habsent, hpriv⟩ := screenOne_write_none hg.2
    simp [exec, execRegisterWrite, done_eq, State.registerWrite, hg.1, hplace, State.placeScreen, hg.2,
      writePlace_register s r a.toNat hw v b habsent hpriv, State.wrote]
  · obtain ⟨hok, hrest, hout, hin⟩ := memWrite_clean hclean (w.memOffset + (a.toNat - w.base)) (wordBytes v)
    have hplace : s.placeOf a.toNat 8 false = some (.window w) := by simp [State.placeOf, hwindow]
    refine ⟨((s.memWrite (w.memOffset + (a.toNat - w.base)) (wordBytes v)).1.countTxn r a.toNat .ok 1 9 8).answered .ok [], ?_, ?_, rfl⟩
    · simp [exec, execRegisterWrite, done_eq, State.registerWrite, hup, hplace, State.placeScreen, hscreen, State.writePlace, hok]
    · exact answeredCount_stores hrest hout hin ..

end Sys2Proof.Machine

namespace Sys2Proof.Machine

/-! ### The order of concurrent commands -/

/-- One stage at which neither leads leaves the order to the later ones. -/
theorem foldr_stage_antisymm (p q : Nat → Bool) (ks : List Nat)
    (h : ks.foldr (fun k later => if p k = q k then later else p k) false = true) :
    ks.foldr (fun k later => if q k = p k then later else q k) false = false := by
  induction ks with
  | nil => rfl
  | cons k ks ih =>
    simp only [List.foldr_cons] at h ⊢
    by_cases hk : p k = q k
    · rw [if_pos hk] at h
      rw [if_pos hk.symm]
      exact ih h
    · rw [if_neg hk] at h
      rw [if_neg (Ne.symm hk)]
      simpa [h] using hk

/-- Of two commands at most one comes before the other. -/
theorem comesFirst_antisymm (s : State) (all xs ys : List Ask) (h : s.comesFirst all xs ys = true) : s.comesFirst all ys xs = false :=
  foldr_stage_antisymm _ _ _ h

theorem comesFirst_self (s : State) (all xs : List Ask) : s.comesFirst all xs xs = false := by
  cases h : s.comesFirst all xs xs
  · rfl
  · exact h.symm.trans (comesFirst_antisymm s all xs xs h)

/-- `State.inOrder` gives each command once. -/
theorem inOrder_perm (s : State) (all : List Ask) (n : Nat) (cs : List (Instr × List Ask)) (hn : cs.length = n) :
    (s.inOrder all n cs).Perm (cs.map (·.1)) := by
  induction n generalizing cs with
  | zero =>
    rw [List.length_eq_zero_iff.mp hn]
    rfl
  | succ n ih =>
    obtain ⟨c, hc, hmem⟩ : ∃ c, (cs.find? (fun c => !cs.any (fun d => s.comesFirst all d.2 c.2))).or cs.head? = some c ∧ c ∈ cs := by
      cases hfind : cs.find? (fun c => !cs.any (fun d => s.comesFirst all d.2 c.2)) with
      | some c => exact ⟨c, rfl, List.mem_of_find?_eq_some hfind⟩
      | none =>
        obtain ⟨c, hc⟩ := List.length_pos_iff_exists_mem.mp (show 0 < cs.length by omega)
        cases cs with
        | nil => contradiction
        | cons c cs => exact ⟨c, rfl, List.mem_cons_self⟩
    simp only [State.inOrder, hc]
    have hlen : (cs.erase c).length = n := by rw [List.length_erase_of_mem hmem]; omega
    exact ((ih (cs.erase c) hlen).cons c.1).trans ((List.perm_cons_erase hmem).map Prod.fst).symm

theorem arbitrate_perm (s : State) (cs : List Instr) : (s.arbitrate cs).Perm cs := by
  have h := inOrder_perm s ((cs.map (fun i => (i, s.asks i))).flatMap (·.2)) cs.length (cs.map (fun i => (i, s.asks i))) (by simp)
  simpa [State.arbitrate, Function.comp_def] using h

/-- Two commands go in the order of their asks; where neither comes before the other, as they are given. -/
theorem arbitrate_pair (s : State) (c d : Instr) :
    s.arbitrate [c, d] = if s.comesFirst (s.asks c ++ s.asks d) (s.asks d) (s.asks c) = true then [d, c] else [c, d] := by
  have hc := comesFirst_self s (s.asks c ++ s.asks d) (s.asks c)
  have hd := comesFirst_self s (s.asks c ++ s.asks d) (s.asks d)
  split
  · next h =>
    have h' := comesFirst_antisymm s _ _ _ h
    have hne : (c, s.asks c) ≠ (d, s.asks d) := fun e => by
      rw [(Prod.mk.inj e).2, comesFirst_self] at h
      contradiction
    simp [State.arbitrate, State.inOrder, hc, hd, h, h', hne]
  · next h =>
    simp [State.arbitrate, State.inOrder, hc, hd, Bool.eq_false_iff.mpr h]

theorem offer_pair (s : State) (c d : Instr) : (s.offer [c, d]).pending = s.pending ++
    (if s.ahead.comesFirst (s.ahead.asks c ++ s.ahead.asks d) (s.ahead.asks d) (s.ahead.asks c) = true then [d, c] else [c, d]) :=
  congrArg (s.pending ++ ·) (arbitrate_pair s.ahead c d)

/-- The first stage at which the two differ decides. -/
theorem foldr_stage_at (p q : Nat → Bool) (k n a : Nat) (ha : a ≤ k) (hk : k < a + n) (hbefore : ∀ j, j < k → p j = q j) (hne : p k ≠ q k) :
    (List.range' a n).foldr (fun k later => if p k = q k then later else p k) false = p k := by
  induction n generalizing a with
  | zero => omega
  | succ n ih =>
    rw [List.range'_succ, List.foldr_cons]
    rcases Nat.eq_or_lt_of_le ha with rfl | hlt
    · rw [if_neg hne]
    · rw [if_pos (hbefore a hlt)]
      exact ih (a + 1) hlt (by omega)

/-- The asks of a command at stage `k` of the arbiters. -/
abbrev atStage (k : Nat) (xs : List Ask) : List Ask := xs.filter (·.stage == k)

theorem comesFirst_at (s : State) (all xs ys : List Ask) {k : Nat} (hk : k < 8)
    (hbefore : ∀ j, j < k → s.leads all (atStage j xs) (atStage j ys) = s.leads all (atStage j ys) (atStage j xs))
    (hne : s.leads all (atStage k xs) (atStage k ys) ≠ s.leads all (atStage k ys) (atStage k xs)) :
    s.comesFirst all xs ys = s.leads all (atStage k xs) (atStage k ys) := by
  rw [State.comesFirst, List.range_eq_range']
  exact foldr_stage_at (fun k => s.leads all (atStage k xs) (atStage k ys)) (fun k => s.leads all (atStage k ys) (atStage k xs)) k 8 0
    (Nat.zero_le k) (by omega) hbefore hne

/-- Asks of which none goes before one of the others do not lead. -/
theorem leads_false (s : State) (all xs ys : List Ask) (h : ∀ a ∈ xs, ∀ b ∈ ys, s.askFirst all a b = false) : s.leads all xs ys = false := by
  simp only [State.leads, List.any_eq_false]
  intro a ha hany
  obtain ⟨b, hb, hfirst⟩ := List.any_eq_true.mp hany
  rw [h a ha b hb] at hfirst
  contradiction

/-- Two commands that meet at stage `k` go in the order in which their asks lead there. -/
theorem offer_meet {s : State} {c d : Instr} {k : Nat} {xs ys : List Ask} (hk : k < 8) (h : MeetAt s c d k xs ys)
    (hne : s.ahead.leads (s.ahead.asks c ++ s.ahead.asks d) ys xs ≠ s.ahead.leads (s.ahead.asks c ++ s.ahead.asks d) xs ys) :
    (s.offer [c, d]).pending = s.pending ++
      (if s.ahead.leads (s.ahead.asks c ++ s.ahead.asks d) ys xs = true then [d, c] else [c, d]) := by
  obtain ⟨hxs, hys, hbefore⟩ := h
  have quiet (j : Nat) (hj : j < k) (all : List Ask) (hall : all = s.ahead.asks c ++ s.ahead.asks d) :
      s.ahead.leads all (atStage j (s.ahead.asks d)) (atStage j (s.ahead.asks c)) = false ∧
      s.ahead.leads all (atStage j (s.ahead.asks c)) (atStage j (s.ahead.asks d)) = false := by
    subst hall
    constructor
    · refine leads_false _ _ _ _ (fun a ha b hb => ?_)
      obtain ⟨ha, -⟩ := List.mem_filter.mp ha
      obtain ⟨hb, hstage⟩ := List.mem_filter.mp hb
      exact (hbefore b hb a ha (by simpa using (beq_iff_eq.mp hstage).trans_lt hj)).2
    · refine leads_false _ _ _ _ (fun a ha b hb => ?_)
      obtain ⟨ha, hstage⟩ := List.mem_filter.mp ha
      obtain ⟨hb, -⟩ := List.mem_filter.mp hb
      exact (hbefore a ha b hb (by simpa using (beq_iff_eq.mp hstage).trans_lt hj)).1
  have hmeet := comesFirst_at s.ahead (s.ahead.asks c ++ s.ahead.asks d) (s.ahead.asks d) (s.ahead.asks c) hk
    (fun j hj => by rw [(quiet j hj _ rfl).1, (quiet j hj _ rfl).2]) (by simpa only [atStage, hxs, hys] using hne)
  rw [offer_pair, hmeet]
  simp only [atStage, hxs, hys]

/-- Where the asks of the second command lead those of the first, the second goes first. -/
theorem offer_meet_second {s : State} {c d : Instr} {k : Nat} {xs ys : List Ask} (hk : k < 8) (h : MeetAt s c d k xs ys)
    (hlead : ∀ all, s.ahead.leads all ys xs = true) (hnot : ∀ all, s.ahead.leads all xs ys = false) :
    (s.offer [c, d]).pending = s.pending ++ [d, c] := by
  rw [offer_meet hk h (by rw [hlead, hnot]; simp), if_pos (hlead _)]

theorem offer_meet_first {s : State} {c d : Instr} {k : Nat} {xs ys : List Ask} (hk : k < 8) (h : MeetAt s c d k xs ys)
    (hlead : ∀ all, s.ahead.leads all xs ys = true) (hnot : ∀ all, s.ahead.leads all ys xs = false) :
    (s.offer [c, d]).pending = s.pending ++ [c, d] := by
  rw [offer_meet hk h (by rw [hlead, hnot]; simp), if_neg (by rw [hnot]; simp)]

/-- One ask leads another as the tie-break of their arbiter says. -/
theorem leads_single (s : State) (all : List Ask) (a b : Ask) (h : s.askFirst all b a = false) :
    s.leads all [a] [b] = s.askFirst all a b := by
  simp [State.leads, h]

/-! ### Commands of masters at one target -/

theorem modeSeen_stage (s t : State) : ∀ x ∈ modeSeen s t, x.stage ≠ 0 := by
  intro x hx
  simp only [modeSeen, Option.mem_toList, Option.map_eq_some_iff] at hx
  obtain ⟨o, -, rfl⟩ := hx
  exact Nat.succ_ne_zero _

theorem vsiSeen_stage (s t : State) : ∀ x ∈ vsiSeen s t, x.stage ≠ 0 := by
  intro x hx
  unfold vsiSeen at hx
  split at hx
  · rw [List.mem_singleton.mp hx]
    decide
  · contradiction

theorem caddySeen_stage (s t : State) (changed : List Nat) : ∀ x ∈ caddySeen s t changed, x.stage ≠ 0 := by
  intro x hx
  simp only [caddySeen, List.mem_append, List.mem_map] at hx
  obtain (hx | hx) | ⟨f, -, rfl⟩ := hx
  · split at hx
    · rw [List.mem_singleton.mp hx]
      decide
    · contradiction
  · split at hx
    · rw [List.mem_singleton.mp hx]
      decide
    · contradiction
  · exact Nat.succ_ne_zero _

theorem startsSeen_stage (s t : State) : ∀ x ∈ startsSeen s t, x.stage ≠ 0 := by
  intro x hx
  obtain ⟨kv, -, hx⟩ := List.mem_flatMap.mp hx
  split at hx
  · rw [List.mem_singleton.mp hx]
    exact Nat.succ_ne_zero _
  · contradiction

theorem isolatorAsks_stage (g : Nat) : ∀ x ∈ isolatorAsks g, x.stage ≠ 0 := by
  intro x hx
  obtain ⟨j, -, rfl⟩ := List.mem_map.mp hx
  exact Nat.succ_ne_zero _

theorem portsSeen_stage (s t : State) : ∀ x ∈ portsSeen s t, x.stage ≠ 0 := by
  intro x hx
  unfold portsSeen at hx
  split at hx
  · contradiction
  · rcases List.mem_append.mp hx with hx | hx
    · obtain ⟨g, -, hx⟩ := List.mem_flatMap.mp hx
      split at hx
      · exact isolatorAsks_stage g x hx
      · contradiction
    · obtain ⟨k, -, hx⟩ := List.mem_flatMap.mp hx
      split at hx
      · rw [List.mem_singleton.mp hx]
        exact Nat.succ_ne_zero _
      · rw [List.mem_singleton.mp hx]
        exact Nat.succ_ne_zero _
      · contradiction

theorem eventsSeen_stage (s t : State) (changed : List Nat) : ∀ x ∈ eventsSeen s t changed, x.stage ≠ 0 := by
  intro x hx
  obtain ⟨i, -, rfl⟩ := List.mem_map.mp hx
  exact Nat.succ_ne_zero _

/-- No ask that a command is seen to make is one of the target. -/
theorem seenAsks_stage (s t : State) (own : List Nat) : ∀ x ∈ s.seenAsks t own, x.stage ≠ 0 := by
  intro x hx
  simp only [State.seenAsks, List.mem_append, List.mem_map] at hx
  obtain ((((((⟨a, -, rfl⟩ | hx) | hx) | hx) | hx) | hx) | hx) | hx := hx
  · exact Nat.succ_ne_zero _
  · exact modeSeen_stage s t x hx
  · exact vsiSeen_stage s t x hx
  · exact caddySeen_stage s t _ x hx
  · exact startsSeen_stage s t x hx
  · exact portsSeen_stage s t x hx
  · exact eventsSeen_stage s t _ x hx
  · split at hx
    · rw [List.mem_singleton.mp hx]
      decide
    · contradiction

theorem mem_toList_map_stage {α : Type} {o : Option α} {f : α → Ask} {x : Ask} (hx : x ∈ o.toList.map f) (h : ∀ n, (f n).stage ≠ 0) :
    x.stage ≠ 0 := by
  obtain ⟨n, -, rfl⟩ := List.mem_map.mp hx
  exact h n

/-- Nor is one that the register asks for. -/
theorem regAsks_stage (s : State) (r : Requester) (a : Nat) (v : Option Word) : ∀ x ∈ s.regAsks r a v, x.stage ≠ 0 := by
  intro x hx
  cases v with
  | none =>
    simp only [State.regAsks, Option.mem_toList, Option.map_eq_some_iff] at hx
    obtain ⟨n, -, rfl⟩ := hx
    exact Nat.succ_ne_zero _
  | some v =>
    rcases List.mem_cons.mp hx with rfl | hx
    · exact Nat.succ_ne_zero _
    · have single {y : Ask} (hx : x ∈ [y]) (hy : y.stage ≠ 0) : x.stage ≠ 0 := by rwa [List.mem_singleton.mp hx]
      split at hx
      · exact single hx (Nat.succ_ne_zero _)
      split at hx
      · exact single hx (Nat.succ_ne_zero _)
      split at hx
      · exact single hx (Nat.succ_ne_zero _)
      split at hx
      · obtain ⟨i, -, rfl⟩ := List.mem_map.mp hx
        exact Nat.succ_ne_zero _
      split at hx
      · exact single hx (Nat.succ_ne_zero _)
      · split at hx
        · exact isolatorAsks_stage _ x hx
        · contradiction
      · split at hx
        · contradiction
        · exact single hx (Nat.succ_ne_zero _)
      · rcases List.mem_append.mp hx with hx | hx
        · rcases List.mem_append.mp hx with hx | hx
          · exact mem_toList_map_stage hx (fun _ => Nat.succ_ne_zero _)
          · exact mem_toList_map_stage hx (fun _ => Nat.succ_ne_zero _)
        · exact mem_toList_map_stage hx (fun _ => Nat.succ_ne_zero _)

theorem atStage_eq_nil {xs : List Ask} {k : Nat} (h : ∀ x ∈ xs, x.stage ≠ k) : atStage k xs = [] :=
  List.filter_eq_nil_iff.mpr (fun x hx => by simpa using h x hx)

/-- A register command asks what its access asks. -/
theorem ownAsks_of_regOf (s : State) {c : Instr} {x : Requester × Nat × Option Word} (h : regOf c = some x) :
    s.ownAsks c = s.requestAsks c := by
  cases c <;> first | rfl | nomatch h

/-- What a register command of a master asks of the target: its master's turn. -/
theorem asks_stage_zero (s : State) {c : Instr} {r : Requester} {a : Nat} {v : Option Word} (h : regOf c = some (r, a, v))
    (hr : r.level ≠ .localLevel) : atStage 0 (s.asks c) = [.tag r.master.val] := by
  have hown : atStage 0 (s.ownAsks c) = [.tag r.master.val] := by
    have hregs : atStage 0 (s.regAsks r a v) = [] := atStage_eq_nil (regAsks_stage s r a v)
    have haccess (o : Option Nat) : atStage 0 (o.toList.map (fun b => Ask.access b (accessRank r))) = [] :=
      atStage_eq_nil (fun _ hx => mem_toList_map_stage hx (fun _ => Nat.succ_ne_zero _))
    simp only [atStage] at hregs haccess
    rw [ownAsks_of_regOf s h]
    simp only [State.requestAsks, State.touched, h, hr, if_false, atStage, List.filter_append, haccess, List.flatMap_cons,
      List.flatMap_nil, List.append_nil, hregs]
    rfl
  unfold State.asks
  rw [atStage, List.filter_append]
  have hseen : ∀ x ∈ (match exec c s with
      | .next t => s.seenAsks t ((s.touched c).filterMap (fun x : Nat × Option Word => x.2.map (fun _ => x.1)))
      | _ => []), x.stage ≠ 0 := by
    split
    · exact seenAsks_stage _ _ _
    · simp
  simp only [atStage] at hown
  rw [hown]
  exact congrArg ([Ask.tag r.master.val] ++ ·) (atStage_eq_nil hseen)

/-- Of two masters the lower one goes first (R102). -/
theorem offer_masters (s : State) {c d : Instr} {r q : Requester} {a b : Nat} {v w : Option Word} (hc : regOf c = some (r, a, v))
    (hd : regOf d = some (q, b, w)) (hr : r.level ≠ .localLevel) (hq : q.level ≠ .localLevel) (h : q.master.val < r.master.val) :
    (s.offer [c, d]).pending = s.pending ++ [d, c] := by
  refine offer_meet_second (k := 0) (by omega) ⟨asks_stage_zero _ hc hr, asks_stage_zero _ hd hq, fun x _ y _ hx => by omega⟩
    (fun all => ?_) (fun all => ?_)
  · have : ¬r.master.val < q.master.val := by omega
    simp [State.leads, State.askFirst, h, this]
  · have : ¬r.master.val < q.master.val := by omega
    simp [State.leads, State.askFirst, this]

/-! ### Commands that meet at another arbiter -/

/-- One ask of each: the tie-break of their arbiter orders the commands. -/
theorem offer_meet_single {s : State} {c d : Instr} {k : Nat} {x y : Ask} (hk : k < 8) (h : MeetAt s c d k [x] [y])
    (hfirst : ∀ all, s.ahead.askFirst all y x = true) (hnot : ∀ all, s.ahead.askFirst all x y = false) :
    (s.offer [c, d]).pending = s.pending ++ [d, c] :=
  offer_meet_second hk h (fun all => (leads_single _ all y x (hnot all)).trans (hfirst all))
    (fun all => leads_false _ _ _ _ (by simpa using hnot all))

theorem offer_access {s : State} {c d : Instr} {b m n : Nat} (h : MeetAt s c d 1 [.access b m] [.access b n]) :
    (n < m → (s.offer [c, d]).pending = s.pending ++ [d, c]) ∧ (m < n → (s.offer [c, d]).pending = s.pending ++ [c, d]) := by
  refine ⟨fun hlt => ?_, fun hlt => ?_⟩ <;> have hnot : ¬_ < _ := Nat.lt_asymm hlt
  · exact offer_meet_single (by omega) h (fun _ => by simp [State.askFirst, hlt]) (fun _ => by simp [State.askFirst, hnot])
  · exact offer_meet_first (by omega) h (fun all => by simp [State.leads, State.askFirst, hlt, hnot])
      (fun all => by simp [State.leads, State.askFirst, hnot])

/-- The operation on one FIFO that an ask is. -/
def fifoOp (rx : Bool) (n : Nat) : Ask → Option FifoOp
  | .fifo rx' n' o => if rx' = rx ∧ n' = n then some o else none
  | _ => none

/-- Two operations on one FIFO go by their places among those that are asked of it. -/
theorem askFirst_fifo (s : State) (all : List Ask) (rx : Bool) (n : Nat) (x y : FifoOp) :
    s.askFirst all (.fifo rx n x) (.fifo rx n y) =
      decide (s.fifoPlace rx n (all.filterMap (fifoOp rx n)) x < s.fifoPlace rx n (all.filterMap (fifoOp rx n)) y) := by
  have h : s.askFirst all (.fifo rx n x) (.fifo rx n y) = (rx == rx && n == n &&
      decide (s.fifoPlace rx n (all.filterMap (fifoOp rx n)) x < s.fifoPlace rx n (all.filterMap (fifoOp rx n)) y)) := rfl
  rw [h, beq_self_eq_true, beq_self_eq_true, Bool.true_and, Bool.true_and]

/-- What is asked of one FIFO is asked at the stage of the units. -/
theorem filterMap_fifoOp_atStage (rx : Bool) (n : Nat) (xs : List Ask) :
    (atStage 6 xs).filterMap (fifoOp rx n) = xs.filterMap (fifoOp rx n) := by
  rw [List.filterMap_filter]
  refine List.filterMap_congr (fun x _ => ?_)
  cases x <;> simp [fifoOp, Ask.stage]

/-- A pop that meets a push goes first where the FIFO is full for the push, and else after it (R439). -/
theorem askFirst_push_pop (s : State) {all : List Ask} {rx : Bool} {n m : Nat}
    (hall : (atStage 6 all).filterMap (fifoOp rx n) = [.push m, .pop]) :
    s.askFirst all (.fifo rx n .pop) (.fifo rx n (.push m)) = s.fifoFull rx n m ∧
    s.askFirst all (.fifo rx n (.push m)) (.fifo rx n .pop) = !s.fifoFull rx n m := by
  rw [filterMap_fifoOp_atStage] at hall
  rw [askFirst_fifo, askFirst_fifo, hall]
  cases hfull : s.fifoFull rx n m <;> simp [State.fifoPlace, hfull]

theorem offer_push_pop {s : State} {c d : Instr} {e k n m : Nat} {rx : Bool}
    (h : MeetAt s c d 6 [.turn e k, .fifo rx n (.push m)] [.fifo rx n .pop]) :
    (s.offer [c, d]).pending = s.pending ++ (if s.ahead.fifoFull rx n m = true then [d, c] else [c, d]) := by
  obtain ⟨hpop, hpush⟩ := askFirst_push_pop s.ahead (all := s.ahead.asks c ++ s.ahead.asks d) (rx := rx) (n := n) (m := m)
    (by simp [atStage, List.filter_append, h.1, h.2.1, List.filterMap_cons, fifoOp])
  have hturn (all : List Ask) (o : FifoOp) : s.ahead.askFirst all (.fifo rx n o) (.turn e k) = false := rfl
  have hturn' (all : List Ask) (o : FifoOp) : s.ahead.askFirst all (.turn e k) (.fifo rx n o) = false := rfl
  have hlead : s.ahead.leads (s.ahead.asks c ++ s.ahead.asks d) [.fifo rx n .pop] [.turn e k, .fifo rx n (.push m)] = s.ahead.fifoFull rx n m := by
    simp only [State.leads, List.any_cons, List.any_nil, hturn, hpop, hpush]
    cases s.ahead.fifoFull rx n m <;> rfl
  have hlead' : s.ahead.leads (s.ahead.asks c ++ s.ahead.asks d) [.turn e k, .fifo rx n (.push m)] [.fifo rx n .pop] = !s.ahead.fifoFull rx n m := by
    simp only [State.leads, List.any_cons, List.any_nil, hturn, hturn', hpop, hpush]
    cases s.ahead.fifoFull rx n m <;> rfl
  rw [offer_meet (by omega) h (by rw [hlead, hlead']; cases s.ahead.fifoFull rx n m <;> simp), hlead]

end Sys2Proof.Machine

namespace Sys2Proof.Machine

/-! ### A tick of the time grid -/

/-- The state without what passes with a tick: registers, counters, the engines, the ring and the pin cells. -/
def State.sansGrid (s : State) : State :=
  { s with regs := [], pmc := {}, fresh := 0, engines := [], ring := {}, bays := { s.bays with pins := [] } }

@[simp] theorem chargeAs_sansCounts (s : State) (e k : Nat) : (s.chargeAs e k).sansCounts = s.sansCounts :=
  (pmcEv_sansCounts ..).trans (pmcEv_sansCounts ..)

/-- Replacing an engine by one with the same contexts leaves every context. -/
theorem ctx_setEngine (s : State) {f : Nat} {x : Engine} (h : x.ctxs = (s.engine f).ctxs) (e c : Nat) :
    (s.setEngine f x).ctx e c = s.ctx e c := by
  unfold State.ctx State.engine State.setEngine
  by_cases he : e = f
  · subst he
    rw [mget_mput_same, h]
    rfl
  · rw [mget_mput_ne _ _ _ he]

/-- Charging a slot leaves the pin cells. -/
theorem chargeSlot_frame (s : State) (e : Nat) : (s.chargeSlot e).sansGrid = s.sansGrid ∧ (s.chargeSlot e).bays = s.bays ∧
    ∀ f c, (s.chargeSlot e).ctx f c = s.ctx f c := by
  have hcharge (t : State) (ht : t.sansCounts = s.sansCounts) (x : Engine) (hx : x.ctxs = (s.engine e).ctxs) :
      (t.setEngine e x).sansGrid = s.sansGrid ∧ (t.setEngine e x).bays = s.bays ∧ ∀ f c, (t.setEngine e x).ctx f c = s.ctx f c := by
    have hctx (f : Nat) : t.engine f = s.engine f := (congrArg (fun u : State => u.engine f) ht :)
    refine ⟨(congrArg State.sansGrid ht :), (congrArg State.bays ht :), fun f c => ?_⟩
    rw [ctx_setEngine t (hx.trans (by rw [hctx]))]
    exact (congrArg (fun u : State => u.ctx f c) ht :)
  have hsame (t : State) (ht : t.sansCounts = s.sansCounts) : t.sansGrid = s.sansGrid ∧ t.bays = s.bays ∧ ∀ f c, t.ctx f c = s.ctx f c :=
    ⟨(congrArg State.sansGrid ht :), (congrArg State.bays ht :), fun f c => (congrArg (fun u : State => u.ctx f c) ht :)⟩
  have hpaid (p : Prop) [Decidable p] (k : Nat) : (if p then s else s.chargeAs e k).sansCounts = s.sansCounts := by
    split
    · rfl
    · exact chargeAs_sansCounts s e k
  unfold State.chargeSlot
  dsimp only
  generalize ht : (if (!(s.engine e).hasSlot) = true ∨ (s.engine e).undecided = true then s else s.chargeAs e (s.engine e).slotOf) = t
  have hcounts : t.sansCounts = s.sansCounts := ht ▸ hpaid _ _
  split
  · refine hcharge t hcounts _ ?_
    exact (congrArg (fun u : State => (u.engine e).ctxs) hcounts :)
  · exact hsame t hcounts

/-- Setting a pin cell with the same pad and owner leaves every pad and owner. -/
theorem setPin_drives (s : State) {g : Nat} {p : Pin} (hpad : p.pad = (s.pin g).pad) (howner : p.owner = (s.pin g).owner) (h : Nat) :
    ((s.setPin g p).pin h).pad = (s.pin h).pad ∧ ((s.setPin g p).pin h).owner = (s.pin h).owner := by
  unfold State.pin State.setPin
  by_cases hg : h = g
  · subst hg
    rw [mget_mput_same]
    exact ⟨hpad, howner⟩
  · rw [mget_mput_ne _ _ _ hg]
    exact ⟨rfl, rfl⟩

/-- An accepted edge moves no driver. -/
theorem recordEdge_frame (s : State) (g : Nat) (stamp : Word) (rose : Bool) : (s.recordEdge g stamp rose).sansGrid = s.sansGrid ∧
    ∀ h, ((s.recordEdge g stamp rose).pin h).pad = (s.pin h).pad ∧ ((s.recordEdge g stamp rose).pin h).owner = (s.pin h).owner := by
  unfold State.recordEdge
  refine ⟨foldl_keeps State.sansGrid (fun t k => t.latchEdge rose k) _ (fun _ _ _ => rfl) _, fun h => ?_⟩
  have hfold := foldl_keeps (fun t => t.pin h) (fun t k => t.latchEdge rose k) (s.slotsOf g) (fun _ _ _ => rfl)
    (s.setPin g { s.pin g with edges := (stamp, rose) :: (s.pin g).edges })
  rw [hfold]
  exact setPin_drives s (p := { s.pin g with edges := (stamp, rose) :: (s.pin g).edges }) rfl rfl h

theorem acceptComing_frame (s : State) (g : Nat) : (s.acceptComing g).sansGrid = s.sansGrid ∧
    ∀ h, ((s.acceptComing g).pin h).pad = (s.pin h).pad ∧ ((s.acceptComing g).pin h).owner = (s.pin h).owner := by
  unfold State.acceptComing
  split
  · exact ⟨rfl, fun _ => ⟨rfl, rfl⟩⟩
  · next due rose rest _ =>
    have hset := setPin_drives s (g := g) (p := { s.pin g with coming := rest }) rfl rfl
    split
    · exact ⟨rfl, fun _ => ⟨rfl, rfl⟩⟩
    · dsimp only
      split
      · exact ⟨rfl, hset⟩
      · obtain ⟨hgrid, hpins⟩ := recordEdge_frame (s.setPin g { s.pin g with coming := rest }) g (s.now - BitVec.ofNat 64 (s.clk - due)) rose
        exact ⟨hgrid, fun h => ⟨(hpins h).1.trans (hset h).1, (hpins h).2.trans (hset h).2⟩⟩

theorem acceptComings_frame (s : State) : s.acceptComings.sansGrid = s.sansGrid ∧
    ∀ h, (s.acceptComings.pin h).pad = (s.pin h).pad ∧ (s.acceptComings.pin h).owner = (s.pin h).owner :=
  ⟨foldl_keeps State.sansGrid _ _ (fun t g _ => (acceptComing_frame t g).1) s,
    fun h => ⟨foldl_keeps (fun t => (t.pin h).pad) _ _ (fun t g _ => ((acceptComing_frame t g).2 h).1) s,
      foldl_keeps (fun t => (t.pin h).owner) _ _ (fun t g _ => ((acceptComing_frame t g).2 h).2) s⟩⟩

/-- Where no edge is coming, none is accepted. -/
theorem acceptComings_none (s : State) (h : ∀ kv ∈ s.bays.pins, kv.2.coming = []) : s.acceptComings = s := by
  have hnone : s.bays.pins.filter (fun kv => !kv.2.coming.isEmpty) = [] :=
    List.filter_eq_nil_iff.mpr (fun kv hkv => by simp [h kv hkv])
  simp [State.acceptComings, hnone]

/-- Counting the milliseconds at risk writes registers only. -/
theorem countRisk_regs (s : State) : { s.countRisk with regs := [] } = { s with regs := [] } := by
  have hports (t : State) : { (List.range 4).foldl (fun (t : State) p =>
      match (mget {} t.ring.links p).riskSince with
      | some since => if t.on (R.RING_PORT_at_risk p) ∧ msEnds since t.clk then t.bump (R.RING_PORT_risk_ms p) else t
      | none => t) t with regs := [] } = { t with regs := [] } := by
    refine foldl_keeps (fun u : State => { u with regs := [] }) _ _ (fun u p _ => ?_) t
    split
    · split <;> rfl
    · rfl
  have houtputs (t : State) (l : SMap Outp) : { l.foldl (fun (t : State) kv =>
      match kv.2.riskSince with
      | some since => if msEnds since t.clk then t.bump R.CAD_RISK_clamp_ms else t
      | none => t) t with regs := [] } = { t with regs := [] } := by
    refine foldl_keeps (fun u : State => { u with regs := [] }) _ _ (fun u p _ => ?_) t
    split
    · split <;> rfl
    · rfl
  unfold State.countRisk
  dsimp only
  split
  · split
    · exact (houtputs _ _).trans (hports s)
    · exact (houtputs _ _).trans (hports s)
  · exact (houtputs _ _).trans (hports s)

/-- Sending a Steam word changes the ring's part only. -/
theorem drainSteam_ring (s : State) (p : Nat) : { s.drainSteam p with ring := {} } = { s with ring := {} } := by
  unfold State.drainSteam
  split
  · rfl
  · split <;> rfl

/-- What passes with a tick outside reset, once the times have advanced: slots, edges, milliseconds and Steam words. -/
def State.gridPass (s : State) : State :=
  let t := ((List.range 16).foldl State.chargeSlot s).acceptComings
  t.steamPorts.foldl State.drainSteam t.countRisk

theorem drainRisk_frame (s : State) (ps : List Nat) : (ps.foldl State.drainSteam s.countRisk).sansGrid = s.sansGrid ∧
    (ps.foldl State.drainSteam s.countRisk).bays = s.bays ∧ (ps.foldl State.drainSteam s.countRisk).engines = s.engines := by
  have hdrain := foldl_keeps (fun t : State => { t with ring := {} }) _ ps (fun t p _ => drainSteam_ring t p) s.countRisk
  have hrisk := countRisk_regs s
  exact ⟨(congrArg State.sansGrid hdrain :).trans (congrArg State.sansGrid hrisk :),
    (congrArg State.bays hdrain :).trans (congrArg State.bays hrisk :),
    (congrArg State.engines hdrain :).trans (congrArg State.engines hrisk :)⟩

theorem gridPass_frame (s : State) : s.gridPass.sansGrid = s.sansGrid ∧
    (∀ g, (s.gridPass.pin g).pad = (s.pin g).pad ∧ (s.gridPass.pin g).owner = (s.pin g).owner) ∧
    ((∀ kv ∈ s.bays.pins, kv.2.coming = []) → s.gridPass.bays = s.bays ∧ ∀ e c, s.gridPass.ctx e c = s.ctx e c) := by
  unfold State.gridPass
  have hgrid := foldl_keeps State.sansGrid _ (List.range 16) (fun t e _ => (chargeSlot_frame t e).1) s
  have hbays := foldl_keeps State.bays _ (List.range 16) (fun t e _ => (chargeSlot_frame t e).2.1) s
  have hctx (f c : Nat) := foldl_keeps (fun t => t.ctx f c) _ (List.range 16) (fun t e _ => (chargeSlot_frame t e).2.2 f c) s
  generalize (List.range 16).foldl State.chargeSlot s = t at hgrid hbays hctx
  obtain ⟨hedges, hpins⟩ := acceptComings_frame t
  obtain ⟨hrest, hrestBays, hrestEngines⟩ := drainRisk_frame t.acceptComings t.acceptComings.steamPorts
  refine ⟨hrest.trans (hedges.trans hgrid), fun g => ?_, fun hnone => ?_⟩
  · have hpin := congrArg (fun b : Bays => mget {} b.pins g) hrestBays
    have hpin' := congrArg (fun b : Bays => mget {} b.pins g) hbays
    exact ⟨(congrArg Pin.pad hpin).trans ((hpins g).1.trans (congrArg Pin.pad hpin')),
      (congrArg Pin.owner hpin).trans ((hpins g).2.trans (congrArg Pin.owner hpin'))⟩
  · have hcomings : t.acceptComings = t := acceptComings_none t (hbays ▸ hnone)
    rw [hcomings] at hrestBays hrestEngines ⊢
    refine ⟨hrestBays.trans hbays, fun e c => ?_⟩
    exact (congrArg (fun x : SMap Engine => (mget {} (mget {} x e : Engine).ctxs c : Ctx)) hrestEngines).trans (hctx e c)

/-- The hub in reset: nothing but the monotone time passes. -/
theorem tick_inReset (s : State) (h : s.inReset = true) : s.tick = { s with clk := s.clk + 2 } :=
  if_pos h

/-- The times of a tick outside reset. -/
def State.timesPass (s : State) : State :=
  let t : State := { s with clk := s.clk + 2, now := s.now + 2 }
  if s.hub.mode = .trial then { t with upd := { t.upd with trialNs := t.upd.trialNs + 2 } } else t

theorem timesPass_upd (s : State) : { s.timesPass with upd := {} } = { s with clk := s.clk + 2, now := s.now + 2, upd := {} } := by
  unfold State.timesPass
  dsimp only
  split <;> rfl

theorem tick_running (s : State) (h : s.inReset = false) : s.tick = s.timesPass.gridPass :=
  if_neg (by rw [show ({ s with clk := s.clk + 2 } : State).inReset = false from h]; exact Bool.false_ne_true)

/-- A tick on an empty queue. -/
theorem tick_frame (s : State) (hpending : s.pending = []) : s.tick.clk = s.clk + 2 ∧ s.tick.pending = [] ∧
    s.tick.now = (if s.inReset = true then s.now else s.now + 2) ∧ s.tick.hub = s.hub ∧ s.tick.pimem = s.pimem ∧ s.tick.flash = s.flash ∧
    s.tick.store = s.store ∧ s.tick.loaded = s.loaded ∧ s.tick.bays.rx = s.bays.rx ∧ s.tick.bays.tx = s.bays.tx ∧ s.tick.raised = s.raised ∧
    (∀ g, (s.tick.pin g).pad = (s.pin g).pad ∧ (s.tick.pin g).owner = (s.pin g).owner) ∧ (∀ k, s.tick.port k = s.port k) ∧
    ((∀ kv ∈ s.bays.pins, kv.2.coming = []) → s.tick.bays = s.bays ∧ ∀ e c, s.tick.ctx e c = s.ctx e c) := by
  cases hreset : s.inReset with
  | true =>
    rw [tick_inReset s hreset]
    exact ⟨rfl, hpending, rfl, rfl, rfl, rfl, rfl, rfl, rfl, rfl, rfl, fun _ => ⟨rfl, rfl⟩, fun _ => rfl, fun _ => ⟨rfl, fun _ _ => rfl⟩⟩
  | false =>
    rw [tick_running s hreset]
    obtain ⟨hgrid, hpins, hquiet⟩ := gridPass_frame s.timesPass
    have htimes := timesPass_upd s
    have same {β : Type} (p : State → β) (hp : ∀ t : State, p t.sansGrid = p t) (hp' : ∀ (t : State) (x : Upd), p { t with upd := x } = p t) :
        p s.timesPass.gridPass = p { s with clk := s.clk + 2, now := s.now + 2 } := by
      rw [← hp, hgrid, hp, ← hp' s.timesPass {}, htimes]
      exact hp' { s with clk := s.clk + 2, now := s.now + 2 } {}
    have hpin (g : Nat) : s.timesPass.pin g = s.pin g := (congrArg (fun t : State => t.pin g) htimes :)
    have hbays : s.timesPass.bays = s.bays := (congrArg State.bays htimes :)
    refine ⟨same State.clk (fun _ => rfl) (fun _ _ => rfl), (same State.pending (fun _ => rfl) (fun _ _ => rfl)).trans hpending,
      same State.now (fun _ => rfl) (fun _ _ => rfl), same State.hub (fun _ => rfl) (fun _ _ => rfl),
      same State.pimem (fun _ => rfl) (fun _ _ => rfl), same State.flash (fun _ => rfl) (fun _ _ => rfl),
      same State.store (fun _ => rfl) (fun _ _ => rfl), same State.loaded (fun _ => rfl) (fun _ _ => rfl),
      same (·.bays.rx) (fun _ => rfl) (fun _ _ => rfl), same (·.bays.tx) (fun _ => rfl) (fun _ _ => rfl),
      same State.raised (fun _ => rfl) (fun _ _ => rfl), fun g => by rw [← hpin]; exact hpins g,
      fun k => same (·.port k) (fun _ => rfl) (fun _ _ => rfl), fun hnone => ?_⟩
    obtain ⟨hbays', hctx⟩ := hquiet (hbays ▸ hnone)
    exact ⟨hbays'.trans hbays, fun e c => (hctx e c).trans (congrArg (fun t : State => t.ctx e c) htimes :)⟩

/-- Settles O59: `step` takes the front of the queue, a tick moves only the grid, and `State.offer` orders two commands at the first
arbiter that orders them. -/
theorem aStepPerformsTheCommandAtTheFront : Obligations.AStepPerformsTheCommandAtTheFront := by
  refine ⟨fun s c rest h => by rw [step, h]; rfl, fun s c => rfl, fun s nbits w => rfl, fun s h => ⟨s.tick, by rw [step, h], tick_frame s h⟩,
    fun s cs => (arbitrate_perm s.ahead cs).append_left s.pending,
    fun s c d r q a b v w hc hd hr hq h => offer_masters s hc hd hr hq h, fun s c d b m n h => offer_access h, fun s c d a h ha => ?_,
    fun s c d o p i j h hlt => ?_, fun s c d h => offer_meet_single (by omega) h (fun _ => rfl) (fun _ => rfl),
    fun s c d e k n m rx h => offer_push_pop h, fun s c d e j k h hlt => ?_⟩
  · exact offer_meet_single (by omega) h (fun _ => by simp [State.askFirst, ha]) (fun _ => by simp [State.askFirst, ha])
  · refine offer_meet_single (by omega) h (fun _ => ?_) (fun _ => ?_) <;> simp only [State.askFirst, Bool.or_eq_true, Bool.and_eq_true,
      decide_eq_true_eq, beq_iff_eq, Bool.or_eq_false_iff, Bool.and_eq_false_iff, decide_eq_false_iff_not, beq_eq_false_iff_ne] <;> omega
  · have hnot := Nat.lt_asymm hlt
    exact offer_meet_single (by omega) h (fun _ => by simp [State.askFirst, hlt]) (fun _ => by simp [State.askFirst, Nat.le_of_not_lt hnot])

end Sys2Proof.Machine

namespace Sys2Proof.Machine

/-! ### What follows a change of mode, and what it leaves -/

/-- The registers that nothing writes as outputs, ports, engines, scripts and the regulator link follow a change of mode. -/
abbrev steadyWord (a : Nat) : Prop := a < 0x70000 ∨ (0xA0000 ≤ a ∧ a < 0x200000)

/-- The pad of a pin with a driver where the safe values are in force (R416, R421): by its overload bit, its safe drive state and the
state that it has. -/
def padOf (overload : Bool) (v : Nat) (d : Drive) : Drive := if overload then .released else safeDrive v d

theorem padOf_padOf (overload : Bool) (v : Nat) (d : Drive) : padOf overload v (padOf overload v d) = padOf overload v d := by
  cases overload
  · match v with
    | 0 | 1 | 2 | _ + 3 => rfl
  · rfl

def State.safePad (s : State) (g : Nat) : Drive :=
  padOf (s.bitOn (R.BAY_PINSTAT_overload (g / 8)) (g % 8)) (s.rd (R.BAY_PIN_safe g)) (s.pin g).pad

/-- `t` is `s` after outputs, ports, engines, scripts and the regulator link have followed a change: the hub's own fields, the
bit-stream's values, the FIFOs, the steady registers, the gated domains and the exit from Doze stay, and in Safe each driver keeps its
state or takes its safe value. -/
structure Follows (s t : State) : Prop where
  hub : t.hub = s.hub
  loaded : t.loaded = s.loaded
  bays : t.bays = { s.bays with pins := t.bays.pins }
  word : ∀ a, steadyWord a → t.word a = s.word a
  gated : t.rd R.PWR_STATUS_gated = s.rd R.PWR_STATUS_gated
  exit : t.power.exit = s.power.exit
  owner : ∀ g, (t.pin g).owner = (s.pin g).owner
  pad : s.hub.mode = .safe → ∀ g, g < 384 → s.hasDriver g = true → s.pinMode g ≠ 8 → (t.pin g).pad = (s.pin g).pad ∨ (t.pin g).pad = s.safePad g

theorem steadyWord_pin {g : Nat} (hg : g < 384) : steadyWord (R.BAY_PIN g) := by
  unfold R.BAY_PIN bayBase steadyWord
  omega

theorem steadyWord_pinstat {n : Nat} (hn : n < 48) : steadyWord (R.BAY_PINSTAT n) := by
  unfold R.BAY_PINSTAT bayBase steadyWord
  omega

namespace Follows

/-- What touches neither registers nor bays is followed by nothing. -/
theorem quiet {s t : State} (hhub : t.hub = s.hub) (hloaded : t.loaded = s.loaded) (hbays : t.bays = s.bays) (hregs : t.regs = s.regs)
    (hexit : t.power.exit = s.power.exit := by rfl) : Follows s t where
  hub := hhub
  loaded := hloaded
  bays := by rw [hbays]
  word _ _ := by rw [State.word, State.word, hregs]
  gated := by rw [State.rd, State.rd, State.word, State.word, hregs]
  exit := hexit
  owner g := by rw [State.pin, State.pin, hbays]
  pad _ g _ _ _ := .inl (by rw [State.pin, State.pin, hbays])

theorem refl (s : State) : Follows s s := quiet rfl rfl rfl rfl

variable {s t u : State}

theorem rd (h : Follows s t) {f : Fld} (hf : steadyWord f.addr) : t.rd f = s.rd f := by
  rw [State.rd, State.rd, h.word _ hf]

theorem pinMode (h : Follows s t) {g : Nat} (hg : g < 384) : t.pinMode g = s.pinMode g := h.rd (steadyWord_pin hg)

theorem hasDriver (h : Follows s t) {g : Nat} (hg : g < 384) : t.hasDriver g = s.hasDriver g := by
  simp only [State.hasDriver, State.pairOdd, h.pinMode hg]

theorem trans (h : Follows s t) (k : Follows t u) : Follows s u where
  hub := k.hub.trans h.hub
  loaded := k.loaded.trans h.loaded
  bays := by rw [k.bays, h.bays]
  word a ha := (k.word a ha).trans (h.word a ha)
  gated := k.gated.trans h.gated
  exit := k.exit.trans h.exit
  owner g := (k.owner g).trans (h.owner g)
  pad hsafe g hg hdriver hmode := by
    have hstat : t.bitOn (R.BAY_PINSTAT_overload (g / 8)) (g % 8) = s.bitOn (R.BAY_PINSTAT_overload (g / 8)) (g % 8) :=
      congrArg (bitAt · (g % 8)) (h.rd (steadyWord_pinstat (by omega)))
    have hvalue : t.rd (R.BAY_PIN_safe g) = s.rd (R.BAY_PIN_safe g) := h.rd (steadyWord_pin hg)
    have hfirst := h.pad hsafe g hg hdriver hmode
    have hsecond := k.pad (h.hub ▸ hsafe) g hg ((h.hasDriver hg).trans hdriver) (by rwa [h.pinMode hg])
    simp only [State.safePad, hstat, hvalue] at hfirst hsecond ⊢
    rcases hsecond with hu | hu <;> rcases hfirst with ht | ht <;> rw [hu, ht]
    · exact .inl rfl
    · exact .inr rfl
    · exact .inr rfl
    · exact .inr (padOf_padOf _ _ _)

theorem foldl {α : Type} {f : State → α → State} {l : List α} (h : ∀ t, ∀ a ∈ l, Follows t (f t a)) (s : State) : Follows s (l.foldl f s) :=
  List.foldlRecOn (motive := fun t => Follows s t) l f (refl s) (fun t ht a ha => ht.trans (h t a ha))

/-- A write outside the steady registers, to another field than the gated domains. -/
theorem wr (s : State) {f : Fld} (v : Nat) (hf : ¬steadyWord f.addr)
    (hgated : (s.wr f v).rd R.PWR_STATUS_gated = s.rd R.PWR_STATUS_gated) : Follows s (s.wr f v) where
  hub := rfl
  loaded := rfl
  bays := rfl
  word _ ha := word_wr_ne s f v (fun h => hf (h ▸ ha))
  gated := hgated
  exit := rfl
  owner _ := rfl
  pad _ _ _ _ _ := .inl rfl

/-- A write to a register of the power ports, of the counters or of the engines, or of the power states but PWR_STATUS. -/
theorem wrPower (s : State) {f : Fld} (v : Nat) (hf : (0x70000 < f.addr ∧ f.addr < 0xA0000) ∨ 0x200000 ≤ f.addr) : Follows s (s.wr f v) :=
  wr s v (by unfold steadyWord; omega) (rd_wr_addr _ _ _ _ (by simp only [R.PWR_STATUS_gated, R.PWR_STATUS]; omega))

/-- Counting an event of the performance counters. -/
theorem pmcBy (s : State) (cls ev x n : Nat) (a : Attrs) : Follows s (s.pmcBy cls ev x n a) where
  hub := (congrArg State.hub (pmcBy_sansCounts s cls ev x n a) :)
  loaded := (congrArg State.loaded (pmcBy_sansCounts s cls ev x n a) :)
  bays := by
    have h : (s.pmcBy cls ev x n a).bays = s.bays := (congrArg State.bays (pmcBy_sansCounts s cls ev x n a) :)
    rw [h]
  word b hb := pmcBy_word s cls ev x n a (by unfold pmcBlock; unfold steadyWord at hb; omega)
  gated := congrArg (fun w => fget w 8 8) (pmcBy_word s cls ev x n a (by unfold pmcBlock; decide))
  exit := (congrArg (·.power.exit) (pmcBy_sansCounts s cls ev x n a) :)
  owner g := (congrArg (fun t : State => (t.pin g).owner) (pmcBy_sansCounts s cls ev x n a) :)
  pad _ g _ _ _ := .inl (congrArg (fun t : State => (t.pin g).pad) (pmcBy_sansCounts s cls ev x n a) :)

theorem pmcEv (s : State) (cls ev x : Nat) (a : Attrs) : Follows s (s.pmcEv cls ev x a) := pmcBy s cls ev x 1 a

end Follows

/-! ### The pins -/

theorem pin_setPin_same (s : State) (g : Nat) (p : Pin) : (s.setPin g p).pin g = p := mget_mput_same _ _ _ _

theorem pin_setPin_ne (s : State) {g h : Nat} (p : Pin) (hg : h ≠ g) : (s.setPin g p).pin h = s.pin h := mget_mput_ne _ _ _ hg

theorem outputRule_safe {s : State} (h : s.hub.mode = .safe) : s.outputRule = .safe := by
  simp [State.outputRule, h]

theorem ownerDrives_safe {s : State} (h : s.hub.mode = .safe) (g : Nat) : s.ownerDrives g = false := by
  simp [State.ownerDrives, outputRule_safe h]

theorem testDrive_safe {s : State} (h : s.hub.mode = .safe) (g : Nat) : s.testDrive g = none := by
  simp [State.testDrive, h]

/-- The state without the pin cells and the count of free values. -/
def State.sansPins (s : State) : State := { s with fresh := 0, bays := { s.bays with pins := [] } }

theorem bays_of_sansPins {s t : State} (h : t.sansPins = s.sansPins) : t.bays = { s.bays with pins := t.bays.pins } := by
  have hb : { t.bays with pins := [] } = { s.bays with pins := [] } := (congrArg State.bays h :)
  generalize t.bays = b at hb ⊢
  generalize s.bays = c at hb ⊢
  cases b
  cases c
  simpa using hb

/-- `t` is `s` with the cell of pin `g` replaced by one of the same owner's drive state. -/
structure Repinned (s t : State) (g : Nat) : Prop where
  rest : t.sansPins = s.sansPins
  other : ∀ h, h ≠ g → t.pin h = s.pin h
  owner : (t.pin g).owner = (s.pin g).owner

theorem repinned_refl (s : State) (g : Nat) : Repinned s s g := ⟨rfl, fun _ _ => rfl, rfl⟩

theorem repinned_setPin (s : State) (g : Nat) (p : Pin) (h : p.owner = (s.pin g).owner) : Repinned s (s.setPin g p) g :=
  ⟨rfl, fun _ hg => pin_setPin_ne s p hg, by rw [pin_setPin_same, h]⟩

theorem Repinned.trans {s t u : State} {g : Nat} (h : Repinned s t g) (k : Repinned t u g) : Repinned s u g :=
  ⟨k.rest.trans h.rest, fun j hj => (k.other j hj).trans (h.other j hj), k.owner.trans h.owner⟩

theorem applyPad_repinned (s : State) (g : Nat) : Repinned s (s.applyPad g) g := by
  have hset (p : Pin) (h : p.owner = (s.pin g).owner) := repinned_setPin s g p h
  unfold State.applyPad
  dsimp only
  split
  · exact hset _ rfl
  split
  · exact hset _ rfl
  split
  · exact hset _ rfl
  split
  · split
    · exact repinned_refl s g
    · exact hset _ rfl
  · exact hset _ rfl

theorem followLine_repinned (s old : State) (g : Nat) : Repinned s (s.followLine old g) g ∧ ((s.followLine old g).pin g).pad = (s.pin g).pad := by
  unfold State.followLine
  split
  · exact ⟨repinned_refl s g, rfl⟩
  · dsimp only
    have htake : Repinned s s.takeFree.2 g := ⟨rfl, fun _ _ => rfl, rfl⟩
    exact ⟨htake.trans (repinned_setPin s.takeFree.2 g _ rfl), by rw [pin_setPin_same]⟩

theorem applyPin_repinned (s : State) (g : Nat) : Repinned s (s.applyPin g) g :=
  (applyPad_repinned s g).trans (followLine_repinned ..).1

/-- In Safe a driver that L+ does not hold off takes its safe value. -/
theorem applyPin_pad_safe {s : State} {g : Nat} (hsafe : s.hub.mode = .safe) (hdriver : s.hasDriver g = true) (hmode : s.pinMode g ≠ 8) :
    ((s.applyPin g).pin g).pad = s.safePad g := by
  have hlplus : s.lplusLow g = false := by simp [State.lplusLow, hmode]
  rw [State.applyPin, (followLine_repinned ..).2, State.applyPad]
  rw [if_neg (by simp [hdriver, hlplus]), if_neg (by simp [outputRule_safe hsafe])]
  split
  · next h => rw [pin_setPin_same, State.safePad, h]; rfl
  · next h =>
    rw [if_neg (by simp [ownerDrives_safe hsafe]), pin_setPin_same, testDrive_safe hsafe, State.safePad, Bool.eq_false_iff.mpr h]
    rfl

namespace Follows

theorem applyPin (s : State) (g : Nat) : Follows s (s.applyPin g) := by
  have h := applyPin_repinned s g
  exact {
    hub := (congrArg State.hub h.rest :)
    loaded := (congrArg State.loaded h.rest :)
    bays := bays_of_sansPins h.rest
    word := fun a _ => (congrArg (fun t : State => t.word a) h.rest :)
    gated := (congrArg (fun t : State => t.rd R.PWR_STATUS_gated) h.rest :)
    exit := (congrArg (fun t : State => t.power.exit) h.rest :)
    owner := fun k => by
      by_cases hk : k = g
      · subst hk
        exact h.owner
      · rw [h.other k hk]
    pad := fun hsafe k _ hdriver hmode => by
      by_cases hk : k = g
      · subst hk
        exact .inr (applyPin_pad_safe hsafe hdriver hmode)
      · exact .inl (by rw [h.other k hk]) }

theorem applyPins (s : State) : Follows s s.applyPins := foldl (fun t g _ => applyPin t g) s

/-! ### The power ports -/

variable (s : State)

theorem setPort (k : Nat) (p : Port) : Follows s (s.setPort k p) := quiet rfl rfl rfl rfl

theorem setGroup (g : Nat) (x : Group) : Follows s (s.setGroup g x) := quiet rfl rfl rfl rfl

theorem applyLplus (k : Nat) : Follows s (s.applyLplus k) := foldl (fun t _ _ => applyPin t _) s

theorem setPg (k : Nat) (hk : k < 32) (b : Bool) : Follows s (s.setPg k b) := by
  unfold State.setPg
  split
  · exact refl s
  · exact (wrPower s _ (by simp only [R.PWP_STAT_pg, R.PWP_STAT]; omega)).trans (applyLplus _ k)

theorem passOff (k : Nat) (hk : k < 32) (n : Nat) : Follows s (s.passOff k n) :=
  (((setPort s k _).trans (wrPower _ _ (by simp only [R.PWP_STAT_state, R.PWP_STAT]; omega))).trans (setPg _ k hk _)).trans (setPort _ k _)

theorem startRamp (k : Nat) (hk : k < 32) : Follows s (s.startRamp k) :=
  ((((setPort s k _).trans (wrPower _ _ (by simp only [R.PWP_STAT_state, R.PWP_STAT]; omega))).trans
    (wrPower _ _ (by simp only [R.PWP_CNT_ramps, R.PWP_CNT]; omega))).trans (pmcEv _ _ _ _ _)).trans (setPort _ k _)

theorem refreshPort (k : Nat) (hk : k < 32) : Follows s (s.refreshPort k) := by
  unfold State.refreshPort
  dsimp only
  split
  · exact passOff s k hk _
  split
  · exact passOff s k hk _
  split
  · exact passOff s k hk _
  split
  · exact refl s
  split
  · exact startRamp s k hk
  · exact passOff s k hk _

theorem mem_portList {k : Nat} (h : k ∈ s.portList) : k < 32 := by
  unfold State.portList at h
  split at h
  · exact List.mem_range.mp h
  · contradiction

theorem refreshPorts : Follows s s.refreshPorts := foldl (fun t k hk => refreshPort t k (mem_portList s hk)) s

theorem keepEffective : Follows s s.keepEffective := foldl (fun t k _ => by
  dsimp only
  split
  · exact refl t
  · exact setPort t k _) s

theorem mem_groupPorts {g k : Nat} (hg : g < 2) (h : k ∈ groupPorts g) : k < 32 := by
  obtain ⟨j, hj, rfl⟩ := List.mem_map.mp h
  have := List.mem_range.mp hj
  omega

theorem openIsolator (g : Nat) (hg : g < 2) (cause : Nat) : Follows s (s.openIsolator g cause) := by
  unfold State.openIsolator
  refine (setGroup s g _).trans ((wrPower _ _ ?_).trans ((wrPower _ _ ?_).trans (foldl (fun t k hk => ?_) _)))
  · simp only [R.PWP_GROUP_closed, R.PWP_GROUP]
    omega
  · simp only [R.PWP_GROUP_opened_by, R.PWP_GROUP]
    omega
  · exact refreshPort t k (mem_groupPorts hg hk)

theorem letClose (g : Nat) : Follows s (s.letClose g) := by
  unfold State.letClose State.startClose
  dsimp only
  split
  · split
    · exact setGroup s g _
    · exact setGroup s g _
  · exact refl s

theorem refreshIsolators : Follows s s.refreshIsolators := by
  unfold State.refreshIsolators
  split
  · exact refl s
  · refine foldl (fun t g hg => ?_) s
    have hg := List.mem_range.mp hg
    split
    · exact openIsolator t g hg 1
    · exact letClose t g

/-! ### Contexts, scripts, coupler and core voltage -/

theorem setEngine (e : Nat) (x : Engine) : Follows s (s.setEngine e x) := quiet rfl rfl rfl rfl

theorem setCtx (e c : Nat) (x : Ctx) : Follows s (s.setCtx e c x) := quiet rfl rfl rfl rfl

theorem dropPre (e c : Nat) : Follows s (s.dropPre e c) := by
  unfold State.dropPre
  split
  · exact refl s
  · exact ((setCtx s e c _).trans (setEngine _ e _)).trans (pmcEv _ _ _ _ _)

theorem dropGrid (e c : Nat) : Follows s (s.dropGrid e c) := by
  unfold State.dropGrid
  dsimp only
  split
  · exact refl s
  split
  · exact setEngine s e _
  · exact (setEngine s e _).trans (foldl (fun t _ _ => (pmcEv t _ _ _ _).trans (pmcEv _ _ _ _ _)) _)

theorem haltCtx (e c : Nat) (st : CtxState) : Follows s (s.haltCtx e c st) :=
  ((dropPre s e c).trans (dropGrid _ e c)).trans (setCtx _ e c _)

theorem enterWait (e c r : Nat) : Follows s (s.enterWait e c r) := (setCtx s e c _).trans (pmcEv _ _ _ _ _)

theorem ready (e c : Nat) : Follows s (s.ready e c) := by
  unfold State.ready
  dsimp only
  split
  · exact enterWait s e c 9
  · exact setCtx s e c _

theorem startCtx (e c : Nat) (tau : Word) (island : Bool) : Follows s (s.startCtx e c tau island) := by
  unfold State.startCtx
  dsimp only
  split
  · exact wrPower s _ (by simp only [R.INF_STATUS_refused, R.INF_STATUS, engBase]; omega)
  · exact (setCtx s e c _).trans (ready _ e c)

theorem startWhere (p : State → Nat → Nat → Bool) (island : Bool) : Follows s (s.startWhere p island) := foldl (fun t ec _ => by
  split
  · exact startCtx t ec.1 ec.2 _ _
  · exact refl t) s

theorem ctxModeChange (old : Mode) : Follows s (s.ctxModeChange old) := by
  unfold State.ctxModeChange
  dsimp only
  generalize hleave : (s.ctxList.foldl _ s) = t
  have hfirst : Follows s t := by
    rw [← hleave]
    refine foldl (fun u ec _ => ?_) s
    split
    · split
      · exact (haltCtx u ec.1 ec.2 .idle).trans (setCtx _ ec.1 ec.2 _)
      · exact setCtx u ec.1 ec.2 _
    · split
      · exact haltCtx u ec.1 ec.2 .idle
      · exact refl u
  split
  · split
    · exact (hfirst.trans (startWhere _ _ _)).trans (startWhere _ _ _)
    · exact hfirst.trans (startWhere _ _ _)
  · split
    · exact hfirst.trans (startWhere _ _ _)
    · exact hfirst

theorem stopScript (i : Nat) (hi : i < 4) : Follows s (s.stopScript i) :=
  (quiet rfl rfl rfl rfl : Follows s (s.setScript i {})).trans (wrPower _ _ (by simp only [R.PWP_SEQ_STAT_state, R.PWP_SEQ_STAT]; omega))

theorem startScript (i : Nat) (hi : i < 4) : Follows s (s.startScript i) := by
  unfold State.startScript
  dsimp only
  split
  · exact refl s
  · exact ((quiet rfl rfl rfl rfl : Follows s (s.setScript i {})).trans
      (wrPower _ _ (by simp only [R.PWP_SEQ_STAT_pc, R.PWP_SEQ_STAT]; omega))).trans
      (wrPower _ _ (by simp only [R.PWP_SEQ_STAT_state, R.PWP_SEQ_STAT]; omega))

theorem scriptModeChange : Follows s s.scriptModeChange := by
  unfold State.scriptModeChange
  split
  · exact refl s
  · have start (t : State) (i : Nat) (hi : i ∈ List.range 4) :
        Follows t (if t.bitOn R.PWP_SEQ_CTRL_autostart i = true then t.startScript i else t) := by
      split
      · exact startScript t i (List.mem_range.mp hi)
      · exact refl t
    have change (stop : Bool) : Follows s (if stop = true then (List.range 4).foldl State.stopScript s
        else if s.autostarts = true then
          (List.range 4).foldl (fun (t : State) i => if t.bitOn R.PWP_SEQ_CTRL_autostart i = true then t.startScript i else t) s
        else s) := by
      split
      · exact foldl (fun t i hi => stopScript t i (List.mem_range.mp hi)) s
      split
      · exact foldl start s
      · exact refl s
    exact change _

theorem cplModeChange : Follows s s.cplModeChange := by
  unfold State.cplModeChange
  split
  · split
    · exact refl s
    · exact quiet rfl rfl rfl rfl
  split
  · split
    · exact refl s
    · exact quiet rfl rfl rfl rfl
  split
  · exact quiet rfl rfl rfl rfl
  · exact refl s

theorem cplFollowMode : Follows s s.cplFollowMode := by
  unfold State.cplFollowMode
  dsimp only
  split
  · exact (cplModeChange s).trans (quiet rfl rfl rfl rfl)
  · exact cplModeChange s

/-- A write to a field of PWR_STATUS apart from the gated domains. -/
theorem wrStatus {f : Fld} (v : Nat) (haddr : f.addr = R.PWR_STATUS) (hf : f.lsb + f.width ≤ 64) (hd : f.lsb + f.width ≤ 8 ∨ 16 ≤ f.lsb) :
    Follows s (s.wr f v) :=
  wr s v (by rw [haddr]; decide) (rd_wr_lsb s f R.PWR_STATUS_gated v hf (by decide) hd)

theorem endRisk : Follows s s.endRisk := by
  unfold State.endRisk
  split
  · exact refl s
  · exact (wrPower s (f := R.PWR_LOOP_at_risk) 0 (by decide)).trans (quiet rfl rfl rfl rfl)

theorem vsiSend (q : VsiReq) (retry : Bool) : Follows s (s.vsiSend q retry) :=
  (((quiet rfl rfl rfl rfl : Follows s { s with power := { s.power with vsi := some ⟨q.target, q.source, s.clk, retry, q.rise⟩ } }).trans
    (wrStatus _ (f := R.PWR_STATUS_requested) _ rfl (by decide) (by decide))).trans
    (wrStatus _ (f := R.PWR_STATUS_vsi_busy) _ rfl (by decide) (by decide))).trans
    ((wrPower _ (f := R.PWR_VSI_requests) _ (by decide)).trans (endRisk _))

theorem vsiRequest (q : VsiReq) : Follows s (s.vsiRequest q) := by
  unfold State.vsiRequest
  split
  · exact vsiSend s q false
  · split
    · exact refl s
    · exact quiet rfl rfl rfl rfl

theorem vsiSettle (source : Nat) : Follows s (s.vsiSettle source) := by
  unfold State.vsiSettle
  split
  · exact refl s
  · dsimp only
    split
    · split
      · exact refl s
      · exact vsiRequest s _
    · exact refl s

end Follows

/-! ### A change of mode -/

/-- The state in which the new mode stands and nothing has followed it (TOP_MODE, TOP_MODE_TIME; R28). -/
def State.entering (s : State) (m : Mode) (row : Nat) : State :=
  let t := s.keepEffective
  { t with hub := { t.hub with
    mode := m, prev := s.hub.mode, row := row, transitions := min (t.hub.transitions + 1) (2 ^ 32 - 1), modeTime := t.now,
    enteredAt := t.clk, testPins := [], testPorts := [] } }

/-- Every pin follows the new mode, and then ports, contexts, scripts, the coupler and the core voltage. -/
theorem setMode_follows (s : State) (m : Mode) (row : Nat) : Follows (s.entering m row).applyPins (s.setMode m row) :=
  have h (t : State) (old : Mode) :
      Follows t ((((t.refreshIsolators.refreshPorts).ctxModeChange old).scriptModeChange.cplFollowMode.vsiSettle 2).endRisk) :=
    ((((((Follows.refreshIsolators t).trans (Follows.refreshPorts _)).trans (Follows.ctxModeChange _ old)).trans
      (Follows.scriptModeChange _)).trans (Follows.cplFollowMode _)).trans (Follows.vsiSettle _ 2)).trans (Follows.endRisk _)
  h (s.entering m row).applyPins s.hub.mode

/-- A change of mode leaves the steady registers. -/
theorem setMode_word (s : State) (m : Mode) (row : Nat) {a : Nat} (ha : steadyWord a) : (s.setMode m row).word a = s.word a :=
  ((setMode_follows s m row).word a ha).trans (((Follows.applyPins (s.entering m row)).word a ha).trans
    ((Follows.keepEffective s).word a ha))

theorem setMode_gated (s : State) (m : Mode) (row : Nat) :
    (s.setMode m row).rd R.PWR_STATUS_gated = s.rd R.PWR_STATUS_gated :=
  (setMode_follows s m row).gated.trans ((Follows.applyPins (s.entering m row)).gated.trans (Follows.keepEffective s).gated)

/-- A change of mode leaves the exit from Doze as it stands. -/
theorem setMode_exit (s : State) (m : Mode) (row : Nat) : (s.setMode m row).power.exit = s.power.exit :=
  (setMode_follows s m row).exit.trans ((Follows.applyPins (s.entering m row)).exit.trans (Follows.keepEffective s).exit)

/-! ### Entry to Safe -/

theorem exists_mem_of_mget_ne {α : Type} {d : α} {m : SMap α} {k : Nat} (h : mget d m k ≠ d) : ∃ v, (k, v) ∈ m := by
  induction m with
  | nil => contradiction
  | cons x rest ih =>
    obtain ⟨k', v⟩ := x
    by_cases hk : k' = k
    · exact ⟨v, hk ▸ List.mem_cons_self⟩
    · rw [mget, if_neg hk] at h
      obtain ⟨w, hw⟩ := ih h
      exact ⟨w, List.mem_cons_of_mem _ hw⟩

/-- A pin that the bit-stream leaves alone is in mode 0x0 (R408). -/
theorem resetWord_pinMode {g : Nat} (hg : g < 384) : fget (resetWord (R.BAY_PIN g)) 0 4 = 0 := by
  have hfind : findReg (R.BAY_PIN g) = findIn bayTable (8 * (g % 8)) := by
    unfold findReg R.BAY_PIN bayBase
    rw [if_neg (by omega), if_pos (by omega)]
    exact congrArg (findIn bayTable) (by omega)
  rw [resetWord, hfind]
  have hp := Nat.mod_lt g (show 8 > 0 by decide)
  generalize g % 8 = p at hp
  revert p
  decide

theorem mem_usedPins {s : State} {g : Nat} (hg : g < 384) (hmode : s.pinMode g ≠ 0) : g ∈ s.usedPins := by
  have hword : s.word (R.BAY_PIN g) ≠ resetWord (R.BAY_PIN g) := fun h =>
    hmode ((congrArg (fun w => fget w 0 4) h).trans (resetWord_pinMode hg))
  obtain ⟨v, hv⟩ := exists_mem_of_mget_ne hword
  refine List.mem_map.mpr ⟨(R.BAY_PIN g, v), List.mem_filter.mpr ⟨hv, ?_⟩, ?_⟩
  · refine decide_eq_true ?_
    unfold R.BAY_PIN bayBase
    omega
  · simp only [R.BAY_PIN, bayBase]
    omega

/-- What follows in Safe does not change the state that the safe value gives. -/
theorem Follows.safePad {s t : State} (h : Follows s t) (hsafe : s.hub.mode = .safe) {g : Nat} (hg : g < 384) (hdriver : s.hasDriver g = true)
    (hmode : s.pinMode g ≠ 8) : t.safePad g = s.safePad g := by
  have hstat : t.bitOn (R.BAY_PINSTAT_overload (g / 8)) (g % 8) = s.bitOn (R.BAY_PINSTAT_overload (g / 8)) (g % 8) :=
    congrArg (bitAt · (g % 8)) (h.rd (steadyWord_pinstat (by omega)))
  have hvalue : t.rd (R.BAY_PIN_safe g) = s.rd (R.BAY_PIN_safe g) := h.rd (steadyWord_pin hg)
  rcases h.pad hsafe g hg hdriver hmode with hpad | hpad
  · rw [State.safePad, hstat, hvalue, hpad, State.safePad]
  · rw [State.safePad, hstat, hvalue, hpad, State.safePad, padOf_padOf]

/-- A pad at its safe value stays there. -/
theorem Follows.pad_safe {s t : State} (h : Follows s t) (hsafe : s.hub.mode = .safe) {g : Nat} (hg : g < 384) (hdriver : s.hasDriver g = true)
    (hmode : s.pinMode g ≠ 8) (hpad : (s.pin g).pad = s.safePad g) : (t.pin g).pad = t.safePad g := by
  rw [h.safePad hsafe hg hdriver hmode]
  rcases h.pad hsafe g hg hdriver hmode with hp | hp
  · rw [hp, hpad]
  · exact hp

/-- Bringing every configured pin up to date in Safe brings each driver to its safe value. -/
theorem applyPins_pad_safe {s : State} (hsafe : s.hub.mode = .safe) {g : Nat} (hg : g < 384) (hdriver : s.hasDriver g = true)
    (hmode : s.pinMode g ≠ 8) : (s.applyPins.pin g).pad = s.applyPins.safePad g := by
  have hused : g ∈ s.usedPins := mem_usedPins hg (fun h => by simp [State.hasDriver, h] at hdriver)
  obtain ⟨before, after, hsplit⟩ := List.append_of_mem hused
  have hpins : s.applyPins = after.foldl State.applyPin ((before.foldl State.applyPin s).applyPin g) := by
    rw [State.applyPins, hsplit, List.foldl_append, List.foldl_cons]
  have hbefore : Follows s (before.foldl State.applyPin s) := Follows.foldl (fun t h _ => Follows.applyPin t h) s
  generalize before.foldl State.applyPin s = t at hpins hbefore
  have hsafe' : t.hub.mode = .safe := hbefore.hub ▸ hsafe
  have hdriver' : t.hasDriver g = true := (hbefore.hasDriver hg).trans hdriver
  have hmode' : t.pinMode g ≠ 8 := by rwa [hbefore.pinMode hg]
  have happly := Follows.applyPin t g
  have hpad : ((t.applyPin g).pin g).pad = (t.applyPin g).safePad g :=
    (applyPin_pad_safe hsafe' hdriver' hmode').trans (happly.safePad hsafe' hg hdriver' hmode').symm
  have hafter : Follows (t.applyPin g) s.applyPins := hpins ▸ Follows.foldl (fun u h _ => Follows.applyPin u h) _
  exact hafter.pad_safe (happly.hub ▸ hsafe') hg ((happly.hasDriver hg).trans hdriver') (by rwa [happly.pinMode hg]) hpad

/-- Noting the effective commands of the ports changes the ports only. -/
theorem keepEffective_ports (s : State) : { s.keepEffective with power := {} } = { s with power := {} } := by
  refine foldl_keeps (fun t : State => { t with power := {} }) _ s.portList (fun t k _ => ?_) s
  dsimp only
  split <;> rfl

/-- After an entry to Safe every driver has its safe value, and the owners' drive states stand. -/
theorem setMode_safe_pin (s : State) (row : Nat) {g : Nat} (hg : g < 384) (hdriver : s.hasDriver g = true) (hmode : s.pinMode g ≠ 8) :
    ((s.setMode .safe row).pin g).owner = (s.pin g).owner ∧ ((s.setMode .safe row).pin g).pad = s.safePad g := by
  have hsame {β : Type} (p : State → β) (hp : ∀ (t : State) (h : Hub) (x : Power), p { t with power := x, hub := h } = p t) :
      p (s.entering .safe row) = p s := by
    have h := congrArg p (congrArg (fun t : State => { t with hub := {} }) (keepEffective_ports s))
    exact (hp s.keepEffective _ _).trans ((hp s.keepEffective {} {}).symm.trans (h.trans (hp s {} {})))
  have hentered : (s.entering .safe row).hub.mode = .safe := rfl
  have hdriver' : (s.entering .safe row).hasDriver g = true := (hsame (·.hasDriver g) (fun _ _ _ => rfl)).trans hdriver
  have hmode' : (s.entering .safe row).pinMode g ≠ 8 := by rwa [hsame (·.pinMode g) (fun _ _ _ => rfl)]
  have hpins := Follows.applyPins (s.entering .safe row)
  have hrest := setMode_follows s .safe row
  have hall := hpins.trans hrest
  refine ⟨(hall.owner g).trans (hsame (fun t => (t.pin g).owner) (fun _ _ _ => rfl)), ?_⟩
  rw [hrest.pad_safe (hpins.hub ▸ hentered) hg ((hpins.hasDriver hg).trans hdriver') (by rwa [hpins.pinMode hg])
    (applyPins_pad_safe hentered hg hdriver' hmode'), hall.safePad hentered hg hdriver' hmode']
  exact hsame (·.safePad g) (fun _ _ _ => rfl)

/-! ### Requests for Safe -/

theorem changeMode_direct {s : State} (h : s.hub.mode ≠ .doze) (m : Mode) (row : Nat) : s.changeMode m row = s.setMode m row :=
  if_neg h

theorem arbMode_direct {s : State} (h : s.hub.mode ≠ .doze) : s.arbMode = s.hub.mode := by
  unfold State.arbMode
  split
  · contradiction
  · rfl

/-- From a running mode the request for Safe changes the mode at once (row 28). -/
theorem requestSafe_running (s : State) (r : ModeReq)
    (hmode : s.hub.mode = .run ∨ s.hub.mode = .runDegraded ∨ s.hub.mode = .island ∨ s.hub.mode = .trial) :
    s.requestSafe r = s.modeRequest r 6 (some (s.setMode .safe 28)) := by
  have hdirect : s.hub.mode ≠ .doze := by rcases hmode with h | h | h | h <;> rw [h] <;> decide
  rw [← changeMode_direct hdirect]
  unfold State.requestSafe
  rw [arbMode_direct hdirect]
  rcases hmode with h | h | h | h <;> rw [h]

/-- A mode request that R20 answers with `t` completes as the write of TOP_MODE_REQ does. -/
theorem writes_modeRequest {c : Instr} {s t : State} {r : ModeReq} {eff : State → State} {P : State → Prop} (code : Nat)
    (hexec : exec c s = done (s.asWrite r.who R.TOP_MODE_REQ eff)) (heff : eff s = s.modeRequest r code (some t)) (hr : Asks s r)
    (hP : P t) : Writes c s r.who R.TOP_MODE_REQ P :=
  writes_of hexec hr.1 (by rw [heff, modeRequest_asks hr]; exact hP)

/-- Settles O41: a pad takes its safe value as the mode is entered, and what follows in Safe leaves it there. -/
theorem entryToSafeDrivesTheSafeValues : Obligations.EntryToSafeDrivesTheSafeValues := by
  intro s r hr hmode
  refine writes_modeRequest 6 rfl (requestSafe_running s r (.inl hmode)) hr
    ⟨(setMode_entered s .safe 28).1, fun g hg hdriver hpin => ?_⟩
  obtain ⟨howner, hpad⟩ := setMode_safe_pin s 28 hg hdriver hpin
  refine ⟨howner, fun hover => ?_, fun hover => ⟨fun hv => ?_, fun hv => ?_, fun hv => ?_, fun hv => ?_⟩⟩ <;>
    rw [hpad, State.safePad, hover]
  · rfl
  all_goals rw [hv]; rfl

end Sys2Proof.Machine

namespace Sys2Proof.Machine

/-! ### What frames, links, outputs and registers leave alone -/

/-- The part of the state that no frame, link, output or register write touches: what `Keeps` speaks of, the records of the
housekeeper, and the hub's own fields apart from the ring link monitor's mark. -/
def State.anchor (s : State) : State := { s.lasting with hub := { s.hub with ringDue := false }, upd := s.upd }

theorem anchor_of_still {s u : State} (h : u.still = s.still) : u.anchor = s.anchor := (congrArg State.anchor h :)

theorem anchor_of_sansCounts {s u : State} (h : u.sansCounts = s.sansCounts) : u.anchor = s.anchor := (congrArg State.anchor h :)

theorem keeps_of_anchor {s u : State} (h : u.anchor = s.anchor) : Keeps s u := keeps_of_lasting (congrArg State.lasting h :)

theorem upd_of_anchor {s u : State} (h : u.anchor = s.anchor) : u.upd = s.upd := (congrArg State.upd h :)

theorem hub_of_anchor {s u : State} (h : u.anchor = s.anchor) : u.hub = { s.hub with ringDue := u.hub.ringDue } := by
  have hh : { u.hub with ringDue := false } = { s.hub with ringDue := false } := (congrArg State.hub h :)
  generalize u.hub = b at hh ⊢
  generalize s.hub = c at hh ⊢
  cases b
  cases c
  simpa using hh

theorem entered_of_anchor {s t u : State} {m : Mode} {row : Nat} (h : u.anchor = t.anchor) (k : Entered s t m row) : Entered s u m row := by
  rw [Entered, hub_of_anchor h]
  exact k

@[simp] theorem askRing_anchor (s : State) : s.askRing.anchor = s.anchor := rfl

/-- A change of mode and what leaves it alone: the mode is entered, and what `Keeps` and the records speak of stays. -/
theorem entered_setMode {s u : State} {m : Mode} {row : Nat} (h : u.anchor = (s.setMode m row).anchor) :
    Entered s u m row ∧ Keeps s u ∧ u.upd = s.upd :=
  ⟨entered_of_anchor h (setMode_entered s m row), (setMode_keeps s m row).trans (keeps_of_anchor h), (upd_of_anchor h).trans (setMode_upd s m row)⟩

/-! ### Links that go down -/

@[simp] theorem countDrop_anchor (s : State) (p c : Nat) : (s.countDrop p c).anchor = s.anchor :=
  anchor_of_sansCounts (pmcEv_sansCounts ..)

@[simp] theorem cutFrame_anchor (s : State) (p : Nat) : (s.cutFrame p).anchor = s.anchor := by
  unfold State.cutFrame
  dsimp only
  split
  · exact countDrop_anchor ..
  · rfl

@[simp] theorem refreshClock_anchor (s : State) : s.refreshClock.anchor = s.anchor := by
  unfold State.refreshClock
  dsimp only
  split
  · rfl
  split
  · rfl
  split
  · split <;> rfl
  split
  · rfl
  · split <;> rfl

@[simp] theorem noteRing_anchor (s : State) (p : Nat) : (s.noteRing p).anchor = s.anchor := by
  unfold State.noteRing
  split <;> rfl

@[simp] theorem linkDown_anchor (s : State) (p : Nat) : (s.linkDown p).anchor = s.anchor := by
  unfold State.linkDown
  split
  · rfl
  · refine (refreshClock_anchor _).trans ((noteRing_anchor _ p).trans ?_)
    exact (show _ = _ from cutFrame_anchor ((((s.wr (R.RING_PORT_up p) 0).bump (R.RING_PORT_downs p)).raise (0x010 + p))) p)

/-! ### Test, Boot and Steep -/

theorem endVerification_still (s : State) : s.endVerification.still = s.still := by
  unfold State.endVerification
  split <;> rfl

/-- The hub's fields after an entry to Test, apart from the ring link monitor's mark. -/
theorem enterTest_anchor (s : State) (row : Nat) :
    (s.enterTest row).anchor =
      ({ s.setMode .test row with hub := { (s.setMode .test row).hub with testFromBoot := row == 32 } } : State).anchor := by
  unfold State.enterTest
  generalize s.setMode .test row = t
  refine foldl_keeps State.anchor _ (List.range 4) (fun u p _ => ?_) _
  split
  · exact linkDown_anchor u p
  · rfl

theorem enterTest_entered (s : State) (row : Nat) : Entered s (s.enterTest row) .test row ∧ Keeps s (s.enterTest row) ∧
    (s.enterTest row).upd = s.upd ∧ (s.enterTest row).hub.testFromBoot = (row == 32) := by
  have h := enterTest_anchor s row
  have hentered := setMode_entered s .test row
  have hkeeps := setMode_keeps s .test row
  have hupd := setMode_upd s .test row
  generalize s.setMode .test row = t at h hentered hkeeps hupd
  have hlasting : (s.enterTest row).lasting = t.lasting := (congrArg State.lasting h :)
  refine ⟨entered_of_anchor h hentered, hkeeps.trans (keeps_of_lasting hlasting), (upd_of_anchor h).trans hupd, ?_⟩
  rw [hub_of_anchor h]

/-- The verification that a Boot or a Steep ends does not show in a change of mode. -/
theorem entered_endVerification {s : State} {m : Mode} {row : Nat} {u : State} (h : Entered s.endVerification u m row) : Entered s u m row := by
  have hv := endVerification_still s
  have hhub : s.endVerification.hub = s.hub := (congrArg State.hub hv :)
  have hnow : s.endVerification.now = s.now := (congrArg State.now hv :)
  rwa [Entered, hhub, hnow] at h

theorem enterBoot_entered (s : State) (row : Nat) : Entered s (s.enterBoot row) .boot row ∧ (s.enterBoot row).hub.accessTable = false ∧
    Keeps s (s.enterBoot row) := by
  have hentered := entered_endVerification (setMode_entered s.endVerification .boot row)
  have hkeeps := (keeps_of_still (endVerification_still s)).trans (setMode_keeps s.endVerification .boot row)
  unfold State.enterBoot
  generalize s.endVerification.setMode .boot row = t at hentered hkeeps
  exact ⟨hentered, rfl, hkeeps⟩

end Sys2Proof.Machine

namespace Sys2Proof.Machine

/-! ### Bits of a field -/

theorem bitAt_eq_testBit (v i : Nat) : bitAt v i = v.testBit i := by
  rw [bitAt, Nat.testBit_eq_decide_div_mod_eq]
  rfl

theorem bit01_lt (b : Bool) : bit01 b < 2 := by cases b <;> decide

/-- A number with bit `i` set to `b`, in terms of what stands above and below that bit. -/
theorem bitSet_eq (v i : Nat) (b : Bool) : bitSet v i b = 2 ^ i * (2 * (v / 2 ^ i / 2) + bit01 b) + v % 2 ^ i := by
  have hv := Nat.div_add_mod v (2 ^ i)
  have hq := Nat.div_add_mod (v / 2 ^ i) 2
  have hv' : v = 2 ^ i * (2 * (v / 2 ^ i / 2)) + 2 ^ i * (v / 2 ^ i % 2) + v % 2 ^ i := by
    rw [← Nat.mul_add, hq, hv]
  have hpos : 0 < 2 ^ i := Nat.two_pow_pos i
  rw [Nat.mul_add]
  unfold bitSet bitAt
  rcases Nat.mod_two_eq_zero_or_one (v / 2 ^ i) with h | h <;> rw [h] at hv' ⊢ <;> cases b <;> simp [bit01] at hv' ⊢ <;> omega

theorem testBit_bitSet (v i j : Nat) (b : Bool) : (bitSet v i b).testBit j = if j = i then b else v.testBit j := by
  have hlow : v % 2 ^ i < 2 ^ i := Nat.mod_lt _ (Nat.two_pow_pos i)
  have hv : v.testBit j = (2 ^ i * (v / 2 ^ i) + v % 2 ^ i).testBit j := by rw [Nat.div_add_mod]
  rw [bitSet_eq, hv, Nat.testBit_two_pow_mul_add _ hlow, Nat.testBit_two_pow_mul_add _ hlow]
  rcases Nat.lt_trichotomy j i with h | rfl | h
  · simp [h, Nat.ne_of_lt h]
  · cases b <;> simp [bit01]
  · obtain ⟨k, hk⟩ : ∃ k, j - i = k + 1 := ⟨j - i - 1, by omega⟩
    have hdiv : (2 * (v / 2 ^ i / 2) + bit01 b) / 2 = v / 2 ^ i / 2 := by
      have := bit01_lt b
      omega
    rw [if_neg (by omega), if_neg (by omega), if_neg (by omega), hk, Nat.testBit_succ, Nat.testBit_succ, hdiv]

/-- A bit of a field after a write to one of its bits. -/
theorem bitOn_wrBit (s : State) (f : Fld) (i : Nat) {j : Nat} (b : Bool) (hf : f.lsb + f.width ≤ 64) (hj : j < f.width) :
    (s.wrBit f i b).bitOn f j = if j = i then b else s.bitOn f j := by
  rw [State.bitOn, State.bitOn, State.wrBit, rd_wr_same _ _ _ hf, bitAt_eq_testBit, bitAt_eq_testBit, Nat.testBit_mod_two_pow, testBit_bitSet]
  simp [hj]

/-! ### The exit from Doze begins -/

theorem noteRefuser_word (s : State) (i code element : Nat) (aborted : Bool) {a : Nat} (ha : a ≠ R.PWR_REFUSE i) :
    (s.noteRefuser i code element aborted).word a = s.word a := by
  cases aborted <;> exact (word_wr_ne _ _ _ ha).trans ((word_wr_ne _ _ _ ha).trans (word_wr_ne _ _ _ ha))

theorem noteRefuser_still (s : State) (i code element : Nat) (aborted : Bool) : (s.noteRefuser i code element aborted).still = s.still := by
  cases aborted <;> rfl

theorem noteRefuser_power (s : State) (i code element : Nat) (aborted : Bool) : (s.noteRefuser i code element aborted).power = s.power := by
  cases aborted <;> rfl

/-- The state in which the gatings in progress are recorded as stopped (R598, R600). -/
def State.stopGatings (s : State) (row : Nat) : State :=
  (List.range 8).foldl (fun (t : State) d => if s.power.gating.getLsbD d then t.noteRefuser d 0x11 row true else t) s

theorem stopGatings_still (s : State) (row : Nat) : (s.stopGatings row).still = s.still :=
  foldl_keeps State.still _ _ (fun t d _ => by
    split
    · exact noteRefuser_still ..
    · rfl) s

theorem stopGatings_power (s : State) (row : Nat) : (s.stopGatings row).power = s.power :=
  foldl_keeps State.power _ _ (fun t d _ => by
    split
    · exact noteRefuser_power ..
    · rfl) s

theorem stopGatings_word (s : State) (row : Nat) {a : Nat} (ha : ∀ i, i < 8 → a ≠ R.PWR_REFUSE i) : (s.stopGatings row).word a = s.word a :=
  foldl_keeps (State.word · a) _ _ (fun t d hd => by
    split
    · exact noteRefuser_word _ _ _ _ _ (ha d (List.mem_range.mp hd))
    · rfl) s

theorem vsiRequest_gating (s : State) (q : VsiReq) : (s.vsiRequest q).power.gating = s.power.gating := by
  unfold State.vsiRequest
  split
  · unfold State.vsiSend State.endRisk
    dsimp only
    split <;> rfl
  · split <;> rfl

/-- The core voltage has reached the floor of Run, so that an exit from Doze need not wait for it (R600). -/
def State.exitReady (s : State) : Bool := decide (s.rd R.PWR_WINDOW_run_floor ≤ s.coreMv) && !s.power.mvUnknown

/-- The exit from Doze to `m` by a row stands, and the floor of Run is requested where the core voltage is below it (R600). -/
def State.beginExit (s : State) (m : Mode) (row : Nat) : State :=
  let t := if s.exitReady then s else s.vsiRequest ⟨s.rd R.PWR_WINDOW_run_floor, 2, true⟩
  { t with power := { t.power with exit := some ⟨m, row, t.clk, s.exitReady, t.power.gating⟩ } }

theorem beginExit_still (s : State) (m : Mode) (row : Nat) : (s.beginExit m row).still = s.still := by
  unfold State.beginExit
  split
  · rfl
  · exact vsiRequest_still s _

theorem beginExit_exit (s : State) (m : Mode) (row : Nat) :
    (s.beginExit m row).power.exit = some ⟨m, row, s.clk, s.exitReady, s.power.gating⟩ := by
  unfold State.beginExit
  split
  · rfl
  · have hclk : (s.vsiRequest ⟨s.rd R.PWR_WINDOW_run_floor, 2, true⟩).clk = s.clk := (congrArg State.clk (vsiRequest_still s _) :)
    dsimp only
    rw [vsiRequest_gating, hclk]

/-- A trigger that meets no exit in progress begins one, and nothing else that lasts changes (R600). -/
theorem leaveDoze_begins (s : State) (m : Mode) (row : Nat) (hexit : s.power.exit = none) :
    (s.leaveDoze m row).still = s.still ∧
    (s.leaveDoze m row).power.exit = some ⟨m, row, s.clk, s.exitReady, s.power.gating⟩ := by
  have hleave : s.leaveDoze m row = (s.stopGatings row).beginExit m row := by
    unfold State.leaveDoze
    rw [hexit]
    rfl
  have hstill := stopGatings_still s row
  have hpower := stopGatings_power s row
  have hfloor : (s.stopGatings row).rd R.PWR_WINDOW_run_floor = s.rd R.PWR_WINDOW_run_floor := by
    rw [State.rd, State.rd, stopGatings_word s row (by decide)]
  have hmv : (s.stopGatings row).rd R.PWR_STATUS_core_mv = s.rd R.PWR_STATUS_core_mv := by
    rw [State.rd, State.rd, stopGatings_word s row (by decide)]
  have hready : (s.stopGatings row).exitReady = s.exitReady := by
    rw [State.exitReady, State.exitReady, State.coreMv, State.coreMv, hpower, hmv, hfloor]
  have hclk : (s.stopGatings row).clk = s.clk := (congrArg State.clk hstill :)
  rw [hleave]
  refine ⟨(beginExit_still _ m row).trans hstill, ?_⟩
  rw [beginExit_exit, hready, hclk, hpower]

theorem arbMode_doze {s : State} (hmode : s.hub.mode = .doze) (hexit : s.power.exit = none) : s.arbMode = .doze := by
  unfold State.arbMode
  rw [hmode, hexit]

/-- What an exit from Doze leaves as it begins. -/
theorem leaveDoze_keeps {s : State} (m : Mode) (row : Nat) (hexit : s.power.exit = none) :
    (s.leaveDoze m row).hub = s.hub ∧ Keeps s (s.leaveDoze m row) ∧
    (s.leaveDoze m row).power.exit = some ⟨m, row, s.clk, s.exitReady, s.power.gating⟩ := by
  obtain ⟨hstill, h⟩ := leaveDoze_begins s m row hexit
  exact ⟨(congrArg State.hub hstill :), keeps_of_still hstill, h⟩

/-! ### Domains that are gated (R599) -/

theorem suspendQuad_still (s : State) (q : Nat) : (s.suspendQuad q).still = s.still :=
  foldl_still _ (fun t ec => by
    dsimp only
    split
    · exact (dropGrid_still (t.dropPre ec.1 ec.2) ec.1 ec.2).trans (dropPre_still t ec.1 ec.2)
    · rfl) _ s

theorem Follows.suspendQuad (s : State) (q : Nat) : Follows s (s.suspendQuad q) :=
  Follows.foldl (fun t ec _ => by
    dsimp only
    split
    · exact ((Follows.dropPre t ec.1 ec.2).trans (Follows.dropGrid _ ec.1 ec.2)).trans (Follows.setCtx _ ec.1 ec.2 _)
    · exact Follows.refl t) s

/-- The bay ports of a group wait from now on: what their outputs hold counts as held (R303). -/
def State.haltOutputs (s : State) (d : Nat) : State :=
  (bayPorts d).foldl (fun (t : State) p => (t.setOutp p { t.outp p with downSince := some s.clk, holdEnded := false }).markWaited p) s

theorem haltOutputs_anchor (s : State) (d : Nat) : (s.haltOutputs d).anchor = s.anchor :=
  foldl_keeps State.anchor (fun (t : State) p => (t.setOutp p { t.outp p with downSince := some s.clk, holdEnded := false }).markWaited p)
    _ (fun _ _ _ => rfl) s

theorem Follows.haltOutputs (s : State) (d : Nat) : Follows s (s.haltOutputs d) :=
  Follows.foldl (f := fun (t : State) p => (t.setOutp p { t.outp p with downSince := some s.clk, holdEnded := false }).markWaited p)
    (fun t _ _ => Follows.quiet (s := t) rfl rfl rfl rfl) s

/-- What domain `d` does as it counts as gated: the outputs and the pins of a bay group, or the contexts of an engine quad. -/
def State.idleDomain (s : State) (d : Nat) : State :=
  if d < 4 then (((s.haltOutputs d).usedPins.filter (fun g => groupOfPin g = d)).foldl State.applyPin (s.haltOutputs d)) else s.suspendQuad (d - 4)

theorem idleDomain_anchor (s : State) (d : Nat) : (s.idleDomain d).anchor = s.anchor := by
  unfold State.idleDomain
  split
  · exact (anchor_of_still (foldl_still _ applyPin_still _ _)).trans (haltOutputs_anchor s d)
  · exact anchor_of_still (suspendQuad_still s _)

theorem Follows.idleDomain (s : State) (d : Nat) : Follows s (s.idleDomain d) := by
  unfold State.idleDomain
  split
  · exact (Follows.haltOutputs s d).trans (Follows.foldl (fun t g _ => Follows.applyPin t g) _)
  · exact Follows.suspendQuad s _

theorem gateDomain_eq (s : State) (d : Nat) : s.gateDomain d =
    ({ s.wrBit R.PWR_STATUS_gated d true with
      power := { s.power with gating := s.power.gating ||| BitVec.ofNat 8 (2 ^ d) } } : State).idleDomain d := by
  unfold State.gateDomain State.idleDomain
  by_cases h : d < 4
  · simp only [if_pos h]
    rfl
  · simp only [if_neg h]
    rfl

theorem gateDomain_anchor (s : State) (d : Nat) : (s.gateDomain d).anchor = s.anchor := by
  rw [gateDomain_eq]
  exact idleDomain_anchor _ d

theorem gateDomain_gated (s : State) {d e : Nat} (he : e < 8) :
    (s.gateDomain d).bitOn R.PWR_STATUS_gated e = if e = d then true else s.bitOn R.PWR_STATUS_gated e := by
  rw [gateDomain_eq, ← bitOn_wrBit s R.PWR_STATUS_gated d true (by decide) he]
  exact congrArg (bitAt · e) (Follows.idleDomain _ d).gated

theorem gateDomains_anchor (ds : List Nat) (s : State) : (ds.foldl State.gateDomain s).anchor = s.anchor :=
  foldl_keeps State.anchor State.gateDomain ds (fun t d _ => gateDomain_anchor t d) s

/-- Every domain of the list counts as gated once all of them are gated. -/
theorem gateDomains_gated (ds : List Nat) (s : State) {e : Nat} (he : e < 8) (h : e ∈ ds ∨ s.bitOn R.PWR_STATUS_gated e = true) :
    (ds.foldl State.gateDomain s).bitOn R.PWR_STATUS_gated e = true := by
  induction ds generalizing s with
  | nil => exact h.resolve_left (List.not_mem_nil)
  | cons d ds ih =>
    refine ih (s.gateDomain d) ?_
    rw [gateDomain_gated s he]
    rcases h with h | h
    · rcases List.mem_cons.mp h with rfl | h
      · simp
      · exact .inl h
    · simp [h]

/-- A Doze request that nothing refuses gates its domains (row 21, R599). -/
theorem dozeGo_granted {s : State} (r : ModeReq) {groups quads : Nat} (hds : dozeDomains groups quads ≠ [])
    (hvar : ¬(s.variant = .l3224 ∧ (bitAt groups 2 ∨ bitAt groups 3))) (hfree : ∀ d ∈ dozeDomains groups quads, s.refuser d = none) :
    s.dozeGo r groups quads = ((dozeDomains groups quads).foldl State.gateDomain (s.setMode .doze 21)).askRing := by
  unfold State.dozeGo
  rw [if_neg, if_neg]
  · rw [List.any_eq_true]
    rintro ⟨d, hd, hsome⟩
    rw [hfree d hd] at hsome
    exact absurd hsome (by decide)
  · rintro (h | h)
    · exact hds (List.isEmpty_iff.mp h)
    · exact hvar h

/-! ### Requests for Run, Doze and Boot -/

theorem requestRun_granted {s : State} (r : ModeReq) (hmigration : s.on R.UPD_STATUS_migration_fail = false)
    (hself : s.on R.KET_STATUS_self_fault = false) :
    (s.arbMode = .island → s.requestRun r = s.modeRequest r 3 (some (s.changeMode .run 20).askRing)) ∧
    (s.arbMode = .doze → s.requestRun r = s.modeRequest r 3 (some (s.changeMode .run 22))) ∧
    (s.arbMode = .safe → s.requestRun r = s.modeRequest r 3 (some
      (if (s.slotOf s.upd.running).state = 3 then (s.changeMode .run 12).askRing else (s.changeMode .trial 13).askRing))) := by
  refine ⟨fun h => ?_, fun h => ?_, fun h => ?_⟩ <;> simp [State.requestRun, h, hmigration, hself]

theorem requestSafe_doze {s : State} (r : ModeReq) (h : s.arbMode = .doze) :
    s.requestSafe r = s.modeRequest r 6 (some (s.changeMode .safe 28)) := by
  unfold State.requestSafe
  rw [h]

theorem changeMode_doze {s : State} (h : s.hub.mode = .doze) (m : Mode) (row : Nat) : s.changeMode m row = s.leaveDoze m row := if_pos h

theorem requestDoze_run {s : State} (r : ModeReq) (groups quads : Nat) (h : s.hub.mode = .run) :
    s.requestDoze r groups quads = s.modeRequest r 7 (some (s.dozeGo r groups quads)) := by
  unfold State.requestDoze
  rw [arbMode_direct (by rw [h]; decide), h]
  rfl

theorem requestBoot_test {s : State} (r : ModeReq) (h : s.hub.mode = .test) :
    s.requestBoot r = s.modeRequest r 0 (some (s.enterBoot 4)) := by
  unfold State.requestBoot
  rw [h]

/-- The Doze request's clause: what the granted request leaves. -/
theorem doze_entered {s : State} (r : ModeReq) {groups quads : Nat} (hds : dozeDomains groups quads ≠ [])
    (hvar : ¬(s.variant = .l3224 ∧ (bitAt groups 2 ∨ bitAt groups 3))) (hfree : ∀ d ∈ dozeDomains groups quads, s.refuser d = none) :
    Entered s (s.dozeGo r groups quads) .doze 21 ∧ Keeps s (s.dozeGo r groups quads) ∧ (s.dozeGo r groups quads).upd = s.upd ∧
    ∀ d ∈ dozeDomains groups quads, (s.dozeGo r groups quads).bitOn R.PWR_STATUS_gated d = true := by
  rw [dozeGo_granted r hds hvar hfree]
  obtain ⟨hentered, hkeeps, hupd⟩ := entered_setMode (m := .doze) (row := 21) (gateDomains_anchor (dozeDomains groups quads) (s.setMode .doze 21))
  refine ⟨hentered, hkeeps, hupd, fun d hd => ?_⟩
  exact gateDomains_gated _ (s.setMode .doze 21) (List.mem_range.mp (List.mem_filter.mp hd).1) (.inl hd)

/-- Settles O6: the running modes change at once, Doze begins its exit, and a granted Doze request gates its domains. -/
theorem requestsFromTheRunningModesFollowTheTable : Obligations.RequestsFromTheRunningModesFollowTheTable := by
  refine ⟨fun s r hr hmode => ?_, fun s r hr hmode hexit => ?_, fun s r hr hmode hmigration hself _ _ => ?_,
    fun s r hr hmode hexit hmigration hself => ?_, fun s r groups quads hr hmode hds hvar hfree _ => ?_, fun s r hr hmode => ?_⟩
  · exact writes_modeRequest 6 rfl (requestSafe_running s r hmode) hr (entered_setMode rfl)
  · refine writes_modeRequest 6 rfl (requestSafe_doze r (arbMode_doze hmode hexit)) hr ?_
    rw [changeMode_doze hmode]
    exact leaveDoze_keeps .safe 28 hexit
  · have hdirect : s.hub.mode ≠ .doze := by rw [hmode]; decide
    refine writes_modeRequest 3 rfl ((requestRun_granted r hmigration hself).1 ((arbMode_direct hdirect).trans hmode)) hr ?_
    rw [changeMode_direct hdirect]
    exact entered_setMode (askRing_anchor _)
  · refine writes_modeRequest 3 rfl ((requestRun_granted r hmigration hself).2.1 (arbMode_doze hmode hexit)) hr ?_
    rw [changeMode_doze hmode]
    exact leaveDoze_keeps .run 22 hexit
  · refine writes_modeRequest 7 rfl (requestDoze_run r _ _ hmode) hr (doze_entered r hds ?_ hfree)
    rintro ⟨hv, hbits⟩
    obtain ⟨h2, h3⟩ := hvar hv
    rw [bitAt_eq_testBit, bitAt_eq_testBit] at hbits
    rw [BitVec.getLsbD] at h2 h3
    rw [h2, h3] at hbits
    exact absurd hbits (by decide)
  · exact writes_modeRequest 0 rfl (requestBoot_test r hmode) hr (enterBoot_entered s 4)

end Sys2Proof.Machine

namespace Sys2Proof.Machine

/-! ### Both ring directions or all masters lost (rows 17 to 19) -/

theorem lost_running {s : State} (h : s.hub.mode = .run ∨ s.hub.mode = .runDegraded) : s.ringOrMastersLost =
    s.setMode (if s.on R.RING_ISLAND_enable then .island else .safe) (if s.on R.RING_ISLAND_enable then 17 else 18) := by
  have hdirect : s.hub.mode ≠ .doze := by rcases h with h | h <;> rw [h] <;> decide
  rw [← changeMode_direct hdirect]
  unfold State.ringOrMastersLost
  rw [arbMode_direct hdirect]
  rcases h with h | h <;> rw [h]

theorem lost_trial {s : State} (h : s.hub.mode = .trial) : s.ringOrMastersLost = s.setMode .safe 19 := by
  have hdirect : s.hub.mode ≠ .doze := by rw [h]; decide
  rw [← changeMode_direct hdirect]
  unfold State.ringOrMastersLost
  rw [arbMode_direct hdirect, h]

theorem lost_doze {s : State} (h : s.hub.mode = .doze) (hexit : s.power.exit = none) : s.ringOrMastersLost =
    s.leaveDoze (if s.on R.RING_ISLAND_enable then .island else .safe) (if s.on R.RING_ISLAND_enable then 17 else 18) := by
  rw [← changeMode_doze h]
  unfold State.ringOrMastersLost
  rw [arbMode_doze h hexit]

theorem lost_safe {s : State} (h : s.hub.mode = .safe) : s.ringOrMastersLost = s := by
  unfold State.ringOrMastersLost
  rw [arbMode_direct (by rw [h]; decide), h]

/-- Where Doze leads when both ring directions or all masters are lost. -/
theorem lost_doze_exit {s : State} (h : s.hub.mode = .doze) (hexit : s.power.exit = none) :
    s.ringOrMastersLost.hub = s.hub ∧ Keeps s s.ringOrMastersLost ∧ ∃ x, s.ringOrMastersLost.power.exit = some x ∧
      x.mode = (if s.on R.RING_ISLAND_enable = true then .island else .safe) := by
  rw [lost_doze h hexit]
  obtain ⟨hhub, hkeeps, hx⟩ := leaveDoze_keeps (s := s) (if s.on R.RING_ISLAND_enable then .island else .safe)
    (if s.on R.RING_ISLAND_enable then 17 else 18) hexit
  exact ⟨hhub, hkeeps, _, hx, rfl⟩

theorem islandTimeout_due {s : State} (h : s.islandDue = true) : exec .islandTimeout s = done s.ringOrMastersLost :=
  congrArg done (if_pos h)

/-! ### The ring link monitor (R247) -/

/-- The state on which the ring link monitor acts: its mark is taken. -/
def State.unasked (s : State) : State := { s with hub := { s.hub with ringDue := false } }

/-- What follows the commands where the ring link monitor has been asked. -/
theorem monitored_of_asked {s v : State} {P : State → Prop} (hv : v = State.intake 16 s) (hdue : v.hub.ringDue = true)
    (hP : P v.unasked.ringMonitor) : Monitored s P := by
  refine ⟨v.unasked.ringMonitor, ?_, hP⟩
  rw [State.settle, ← hv, State.ringSettle, if_pos hdue]
  rfl

theorem ringMonitor_one {s : State} (h : s.hub.mode = .run) (hup : s.on (R.RING_PORT_up 0) ≠ s.on (R.RING_PORT_up 1)) :
    s.ringMonitor = s.setMode .runDegraded 15 := by
  unfold State.ringMonitor
  revert hup
  cases s.on (R.RING_PORT_up 0) <;> cases s.on (R.RING_PORT_up 1) <;> simp [h]

theorem ringMonitor_both {s : State} (h : s.hub.mode = .runDegraded) (h0 : s.on (R.RING_PORT_up 0) = true)
    (h1 : s.on (R.RING_PORT_up 1) = true) : s.ringMonitor = s.setMode .run 16 := by
  unfold State.ringMonitor
  simp [h, h0, h1]

theorem ringMonitor_none {s : State} (h0 : s.on (R.RING_PORT_up 0) = false) (h1 : s.on (R.RING_PORT_up 1) = false) :
    s.ringMonitor = s.ringOrMastersLost := by
  unfold State.ringMonitor
  simp [h0, h1]

theorem ringMonitor_safe {s : State} (h : s.hub.mode = .safe) : s.ringMonitor = s := by
  unfold State.ringMonitor
  dsimp only
  split
  · exact lost_safe h
  split
  · rw [h]; rfl
  · rw [h]; rfl

/-- In Safe the ring link monitor takes its mark and changes nothing. -/
theorem settle_safe {s v : State} (hv : v = State.intake 16 s) (hdue : v.hub.ringDue = true) (hsafe : v.hub.mode = .safe) :
    s.settle = v.unasked.noteDone := by
  have hraised : v.unasked.raised = [] := by
    rw [hv]
    exact intake_raised 16 s
  rw [State.settle, ← hv, State.ringSettle, if_pos hdue]
  change (State.ringSettle 3 (State.intake 16 v.unasked.ringMonitor)).noteDone = _
  rw [ringMonitor_safe (s := v.unasked) hsafe, intake_quiet 16 _ hraised, ringSettle_quiet 2 _ rfl]

/-! ### The statement -/

theorem setMode_changes (s : State) (m : Mode) (row : Nat) :
    Entered s (s.setMode m row) m row ∧ Keeps s (s.setMode m row) ∧ (s.setMode m row).upd = s.upd :=
  entered_setMode rfl

/-- Settles O8: each trigger is one of the changes of mode above, at the state that the trigger meets. -/
theorem ringMonitorMasterWatchAndJtagFollowTheTable : Obligations.RingMonitorMasterWatchAndJtagFollowTheTable := by
  refine ⟨fun s hdue hmode hisland => ?_, fun s hdue hmode hisland => ?_, fun s hdue hmode => ?_, fun s hdue hmode hexit => ?_,
    fun s hdue => ?_, fun s hmode hup => ?_, fun s hmode => ?_, fun s v hv hdue hmode hup => ?_, fun s v hv hdue hmode h0 h1 => ?_,
    fun s v hv hdue hmode h0 h1 => ?_, fun s v hv hdue hmode h0 h1 => ?_, fun s v hv hdue hmode hexit h0 h1 => ?_,
    fun s v hv hdue hmode => settle_safe hv hdue hmode⟩
  · refine ⟨s.ringOrMastersLost, islandTimeout_due hdue, ?_⟩
    rw [lost_running hmode, hisland]
    exact setMode_changes s .island 17
  · refine ⟨s.ringOrMastersLost, islandTimeout_due hdue, ?_⟩
    rw [lost_running hmode, hisland]
    exact setMode_changes s .safe 18
  · refine ⟨s.ringOrMastersLost, islandTimeout_due hdue, ?_⟩
    rw [lost_trial hmode]
    exact setMode_changes s .safe 19
  · exact ⟨s.ringOrMastersLost, islandTimeout_due hdue, lost_doze_exit hmode hexit⟩
  · exact congrArg done (if_neg (by rw [hdue]; decide))
  · obtain ⟨hentered, hkeeps, hupd, htest⟩ := enterTest_entered s 32
    exact ⟨s.enterTest 32, congrArg done (if_pos ⟨hmode, by rw [hup]; rfl⟩), hentered, htest, hkeeps, hupd⟩
  · obtain ⟨hentered, _, hkeeps⟩ := enterBoot_entered s 4
    exact ⟨s.enterBoot 4, congrArg done (if_pos hmode), hentered, hkeeps⟩
  · refine monitored_of_asked hv hdue ?_
    rw [ringMonitor_one (s := v.unasked) hmode hup]
    obtain ⟨hentered, hkeeps, _⟩ := setMode_changes v.unasked .runDegraded 15
    exact ⟨hentered, hkeeps⟩
  · refine monitored_of_asked hv hdue ?_
    rw [ringMonitor_both (s := v.unasked) hmode h0 h1]
    obtain ⟨hentered, hkeeps, _⟩ := setMode_changes v.unasked .run 16
    exact ⟨hentered, hkeeps⟩
  · refine monitored_of_asked hv hdue ?_
    rw [ringMonitor_none (s := v.unasked) h0 h1, lost_running (s := v.unasked) hmode]
    obtain ⟨hisland, hislandKeeps, _⟩ := setMode_changes v.unasked .island 17
    obtain ⟨hsafe, hsafeKeeps, _⟩ := setMode_changes v.unasked .safe 18
    have hon : v.unasked.on R.RING_ISLAND_enable = v.on R.RING_ISLAND_enable := rfl
    rw [hon]
    split
    · exact ⟨hisland, hislandKeeps⟩
    · exact ⟨hsafe, hsafeKeeps⟩
  · refine monitored_of_asked hv hdue ?_
    rw [ringMonitor_none (s := v.unasked) h0 h1, lost_trial (s := v.unasked) hmode]
    obtain ⟨hentered, hkeeps, _⟩ := setMode_changes v.unasked .safe 19
    exact ⟨hentered, hkeeps⟩
  · refine monitored_of_asked hv hdue ?_
    rw [ringMonitor_none (s := v.unasked) h0 h1]
    obtain ⟨hhub, _, hx⟩ := lost_doze_exit (s := v.unasked) hmode hexit
    exact ⟨(congrArg Hub.mode hhub).trans hmode, hx⟩

end Sys2Proof.Machine

namespace Sys2Proof.Machine

/-! ### What a domain that is powered again leaves alone -/

/-- What the return of a domain does not touch: flash, the housekeeper's records, the hub's own fields, the exit from Doze and time. -/
def State.dozing (s : State) : SMap Byte × Upd × Hub × Option DozeExit × Word × Nat :=
  (s.flash, s.upd, s.hub, s.power.exit, s.now, s.clk)

/-- `t` differs from `s` by nothing that the exit from Doze looks at. -/
structure Dozes (s t : State) : Prop where
  dozing : t.dozing = s.dozing
  gated : t.rd R.PWR_STATUS_gated = s.rd R.PWR_STATUS_gated

/-- A read outside the range that is cut. -/
theorem mget_mcut_ne {α : Type} (d : α) (m : SMap α) {lo hi k : Nat} (h : k < lo ∨ hi ≤ k) : mget d (mcut m lo hi) k = mget d m k := by
  induction m with
  | nil => rfl
  | cons x rest ih =>
    obtain ⟨j, v⟩ := x
    by_cases hj : j < lo ∨ hi ≤ j
    · have hcut : mcut ((j, v) :: rest) lo hi = (j, v) :: mcut rest lo hi := List.filter_cons_of_pos (by simpa using hj)
      rw [hcut, mget, mget, ih]
    · have hcut : mcut ((j, v) :: rest) lo hi = mcut rest lo hi := List.filter_cons_of_neg (by simpa using hj)
      rw [hcut, mget, ih, if_neg (by rintro rfl; exact hj h)]

/-- The cell of a pin after its bank was reset. -/
def State.blankPin (s : State) (g : Nat) : State := s.setPin g { level := (s.pin g).level, pad := (s.pin g).pad, kept := true }

/-- The registers and FIFOs of bay `n` after its bank was reset (R610). -/
def State.emptyBay (s : State) (n : Nat) : State :=
  let t := s.restoreRange (0x100000 + n * 0x2000) (0x102000 + n * 0x2000)
  { t with bays := { t.bays with rx := mdel t.bays.rx n, tx := mdel t.bays.tx n } }

/-- Bay `n` after its bank was reset, its pins included (R610). -/
def State.blankBay (s : State) (n : Nat) : State :=
  (List.range 8).foldl (fun (u : State) p => u.blankPin (8 * n + p)) (s.emptyBay n)

/-- The registers, contexts and program marks of engine `e` after its bank was reset (R610). -/
def State.blankEngine (s : State) (e : Nat) : State :=
  { s.restoreRange (0x200000 + e * 0x10000) (0x210000 + e * 0x10000) with
    engines := mdel s.engines e, eccMarks := s.eccMarks.filter (fun x => decide (x.1 ≠ .prog ∨ x.2.1 / 512 ≠ e)) }

/-- The bank of a domain holds the twelve bays of a bay group or the four engines of a quad. -/
theorem resetBank_domain {d : Nat} (hd : d < 8) (s : State) : s.resetBank (6 + d) =
    if d < 4 then (List.range 12).foldl (fun (t : State) i => t.blankBay (12 * d + i)) s
    else (List.range 4).foldl (fun (t : State) i => t.blankEngine (4 * (d - 4) + i)) s := by
  match d with
  | 0 | 1 | 2 | 3 | 4 | 5 | 6 | 7 => rfl
  | n + 8 => omega

namespace Dozes

variable {s t u : State}

theorem refl (s : State) : Dozes s s := ⟨rfl, rfl⟩

theorem trans (h : Dozes s t) (k : Dozes t u) : Dozes s u := ⟨k.dozing.trans h.dozing, k.gated.trans h.gated⟩

theorem foldl {α : Type} {f : State → α → State} {l : List α} (h : ∀ t, ∀ a ∈ l, Dozes t (f t a)) (s : State) : Dozes s (l.foldl f s) :=
  List.foldlRecOn (motive := Dozes s) l f (refl s) (fun t ht a ha => ht.trans (h t a ha))

theorem of_word (hdozing : t.dozing = s.dozing) (hword : t.word R.PWR_STATUS = s.word R.PWR_STATUS) : Dozes s t :=
  ⟨hdozing, congrArg (fget · 8 8) hword⟩

theorem of_follows (hdozing : t.dozing = s.dozing) (h : Follows s t) : Dozes s t := ⟨hdozing, h.gated⟩

theorem quiet (hdozing : t.dozing = s.dozing) (hregs : t.regs = s.regs) : Dozes s t :=
  of_word hdozing (by rw [State.word, State.word, hregs])

theorem wr (s : State) {f : Fld} (v : Nat) (hf : R.PWR_STATUS ≠ f.addr) : Dozes s (s.wr f v) :=
  of_word rfl (word_wr_ne s f v hf)

theorem pmcEv (s : State) (cls ev x : Nat) (a : Attrs) : Dozes s (s.pmcEv cls ev x a) :=
  of_follows (congrArg State.dozing (pmcEv_sansCounts s cls ev x a) :) (Follows.pmcEv s cls ev x a)

theorem applyPin (s : State) (g : Nat) : Dozes s (s.applyPin g) :=
  of_follows (congrArg State.dozing (applyPin_repinned s g).rest :) (Follows.applyPin s g)

theorem followLine (s old : State) (g : Nat) : Dozes s (s.followLine old g) := by
  have h := (followLine_repinned s old g).1.rest
  exact quiet (congrArg State.dozing h :) (congrArg State.regs h :)

theorem reenablePin (s : State) (g : Nat) : Dozes s (s.reenablePin g) := by
  unfold State.reenablePin
  dsimp only
  split
  · exact (quiet rfl rfl : Dozes s (s.setPin g _)).trans (followLine _ s g)
  · exact applyPin s g

theorem txFlush (s : State) (n : Nat) : Dozes s (s.txFlush n) := by
  refine Dozes.trans ?_ (pmcEv _ _ _ _ _)
  refine (quiet rfl rfl : Dozes s (s.setTx n _)).trans (wr _ _ ?_)
  change R.PWR_STATUS ≠ R.BAY_TXCNT n
  have hstatus : R.PWR_STATUS < 0x100000 := by decide
  unfold R.BAY_TXCNT bayBase
  omega

theorem clearOverload (s : State) (n mask : Nat) : Dozes s (s.clearOverload n mask) := by
  unfold State.clearOverload
  dsimp only
  refine (wr s (f := R.BAY_PINSTAT_overload n) _ ?_).trans (foldl (fun t p _ => ?_) _)
  · have hstatus : R.PWR_STATUS < 0x100000 := by decide
    change R.PWR_STATUS ≠ R.BAY_PINSTAT n
    unfold R.BAY_PINSTAT bayBase
    omega
  · split
    · exact reenablePin t _
    · exact refl t

/-! ### Banks that are switched on again (R610) -/

theorem resetRange {lo hi : Nat} (h : R.PWR_STATUS < lo) (s : State) : Dozes s (s.resetRange lo hi) := by
  refine of_word rfl (mget_mcut_ne _ _ (.inl h))

theorem restoreRange {lo hi : Nat} (h : R.PWR_STATUS < lo) (s : State) : Dozes s (s.restoreRange lo hi) := by
  refine (resetRange h s).trans (foldl (f := fun (t : State) (kv : Nat × Word) => t.setWord kv.1 kv.2) (fun t kv hkv => ?_) (s.resetRange lo hi))
  have hrange := (List.mem_filter.mp hkv).2
  simp only [decide_eq_true_eq] at hrange
  exact of_word rfl (word_setWord_ne t kv.2 (by omega))

theorem emptyBay (n : Nat) (s : State) : Dozes s (s.emptyBay n) := by
  have hregs : Dozes s (s.restoreRange (0x100000 + n * 0x2000) (0x102000 + n * 0x2000)) :=
    restoreRange (by rw [R.PWR_STATUS]; omega) s
  exact ⟨hregs.dozing, hregs.gated⟩

theorem blankBay (n : Nat) (s : State) : Dozes s (s.blankBay n) :=
  (emptyBay n s).trans (foldl (f := fun (u : State) p => u.blankPin (8 * n + p)) (fun _ _ _ => quiet rfl rfl) (s.emptyBay n))

theorem blankEngine (e : Nat) (s : State) : Dozes s (s.blankEngine e) := by
  have hregs : Dozes s (s.restoreRange (0x200000 + e * 0x10000) (0x210000 + e * 0x10000)) :=
    restoreRange (by rw [R.PWR_STATUS]; omega) s
  exact ⟨hregs.dozing, hregs.gated⟩

theorem resetBank {d : Nat} (hd : d < 8) (s : State) : Dozes s (s.resetBank (6 + d)) := by
  rw [resetBank_domain hd]
  split
  · exact foldl (fun t i _ => blankBay _ t) s
  · exact foldl (fun t i _ => blankEngine _ t) s

/-- A bank that fails its check is reset, counted and reported (R611). -/
theorem loseBank {d : Nat} (hd : d < 8) (s : State) :
    Dozes s (((s.resetBank (6 + d)).wrBit R.PWR_BANK_lost (6 + d) true).bump R.PWR_BANK_lost_events) := by
  have hreset := resetBank hd s
  have hlost : Dozes (s.resetBank (6 + d)) ((s.resetBank (6 + d)).wrBit R.PWR_BANK_lost (6 + d) true) := wr _ _ (by decide)
  exact (hreset.trans hlost).trans (wr _ _ (by decide))

theorem raise (s : State) (src data : Nat) : Dozes s (s.raise src data) := quiet rfl rfl

theorem switchOnBank {d : Nat} (hd : d < 8) (s : State) (lost : Bool) : Dozes s (s.switchOnBank (6 + d) lost) := by
  have hkept : Dozes s (s.wrBit R.PWR_BANK_dropped (6 + d) false) := wr s _ (by decide)
  unfold State.switchOnBank
  split
  · exact (resetBank hd s).trans (wr _ _ (by decide))
  dsimp only
  split
  · exact (hkept.trans (loseBank hd _)).trans (raise ..)
  · exact hkept

theorem ready (s : State) (e c : Nat) : Dozes s (s.ready e c) := by
  unfold State.ready
  dsimp only
  split
  · exact (quiet rfl rfl : Dozes s (s.setCtx e c _)).trans (pmcEv _ _ _ _ _)
  · exact quiet rfl rfl

theorem resumeQuad (s : State) (q : Nat) : Dozes s (s.resumeQuad q) :=
  foldl (fun t ec _ => by
    dsimp only
    split
    · exact (quiet rfl rfl : Dozes t (t.setCtx ec.1 ec.2 _)).trans (ready _ _ _)
    · exact refl t) s

end Dozes

/-! ### Domains that are powered again (R600) -/

/-- Domain `d` has power, and its bank is checked where the power had been removed (R600, R609). -/
def State.powerDomain (s : State) (d : Nat) (lost : Bool) : State :=
  let t := { s with power := { s.power with gating := s.power.gating &&& ~~~(BitVec.ofNat 8 (2 ^ d)) } }
  if !s.power.gating.getLsbD d then t.switchOnBank (6 + d) lost else t

/-- The bay ports of a group send again. -/
def State.resumeOutputs (s : State) (d : Nat) : State :=
  (bayPorts d).foldl (fun (t : State) p => t.setOutp p { t.outp p with downSince := none, holdEnded := false }) s

/-- What a force left to do in bay `n` while its group had no power (R629). -/
def State.finishForce (s : State) (due : BitVec 48) (n : Nat) : State :=
  if due.getLsbD n then
    let t : State := { s with kettle := { s.kettle with forceDue := s.kettle.forceDue &&& ~~~(BitVec.ofNat 48 (2 ^ n)) } }
    (t.txFlush n).clearOverload n 255
  else s

/-- The bays of a group are in use again. -/
def State.resumeBays (s : State) (d : Nat) : State :=
  let t := (List.range 12).foldl (fun (t : State) i => t.finishForce s.kettle.forceDue (12 * d + i)) (s.resumeOutputs d)
  (t.usedPins.filter (fun g => groupOfPin g = d)).foldl State.applyPin t

theorem ungateDomain_eq {s : State} {d : Nat} (lost : Bool) (h : s.bitOn R.PWR_STATUS_gated d = true) : s.ungateDomain d lost =
    if d < 4 then ((s.powerDomain d lost).wrBit R.PWR_STATUS_gated d false).resumeBays d
    else ((s.powerDomain d lost).wrBit R.PWR_STATUS_gated d false).resumeQuad (d - 4) := by
  unfold State.ungateDomain
  rw [if_neg (by rw [h]; decide)]
  rfl

theorem ungateDomain_off {s : State} {d : Nat} (lost : Bool) (h : s.bitOn R.PWR_STATUS_gated d = false) : s.ungateDomain d lost = s := by
  unfold State.ungateDomain
  rw [if_pos (by rw [h]; decide)]

namespace Dozes

theorem powerDomain {d : Nat} (hd : d < 8) (s : State) (lost : Bool) : Dozes s (s.powerDomain d lost) := by
  have hpower : Dozes s { s with power := { s.power with gating := s.power.gating &&& ~~~(BitVec.ofNat 8 (2 ^ d)) } } := quiet rfl rfl
  unfold State.powerDomain
  dsimp only
  split
  · exact hpower.trans (switchOnBank hd _ lost)
  · exact hpower

theorem resumeOutputs (s : State) (d : Nat) : Dozes s (s.resumeOutputs d) :=
  foldl (f := fun (t : State) p => t.setOutp p { t.outp p with downSince := none, holdEnded := false }) (fun _ _ _ => quiet rfl rfl) s

theorem finishForce (s : State) (due : BitVec 48) (n : Nat) : Dozes s (s.finishForce due n) := by
  unfold State.finishForce
  split
  · refine (Dozes.trans ?_ (txFlush _ n)).trans (clearOverload _ n 255)
    exact quiet rfl rfl
  · exact refl s

theorem resumeBays (s : State) (d : Nat) : Dozes s (s.resumeBays d) :=
  ((resumeOutputs s d).trans (foldl (fun t _ _ => finishForce t _ _) _)).trans (foldl (fun t g _ => applyPin t g) _)

end Dozes

theorem ungateDomain_dozing {d : Nat} (hd : d < 8) (s : State) (lost : Bool) : (s.ungateDomain d lost).dozing = s.dozing := by
  rcases hgated : s.bitOn R.PWR_STATUS_gated d with _ | _
  · rw [ungateDomain_off lost hgated]
  · have hpower : (s.powerDomain d lost).dozing = s.dozing := (Dozes.powerDomain hd s lost).dozing
    rw [ungateDomain_eq lost hgated]
    split
    · exact (Dozes.resumeBays _ d).dozing.trans hpower
    · exact (Dozes.resumeQuad _ _).dozing.trans hpower

theorem ungateDomain_gated {d e : Nat} (hd : d < 8) (he : e < 8) (s : State) (lost : Bool) :
    (s.ungateDomain d lost).bitOn R.PWR_STATUS_gated e = if e = d then false else s.bitOn R.PWR_STATUS_gated e := by
  rcases hgated : s.bitOn R.PWR_STATUS_gated d with _ | _
  · rw [ungateDomain_off lost hgated]
    split
    · next h => rw [h, hgated]
    · rfl
  · have hpower : (s.powerDomain d lost).bitOn R.PWR_STATUS_gated e = s.bitOn R.PWR_STATUS_gated e :=
      congrArg (bitAt · e) (Dozes.powerDomain hd s lost).gated
    rw [ungateDomain_eq lost hgated, ← hpower, ← bitOn_wrBit _ R.PWR_STATUS_gated d false (by decide) he]
    split
    · exact congrArg (bitAt · e) (Dozes.resumeBays _ d).gated
    · exact congrArg (bitAt · e) (Dozes.resumeQuad _ _).gated

/-- The state in which every domain has power and is in use again (R600). -/
def State.ungateAll (s : State) (lost : Nat) : State :=
  (List.range 8).foldl (fun (t : State) d => t.ungateDomain d (bitAt lost (6 + d))) s

theorem ungateAll_dozing (s : State) (lost : Nat) : (s.ungateAll lost).dozing = s.dozing :=
  foldl_keeps State.dozing _ _ (fun t _ hd => ungateDomain_dozing (List.mem_range.mp hd) t _) s

/-- After a list of domains is ungated, what was gated outside it is gated still, and nothing of it is. -/
theorem ungated_of_mem (ds : List Nat) (hds : ∀ d ∈ ds, d < 8) (lost : Nat) (s : State) {e : Nat} (he : e < 8)
    (h : e ∈ ds ∨ s.bitOn R.PWR_STATUS_gated e = false) :
    (ds.foldl (fun (t : State) d => t.ungateDomain d (bitAt lost (6 + d))) s).bitOn R.PWR_STATUS_gated e = false := by
  induction ds generalizing s with
  | nil => exact h.resolve_left List.not_mem_nil
  | cons d ds ih =>
    refine ih (fun x hx => hds x (List.mem_cons_of_mem d hx)) (s.ungateDomain d (bitAt lost (6 + d))) ?_
    rw [ungateDomain_gated (hds d List.mem_cons_self) he]
    rcases h with h | h
    · rcases List.mem_cons.mp h with rfl | h
      · exact .inr (if_pos rfl)
      · exact .inl h
    · exact .inr (by rw [h]; exact ite_self false)

theorem ungateAll_gated (s : State) (lost : Nat) {e : Nat} (he : e < 8) : (s.ungateAll lost).bitOn R.PWR_STATUS_gated e = false :=
  ungated_of_mem _ (fun _ h => List.mem_range.mp h) lost s he (.inl (List.mem_range.mpr he))

/-! ### The end of an exit -/

/-- The exit is over: the hub is in the mode that the exit led to, and the ring link monitor is asked. -/
def State.endExit (s : State) (x : DozeExit) : State :=
  (({ s with power := { s.power with exit := none } } : State).setMode x.mode x.row).askRing

theorem dozeExit_ready {s v : State} {lost : Nat} {x y : DozeExit} (hx : s.power.exit = some x) (hready : x.ready = true)
    (hv : v = State.intake 16 (s.ungateAll lost)) (hy : v.power.exit = some y) : s.dozeExit lost = v.endExit y := by
  unfold State.dozeExit
  rw [hx]
  dsimp only
  rw [if_neg (by rw [hready]; decide)]
  change State.endExit (State.intake 16 (s.ungateAll lost)) ((State.intake 16 (s.ungateAll lost)).power.exit.getD x) = _
  rw [← hv, hy]
  rfl

theorem endExit_entered (s : State) (x : DozeExit) : Entered s (s.endExit x) x.mode x.row ∧ Keeps s (s.endExit x) ∧
    (s.endExit x).upd = s.upd ∧ (s.endExit x).power.exit = none ∧ (s.endExit x).hub.ringDue = true ∧
    (s.endExit x).rd R.PWR_STATUS_gated = s.rd R.PWR_STATUS_gated := by
  obtain ⟨hentered, hkeeps, hupd⟩ := setMode_changes { s with power := { s.power with exit := none } } x.mode x.row
  have hexit := setMode_exit { s with power := { s.power with exit := none } } x.mode x.row
  have hgated := setMode_gated { s with power := { s.power with exit := none } } x.mode x.row
  unfold State.endExit
  generalize State.setMode _ x.mode x.row = t at hentered hkeeps hupd hexit hgated ⊢
  exact ⟨hentered, hkeeps, hupd, hexit, rfl, hgated⟩

/-- Settles O9: what the return of the domains leaves alone is what the exit reads, and the change of mode leaves them powered. -/
theorem dozeEndsWithEveryDomainPowered : Obligations.DozeEndsWithEveryDomainPowered := by
  refine ⟨fun s d hexit => ?_, fun s w lost x _ hx hready _ hw => ?_, fun s v lost x y _ hx hready hv hy _ => ?_⟩
  · refine congrArg done ?_
    rw [State.removePower, hexit]
    rfl
  · have hdozing : w.dozing = s.dozing := by rw [hw]; exact ungateAll_dozing s lost.toNat
    have hgated : ∀ d, d < 8 → w.bitOn R.PWR_STATUS_gated d = false := by
      rw [hw]
      exact fun d hd => ungateAll_gated s lost.toNat hd
    simp only [State.dozing, Prod.mk.injEq] at hdozing
    obtain ⟨hflash, hupd, hhub, hexit, hnow, hclk⟩ := hdozing
    have hwx : w.power.exit = some x := hexit.trans hx
    refine ⟨hgated, hflash, hupd, hhub, hwx, fun hraised => ?_⟩
    have hv : w = State.intake 16 (s.ungateAll lost.toNat) := by
      rw [← show w = s.ungateAll lost.toNat from hw, intake_quiet 16 w hraised]
    have hend := endExit_entered w x
    refine ⟨w.endExit x, congrArg done (dozeExit_ready hx hready hv hwx), ?_⟩
    generalize w.endExit x = u at hend ⊢
    obtain ⟨hentered, ⟨_, hflash', _, _, _, _, _, _, hnow', hclk'⟩, hupd', hnone, _, hgated'⟩ := hend
    rw [Entered, hhub, hnow] at hentered
    exact ⟨hentered, hnone, fun d hd => (congrArg (bitAt · d) hgated').trans (hgated d hd), hflash'.trans hflash, hupd'.trans hupd,
      hnow'.trans hnow, hclk'.trans hclk⟩
  · obtain ⟨hentered, ⟨_, hflash, _⟩, hupd, hnone, hdue, _⟩ := endExit_entered v y
    exact ⟨v.endExit y, congrArg done (dozeExit_ready hx hready hv hy), hentered, hnone, hdue, hflash, hupd⟩

end Sys2Proof.Machine

namespace Sys2Proof.Machine

/-! ### What a Steep empties (R234, R240, R306, R438) -/

/-- The Strainer's entries, the frames in the Caddy and the FIFOs of the bays. -/
def State.queues (s : State) : SMap StrEntry × List Stored × SMap Fifo × SMap Fifo :=
  (s.ring.strainer, s.switch.frames, s.bays.rx, s.bays.tx)

theorem queues_of {s t : State} (hstill : t.still = s.still) (hbays : t.bays = { s.bays with pins := t.bays.pins }) : t.queues = s.queues := by
  have hstrainer : t.ring.strainer = s.ring.strainer := (congrArg (·.ring.strainer) hstill :)
  have hframes : t.switch.frames = s.switch.frames := (congrArg (·.switch.frames) hstill :)
  rw [State.queues, hstrainer, hframes, hbays]
  rfl

theorem refreshPort_queues (s : State) {k : Nat} (hk : k < 32) : (s.refreshPort k).queues = s.queues :=
  queues_of (refreshPort_still s k) (Follows.refreshPort s k hk).bays

/-- The port `k` without latch, accumulator and damaged mark (R560), before its output follows. -/
def State.unmarkPort (s : State) (k : Nat) : State :=
  let t := if s.rd (R.PWP_STAT_state k) = 4 then s.wr (R.PWP_STAT_state k) 6 else s
  (t.setPort k { t.port k with acc := 0, resetDue := false }).wr (R.PWP_STAT_damaged k) 0

theorem unmarkPort_still (s : State) (k : Nat) : (s.unmarkPort k).still = s.still := by
  unfold State.unmarkPort
  dsimp only
  split <;> rfl

theorem unmarkPort_bays (s : State) (k : Nat) : (s.unmarkPort k).bays = s.bays := by
  unfold State.unmarkPort
  dsimp only
  split <;> rfl

theorem clearPortMarks_still (s : State) : s.clearPortMarks.still = s.still :=
  foldl_still (fun t k => (t.unmarkPort k).refreshPort k) (fun t k => (refreshPort_still _ k).trans (unmarkPort_still t k)) s.portList s

theorem clearPortMarks_queues (s : State) : s.clearPortMarks.queues = s.queues :=
  foldl_keeps State.queues (fun t k => (t.unmarkPort k).refreshPort k) s.portList (fun t k hk =>
    (refreshPort_queues _ (Follows.mem_portList s hk)).trans
      (queues_of (unmarkPort_still t k) (by rw [unmarkPort_bays]))) s

theorem resetRange_sansCounts (s : State) (lo hi : Nat) : (s.resetRange lo hi).sansCounts = s.sansCounts := rfl

theorem switchDefaults_sansCounts (s : State) : s.switchDefaults.sansCounts = s.sansCounts :=
  (foldl_keeps State.sansCounts _ _ (fun t p _ => by simp only [wr_sansCounts]) _).trans (by simp only [wr_sansCounts, resetRange_sansCounts])

/-- The output `p` with nothing queued. -/
def State.emptyOutput (s : State) (p : Nat) : State :=
  s.setOutp p { s.outp p with queue := [], resUsed := 0, shUsed := 0, riskSince := none }

/-- The drops that emptying the Caddy counts as HOLD (R306). -/
def State.countHolds (s : State) : State :=
  (List.range 24).foldl (fun (t : State) p =>
    let t := (s.outp p).queue.foldl (fun (u : State) _ => u.countDrop p 5) t
    if 10 ≤ p ∧ p ≤ 21 ∧ (mget none s.bays.held (p - 10)).isSome then t.countDrop p 5 else t) s

theorem countDrop_sansCounts (s : State) (p c : Nat) : (s.countDrop p c).sansCounts = s.sansCounts :=
  pmcEv_sansCounts (s.bump (R.SWC_DROP_count (16 * p + c))) 3 3 p {}

theorem countHolds_sansCounts (s : State) : s.countHolds.sansCounts = s.sansCounts :=
  foldl_keeps State.sansCounts _ _ (fun t p _ => by
    have hqueue (t : State) : ((s.outp p).queue.foldl (fun (u : State) _ => u.countDrop p 5) t).sansCounts = t.sansCounts :=
      foldl_keeps State.sansCounts (fun u _ => u.countDrop p 5) _ (fun u _ _ => countDrop_sansCounts u p 5) t
    dsimp only
    split
    · exact (countDrop_sansCounts _ p 5).trans (hqueue t)
    · exact hqueue t) s

/-- The Caddy without frames, its outputs not yet emptied. -/
def State.freeFrames (s : State) : State :=
  ({ s with
    switch := { s.switch with frames := [], leaked := [], failed := [], keys := s.switch.keys.map (fun (k : Key) =>
      if s.switch.frames.any (fun f => f.held.any (fun h => k.is h.1 f.frame)) then { k with idleSince := s.clk } else k) }
    bays := { s.bays with held := [] } } : State).wr R.CAD_RISK_at_risk 0

theorem freeFrames_anchor (s : State) : s.freeFrames.anchor = s.anchor := rfl

theorem freeFrames_queues (s : State) : s.freeFrames.queues = (s.ring.strainer, [], s.bays.rx, s.bays.tx) := rfl

theorem emptyCaddy_eq (s : State) (counted : Bool) :
    s.emptyCaddy counted = (List.range 24).foldl State.emptyOutput (if counted then s.countHolds else s).freeFrames := by
  cases counted <;> rfl

theorem emptyCaddy_anchor (s : State) (counted : Bool) : (s.emptyCaddy counted).anchor = s.anchor := by
  rw [emptyCaddy_eq]
  refine (foldl_keeps State.anchor State.emptyOutput _ (fun _ _ _ => rfl) _).trans ?_
  split
  · exact (freeFrames_anchor _).trans (anchor_of_sansCounts (countHolds_sansCounts s))
  · exact freeFrames_anchor s

/-- The Caddy is empty, and the Strainer and the FIFOs are as they were. -/
theorem emptyCaddy_queues (s : State) (counted : Bool) :
    (s.emptyCaddy counted).queues = (s.ring.strainer, [], s.bays.rx, s.bays.tx) := by
  rw [emptyCaddy_eq]
  refine (foldl_keeps State.queues State.emptyOutput _ (fun _ _ _ => rfl) _).trans ?_
  split
  · have h := countHolds_sansCounts s
    have hstrainer : s.countHolds.ring.strainer = s.ring.strainer := (congrArg (·.ring.strainer) h :)
    have hrx : s.countHolds.bays.rx = s.bays.rx := (congrArg (·.bays.rx) h :)
    have htx : s.countHolds.bays.tx = s.bays.tx := (congrArg (·.bays.tx) h :)
    rw [freeFrames_queues, hstrainer, hrx, htx]
  · exact freeFrames_queues s

/-! ### Steep (R121 step 1) -/

theorem clearEdges_still (s : State) : s.clearEdges.still = s.still :=
  foldl_still _ (fun _ _ => by rfl) _ s

theorem clearEdges_queues (s : State) : s.clearEdges.queues = s.queues :=
  foldl_keeps State.queues _ _ (fun _ _ _ => by rfl) s

theorem emptyStrainer_anchor (s : State) : s.emptyStrainer.anchor = s.anchor := rfl

theorem clearFifos_anchor (s : State) : s.clearFifos.anchor = s.anchor := rfl

/-- Everything that a Steep empties at once. -/
def State.emptyQueues (s : State) : State :=
  (s.emptyStrainer.emptyCaddy false).switchDefaults.clearFifos.clearPortMarks

theorem emptyQueues_anchor (s : State) : s.emptyQueues.anchor = s.anchor := by
  rw [State.emptyQueues, anchor_of_still (clearPortMarks_still _), clearFifos_anchor, anchor_of_sansCounts (switchDefaults_sansCounts _),
    emptyCaddy_anchor, emptyStrainer_anchor]

theorem clearFifos_queues {s : State} {strainer : SMap StrEntry} {frames : List Stored} {rx tx : SMap Fifo}
    (h : s.queues = (strainer, frames, rx, tx)) : s.clearFifos.queues = (strainer, frames, [], []) := by
  simp only [State.queues, Prod.mk.injEq] at h
  obtain ⟨rfl, rfl, _⟩ := h
  rfl

theorem queues_of_sansCounts {s t : State} (h : t.sansCounts = s.sansCounts) : t.queues = s.queues := (congrArg State.queues h :)

theorem emptyQueues_queues (s : State) : s.emptyQueues.queues = ([], [], [], []) := by
  rw [State.emptyQueues, clearPortMarks_queues]
  refine clearFifos_queues (rx := s.bays.rx) (tx := s.bays.tx) ?_
  rw [queues_of_sansCounts (switchDefaults_sansCounts _), emptyCaddy_queues]
  rfl

theorem clearSelfFault_anchor (s : State) : s.clearSelfFault.anchor = s.anchor := rfl

theorem clearSelfFault_queues (s : State) : s.clearSelfFault.queues = s.queues := rfl

/-- What a Steep leaves of the hub, of what `Keeps` speaks of and of the records is what the change of mode leaves, with its source. -/
theorem startSteep_anchor (s : State) (src row : Nat) : (s.startSteep src row).anchor =
    ({ s.endVerification.setMode .steep row with
      hub := { (s.endVerification.setMode .steep row).hub with steepSrc := src, steepAt := (s.endVerification.setMode .steep row).clk } } :
      State).anchor := by
  unfold State.startSteep
  generalize s.endVerification.setMode .steep row = t
  extract_lets t₁ hub t₂ t₂' t₃ t₄ ring switch time kettle t₅
  have h₃ : t₃.anchor = t₂'.anchor := foldl_keeps State.anchor _ _ (fun _ _ _ => by rfl) _
  have h₄ : t₄.anchor = t₃.anchor := (clearSelfFault_anchor t₃.emptyQueues).trans (emptyQueues_anchor t₃)
  clear_value t₄
  have h₅ : t₅.anchor = t₄.anchor := rfl
  exact (anchor_of_still (clearEdges_still t₅)).trans (h₅.trans (h₄.trans h₃))

theorem startSteep_queues (s : State) (src row : Nat) : (s.startSteep src row).queues = ([], [], [], []) := by
  unfold State.startSteep
  extract_lets t₁ hub t₂ t₂' t₃ t₄ ring switch time kettle t₅
  have h₄ : t₄.queues = ([], [], [], []) := (clearSelfFault_queues t₃.emptyQueues).trans (emptyQueues_queues t₃)
  clear_value t₄
  exact (clearEdges_queues t₅).trans h₄

end Sys2Proof.Machine

namespace Sys2Proof.Machine

/-! ### Requests from Safe and Quarantine -/

/-- What a Steep leaves: the change of mode, its source, the pending seal and epoch as they were, and nothing queued. -/
theorem startSteep_entered (s : State) (src row : Nat) : Entered s (s.startSteep src row) .steep row ∧ Keeps s (s.startSteep src row) ∧
    (s.startSteep src row).upd = s.upd ∧ (s.startSteep src row).hub.steepSrc = src ∧
    (s.startSteep src row).hub.pendSeal = s.hub.pendSeal ∧ (s.startSteep src row).hub.pendEpoch = s.hub.pendEpoch ∧
    (s.startSteep src row).ring.strainer = [] ∧ (s.startSteep src row).switch.frames = [] ∧
    (s.startSteep src row).bays.rx = [] ∧ (s.startSteep src row).bays.tx = [] := by
  have hanchor := startSteep_anchor s src row
  have hqueues := startSteep_queues s src row
  have hv := endVerification_still s
  have hentered := entered_endVerification (setMode_entered s.endVerification .steep row)
  have hkeeps := (keeps_of_still hv).trans (setMode_keeps s.endVerification .steep row)
  have hupd := (setMode_upd s.endVerification .steep row).trans (congrArg State.upd hv :)
  have hhub := setMode_hub s.endVerification .steep row
  have hhubv : s.endVerification.hub = s.hub := (congrArg State.hub hv :)
  have hseal : (s.endVerification.setMode .steep row).hub.pendSeal = s.hub.pendSeal := by rw [hhub, hhubv]
  have hepoch : (s.endVerification.setMode .steep row).hub.pendEpoch = s.hub.pendEpoch := by rw [hhub, hhubv]
  clear hhub
  generalize s.endVerification.setMode .steep row = t at *
  generalize s.startSteep src row = u at *
  have hu := hub_of_anchor hanchor
  have hlasting : u.lasting = t.lasting := (congrArg State.lasting hanchor :)
  simp only [State.queues, Prod.mk.injEq] at hqueues
  exact ⟨by rw [Entered, hu]; exact hentered, hkeeps.trans (keeps_of_lasting hlasting), (upd_of_anchor hanchor).trans hupd, by rw [hu],
    by rw [hu]; exact hseal, by rw [hu]; exact hepoch, hqueues⟩

theorem requestTest_safe {s : State} (r : ModeReq) (h : s.hub.mode = .safe) : s.requestTest r = s.modeRequest r 11 (some (s.enterTest 31)) := by
  unfold State.requestTest
  rw [h]

/-- A Steep request from Safe or Quarantine names its source by STP_LOAD_CTRL (R120). -/
theorem requestSteep_safe {s : State} (r : ModeReq) (h : s.hub.mode = .safe ∨ s.hub.mode = .quarantine) :
    (s.on R.STP_LOAD_CTRL_source = false →
      s.requestSteep r = s.modeRequest r 1 (some (s.discardPending.startSteep (bit01 s.upd.running) 29))) ∧
    (s.on R.STP_LOAD_CTRL_source = true → s.rd R.STP_LOAD_STATUS_state = 3 →
      s.requestSteep r = s.modeRequest r 1 (some (s.discardPending.startSteep 2 29))) := by
  unfold State.requestSteep
  refine ⟨fun hsource => ?_, fun hsource hstate => ?_⟩ <;> rcases h with h | h <;> rw [h] <;> simp [*]

theorem requestUpdate_safe {s : State} (r : ModeReq) (h : s.hub.mode = .safe ∨ s.hub.mode = .quarantine) (hstate : s.updState = 4)
    (hepoch : s.storedEpoch ≤ s.slotEpoch (!s.upd.running)) :
    s.requestUpdate r = s.modeRequest r 9 (some (s.discardPending.setMode .update 30)) := by
  unfold State.requestUpdate
  rcases h with h | h <;> rw [h] <;> simp only [hstate, hepoch, and_self, if_true]

theorem requestHibernate_granted {s : State} (r : ModeReq) (h : s.hub.mode = .safe ∨ s.hub.mode = .run) (hfree : s.hibernateRefuser = none) :
    s.requestHibernate r = s.modeRequest r 8 (some s.enterHibernate) := by
  unfold State.requestHibernate
  rw [hfree]
  rcases h with h | h <;> rw [h]

theorem requestBoot_abandoned {s : State} (r : ModeReq) (h : s.hub.mode = .safe ∨ s.hub.mode = .quarantine) (habandoned : s.upd.abandoned = true) :
    s.requestBoot r = s.modeRequest r 0 (some (s.enterBoot 4)) := by
  unfold State.requestBoot
  rcases h with h | h <;> rw [h] <;> simp only [habandoned, if_true]

/-! ### Hibernate -/

theorem enterHoldover_anchor (s : State) (loss : Bool) : (s.enterHoldover loss).anchor = s.anchor := by
  cases loss <;> rfl

theorem enterHoldover_frames (s : State) (loss : Bool) : (s.enterHoldover loss).switch.frames = s.switch.frames := by
  cases loss <;> rfl

/-- The servo holds over where it has followed SYNC frames (R379). -/
def State.holdServo (s : State) : State := if 1 ≤ s.time.servo ∧ s.time.servo ≤ 3 then s.enterHoldover false else s

theorem holdServo_anchor (s : State) : s.holdServo.anchor = s.anchor := by
  unfold State.holdServo
  split
  · exact enterHoldover_anchor s false
  · rfl

theorem holdServo_frames (s : State) : s.holdServo.switch.frames = s.switch.frames := by
  unfold State.holdServo
  split
  · exact enterHoldover_frames s false
  · rfl

/-- The entry to Hibernate has begun, and a wake will lead to `target` at `mv` (R603). -/
def State.beginSleep (s : State) (target : Mode) (mv : Nat) : State :=
  { s with power := { s.power with hib := some ⟨.entering, false, target, mv, 0, s.clk⟩ } }

theorem enterHibernate_eq (s : State) : s.enterHibernate = ((s.setMode .hibernate 23).emptyCaddy true).holdServo.beginSleep
    (if s.hub.mode = .safe ∨ s.rd R.PWR_WAKE_CFG_target ≠ 3 then .safe else .run) s.coreMv := by
  unfold State.enterHibernate
  generalize (s.setMode .hibernate 23).emptyCaddy true = t
  rfl

theorem enterHibernate_entered (s : State) : Entered s s.enterHibernate .hibernate 23 ∧ s.enterHibernate.switch.frames = [] ∧
    s.enterHibernate.power.hib = some ⟨.entering, false,
      (if s.hub.mode = .safe ∨ s.rd R.PWR_WAKE_CFG_target ≠ 3 then .safe else .run), s.coreMv, 0, s.clk⟩ ∧ Keeps s s.enterHibernate := by
  have hanchor := (holdServo_anchor _).trans (emptyCaddy_anchor (s.setMode .hibernate 23) true)
  have hframes := (holdServo_frames _).trans (congrArg (·.2.1) (emptyCaddy_queues (s.setMode .hibernate 23) true))
  obtain ⟨hentered, hkeeps, _⟩ := entered_setMode hanchor
  rw [enterHibernate_eq]
  generalize ((s.setMode .hibernate 23).emptyCaddy true).holdServo = t at hframes hentered hkeeps ⊢
  obtain ⟨_, _, _, _, _, _, _, _, _, hclk⟩ := id hkeeps
  refine ⟨hentered, hframes, ?_, hkeeps⟩
  rw [← hclk]
  rfl

/-! ### The statement -/

theorem entered_discardPending {s u : State} {m : Mode} {row : Nat} (h : Entered s.discardPending u m row) : Entered s u m row := h

theorem keeps_discardPending {s u : State} (h : Keeps s.discardPending u) : Keeps s u := h

/-- Settles O5: each request is one of the changes of mode above, with the pending seal and epoch discarded where R155 says so. -/
theorem requestsFromSafeFollowTheTable : Obligations.RequestsFromSafeFollowTheTable := by
  refine ⟨fun s r hr hmode => ?_, fun s r hr hmode hsource => ?_, fun s r hr hmode hsource hstate => ?_, fun s r hr hmode hstate hepoch => ?_,
    fun s r hr hmode hmigration hself _ _ => ?_, fun s r hr hmode hfree => ?_, fun s r hr hmode habandoned => ?_⟩
  · obtain ⟨hentered, hkeeps, hupd, _⟩ := enterTest_entered s 31
    exact writes_modeRequest 11 rfl (requestTest_safe r hmode) hr ⟨hentered, hkeeps, hupd⟩
  · obtain ⟨hentered, hkeeps, _, hsrc, hseal, hepoch, hstrainer, hframes, hrx, htx⟩ :=
      startSteep_entered s.discardPending (bit01 s.upd.running) 29
    exact writes_modeRequest 1 rfl ((requestSteep_safe r hmode).1 hsource) hr
      ⟨entered_discardPending hentered, hsrc, hseal, hepoch, hstrainer, hframes, hrx, htx, keeps_discardPending hkeeps⟩
  · obtain ⟨hentered, hkeeps, _, hsrc, _⟩ := startSteep_entered s.discardPending 2 29
    exact writes_modeRequest 1 rfl ((requestSteep_safe r hmode).2 hsource hstate) hr
      ⟨entered_discardPending hentered, hsrc, keeps_discardPending hkeeps⟩
  · obtain ⟨hentered, hkeeps, hupd⟩ := setMode_changes s.discardPending .update 30
    have hhub := setMode_hub s.discardPending .update 30
    exact writes_modeRequest 9 rfl (requestUpdate_safe r hmode hstate hepoch) hr
      ⟨entered_discardPending hentered, by rw [hhub]; rfl, by rw [hhub]; rfl, keeps_discardPending hkeeps, hupd⟩
  · have hdirect : s.hub.mode ≠ .doze := by rw [hmode]; decide
    refine writes_modeRequest 3 rfl ((requestRun_granted r hmigration hself).2.2 ((arbMode_direct hdirect).trans hmode)) hr ?_
    rw [changeMode_direct hdirect, changeMode_direct hdirect]
    split
    · exact entered_setMode (askRing_anchor _)
    · exact entered_setMode (askRing_anchor _)
  · exact writes_modeRequest 8 rfl (requestHibernate_granted r hmode hfree) hr (enterHibernate_entered s)
  · exact writes_modeRequest 0 rfl (requestBoot_abandoned r hmode habandoned) hr (enterBoot_entered s 4)

end Sys2Proof.Machine

namespace Sys2Proof.Machine

/-! ### What the Kettle's reactions spare -/

/-- What no reaction of the Kettle touches: the count of times that had passed (TIM_CNT[7]) and the cyclic unit. -/
def State.spared (s : State) : Word × Cyc := (s.word (R.TIM_CNT 7), s.cyc)

/-- A register that is not one of the counters of the time unit. -/
abbrev clearOfTime (a : Nat) : Prop := a < 0x40100 ∨ 0x40140 ≤ a

theorem clearOfTime_ne {a : Nat} (h : clearOfTime a) : R.TIM_CNT 7 ≠ a := by
  unfold R.TIM_CNT
  omega

theorem spared_ext {s t : State} (hword : t.word (R.TIM_CNT 7) = s.word (R.TIM_CNT 7)) (hcyc : t.cyc = s.cyc) : t.spared = s.spared :=
  Prod.ext hword hcyc

theorem wr_spared (s : State) (f : Fld) (v : Nat) (hf : clearOfTime f.addr) : (s.wr f v).spared = s.spared :=
  spared_ext (word_wr_ne s f v (clearOfTime_ne hf)) rfl

theorem setWord_spared (s : State) (a : Nat) (w : Word) (ha : clearOfTime a) : (s.setWord a w).spared = s.spared :=
  spared_ext (word_setWord_ne s w (clearOfTime_ne ha)) rfl

theorem bumpBy_spared (s : State) (f : Fld) (n : Nat) (hf : clearOfTime f.addr) : (s.bumpBy f n).spared = s.spared :=
  wr_spared s f _ hf

theorem bump_spared (s : State) (f : Fld) (hf : clearOfTime f.addr) : (s.bump f).spared = s.spared := wr_spared s f _ hf

theorem wrBit_spared (s : State) (f : Fld) (i : Nat) (b : Bool) (hf : clearOfTime f.addr) : (s.wrBit f i b).spared = s.spared :=
  wr_spared s f _ hf

@[simp] theorem pmcBy_spared (s : State) (cls ev x n : Nat) (a : Attrs) : (s.pmcBy cls ev x n a).spared = s.spared :=
  spared_ext (pmcBy_word s cls ev x n a (by unfold pmcBlock; decide)) (congrArg State.cyc (pmcBy_sansCounts s cls ev x n a) :)

@[simp] theorem pmcEv_spared (s : State) (cls ev x : Nat) (a : Attrs) : (s.pmcEv cls ev x a).spared = s.spared :=
  pmcBy_spared s cls ev x 1 a

/-- What follows a change of mode spares them. -/
theorem Follows.spared {s t : State} (h : Follows s t) (k : t.still = s.still) : t.spared = s.spared :=
  spared_ext (h.word _ (by unfold steadyWord; decide)) (congrArg State.cyc k :)

@[simp] theorem raise_spared (s : State) (src data : Nat) : (s.raise src data).spared = s.spared := rfl

@[simp] theorem setMode_spared (s : State) (m : Mode) (row : Nat) : (s.setMode m row).spared = s.spared :=
  spared_ext (setMode_word s m row (by unfold steadyWord; decide)) (setMode_proj State.cyc (fun _ => rfl) (fun _ _ => rfl) s m row)

theorem spared_ite {c : Prop} [Decidable c] {t u : State} {x : Word × Cyc} (ht : t.spared = x) (hu : u.spared = x) :
    (if c then t else u).spared = x := by
  split
  · exact ht
  · exact hu

/-! #### The switch -/

@[simp] theorem setOutp_spared (s : State) (p : Nat) (o : Outp) : (s.setOutp p o).spared = s.spared := rfl

@[simp] theorem setStored_spared (s : State) (f : Stored) : (s.setStored f).spared = s.spared := rfl

theorem countDrop_spared (s : State) {p c : Nat} (hp : p < 24) (hc : c < 16) : (s.countDrop p c).spared = s.spared :=
  (pmcEv_spared _ _ _ _ _).trans (bump_spared s _ (by simp only [clearOfTime, R.SWC_DROP_count, R.SWC_DROP]; omega))

/-- The counters of frames that reach a HIT are those of the program's 6-bit field. -/
theorem sieveRun_hits (prog : Nat → Word) (f : Frame) (metadata n pc acc : Nat) (v : Verdict) (hv : ∀ h ∈ v.hits, h < 64) :
    ∀ h ∈ (sieveRun prog f metadata n pc acc v).hits, h < 64 := by
  induction n generalizing pc acc v with
  | zero => exact hv
  | succ n ih =>
    unfold sieveRun
    dsimp only
    split
    case h_1 | h_2 | h_3 | h_4 | h_5 | h_6 | h_7 | h_9 => exact ih _ _ _ hv
    case h_8 =>
      refine ih _ _ _ fun h hh => ?_
      split at hh
      · rcases List.mem_append.mp hh with hold | hnew
        · exact hv h hold
        · rw [List.mem_singleton.mp hnew]
          exact Nat.mod_lt _ (by decide)
      · exact hv h hh
    case h_10 => exact ih _ _ _ (by split <;> exact hv)
    case h_11 | h_12 | h_13 => exact hv

theorem sieve_hits (s : State) (i : Nat) (f : Frame) (metadata : Nat) : ∀ h ∈ (s.sieve i f metadata).hits, h < 64 := by
  have hnone : ∀ h ∈ ({} : Verdict).hits, h < 64 := by simp
  unfold State.sieve
  split
  · exact hnone
  · exact sieveRun_hits _ _ _ _ _ _ _ hnone

theorem recordVerdict_spared (s : State) (i : Nat) (v : Verdict) (hv : ∀ h ∈ v.hits, h < 64) : (s.recordVerdict i v).spared = s.spared := by
  have hhits : (v.hits.foldl (fun t h => t.bump (R.SIV_HIT_count h)) s).spared = s.spared :=
    foldl_keeps State.spared (fun t h => t.bump (R.SIV_HIT_count h)) _ (fun t h hh => bump_spared t _
      (by have := hv h hh; simp only [clearOfTime, R.SIV_HIT_count, R.SIV_HIT]; omega)) s
  unfold State.recordVerdict
  dsimp only
  split
  · exact hhits
  · exact (wr_spared _ _ _ (by decide)).trans ((wr_spared _ _ _ (by decide)).trans hhits)
  · exact (raise_spared _ _ _).trans ((wr_spared _ _ _ (by decide)).trans ((wr_spared _ _ _ (by decide)).trans
      ((wr_spared _ _ _ (by decide)).trans ((bump_spared _ _ (by decide)).trans hhits))))

theorem route_spared (s : State) (f : Frame) {i : Nat} (out del : List Nat) (w : Way) (hi : i < 24) :
    (s.route f i out del w).1.spared = s.spared := by
  unfold State.route
  extract_lets v t
  have ht : t.spared = s.spared := recordVerdict_spared s i v (sieve_hits _ _ _ _)
  have hdrop (c : Nat) (hc : c < 16) : (t.countDrop i c).spared = s.spared := (countDrop_spared t hi hc).trans ht
  split
  · exact hdrop 1 (by decide)
  · exact hdrop 2 (by decide)
  · next u _ _ _ _ _ _ _ _ _ _ =>
    have hu : u.spared = s.spared := spared_ite (hdrop 0 (by decide)) ht
    exact spared_ite ((countDrop_spared u (p := 23) (c := 9) (by decide) (by decide)).trans hu) hu

theorem checkRisk_spared (s : State) (p : Nat) : (s.checkRisk p).spared = s.spared := by
  unfold State.checkRisk
  split
  · exact wrBit_spared s _ _ _ (by decide)
  · rfl

@[simp] theorem checkRisks_spared (s : State) : s.checkRisks.spared = s.spared := by
  unfold State.checkRisks
  split
  · rfl
  · exact foldl_keeps State.spared State.checkRisk _ (fun t p _ => checkRisk_spared t p) s

theorem charge_spared (s : State) {p : Nat} (n : Nat) (reserve : Bool) (hp : p < 24) : (s.charge p n reserve).spared = s.spared := by
  have hpeak : clearOfTime (R.CAD_USED_peak p).addr := by
    simp only [clearOfTime, R.CAD_USED_peak, R.CAD_USED]
    omega
  unfold State.charge
  extract_lets o o' t u
  exact spared_ite (wr_spared t _ _ hpeak) rfl

theorem portPresent_lt {s : State} {p : Nat} (h : s.portPresent p = true) : p < 24 := by
  unfold State.portPresent at h
  simp only [Bool.and_eq_true, decide_eq_true_eq] at h
  exact h.1.1

theorem admitAt_spared (s : State) (free : Nat) (f : Stored) (p : Nat) : (s.admitAt free f p).1.spared = s.spared := by
  unfold State.admitAt
  split
  · rfl
  next hpresent =>
  have hp : p < 24 := portPresent_lt (by simpa using hpresent)
  have hdrop (c : Nat) (hc : c < 16) : (s.countDrop p c).spared = s.spared := countDrop_spared s hp hc
  split
  · exact hdrop 5 (by decide)
  split
  · exact hdrop 3 (by decide)
  extract_lets cls
  split
  · exact charge_spared s _ _ hp
  split
  · exact countDrop_spared s (by decide) (by decide)
  split
  · exact (raise_spared _ _ _).trans ((setOutp_spared _ _ _).trans ((wrBit_spared _ _ _ _ (by decide)).trans (hdrop 3 (by decide))))
  · exact hdrop 3 (by decide)

@[simp] theorem endHold_spared (s : State) (p : Nat) (f : Stored) : (s.endHold p f).spared = s.spared := by
  unfold State.endHold
  dsimp only
  split <;> rfl

@[simp] theorem reseqRelease_spared (s : State) (k : Key) (f : Stored) : (s.reseqRelease k f).spared = s.spared := by
  unfold State.reseqRelease
  extract_lets heldOnes lower order left ahead t u
  exact (pmcBy_spared _ _ _ _ _ _).trans ((bumpBy_spared t _ _ (by decide)).trans
    (foldl_keeps State.spared (fun t g => t.endHold k.out g) order (fun t g _ => endHold_spared t _ g) s))

@[simp] theorem holdFrame_spared (s : State) (p : Nat) (f : Stored) : (s.holdFrame p f).spared = s.spared := by
  unfold State.holdFrame
  dsimp only
  rw [setStored_spared]
  split
  · split
    · rfl
    · split
      · rfl
      · exact (bump_spared _ _ (by decide)).trans (reseqRelease_spared s _ _)
  · rfl

@[simp] theorem reseqJoin_spared (s : State) (p id : Nat) : (s.reseqJoin p id).spared = s.spared := by
  unfold State.reseqJoin
  split
  · rfl
  · dsimp only
    split
    · split
      · exact bump_spared _ _ (by decide)
      · exact holdFrame_spared _ _ _
    · split
      · split
        · exact bump_spared _ _ (by decide)
        · exact holdFrame_spared _ _ _
      · exact holdFrame_spared _ _ _

@[simp] theorem noteLow_spared (s : State) : s.noteLow.spared = s.spared := by
  unfold State.noteLow
  split
  · exact wr_spared _ _ _ (by decide)
  · rfl

@[simp] theorem writeLeaves_spared (s : State) (leaves : List Nat) (f : Frame) : (s.writeLeaves leaves f).spared = s.spared := rfl

/-- A frame admitted or turned away at each of its outputs. -/
theorem enqueue_spared (s : State) (f : Stored) (outs : List Nat) (marked : Bool) : (s.enqueue f outs marked).1.spared = s.spared := by
  unfold State.enqueue
  extract_lets f₀ free
  split
  next t g hfold =>
  have ht : t.spared = s.spared := by
    have hall : (t, g).1.spared = s.spared := by
      rw [← hfold]
      refine List.foldlRecOn (motive := fun acc : State × Stored => acc.1.spared = s.spared) _ _ rfl fun acc hacc p _ => ?_
      have hadmit := (admitAt_spared acc.1 free acc.2 p).trans hacc
      split
      next t ok heq =>
      rw [heq] at hadmit
      split <;> exact hadmit
    exact hall
  split
  · exact ht
  · extract_lets n g' u v w x y
    have hw : w.spared = s.spared := (checkRisks_spared _).trans ((writeLeaves_spared v _ _).trans ht)
    have hx : x.spared = s.spared :=
      (foldl_keeps State.spared _ g'.outs (by exact fun t p _ => (pmcEv_spared _ _ _ _ _).trans (setOutp_spared t _ _)) w).trans hw
    have hy : y.spared = s.spared := (noteLow_spared x).trans hx
    exact spared_ite ((foldl_keeps State.spared (fun t p => t.reseqJoin p g'.id) _ (fun t p _ => reseqJoin_spared t p _) y).trans hy) hy

@[simp] theorem takeSeq_spared (s : State) (sub : Bool) : (s.takeSeq sub).2.2.spared = s.spared := by
  unfold State.takeSeq
  dsimp only
  split <;> rfl

/-- A frame of the hub's own from one of its units. -/
theorem originate_spared (s : State) (o : Origin) (f : Frame) (ho : o.unit < 24) : (s.originate o f).1.spared = s.spared := by
  unfold State.originate
  split
  · rfl
  · extract_lets cls f₁ sub ringP f₂
    split
    next seq at0 t hseq =>
    have ht : t.spared = s.spared := by
      have hlast {x : Nat × Nat × State} (hx : x = (seq, at0, t)) (hkept : x.2.2.spared = s.spared) : t.spared = s.spared :=
        (congrArg (fun x : Nat × Nat × State => x.2.2.spared) hx).symm.trans hkept
      split at hseq
      · exact hlast hseq (takeSeq_spared s sub)
      · split at hseq <;> exact hlast hseq rfl
    extract_lets f₃ out del
    have hroute := (route_spared t f₃ out del { wants := f₃.dst == 0 } ho).trans ht
    split
    next u hr =>
      rw [hr] at hroute
      exact hroute
    next u r hr =>
      rw [hr] at hroute
      exact (foldl_keeps State.spared (fun t p => if p < 4 then t.pmcEv 2 2 p else t) _
        (fun t p _ => spared_ite (pmcEv_spared t _ _ _ _) rfl) _).trans ((enqueue_spared u _ _ _).trans hroute)

theorem notice_spared (s : State) {unit m : Nat} (b : NoticeBody) (hunit : unit < 24) (hm : m < 4) :
    (s.notice unit m b).spared = s.spared := by
  unfold State.notice
  extract_lets k
  split
  · refine (pmcEv_spared _ _ _ _ _).trans (bump_spared _ _ ?_)
    simp only [clearOfTime, R.TOP_MASTER_notice_drop, R.TOP_MASTER]
    omega
  · exact (pmcEv_spared _ _ _ _ _).trans ((originate_spared _ _ _ hunit).trans (wr_spared _ _ _ (by decide)))

theorem notices_spared (s : State) {unit : Nat} (mask : Nat) (b : NoticeBody) (hunit : unit < 24) :
    (s.notices unit mask b).spared = s.spared :=
  foldl_keeps State.spared (fun t m => if bitAt mask m then t.notice unit m b else t) (List.range 4)
    (fun t _ hm => spared_ite (notice_spared t b hunit (List.mem_range.mp hm)) rfl) s

/-! #### Changes of mode -/

theorem vsiRequest_spared (s : State) (q : VsiReq) : (s.vsiRequest q).spared = s.spared := (Follows.vsiRequest s q).spared (vsiRequest_still s q)

theorem noteRefuser_spared (s : State) (i code element : Nat) (aborted : Bool) : (s.noteRefuser i code element aborted).spared = s.spared := by
  have haddr : clearOfTime (R.PWR_REFUSE i) := by
    simp only [clearOfTime, R.PWR_REFUSE]
    omega
  unfold State.noteRefuser
  exact (wr_spared _ _ _ haddr).trans ((wr_spared _ _ _ haddr).trans (spared_ite (bump_spared s _ haddr) (bump_spared s _ haddr)))

theorem leaveDoze_spared (s : State) (m : Mode) (row : Nat) : (s.leaveDoze m row).spared = s.spared := by
  unfold State.leaveDoze
  split
  next x _ =>
    exact foldl_keeps State.spared (fun t d => if x.aborted.getLsbD d then t.wr (R.PWR_REFUSE_element d) row else t) (List.range 8)
      (fun t d _ => spared_ite (wr_spared t _ _ (by simp only [clearOfTime, R.PWR_REFUSE_element, R.PWR_REFUSE]; omega)) rfl) s
  · extract_lets t floor ready u
    have ht : t.spared = s.spared :=
      foldl_keeps State.spared (fun t d => if s.power.gating.getLsbD d then t.noteRefuser d 0x11 row true else t) (List.range 8)
        (fun t d _ => spared_ite (noteRefuser_spared t _ _ _ _) rfl) s
    exact spared_ite (t := t) ht ((vsiRequest_spared t _).trans ht)

theorem changeMode_spared (s : State) (m : Mode) (row : Nat) : (s.changeMode m row).spared = s.spared :=
  spared_ite (leaveDoze_spared s m row) (setMode_spared s m row)

theorem kettleSafe_spared (s : State) (row : Nat) : (s.kettleSafe row).1.spared = s.spared := by
  have hchange := changeMode_spared s .safe row
  unfold State.kettleSafe
  split
  · exact hchange
  · exact hchange
  · exact hchange
  · exact hchange
  · exact hchange
  · split
    · rfl
    · exact hchange
  all_goals rfl

/-! #### Links -/

theorem refreshClock_spared (s : State) : s.refreshClock.spared = s.spared := by
  unfold State.refreshClock
  extract_lets c time was t u
  have hu : u.spared = s.spared := (wr_spared _ _ _ (by decide)).trans (wr_spared t _ _ (by decide))
  split
  · rfl
  split
  · exact (wr_spared _ _ _ (by decide)).trans (wr_spared t _ _ (by decide))
  split
  · exact spared_ite (wr_spared s _ _ (by decide)) rfl
  split
  · exact wr_spared t _ _ (by decide)
  · exact spared_ite hu ((raise_spared u _ _).trans hu)

theorem cutFrame_spared (s : State) {p : Nat} (hp : p < 24) : (s.cutFrame p).spared = s.spared := by
  unfold State.cutFrame
  extract_lets o online t
  exact spared_ite (t := t.countDrop p 6) (countDrop_spared t hp (by decide)) (rfl : t.spared = s.spared)

theorem noteRing_spared (s : State) (p : Nat) : (s.noteRing p).spared = s.spared := spared_ite rfl rfl

theorem linkDown_spared (s : State) {p : Nat} (hp : p < 4) : (s.linkDown p).spared = s.spared := by
  have hport : clearOfTime (R.RING_PORT p) := by
    simp only [clearOfTime, R.RING_PORT]
    omega
  unfold State.linkDown
  split
  · rfl
  · extract_lets t link u
    have ht : t.spared = s.spared := (cutFrame_spared _ (Nat.lt_trans hp (by decide))).trans ((raise_spared _ _ _).trans
      ((bump_spared _ _ hport).trans (wr_spared s _ _ hport)))
    exact (refreshClock_spared _).trans ((noteRing_spared u p).trans ht)

theorem ringOrMastersLost_spared (s : State) : s.ringOrMastersLost.spared = s.spared := by
  unfold State.ringOrMastersLost
  split
  case h_5 => rfl
  all_goals exact changeMode_spared s _ _

theorem ringMonitor_spared (s : State) : s.ringMonitor.spared = s.spared := by
  unfold State.ringMonitor
  exact spared_ite (ringOrMastersLost_spared s) (spared_ite (spared_ite (setMode_spared s _ _) rfl) (spared_ite (setMode_spared s _ _) rfl))

/-! #### Blocks -/

theorem resetPort_spared (s : State) {k : Nat} (hk : k < 32) : (s.resetPort k).spared = s.spared := by
  have hstat : clearOfTime (R.PWP_STAT_state k).addr := by
    simp only [clearOfTime, R.PWP_STAT_state, R.PWP_STAT]
    omega
  unfold State.resetPort State.clearLatch
  refine spared_ite rfl (spared_ite (spared_ite ?_ rfl) rfl)
  exact ((Follows.refreshPort _ k hk).spared (refreshPort_still _ k)).trans (wr_spared _ _ _ hstat)

theorem setCtx_spared (s : State) (e c : Nat) (x : Ctx) : (s.setCtx e c x).spared = s.spared := rfl

theorem haltCtx_spared (s : State) (e c : Nat) (st : CtxState) : (s.haltCtx e c st).spared = s.spared :=
  (Follows.haltCtx s e c st).spared (haltCtx_still s e c st)

theorem resetEngine_spared (s : State) (e : Nat) : (s.resetEngine e).spared = s.spared := by
  unfold State.resetEngine
  exact foldl_keeps State.spared _ (s.engine e).ctxs
    (by exact fun t kv _ => (setCtx_spared _ _ _ _).trans (haltCtx_spared t e kv.1 .idle)) s

theorem putRx_spared (s : State) (n : Nat) (f : Fifo) : (s.putRx n f).spared = s.spared := by
  unfold State.putRx
  extract_lets was t
  exact spared_ite ((notices_spared t _ _ (by decide)).trans rfl) rfl

theorem bayWord_clear {a n : Nat} (ha : bayBase n ≤ a) : clearOfTime a := by
  unfold bayBase at ha
  unfold clearOfTime
  omega

theorem rxFlush_spared (s : State) (n : Nat) : (s.rxFlush n).spared = s.spared :=
  (pmcEv_spared _ _ _ _ _).trans ((bump_spared _ _ (bayWord_clear (n := n) (Nat.le_add_right _ _))).trans (putRx_spared s _ _))

theorem txFlush_spared (s : State) (n : Nat) : (s.txFlush n).spared = s.spared :=
  (pmcEv_spared _ _ _ _ _).trans (bump_spared (s.setTx n _) _ (bayWord_clear (n := n) (Nat.le_add_right _ _)))

theorem applyPin_spared (s : State) (g : Nat) : (s.applyPin g).spared = s.spared := (Follows.applyPin s g).spared (applyPin_still s g)

theorem followLine_spared (s old : State) (g : Nat) : (s.followLine old g).spared = s.spared := by
  unfold State.followLine
  exact spared_ite rfl rfl

theorem reenablePin_spared (s : State) (g : Nat) : (s.reenablePin g).spared = s.spared := by
  unfold State.reenablePin
  extract_lets p
  exact spared_ite ((followLine_spared _ _ _).trans rfl) (applyPin_spared s g)

theorem clearOverload_spared (s : State) (n mask : Nat) : (s.clearOverload n mask).spared = s.spared := by
  unfold State.clearOverload
  extract_lets bits t
  exact (foldl_keeps State.spared (fun t p => if bitAt (bits &&& mask) p then t.reenablePin (8 * n + p) else t) _
    (fun t p _ => spared_ite (reenablePin_spared t _) rfl) t).trans (wr_spared s _ _ (bayWord_clear (n := n) (Nat.le_add_right _ _)))

theorem forceBay_spared (s : State) (n : Nat) : (s.forceBay n).spared = s.spared := by
  unfold State.forceBay
  extract_lets t
  have ht : t.spared = s.spared := wrBit_spared s _ _ _ (by decide)
  refine spared_ite ht ?_
  exact (foldl_keeps State.spared (fun t p => t.applyPin (8 * n + p)) (List.range 8) (fun t p _ => applyPin_spared t _) _).trans
    ((clearOverload_spared _ _ _).trans ((txFlush_spared t n).trans ht))

end Sys2Proof.Machine

namespace Sys2Proof.Machine

/-! ### What the Kettle spares -/

theorem ketWord_clear {a : Nat} (ha : 0x60000 ≤ a) : clearOfTime a := by
  unfold clearOfTime
  omega

theorem ketSrc_clear (i : Nat) : clearOfTime (R.KET_SRC i) := by
  refine ketWord_clear ?_
  unfold R.KET_SRC
  omega

theorem ketCnt_clear (i : Nat) : clearOfTime (R.KET_CNT i) := by
  refine ketWord_clear ?_
  unfold R.KET_CNT
  omega

theorem pulse_spared (s : State) (sev : Nat) : (s.pulse sev).spared = s.spared := by
  unfold State.pulse
  exact spared_ite (wr_spared s R.KET_ERRPIN_armed 0 (by decide)) rfl

theorem noteSevere_spared (s : State) (sev : Nat) : (s.noteSevere sev).spared = s.spared := by
  unfold State.noteSevere
  exact spared_ite rfl rfl

theorem startMasks_spared (s : State) (src : Nat) : (s.startMasks src).spared = s.spared := by
  unfold State.startMasks
  exact spared_ite rfl rfl

theorem recordEvent_spared (s : State) (sev src data : Nat) : (s.recordEvent sev src data).1.spared = s.spared := by
  unfold State.recordEvent
  extract_lets seq a tt kettle u v i w x
  have hhistA : clearOfTime (R.KET_HIST_A i) := ketWord_clear (by unfold R.KET_HIST_A; omega)
  have hhistT : clearOfTime (R.KET_HIST_T i) := ketWord_clear (by unfold R.KET_HIST_T; omega)
  have hv : v.spared = s.spared := spared_ite rfl
    ((setWord_spared _ _ _ (by decide)).trans (setWord_spared u _ _ (by decide)))
  have hw : w.spared = s.spared := spared_ite ((bump_spared v _ (by decide)).trans hv) hv
  have hx : x.spared = s.spared := (setWord_spared _ _ _ hhistT).trans ((setWord_spared w _ _ hhistA).trans hw)
  exact (wr_spared _ _ _ (by decide)).trans ((wr_spared x _ _ (by decide)).trans hx)

theorem blockReset_spared (s : State) (src : Nat) : ∀ t, s.blockReset src = some t → t.spared = s.spared := by
  intro t h
  unfold State.blockReset at h
  have hout {u : State} (hu : some u = some t) (hkept : u.spared = s.spared) : t.spared = s.spared := Option.some.inj hu ▸ hkept
  split at h
  · extract_lets p at h
    split at h
    · exact hout h rfl
    · exact hout h ((linkDown_spared _ (Nat.mod_lt _ (by decide))).trans rfl)
  split at h
  · exact hout h (resetPort_spared s (Nat.mod_lt _ (by decide)))
  split at h
  · extract_lets e at h
    split at h
    · exact absurd h nofun
    · exact hout h (resetEngine_spared s _)
  · extract_lets n at h
    split at h
    · exact absurd h nofun
    · exact hout h ((txFlush_spared _ _).trans (rxFlush_spared s _))

theorem openIsolator_spared (s : State) {g : Nat} (cause : Nat) (hg : g < 2) : (s.openIsolator g cause).spared = s.spared :=
  (Follows.openIsolator s g hg cause).spared (openIsolator_still s g cause)

theorem react_spared (s : State) (src : Nat) : (s.react src).1.spared = s.spared := by
  unfold State.react
  extract_lets arg
  split
  · split
    next t h => exact blockReset_spared s src t h
    · rfl
  · split
    · rfl
    · exact kettleSafe_spared s 26
  · have hopened {g : Nat} (hg : g < 2) : clearOfTime (R.PWP_GROUP_opened_by g).addr := by
      simp only [clearOfTime, R.PWP_GROUP_opened_by, R.PWP_GROUP]
      omega
    refine foldl_keeps State.spared _ (List.range 2) ?_ s
    exact fun t g hg => spared_ite (openIsolator_spared t 2 (List.mem_range.mp hg))
      (spared_ite (wr_spared t _ _ (hopened (List.mem_range.mp hg))) rfl)
  · exact foldl_keeps State.spared (fun t n => if n < t.nBays then t.forceBay n else t) _
      (fun t n _ => spared_ite (forceBay_spared t n) rfl) s
  · rfl

theorem grant_spared (s : State) (src data : Nat) : (s.grant src data).spared = s.spared := by
  unfold State.grant
  extract_lets sev reaction t
  have hrecord := recordEvent_spared s sev src data
  split
  next u i hu =>
  rw [hu] at hrecord
  extract_lets v w
  have hv : v.spared = s.spared := (pmcEv_spared _ _ _ _ _).trans ((bump_spared _ _ (ketCnt_clear _)).trans
    ((pulse_spared u _).trans hrecord))
  have hw : w.spared = s.spared := (noteSevere_spared v sev).trans hv
  split
  · exact hw
  split
  · exact spared_ite hw ((bump_spared w _ (ketCnt_clear _)).trans hw)
  next x _ _ =>
  have hx : x.spared = s.spared := spared_ite hw ((notices_spared w _ _ (by decide)).trans hw)
  split
  · exact hx
  have hreact := (react_spared x src).trans hx
  split
  next y hy =>
    rw [hy] at hreact
    exact (pmcEv_spared _ _ _ _ _).trans ((bump_spared _ _ (ketCnt_clear _)).trans ((startMasks_spared y src).trans hreact))
  next y hy =>
    rw [hy] at hreact
    exact (bump_spared y _ (ketCnt_clear _)).trans hreact

theorem failSelf_spared (s : State) : { s with kettle := { s.kettle with selfFault := true } }.spared = s.spared := rfl

theorem collectorFault_spared (s : State) (cause i : Nat) : (s.collectorFault cause i).spared = s.spared := by
  unfold State.collectorFault
  split
  · rfl
  · extract_lets t
    have ht : t.spared = s.spared := (wr_spared _ _ _ (by decide)).trans ((wr_spared _ _ _ (by decide)).trans (wr_spared s _ _ (by decide)))
    clear_value t
    exact (kettleSafe_spared _ 27).trans ((failSelf_spared t).trans ht)

theorem freshEcc_spared (s : State) (m : EccMem) (i : Nat) : (s.freshEcc m i).spared = s.spared := rfl

theorem checkCopy_spared (s : State) (i w : Nat) : (s.checkCopy i w).spared = s.spared := by
  unfold State.checkCopy
  extract_lets one t
  have hone (t : State) (m : EccMem) : (one t m).spared = t.spared := by
    simp only [one]
    split
    · rfl
    · exact (bump_spared _ _ (ketCnt_clear _)).trans (freshEcc_spared t m w)
    · exact collectorFault_spared t 1 i
  have ht : t.spared = s.spared := (hone _ _).trans (hone s _)
  exact spared_ite ((collectorFault_spared t 2 i).trans ht) ht

theorem checkCopies_spared (s : State) (i : Nat) : (s.checkCopies i).spared = s.spared := by
  unfold State.checkCopies
  extract_lets t l
  have ht : t.spared = s.spared := checkCopy_spared s i i
  exact spared_ite ((checkCopy_spared t i _).trans ht) ht

theorem takeEvent_spared (s : State) (e : KEvent) : (s.takeEvent e).spared = s.spared := by
  unfold State.takeEvent
  refine spared_ite rfl ?_
  extract_lets t enabled
  have ht : t.spared = s.spared := (bump_spared _ _ (ketSrc_clear _)).trans (checkCopies_spared s e.src)
  split
  · exact (pmcEv_spared _ _ _ _ _).trans ((bump_spared _ _ (ketCnt_clear _)).trans ((bump_spared t _ (ketSrc_clear _)).trans ht))
  split
  · exact spared_ite ((grant_spared t _ _).trans ht) ht
  next n fires _ u _ _ =>
    have hu : u.spared = s.spared := ht
    exact spared_ite ((grant_spared u _ _).trans hu) hu

theorem intake_spared (n : Nat) (s : State) : (State.intake n s).spared = s.spared := by
  induction n generalizing s with
  | zero => rfl
  | succ n ih =>
    unfold State.intake
    refine spared_ite rfl (spared_ite rfl ?_)
    exact (ih _).trans (foldl_keeps State.spared State.takeEvent _ (fun t e _ => takeEvent_spared t e) _)

theorem ringSettle_spared (n : Nat) (s : State) : (State.ringSettle n s).spared = s.spared := by
  induction n generalizing s with
  | zero => rfl
  | succ n ih =>
    unfold State.ringSettle
    exact spared_ite ((ih _).trans ((intake_spared _ _).trans (ringMonitor_spared _))) rfl

theorem settle_spared (s : State) : s.settle.spared = s.spared :=
  (ringSettle_spared 4 _).trans (intake_spared 16 s)

end Sys2Proof.Machine

namespace Sys2Proof.Machine

/-! ### A time that has passed is counted in 48 bits -/

/-- What the target adds to an accepted write. -/
theorem wrote_spared (s : State) (r : Requester) (a : Nat) : (s.wrote r a).spared = s.spared :=
  spared_ext (countTxn_word s r a .ok 1 9 8 (by unfold pmcBlock; decide))
    (congrArg State.cyc (answeredCount_sansAnswer s r a .ok .ok 1 9 8 []) :)

/-- A hub in Safe with an access table, whose count of times that had passed stands beyond 32 bits. -/
def pastCounted : State :=
  let s : State := { State.reset with
    now := 7000
    hub := { State.reset.hub with mode := .safe, accessTable := true }
    loaded := { State.reset.loaded with access := (List.range 82).map (fun b => (b, 0xFFFF)), sections := [0xD] } }
  (s.wr R.RING_RATE_allowed 7).wr (R.TIM_CNT_count 7) (2 ^ 40)

def aSupervisor : Requester := { master := 0, level := .supervisor }

/-- Refutes O24: with 2^40 times already counted in TIM_CNT[7], a 48-bit count (R393), one more makes 2^40 + 1, where the second
clause takes it to stop at 2^32 - 1. -/
theorem not_ratesAndTransmittersAreSet : ¬ Obligations.RatesAndTransmittersAreSet := by
  unfold Obligations.RatesAndTransmittersAreSet
  intro ⟨_, hpast, _⟩
  have hgrants : Grants pastCounted aSupervisor R.RING_RATE .write := by decide +kernel
  obtain ⟨u, hexec, -, -, -, hcount, -, -⟩ := hpast pastCounted aSupervisor 1 0 hgrants (by decide +kernel) (by decide +kernel)
    (by decide +kernel)
  have hdone : exec (.ringRateWrite aSupervisor 1 0) pastCounted =
      .next ((pastCounted.writeRate 1 0).wrote aSupervisor R.RING_RATE).settle := by
    refine Eq.trans (b := done (pastCounted.asWrite aSupervisor R.RING_RATE fun u => u.writeRate 1 0)) rfl ?_
    rw [asWrite_grants _ hgrants, done_eq]
  have hsame : ((pastCounted.writeRate 1 0).wrote aSupervisor R.RING_RATE).settle = (u.wrote aSupervisor R.RING_RATE).settle :=
    Host.Outcome.next.inj (hdone.symm.trans hexec)
  have hspared : (pastCounted.writeRate 1 0).spared = u.spared := by
    rw [← wrote_spared, ← settle_spared, hsame, settle_spared, wrote_spared]
  have hword : (pastCounted.writeRate 1 0).word (R.TIM_CNT 7) = u.word (R.TIM_CNT 7) := congrArg Prod.fst hspared
  have hrd : (pastCounted.writeRate 1 0).rd (R.TIM_CNT_count 7) = u.rd (R.TIM_CNT_count 7) := congrArg (fget · 0 48) hword
  have hleft : (pastCounted.writeRate 1 0).rd (R.TIM_CNT_count 7) = 2 ^ 40 + 1 := by decide +kernel
  have hright : min (pastCounted.rd (R.TIM_CNT_count 7) + 1) (2 ^ 32 - 1) = 2 ^ 32 - 1 := by decide +kernel
  omega

end Sys2Proof.Machine

namespace Sys2Proof.Machine

/-! ### Cups of a register list that names a cup twice -/

/-- Stream 1 runs with a cycle of 1 ms and its sample point at 0.5 ms, which has come; an input cup of it stands in the register list
behind an empty entry for the same register, from which its fields are read. -/
def twiceListed : State :=
  let s : State := { State.reset with
    now := 1500000
    hub := { State.reset.hub with mode := .run } }
  let s := ((s.wr R.CYC_CTRL_enable 2).wr (R.CYC_CYCLE_units 1) 32).wr (R.CYC_POINT_sample_offset 1) 500000
  { s with regs := (R.CYC_CUP 0, 0) :: (R.CYC_CUP 0, pack [(62, 2), (60, 1)]) :: s.regs }

/-- Refutes O39: the first clause admits a register list with CYC_CUP[0] in it twice. The list then has an input cup of stream 1, whose
snapshot is stamped with the sample point of stream 0, which is that of the entry read first, and not with the present time. -/
theorem not_cupsAreSampledAndApplied : ¬ Obligations.CupsAreSampledAndApplied := by
  unfold Obligations.CupsAreSampledAndApplied
  intro ⟨hsample, _⟩
  have hclean : CleanMem twiceListed := fun i => by
    have hmarks : twiceListed.eccMarks = [] := rfl
    simp [State.eccOf, hmarks]
  obtain ⟨u, hexec, -, hshot, -⟩ := hsample twiceListed 1 1 0 (by decide +kernel) (by decide +kernel) (by decide)
    (by decide +kernel) (by decide +kernel) (by decide +kernel) (by decide +kernel) (by decide +kernel) hclean
  have hsettle : (twiceListed.sampleStream 1).settle = u.settle := Host.Outcome.next.inj hexec
  have hspared : (twiceListed.sampleStream 1).spared = u.spared := by
    rw [← settle_spared, hsettle, settle_spared]
  have hcyc : (twiceListed.sampleStream 1).cyc = u.cyc := congrArg Prod.snd hspared
  rw [if_neg (by decide +kernel), ← hcyc] at hshot
  have htime : (mget {} (twiceListed.sampleStream 1).cyc.snaps 0).shots.head?.map Shot.at_ = some 0 := by decide +kernel
  rw [hshot] at htime
  exact absurd htime (by decide +kernel)

end Sys2Proof.Machine

namespace Sys2Proof.Machine

/-! ### Applying a bit-stream does not depend on the count of flash errors -/

/-- `t` has the mode's own fields, the records, the time and the variant of `s`, and every register but the count of flash errors (R663). -/
structure Alike (s t : State) : Prop where
  hub : t.hub = s.hub
  upd : t.upd = s.upd
  now : t.now = s.now
  variant : t.variant = s.variant
  word : ∀ a, a ≠ R.UPD_FLASH_ECC → t.word a = s.word a

/-- Two sections were applied alike, or failed for the same cause. -/
inductive AlikeApplied : Applied → Applied → Prop
  | ok {s t : State} (h : Alike s t) : AlikeApplied (.ok s) (.ok t)
  | error (c : Cause) : AlikeApplied (.error c) (.error c)

namespace AlikeApplied

/-- A check that comes out the same stands before them. -/
theorem check {c d : Bool} {k : Cause} {x y : Applied} (hc : d = c) (h : AlikeApplied x y) :
    AlikeApplied (orElseFail c k >>= fun _ => x) (orElseFail d k >>= fun _ => y) := by
  subst hc
  cases d
  · exact .error k
  · exact h

end AlikeApplied

namespace Alike

variable {s t : State}

theorem rd (h : Alike s t) {f : Fld} (hf : f.addr ≠ R.UPD_FLASH_ECC) : t.rd f = s.rd f := by
  rw [State.rd, State.rd, h.word _ hf]

theorem nBays (h : Alike s t) : t.nBays = s.nBays := by rw [State.nBays, State.nBays, h.variant]

theorem nGroups (h : Alike s t) : t.nGroups = s.nGroups := by rw [State.nGroups, State.nGroups, h.variant]

theorem nPins (h : Alike s t) : t.nPins = s.nPins := by rw [State.nPins, State.nPins, h.nBays]

theorem hasPower (h : Alike s t) : t.hasPower = s.hasPower := by rw [State.hasPower, State.hasPower, h.variant]

theorem portList (h : Alike s t) : t.portList = s.portList := by rw [State.portList, State.portList, h.hasPower]

theorem portPresent (h : Alike s t) (p : Nat) : t.portPresent p = s.portPresent p := by
  rw [State.portPresent, State.portPresent, h.variant]

theorem srcPresent (h : Alike s t) (i : Nat) : t.srcPresent i = s.srcPresent i := by
  rw [State.srcPresent, State.srcPresent, h.variant]

theorem argAbsent (h : Alike s t) (reaction arg : Nat) : t.argAbsent reaction arg = s.argAbsent reaction arg := by
  rw [State.argAbsent, State.argAbsent, h.hasPower, h.nGroups]

theorem absentReg (h : Alike s t) (a : Nat) : t.absentReg a = s.absentReg a := by
  simp only [State.absentReg, h.variant, h.portPresent, h.srcPresent]

theorem pinRd (h : Alike s t) {f : Fld} {g : Nat} (hf : f.addr = R.BAY_PIN g) : t.rd f = s.rd f :=
  h.rd (by rw [hf]; unfold R.BAY_PIN bayBase R.UPD_FLASH_ECC; omega)

theorem pinMode (h : Alike s t) (g : Nat) : t.pinMode g = s.pinMode g := h.pinRd rfl

theorem portFunction (h : Alike s t) (p : Nat) : t.portFunction p = s.portFunction p := by
  have hport : R.RING_PORT p ≠ R.UPD_FLASH_ECC := by
    unfold R.RING_PORT R.UPD_FLASH_ECC
    omega
  rw [State.portFunction, State.portFunction, h.rd (f := R.RING_PORT_function p) hport]

/-- A field gets its value from the bit-stream. -/
theorem cfg (h : Alike s t) (f : Fld) (v : Nat) : Alike (s.cfg f v) (t.cfg f v) where
  hub := h.hub
  upd := h.upd
  now := h.now
  variant := h.variant
  word a ha := by
    show (t.wr f v).word a = (s.wr f v).word a
    by_cases haddr : a = f.addr
    · subst haddr
      rw [State.wr, State.wr, word_setWord_same, word_setWord_same, h.word _ ha]
    · rw [word_wr_ne _ _ _ haddr, word_wr_ne _ _ _ haddr, h.word _ ha]

theorem cfgWord (h : Alike s t) (a : Nat) (w : Word) : Alike (s.cfgWord a w) (t.cfgWord a w) := h.cfg _ _

theorem foldl {α : Type} {f g : State → α → State} (l : List α) (hstep : ∀ {s t : State}, Alike s t → ∀ a, Alike (f s a) (g t a))
    (h : Alike s t) : Alike (l.foldl f s) (l.foldl g t) := by
  induction l generalizing s t with
  | nil => exact h
  | cons a l ih => exact ih (hstep h a)

theorem reloaded (h : Alike s t) (x y : Loaded) : Alike { s with loaded := x } { t with loaded := y } :=
  ⟨h.hub, h.upd, h.now, h.variant, h.word⟩

theorem tabled (h : Alike s t) (x y : Loaded) : Alike { s with hub := { s.hub with accessTable := true }, loaded := x }
    { t with hub := { t.hub with accessTable := true }, loaded := y } :=
  ⟨congrArg (fun x : Hub => { x with accessTable := true }) h.hub, h.upd, h.now, h.variant, h.word⟩

theorem applySafe (h : Alike s t) (b : List Byte) : AlikeApplied (s.applySafe b) (t.applySafe b) := by
  unfold State.applySafe
  refine .check (by simp only [h.nPins, h.hasPower]) (.check rfl ?_)
  exact .ok (.foldl _ (fun h _ => h.reloaded _ _) (.foldl _ (fun h _ => h.cfg _ _) h))

theorem applyPinCells (h : Alike s t) (g : Image) (b : List Byte) : AlikeApplied (s.applyPinCells g b) (t.applyPinCells g b) := by
  have hsafe (i : Nat) : t.rd (R.BAY_PIN_safe i) = s.rd (R.BAY_PIN_safe i) := h.pinRd rfl
  unfold State.applyPinCells
  refine .check (by simp only [h.nPins, h.nBays]) (.check (by simp only [hsafe]) ?_)
  exact .ok (.foldl _ (fun h _ => (((((((h.cfg _ _).cfg _ _).cfg _ _).cfg _ _).cfg _ _).cfg _ _).cfg _ _).cfg _ _)
    (.foldl _ (fun h _ => ((((((h.cfg _ _).cfg _ _).cfg _ _).cfg _ _).cfg _ _).cfg _ _).cfg _ _) h))

theorem applyWindows (h : Alike s t) (b : List Byte) : AlikeApplied (s.applyWindows b) (t.applyWindows b) := by
  unfold State.applyWindows
  refine .check (by simp only [h.nBays]) (.check rfl ?_)
  extract_lets u v _ _ x y
  have hy : Alike v y := .foldl _ (fun h _ => (h.cfg _ _).cfg _ _) (h.cfg _ _)
  exact .ok (hy.tabled _ _)

theorem applyRing (h : Alike s t) (b : List Byte) : AlikeApplied (s.applyRing b) (t.applyRing b) := by
  unfold State.applyRing
  refine .check (by simp only [h.variant]) (.check (by simp only [h.variant]) ?_)
  refine .ok (.cfg (.cfg (.cfg (.cfg (.cfg (.cfg (.cfg (.cfg (.cfg (.cfg (.cfg ?_ _ _) _ _) _ _) _ _) _ _) _ _) _ _) _ _) _ _) _ _) _ _)
  exact (((((((h.cfg _ _).cfg _ _).cfg _ _).cfg _ _).cfg _ _).cfg _ _).cfg _ _).cfg _ _

theorem applyKettle (h : Alike s t) (b : List Byte) : AlikeApplied (s.applyKettle b) (t.applyKettle b) := by
  unfold State.applyKettle
  refine .check (by simp only [h.srcPresent, h.argAbsent]) (.check rfl ?_)
  exact .ok (.foldl _ (fun h _ => .foldl _ (fun h _ => h.cfgWord _ _) (h.cfg _ _))
    (.foldl _ (fun h _ => ((((((h.cfg _ _).cfg _ _).cfg _ _).cfg _ _).cfg _ _).cfg _ _).cfg _ _) h))

theorem applyTuning (h : Alike s t) (b : List Byte) : AlikeApplied (s.applyTuning b) (t.applyTuning b) := by
  unfold State.applyTuning
  refine .check (by simp only [h.absentReg]) (.check rfl ?_)
  exact .ok (h.reloaded _ _)

theorem applySwitch (h : Alike s t) (b : List Byte) : AlikeApplied (s.applySwitch b) (t.applySwitch b) := by
  unfold State.applySwitch
  refine .check (by simp only [h.portPresent]) (.check (by simp only [h.portFunction]) ?_)
  exact .ok (.foldl _ (fun h _ => h.cfgWord _ _) (.foldl _ (fun h _ => h.cfg _ _)
    (.foldl _ (fun h _ => (((((((h.cfg _ _).cfg _ _).cfg _ _).cfg _ _).cfg _ _).cfg _ _).cfg _ _).cfg _ _)
      (((((h.cfg _ _).cfg _ _).cfg _ _).cfg _ _).cfg _ _))))

theorem ite {c : Prop} [Decidable c] {u v : State} (h : Alike s t) (k : Alike u v) :
    Alike (if c then s else u) (if c then t else v) := by
  split
  · exact h
  · exact k

theorem applySieve (h : Alike s t) (b : List Byte) : AlikeApplied (s.applySieve b) (t.applySieve b) := by
  unfold State.applySieve
  refine .check (by simp only [h.portPresent]) (.check rfl ?_)
  exact .ok (.foldl _ (fun h _ => h.cfgWord _ _) (.foldl _ (fun h _ => .ite (h.cfg _ _) ((h.cfg _ _).cfg _ _)) h))

theorem applyTime (h : Alike s t) (b : List Byte) : AlikeApplied (s.applyTime b) (t.applyTime b) := by
  have hrole : t.rd R.RING_CPL_role = s.rd R.RING_CPL_role := h.rd (by decide)
  unfold State.applyTime
  refine .check (by simp only [h.variant]) (.check (by simp only [h.portFunction, hrole]) ?_)
  refine .ok (.foldl _ (fun h _ => ((((h.cfg _ _).cfg _ _).cfg _ _).cfg _ _).cfg _ _) (.foldl _ (fun h _ => h.cfg _ _) ?_))
  exact ((((((((h.cfg _ _).cfg _ _).cfg _ _).cfg _ _).cfg _ _).cfg _ _).cfg _ _).cfg _ _).cfg _ _

theorem applyCyclic (h : Alike s t) (b : List Byte) : AlikeApplied (s.applyCyclic b) (t.applyCyclic b) := by
  have howner (g : Nat) : t.rd (R.BAY_PIN_owner g) = s.rd (R.BAY_PIN_owner g) := h.pinRd rfl
  unfold State.applyCyclic
  extract_lets n str enabled word cups total bays u v x y
  have hx : Alike u x := .foldl _ (fun h _ => ((((h.cfg _ _).cfg _ _).cfg _ _).cfg _ _).cfg _ _) h
  have hy : Alike v y := hx.cfg _ _
  clear_value v y
  refine .check (by simp only [h.nBays, h.nGroups]) ?_
  refine .check ?_ (.ok (hy.foldl _ fun h _ => h.cfgWord _ _))
  simp only [howner]

theorem applyEngines (h : Alike s t) (g : Image) (b : List Byte) : AlikeApplied (s.applyEngines g b) (t.applyEngines g b) := by
  have howner (g : Nat) : t.rd (R.BAY_PIN_owner g) = s.rd (R.BAY_PIN_owner g) := h.pinRd rfl
  unfold State.applyEngines
  refine .check (by simp only [h.nBays, h.nPins]) (.check (by simp only [howner]) ?_)
  refine .ok (.foldl _ (fun h _ => ?_) (.foldl _ (fun h _ => h.cfg _ _) h))
  refine .cfgWord (.cfg (.cfg (.cfg (.cfg (.cfg (.cfg (.cfg (.cfg (.cfg ?_ _ _) _ _) _ _) _ _) _ _) _ _) _ _) _ _) _ _) _ _
  exact .foldl _ (fun h _ => h.cfgWord _ _) h

theorem applyPrograms (h : Alike s t) (b : List Byte) : AlikeApplied (s.applyPrograms b) (t.applyPrograms b) := by
  unfold State.applyPrograms
  refine .check rfl ?_
  exact .ok (.foldl _ (fun h _ => .foldl _ (fun h _ => h.cfgWord _ _) h) h)

theorem applyPorts (h : Alike s t) (b : List Byte) : AlikeApplied (s.applyPorts b) (t.applyPorts b) := by
  unfold State.applyPorts
  refine .check h.hasPower (.check (by simp only [h.nBays]) (.check (by simp only [h.pinMode]) ?_))
  extract_lets s1 s2 s3 s4 t1 t2 t3 t4
  have h1 : Alike s1 t1 := .foldl _ (fun h _ => (((((((h.cfg _ _).cfg _ _).cfg _ _).cfg _ _).cfg _ _).cfg _ _).cfg _ _).cfg _ _) h
  have h2 : Alike s2 t2 := .foldl _ (fun h _ => h.reloaded _ _) h1
  have h3 : Alike s3 t3 := .foldl _ (fun h _ => .ite h ((h.cfg _ _).cfg _ _)) h2
  have h4 : Alike s4 t4 := h3.cfg _ _
  exact .ok (.foldl _ (fun h _ => h.cfg _ _) h4)

theorem applyStates (h : Alike s t) (b : List Byte) : AlikeApplied (s.applyStates b) (t.applyStates b) := by
  have hfunction (k : Nat) : t.rd (R.TIM_IO_function k) = s.rd (R.TIM_IO_function k) :=
    h.rd (by simp only [R.TIM_IO_function, R.TIM_IO, R.UPD_FLASH_ECC]; omega)
  unfold State.applyStates
  refine .check (by simp only [h.nPins]) (.check (by simp only [h.variant, hfunction, h.pinMode]) ?_)
  refine .ok (.cfgWord (.cfg (.cfg (.cfg (.cfg (.cfg (.cfg ?_ _ _) _ _) _ _) _ _) _ _) _ _) _ _)
  exact ((((((h.cfg _ _).cfg _ _).cfg _ _).cfg _ _).cfg _ _).cfg _ _).cfg _ _

theorem applySection (h : Alike s t) (g : Image) (code : Nat) (b : List Byte) :
    AlikeApplied (s.applySection g code b) (t.applySection g code b) := by
  unfold State.applySection
  split
  · exact h.applySafe b
  · exact h.applyPinCells g b
  · exact h.applyWindows b
  · exact h.applyRing b
  · exact h.applyKettle b
  · exact h.applyTuning b
  · exact h.applySwitch b
  · exact h.applySieve b
  · exact h.applyTime b
  · exact h.applyCyclic b
  · exact h.applyEngines g b
  · exact h.applyPrograms b
  · exact h.applyPorts b
  · exact h.applyStates b

/-- Sections that apply without a failure to one state apply so to the other. -/
theorem applyFrom (h : Alike s t) (g : Image) (secs : List (Nat × List Byte)) (hgood : (State.applyFrom s g secs).2 = none) :
    (State.applyFrom t g secs).2 = none ∧ Alike (State.applyFrom s g secs).1 (State.applyFrom t g secs).1 := by
  induction secs generalizing s t with
  | nil => exact ⟨rfl, h⟩
  | cons sec secs ih =>
    obtain ⟨code, b⟩ := sec
    have hsec := h.applySection g code b
    unfold State.applyFrom at hgood ⊢
    generalize s.applySection g code b = x at hsec hgood ⊢
    generalize t.applySection g code b = y at hsec ⊢
    cases hsec with
    | ok h => exact ih h hgood
    | error c => exact absurd hgood nofun

theorem defaultSwitch (h : Alike s t) : Alike s.defaultSwitch t.defaultSwitch :=
  .foldl _ (fun h _ => ((((((h.cfg _ _).cfg _ _).cfg _ _).cfg _ _).cfg _ _).cfg _ _).cfg _ _) h

theorem defaultTime (h : Alike s t) : Alike s.defaultTime t.defaultTime := (h.cfg _ _).cfg _ _

theorem defaultPorts (h : Alike s t) : Alike s.defaultPorts t.defaultPorts := by
  unfold State.defaultPorts
  rw [h.portList]
  exact .foldl _ (fun h _ => (((((h.cfg _ _).cfg _ _).cfg _ _).cfg _ _).cfg _ _).cfg _ _) h

theorem defaultStates (h : Alike s t) : Alike s.defaultStates t.defaultStates :=
  ((((((((h.cfg _ _).cfg _ _).cfg _ _).cfg _ _).cfg _ _).cfg _ _).cfg _ _).cfg _ _).cfg _ _

end Alike

/-- One register without the fields that the bit-stream gives. -/
def State.clearReg (s : State) (kv : Nat × Word) : State := s.setWord kv.1 (kv.2 &&& ~~~(bsMask kv.1))

/-- Clearing registers one by one, a register is left as the last entry for it says. -/
theorem clearRegs_word (l : List (Nat × Word)) (s : State) (a : Nat) : (l.foldl State.clearReg s).word a =
    (l.filter (fun kv => kv.1 == a)).foldl (fun _ kv => kv.2 &&& ~~~(bsMask kv.1)) (s.word a) := by
  induction l generalizing s with
  | nil => rfl
  | cons kv l ih =>
    rw [List.foldl_cons, ih, State.clearReg]
    by_cases ha : kv.1 = a
    · subst ha
      rw [List.filter_cons_of_pos (by simp), List.foldl_cons, word_setWord_same]
    · rw [List.filter_cons_of_neg (by simpa using ha), word_setWord_ne _ _ (Ne.symm ha)]

theorem clearRegs_rest (l : List (Nat × Word)) (s : State) : { l.foldl State.clearReg s with regs := [] } = { s with regs := [] } := by
  induction l generalizing s with
  | nil => rfl
  | cons kv l ih => exact ih _

theorem clearConfig_word (s : State) (a : Nat) : s.clearConfig.word a = (s.regs.foldl State.clearReg s).word a := rfl

theorem clearConfig_rest (s : State) : s.clearConfig.hub = s.hub ∧ s.clearConfig.upd = s.upd ∧ s.clearConfig.now = s.now ∧
    s.clearConfig.variant = s.variant := by
  have h := clearRegs_rest s.regs s
  exact ⟨(congrArg State.hub h :), (congrArg State.upd h :), (congrArg State.now h :), (congrArg State.variant h :)⟩

/-- `t` differs from `s` in the entries for the count of flash errors alone. -/
theorem Alike.clearConfig {s t : State} (h : Alike s t) (hregs : ∀ a, a ≠ R.UPD_FLASH_ECC →
    t.regs.filter (fun kv => kv.1 == a) = s.regs.filter (fun kv => kv.1 == a)) : Alike s.clearConfig t.clearConfig := by
  obtain ⟨hhub, hupd, hnow, hvariant⟩ := clearConfig_rest s
  obtain ⟨khub, kupd, know, kvariant⟩ := clearConfig_rest t
  refine ⟨by rw [khub, hhub, h.hub], by rw [kupd, hupd, h.upd], by rw [know, hnow, h.now], by rw [kvariant, hvariant, h.variant],
    fun a ha => ?_⟩
  rw [clearConfig_word, clearConfig_word, clearRegs_word, clearRegs_word, hregs a ha, h.word a ha]

theorem Alike.applyImage {s t : State} (h : Alike s t) (hregs : ∀ a, a ≠ R.UPD_FLASH_ECC →
    t.regs.filter (fun kv => kv.1 == a) = s.regs.filter (fun kv => kv.1 == a)) (g : Image) (hgood : (s.applyImage g).2 = none) :
    (t.applyImage g).2 = none ∧ Alike (s.applyImage g).1 (t.applyImage g).1 := by
  have hdefault := (h.clearConfig hregs).defaultSwitch.defaultTime.defaultPorts.defaultStates
  exact (hdefault.reloaded _ _).applyFrom g g.secs hgood

end Sys2Proof.Machine

namespace Sys2Proof.Machine

/-! ### Reading flash -/

theorem mins_filter_ne {α : Type} (m : SMap α) (k : Nat) (v : α) :
    (mins m k v).filter (fun kv => kv.1 != k) = m.filter (fun kv => kv.1 != k) := by
  induction m with
  | nil => simp [mins]
  | cons kv m ih =>
    unfold mins
    split
    · simp [List.filter_cons]
    · rw [List.filter_cons, List.filter_cons, ih]

theorem mdel_filter_ne {α : Type} (m : SMap α) (k : Nat) : (mdel m k).filter (fun kv => kv.1 != k) = m.filter (fun kv => kv.1 != k) := by
  induction m with
  | nil => rfl
  | cons kv m ih =>
    unfold mdel
    split
    · next h => rw [ih, List.filter_cons_of_neg (by simp [h])]
    · rw [List.filter_cons, List.filter_cons, ih]

theorem mput_filter_ne {α : Type} [DecidableEq α] (d : α) (m : SMap α) (k : Nat) (v : α) :
    (mput d m k v).filter (fun kv => kv.1 != k) = m.filter (fun kv => kv.1 != k) := by
  unfold mput
  split
  · exact mdel_filter_ne m k
  · rw [mins_filter_ne, mdel_filter_ne]

/-- The state without the count of flash errors and the waiting events. -/
def State.sansFlashEcc (s : State) : State :=
  { s with regs := s.regs.filter (fun kv => kv.1 != R.UPD_FLASH_ECC), raised := [] }

theorem bump_sansFlashEcc (s : State) (f : Fld) (hf : f.addr = R.UPD_FLASH_ECC) : (s.bump f).sansFlashEcc = s.sansFlashEcc := by
  have h := mput_filter_ne (resetWord f.addr) s.regs f.addr (fset (s.word f.addr) f.lsb f.width (min (s.rd f + 1) (2 ^ f.width - 1)))
  rw [hf] at h
  exact congrArg (fun r => ({ s with regs := r, raised := [] } : State)) (hf ▸ h)

theorem noteFlashEcc_sansFlashEcc (s : State) (ws : List Nat) : (s.noteFlashEcc ws).sansFlashEcc = s.sansFlashEcc := by
  unfold State.noteFlashEcc
  refine foldl_keeps State.sansFlashEcc _ ws ?_ s
  intro t i _
  split
  · rfl
  · exact bump_sansFlashEcc t _ rfl
  · exact (congrArg (fun u : State => { u with raised := [] }) (bump_sansFlashEcc t R.UPD_FLASH_ECC_uncorrectable rfl) :)

theorem noteComponent_sansFlashEcc (s : State) (b : Bool) (at_ cap : Nat) : (s.noteComponent b at_ cap).sansFlashEcc = s.sansFlashEcc :=
  (noteFlashEcc_sansFlashEcc _ _).trans (noteFlashEcc_sansFlashEcc s _)

theorem noteSource_sansFlashEcc (s : State) (src : Nat) : (s.noteSource src).sansFlashEcc = s.sansFlashEcc := by
  unfold State.noteSource
  split
  · exact noteFlashEcc_sansFlashEcc s _
  · exact noteComponent_sansFlashEcc s _ _ _

/-- The registers but the count of flash errors are found in the list without it. -/
theorem word_sansFlashEcc (s : State) {a : Nat} (ha : a ≠ R.UPD_FLASH_ECC) : s.sansFlashEcc.word a = s.word a := by
  unfold State.word State.sansFlashEcc
  induction s.regs with
  | nil => rfl
  | cons kv m ih =>
    by_cases hk : kv.1 = R.UPD_FLASH_ECC
    · rw [List.filter_cons_of_neg (by simp [hk]), ih, mget, if_neg (by rw [hk]; exact ha.symm)]
    · rw [List.filter_cons_of_pos (by simpa using hk), mget, mget, ih]

theorem regs_of_sansFlashEcc {s t : State} (h : t.sansFlashEcc = s.sansFlashEcc) {a : Nat} (ha : a ≠ R.UPD_FLASH_ECC) :
    t.regs.filter (fun kv => kv.1 == a) = s.regs.filter (fun kv => kv.1 == a) := by
  have hsub (m : List (Nat × Word)) :
      (m.filter (fun kv => kv.1 != R.UPD_FLASH_ECC)).filter (fun kv => kv.1 == a) = m.filter (fun kv => kv.1 == a) := by
    rw [List.filter_filter]
    refine List.filter_congr fun kv _ => ?_
    by_cases hkv : kv.1 = a
    · simp [hkv, ha]
    · simp [hkv]
  rw [← hsub, ← hsub s.regs]
  exact congrArg (fun u : State => u.regs.filter (fun kv => kv.1 == a)) h

theorem alike_of_sansFlashEcc {s t : State} (h : t.sansFlashEcc = s.sansFlashEcc) : Alike s t where
  hub := (congrArg State.hub h :)
  upd := (congrArg State.upd h :)
  now := (congrArg State.now h :)
  variant := (congrArg State.variant h :)
  word a ha := by rw [← word_sansFlashEcc t ha, h, word_sansFlashEcc s ha]

theorem anchor_of_sansFlashEcc {s t : State} (h : t.sansFlashEcc = s.sansFlashEcc) : t.anchor = s.anchor := (congrArg State.anchor h :)

/-- An image that applies to the state before its source is read applies to the state after. -/
theorem applyImage_noteSource {s t : State} (src : Nat) (g : Image) (h : s.applyImage g = (t, none)) :
    ∃ u, (s.noteSource src).applyImage g = (u, none) ∧ Alike t u := by
  have hread := noteSource_sansFlashEcc s src
  obtain ⟨hgood, halike⟩ := (alike_of_sansFlashEcc hread).applyImage (fun a ha => regs_of_sansFlashEcc hread ha) g (by rw [h])
  rw [h] at halike
  exact ⟨_, Prod.ext rfl hgood, halike⟩

end Sys2Proof.Machine

namespace Sys2Proof.Machine

/-! ### The status of the last Steep, and what leaves it alone -/

/-- STP_STATUS and STP_LOADED. -/
def State.steepWords (s : State) : Word × Word := (s.word R.STP_STATUS, s.word R.STP_LOADED)

/-- A register that is neither of them. -/
abbrev clearOfSteep (a : Nat) : Prop := a < 0x10000 ∨ 0x10010 ≤ a

theorem steepWords_ext {s t : State} (hstatus : t.word R.STP_STATUS = s.word R.STP_STATUS) (hloaded : t.word R.STP_LOADED = s.word R.STP_LOADED) :
    t.steepWords = s.steepWords := Prod.ext hstatus hloaded

theorem steepWords_of_word {s t : State} (h : ∀ a, ¬clearOfSteep a → t.word a = s.word a) : t.steepWords = s.steepWords :=
  steepWords_ext (h _ (by unfold clearOfSteep R.STP_STATUS; omega)) (h _ (by unfold clearOfSteep R.STP_LOADED; omega))

theorem wr_steepWords (s : State) (f : Fld) (v : Nat) (hf : clearOfSteep f.addr) : (s.wr f v).steepWords = s.steepWords :=
  steepWords_of_word fun _ ha => word_wr_ne s f v (fun h => ha (h ▸ hf))

theorem bump_steepWords (s : State) (f : Fld) (hf : clearOfSteep f.addr) : (s.bump f).steepWords = s.steepWords := wr_steepWords s f _ hf

theorem pmcEv_steepWords (s : State) (cls ev x : Nat) (a : Attrs) : (s.pmcEv cls ev x a).steepWords = s.steepWords :=
  steepWords_of_word fun b hb => pmcEv_word s cls ev x a (by unfold pmcBlock; unfold clearOfSteep at hb; omega)

theorem Follows.steepWords {s t : State} (h : Follows s t) : t.steepWords = s.steepWords :=
  steepWords_of_word fun a ha => h.word a (by unfold steadyWord; unfold clearOfSteep at ha; omega)

theorem setMode_steepWords (s : State) (m : Mode) (row : Nat) : (s.setMode m row).steepWords = s.steepWords :=
  steepWords_of_word fun a ha => setMode_word s m row (by unfold steadyWord; unfold clearOfSteep at ha; omega)

theorem resetRange_steepWords (s : State) {lo : Nat} (hi : Nat) (hlo : 0x10010 ≤ lo) : (s.resetRange lo hi).steepWords = s.steepWords :=
  steepWords_of_word fun a ha => mget_mcut_ne _ _ (.inl (by unfold clearOfSteep at ha; omega))

/-- What a Steep's words read, from the two of them. -/
theorem rd_of_steepWords {s t : State} (h : t.steepWords = s.steepWords) {f : Fld} (hf : f.addr = R.STP_STATUS ∨ f.addr = R.STP_LOADED) :
    t.rd f = s.rd f := by
  have hstatus : t.word R.STP_STATUS = s.word R.STP_STATUS := congrArg Prod.fst h
  have hloaded : t.word R.STP_LOADED = s.word R.STP_LOADED := congrArg Prod.snd h
  rcases hf with hf | hf
  · rw [State.rd, State.rd, hf, hstatus]
  · rw [State.rd, State.rd, hf, hloaded]

theorem steepWords_ite {c : Prop} [Decidable c] {t u : State} {x : Word × Word} (ht : t.steepWords = x) (hu : u.steepWords = x) :
    (if c then t else u).steepWords = x := by
  split
  · exact ht
  · exact hu

/-! ### Reports (R250, R254) -/

theorem queueSteam_anchor (s : State) (p : Nat) (m : SteamMsg) (own : Bool) : (s.queueSteam p m own).anchor = s.anchor := by
  unfold State.queueSteam
  extract_lets q used ws t x
  have ht : t.anchor = s.anchor := rfl
  split
  · exact ht
  · exact ht

theorem queueSteam_steepWords (s : State) (p : Nat) (m : SteamMsg) (own : Bool) : (s.queueSteam p m own).steepWords = s.steepWords := by
  unfold State.queueSteam
  extract_lets q used ws t x
  have ht : t.steepWords = s.steepWords := wr_steepWords s _ _ (by decide)
  exact steepWords_ite ht ht

theorem report_anchor (s : State) (code data : Nat) : (s.report code data).anchor = s.anchor :=
  foldl_keeps State.anchor _ s.steamPorts (by exact fun t p _ => queueSteam_anchor t p _ true) _

theorem report_steepWords (s : State) (code data : Nat) : (s.report code data).steepWords = s.steepWords :=
  foldl_keeps State.steepWords _ s.steamPorts (by exact fun t p _ => queueSteam_steepWords t p _ true) _

/-- A failure that keeps the hub in Boot changes of the hub's own fields the mark of it and the code of the report. -/
theorem failBoot_anchor (s : State) (code data : Nat) : (s.failBoot code data).anchor =
    ({ s with hub := { s.hub with lastFail := code % 256, bootFail := true } } : State).anchor := by
  have h := congrArg (fun a : State => { a with hub := { a.hub with lastFail := code % 256, bootFail := true } }) (report_anchor s code data)
  unfold State.failBoot State.failReport
  generalize s.report code data = t at h ⊢
  exact h

theorem failBoot_steepWords (s : State) (code data : Nat) : (s.failBoot code data).steepWords = s.steepWords := report_steepWords s code data

/-- The hub that stays in Boot after a failure. -/
theorem failBoot_stays (s : State) (code data : Nat) : (s.failBoot code data).hub.bootFail = true ∧ (s.failBoot code data).errLow = true ∧
    (s.failBoot code data).hub.mode = s.hub.mode ∧ (s.failBoot code data).upd = s.upd ∧ Keeps s (s.failBoot code data) := by
  have h := failBoot_anchor s code data
  generalize s.failBoot code data = t at h ⊢
  have hhub := hub_of_anchor h
  have hfail : t.hub.bootFail = true := by rw [hhub]
  have hlasting : t.lasting = s.lasting := (congrArg State.lasting h :)
  have hupd : t.upd = s.upd := (congrArg State.upd h :)
  refine ⟨hfail, ?_, by rw [hhub], hupd, keeps_of_lasting hlasting⟩
  simp only [State.errLow, hfail, Bool.or_true, Bool.true_or]

/-! ### A Steep that fails (R22, R23, R122) -/

theorem noteSteepFailure_rd (s : State) (src : Nat) (c : Cause) : (s.noteSteepFailure src c).rd R.STP_STATUS_last_cause = c.code ∧
    (s.noteSteepFailure src c).rd R.STP_STATUS_last_source = src % 4 ∧
    (s.noteSteepFailure src c).rd R.STP_STATUS_fail_count = min (s.rd R.STP_STATUS_fail_count + 1) 255 := by
  unfold State.noteSteepFailure State.bump State.bumpBy
  refine ⟨?_, ?_, ?_⟩
  · rw [rd_wr_lsb _ _ _ _ (by decide) (by decide) (by decide), rd_wr_lsb _ _ _ _ (by decide) (by decide) (by decide),
      rd_wr_same _ _ _ (by decide)]
    cases c <;> rfl
  · rw [rd_wr_lsb _ _ _ _ (by decide) (by decide) (by decide), rd_wr_same _ _ _ (by decide)]
    rfl
  · rw [rd_wr_same _ _ _ (by decide), rd_wr_lsb _ _ _ _ (by decide) (by decide) (by decide),
      rd_wr_lsb _ _ _ _ (by decide) (by decide) (by decide)]
    show min (s.rd R.STP_STATUS_fail_count + 1) 255 % 256 = _
    omega

theorem endVerification_steepWords (s : State) : s.endVerification.steepWords = s.steepWords := by
  unfold State.endVerification
  split
  · exact (wr_steepWords _ _ _ (by decide)).trans (wr_steepWords s _ _ (by decide))
  · rfl

theorem clearSelfFault_steepWords (s : State) : s.clearSelfFault.steepWords = s.steepWords :=
  (wr_steepWords _ _ _ (by decide)).trans ((wr_steepWords _ _ _ (by decide)).trans (wr_steepWords s _ _ (by decide)))

theorem enterBoot_steepWords (s : State) (row : Nat) : (s.enterBoot row).steepWords = s.steepWords := by
  have hmode := (setMode_steepWords s.endVerification .boot row).trans (endVerification_steepWords s)
  unfold State.enterBoot
  generalize s.endVerification.setMode .boot row = t at hmode ⊢
  exact (clearSelfFault_steepWords t).trans hmode

/-- What an entry to Boot by row 5 leaves of a Steep: of the hub's marks the retry alone, and the slot named for it. -/
theorem enterBoot_hub (s : State) (row : Nat) : (s.enterBoot row).hub.steepSrc = s.hub.steepSrc ∧ (s.enterBoot row).hub.bootFail = false ∧
    (s.enterBoot row).hub.retried = (s.hub.retried && row == 5) := by
  have hv : s.endVerification.hub = s.hub := (congrArg State.hub (endVerification_still s) :)
  have hhub := setMode_hub s.endVerification .boot row
  rw [hv] at hhub
  unfold State.enterBoot
  generalize s.endVerification.setMode .boot row = t at hhub ⊢
  have hclear : t.clearSelfFault.hub = t.hub := rfl
  dsimp only
  rw [hclear, hhub]
  exact ⟨rfl, rfl, rfl⟩

/-- The records are touched by the fallback of a slot in TRIAL alone. -/
theorem steepFallback_lasting (s : State) (b : Bool) : (s.steepFallback b).lasting = s.lasting ∧ (s.steepFallback b).hub = s.hub ∧
    (s.steepFallback b).steepWords = s.steepWords := by
  unfold State.steepFallback
  split
  · exact ⟨rfl, rfl, rfl⟩
  · exact ⟨rfl, rfl, rfl⟩

/-- The other slot than `b` is tried next, once (R23). -/
def State.retryOther (s : State) (b : Bool) : State := { s with hub := { s.hub with retried := true, nextSlot := some (!b) } }

/-- The first failed attempt: the other slot is named for the retry (R23). -/
theorem slotFailed_first (s : State) (b : Bool) (c : Cause) (h : s.hub.retried = false) :
    s.slotFailed b c = (s.steepFallback b).retryOther b := by
  obtain ⟨-, hhub, -⟩ := steepFallback_lasting s b
  exact if_neg (by rw [hhub, h]; decide)

/-- The second: the hub stays in Boot. -/
theorem slotFailed_second (s : State) (b : Bool) (c : Cause) (h : s.hub.retried = true) :
    s.slotFailed b c = (s.steepFallback b).failBoot 2 (c.code + 2 ^ 8 * bit01 b) := by
  obtain ⟨-, hhub, -⟩ := steepFallback_lasting s b
  exact if_pos (by rw [hhub, h])

/-- The state in Boot after a Steep has failed for cause `c`, before the slot that failed is judged. -/
def State.backInBoot (s : State) (c : Cause) : State := (s.noteSteepFailure s.hub.steepSrc c).enterBoot 5

theorem steepFailed_slot (s : State) (c : Cause) (h : s.hub.steepSrc ≤ 1) : s.steepFailed c = (s.backInBoot c).slotFailed (s.hub.steepSrc == 1) c := by
  unfold State.steepFailed
  dsimp only
  rw [if_neg (by omega)]
  rfl

theorem backInBoot_entered (s : State) (c : Cause) (hsrc : s.hub.steepSrc ≤ 1) : Entered s (s.backInBoot c) .boot 5 ∧ Keeps s (s.backInBoot c) ∧
    (s.backInBoot c).rd R.STP_STATUS_last_cause = c.code ∧ (s.backInBoot c).rd R.STP_STATUS_last_source = s.hub.steepSrc ∧
    (s.backInBoot c).hub.bootFail = false ∧ (s.backInBoot c).hub.retried = s.hub.retried := by
  obtain ⟨hentered, -, hkeeps⟩ := enterBoot_entered (s.noteSteepFailure s.hub.steepSrc c) 5
  obtain ⟨-, hfail, hretried⟩ := enterBoot_hub (s.noteSteepFailure s.hub.steepSrc c) 5
  obtain ⟨hcause, hsource, -⟩ := noteSteepFailure_rd s s.hub.steepSrc c
  have hwords := enterBoot_steepWords (s.noteSteepFailure s.hub.steepSrc c) 5
  unfold State.backInBoot
  refine ⟨hentered, hkeeps, ?_, ?_, hfail, ?_⟩
  · rw [rd_of_steepWords hwords (.inl rfl), hcause]
  · rw [rd_of_steepWords hwords (.inl rfl), hsource]
    omega
  · rw [hretried]
    exact Bool.and_true _

/-- R22, R23: a Steep from a slot that fails leads to Boot with its cause recorded. -/
theorem steepFailed_entered (s : State) (c : Cause) (hsrc : s.hub.steepSrc ≤ 1) : Entered s (s.steepFailed c) .boot 5 ∧
    (s.steepFailed c).rd R.STP_STATUS_last_cause = c.code ∧ (s.steepFailed c).rd R.STP_STATUS_last_source = s.hub.steepSrc ∧
    Keeps s (s.steepFailed c) ∧
    (s.hub.retried = false → (s.steepFailed c).hub.retried = true ∧ (s.steepFailed c).hub.nextSlot = some (s.hub.steepSrc == 0) ∧
      (s.steepFailed c).hub.bootFail = false) ∧
    (s.hub.retried = true → (s.steepFailed c).hub.bootFail = true ∧ (s.steepFailed c).errLow = true) := by
  obtain ⟨hentered, hkeeps, hcause, hsource, hfail, hretried⟩ := backInBoot_entered s c hsrc
  rw [steepFailed_slot s c hsrc]
  generalize s.backInBoot c = t at hentered hkeeps hcause hsource hfail hretried ⊢
  obtain ⟨hlasting, hhub, hwords⟩ := steepFallback_lasting t (s.hub.steepSrc == 1)
  have hother : (!(s.hub.steepSrc == 1)) = (s.hub.steepSrc == 0) := by
    rcases (by omega : s.hub.steepSrc = 0 ∨ s.hub.steepSrc = 1) with h | h <;> rw [h] <;> rfl
  cases hr : s.hub.retried with
  | false =>
    rw [slotFailed_first t _ c (hretried.trans hr)]
    generalize t.steepFallback (s.hub.steepSrc == 1) = u at hlasting hhub hwords ⊢
    refine ⟨?_, ?_, ?_, hkeeps.trans (keeps_of_lasting hlasting), fun _ => ⟨rfl, congrArg some hother, ?_⟩, nofun⟩
    · rw [Entered, ← hhub] at hentered
      exact hentered
    · exact (rd_of_steepWords hwords (.inl rfl)).trans hcause
    · exact (rd_of_steepWords hwords (.inl rfl)).trans hsource
    · rw [← hfail, ← hhub]
      rfl
  | true =>
    rw [slotFailed_second t _ c (hretried.trans hr)]
    generalize t.steepFallback (s.hub.steepSrc == 1) = u at hlasting hhub hwords ⊢
    generalize c.code + 2 ^ 8 * bit01 (s.hub.steepSrc == 1) = data
    obtain ⟨hbootFail, hlow, -, -, hk⟩ := failBoot_stays u 2 data
    have hu := (failBoot_steepWords u 2 data).trans hwords
    have hanchor := failBoot_anchor u 2 data
    generalize u.failBoot 2 data = v at hbootFail hlow hk hu hanchor ⊢
    refine ⟨?_, (rd_of_steepWords hu (.inl rfl)).trans hcause, (rd_of_steepWords hu (.inl rfl)).trans hsource,
      (hkeeps.trans (keeps_of_lasting hlasting)).trans hk, nofun, fun _ => ⟨hbootFail, hlow⟩⟩
    have hv := hub_of_anchor hanchor
    rw [Entered, ← hhub] at hentered
    rw [Entered, hv]
    exact hentered

end Sys2Proof.Machine

namespace Sys2Proof.Machine

/-! ### The end of a Steep (R121, R122) -/

/-- What a port at a rate that is not permitted changes leaves of the hub: all but the ring link monitor's mark and the code of the last
report. -/
def State.settled (s : State) : State := { s.anchor with hub := { s.hub with ringDue := false, lastFail := 0 } }

theorem settled_of_anchor {s t : State} (h : t.anchor = s.anchor) : t.settled = s.settled :=
  (congrArg (fun a : State => { a with hub := { a.hub with lastFail := 0 } }) h :)

theorem failReport_settled (s : State) (code data : Nat) : (s.failReport code data).settled = s.settled := by
  have h := settled_of_anchor (report_anchor s code data)
  unfold State.failReport
  generalize s.report code data = t at h ⊢
  exact h

theorem steepWords_withHub (s : State) (h : Hub) : { s with hub := h }.steepWords = s.steepWords := rfl

theorem failReport_steepWords (s : State) (code data : Nat) : (s.failReport code data).steepWords = s.steepWords :=
  (steepWords_withHub _ _).trans (report_steepWords s code data)

theorem raise_steepWords (s : State) (src data : Nat) : (s.raise src data).steepWords = s.steepWords := rfl

theorem refreshClock_steepWords (s : State) : s.refreshClock.steepWords = s.steepWords := by
  unfold State.refreshClock
  extract_lets c time was t u
  have hu : u.steepWords = s.steepWords := (wr_steepWords _ _ _ (by decide)).trans (wr_steepWords t _ _ (by decide))
  split
  · rfl
  split
  · exact (wr_steepWords _ _ _ (by decide)).trans (wr_steepWords t _ _ (by decide))
  split
  · exact steepWords_ite (wr_steepWords s _ _ (by decide)) rfl
  split
  · exact wr_steepWords t _ _ (by decide)
  · exact steepWords_ite hu ((raise_steepWords u _ _).trans hu)

theorem countDrop_steepWords (s : State) (p c : Nat) : (s.countDrop p c).steepWords = s.steepWords :=
  (pmcEv_steepWords _ _ _ _ _).trans (bump_steepWords s _ (by simp only [clearOfSteep, R.SWC_DROP_count, R.SWC_DROP]; omega))

theorem cutFrame_steepWords (s : State) (p : Nat) : (s.cutFrame p).steepWords = s.steepWords := by
  unfold State.cutFrame
  extract_lets o online t
  exact steepWords_ite (t := t.countDrop p 6) (countDrop_steepWords t p 6) (rfl : t.steepWords = s.steepWords)

theorem noteRing_steepWords (s : State) (p : Nat) : (s.noteRing p).steepWords = s.steepWords := steepWords_ite rfl rfl

theorem linkDown_steepWords (s : State) (p : Nat) : (s.linkDown p).steepWords = s.steepWords := by
  have hport : clearOfSteep (R.RING_PORT p) := by
    simp only [clearOfSteep, R.RING_PORT]
    omega
  unfold State.linkDown
  split
  · rfl
  · extract_lets t link u
    have ht : t.steepWords = s.steepWords := (cutFrame_steepWords _ p).trans ((raise_steepWords _ _ _).trans
      ((bump_steepWords _ _ hport).trans (wr_steepWords s _ _ hport)))
    exact (refreshClock_steepWords _).trans ((noteRing_steepWords u p).trans ht)

theorem raise_settled (s : State) (src data : Nat) : (s.raise src data).settled = s.settled := rfl

theorem noteMismatch_settled (s : State) (p : Nat) : (s.noteMismatch p).settled = s.settled := by
  unfold State.noteMismatch
  extract_lets l
  split
  · exact (failReport_settled _ _ _).trans ((raise_settled _ _ _).trans (settled_of_anchor (linkDown_anchor s p)))
  · rfl

theorem noteMismatch_steepWords (s : State) (p : Nat) : (s.noteMismatch p).steepWords = s.steepWords := by
  unfold State.noteMismatch
  extract_lets l
  split
  · exact (failReport_steepWords _ _ _).trans ((raise_steepWords _ _ _).trans (linkDown_steepWords s p))
  · rfl

theorem checkRates_settled (s : State) : s.checkRates.settled = s.settled := by
  unfold State.checkRates
  refine foldl_keeps State.settled _ (List.range 2) ?_ s
  intro t p _
  extract_lets l
  split
  · exact noteMismatch_settled t p
  · rfl

theorem checkRates_steepWords (s : State) : s.checkRates.steepWords = s.steepWords := by
  unfold State.checkRates
  refine foldl_keeps State.steepWords _ (List.range 2) ?_ s
  intro t p _
  extract_lets l
  split
  · exact noteMismatch_steepWords t p
  · rfl

/-- Filling the buckets changes nothing else. -/
theorem fillBuckets_rest (s : State) : { s.fillBuckets with buckets := [] } = { s with buckets := [] } :=
  foldl_keeps (fun t : State => { t with buckets := [] }) _ (List.range 4) (fun _ _ _ => by rfl) s

/-- Reporting what a fallback or a failed migration left clears its marks. -/
theorem reportDue_changes (s : State) : s.reportDue.regs = s.regs ∧ s.reportDue.hub = s.hub ∧ s.reportDue.now = s.now ∧
    s.reportDue.upd = { s.upd with fallbackDue := false, migrationDue := false } := by
  unfold State.reportDue
  extract_lets t u upd
  have ht : t.regs = s.regs ∧ t.hub = s.hub ∧ t.now = s.now ∧ t.upd = s.upd := by
    simp only [t]
    split <;> exact ⟨rfl, rfl, rfl, rfl⟩
  have hu : u.regs = t.regs ∧ u.hub = t.hub ∧ u.now = t.now ∧ u.upd = t.upd := by
    simp only [u]
    split <;> exact ⟨rfl, rfl, rfl, rfl⟩
  have hupd : upd = s.upd := hu.2.2.2.trans ht.2.2.2
  refine ⟨hu.1.trans ht.1, hu.2.1.trans ht.2.1, hu.2.2.1.trans ht.2.2.1, ?_⟩
  exact congrArg (fun x : Upd => { x with fallbackDue := false, migrationDue := false }) hupd

/-- The build and the epoch of a bit-stream are recorded (R121 step 5). -/
def State.recordIds (s : State) (g : Image) : State := (s.cfg R.STP_LOADED_build g.build).cfg R.STP_LOADED_epoch g.epoch

/-- Its digest is. -/
def State.recordDigest (s : State) (g : Image) : State :=
  (List.range 4).foldl (fun (t : State) i => t.cfg (R.STP_DIGEST_digest i) (leAt g.digest (8 * i) 8)) s

/-- The source and the duration of the Steep are. -/
def State.recordSource (s : State) (src time : Nat) : State :=
  (s.wr R.STP_STATUS_source src).wr R.STP_STATUS_duration time

/-- No slot is retried after a Steep that has succeeded (R23). -/
def State.endRetry (s : State) : State := { s with hub := { s.hub with retried := false, nextSlot := none } }

/-- The hub's own fields, the records and the time. -/
def State.moded (s : State) : Hub × Upd × Word := (s.hub, s.upd, s.now)

theorem cfg_moded (s : State) (f : Fld) (v : Nat) : (s.cfg f v).moded = s.moded := rfl

theorem wr_moded (s : State) (f : Fld) (v : Nat) : (s.wr f v).moded = s.moded := rfl

theorem cfg_rd (s : State) (f g : Fld) (v : Nat) : (s.cfg f v).rd g = (s.wr f v).rd g := rfl

theorem cfg_word_ne (s : State) (f : Fld) (v : Nat) {a : Nat} (h : a ≠ f.addr) : (s.cfg f v).word a = s.word a := word_wr_ne s f v h

theorem recordIds_changes (s : State) (g : Image) : (s.recordIds g).rd R.STP_LOADED_build = g.build % 2 ^ 32 ∧
    (s.recordIds g).rd R.STP_LOADED_epoch = g.epoch % 2 ^ 24 ∧ (s.recordIds g).moded = s.moded ∧
    (s.recordIds g).word R.UPD_STATUS = s.word R.UPD_STATUS := by
  unfold State.recordIds
  refine ⟨?_, ?_, (cfg_moded _ _ _).trans (cfg_moded s _ _), ?_⟩
  · rw [cfg_rd, rd_wr_lsb _ _ _ _ (by decide) (by decide) (by decide), cfg_rd, rd_wr_same _ _ _ (by decide)]
    rfl
  · rw [cfg_rd, rd_wr_same _ _ _ (by decide)]
    rfl
  · rw [cfg_word_ne _ _ _ (by decide), cfg_word_ne _ _ _ (by decide)]

/-- The digest's registers are neither of the Steep's words nor the housekeeper's status. -/
theorem recordDigest_changes (s : State) (g : Image) : (s.recordDigest g).moded = s.moded ∧
    ∀ a, a < 0x10010 ∨ 0x10030 ≤ a → (s.recordDigest g).word a = s.word a := by
  refine ⟨foldl_keeps State.moded _ (List.range 4) (by exact fun t _ _ => cfg_moded t _ _) s, fun a ha => ?_⟩
  refine foldl_keeps (fun t : State => t.word a) (fun (t : State) i => t.cfg (R.STP_DIGEST_digest i) (leAt g.digest (8 * i) 8))
    (List.range 4) (fun t i hi => cfg_word_ne t _ _ ?_) s
  have hi := List.mem_range.mp hi
  simp only [R.STP_DIGEST_digest, R.STP_DIGEST]
  omega

theorem recordSource_changes (s : State) (src time : Nat) : (s.recordSource src time).rd R.STP_STATUS_source = src % 4 ∧
    (s.recordSource src time).moded = s.moded ∧ ∀ a, a ≠ R.STP_STATUS → (s.recordSource src time).word a = s.word a := by
  unfold State.recordSource
  refine ⟨?_, (wr_moded _ _ _).trans (wr_moded s _ _), fun a ha => ?_⟩
  · rw [rd_wr_lsb _ _ _ _ (by decide) (by decide) (by decide), rd_wr_same _ _ _ (by decide)]
    rfl
  · rw [word_wr_ne _ _ _ ha, word_wr_ne _ _ _ ha]

/-- How long the Steep took, in microseconds, as far as the register holds. -/
def State.steepTime (s : State) : Nat := min ((s.clk - s.hub.steepAt) / 1000) (2 ^ 32 - 1)

/-- What a Steep loaded is recorded, and its end ends the retry. -/
def State.recordLoad (s : State) (g : Image) : State :=
  let t := (s.recordIds g).recordDigest g
  (t.recordSource t.hub.steepSrc t.steepTime).endRetry

theorem endRetry_word (s : State) (a : Nat) : s.endRetry.word a = s.word a := rfl

theorem endRetry_rd (s : State) (f : Fld) : s.endRetry.rd f = s.rd f := rfl

theorem endRetry_rest (s : State) : s.endRetry.hub = { s.hub with retried := false, nextSlot := none } ∧ s.endRetry.upd = s.upd ∧
    s.endRetry.now = s.now := ⟨rfl, rfl, rfl⟩

theorem rd_of_word {s t : State} (f : Fld) (h : s.word f.addr = t.word f.addr) : s.rd f = t.rd f :=
  congrArg (fget · f.lsb f.width) h

/-- What the record says, and what it leaves. -/
theorem recordLoad_changes (s : State) (g : Image) : (s.recordLoad g).rd R.STP_STATUS_source = s.hub.steepSrc % 4 ∧
    (s.recordLoad g).rd R.STP_LOADED_build = g.build % 2 ^ 32 ∧ (s.recordLoad g).rd R.STP_LOADED_epoch = g.epoch % 2 ^ 24 ∧
    (s.recordLoad g).hub = { s.hub with retried := false, nextSlot := none } ∧ (s.recordLoad g).upd = s.upd ∧
    (s.recordLoad g).now = s.now ∧ (s.recordLoad g).word R.UPD_STATUS = s.word R.UPD_STATUS := by
  obtain ⟨hbuild, hepoch, hidsModed, hidsWord⟩ := recordIds_changes s g
  obtain ⟨hdigestModed, hdigestWord⟩ := recordDigest_changes (s.recordIds g) g
  unfold State.recordLoad
  extract_lets t
  have htm : t.moded = s.moded := hdigestModed.trans hidsModed
  have hth : t.hub = s.hub := congrArg Prod.fst htm
  rw [hth]
  generalize t.steepTime = time
  obtain ⟨hsource, hvm, hvw⟩ := recordSource_changes t s.hub.steepSrc time
  generalize t.recordSource s.hub.steepSrc time = v at hsource hvm hvw ⊢
  have hloaded : v.word R.STP_LOADED = (s.recordIds g).word R.STP_LOADED := (hvw _ (by decide)).trans (hdigestWord _ (by decide))
  have hstatus : v.word R.UPD_STATUS = s.word R.UPD_STATUS := (hvw _ (by decide)).trans ((hdigestWord _ (by decide)).trans hidsWord)
  obtain ⟨hub, upd, now⟩ := endRetry_rest v
  have hm := hvm.trans htm
  simp only [State.moded, Prod.mk.injEq] at hm
  obtain ⟨hhub, hupd, hnow⟩ := hm
  rw [hub, hhub, upd, now, endRetry_word]
  rw [endRetry_rd, endRetry_rd, endRetry_rd]
  refine ⟨hsource, ?_, ?_, rfl, hupd, hnow, hstatus⟩
  · rw [← hbuild]
    exact rd_of_word _ hloaded
  · rw [← hepoch]
    exact rd_of_word _ hloaded

/-- The record, the full buckets and the report of what was due. -/
def State.steeped (s : State) (g : Image) : State := (s.recordLoad g).fillBuckets.reportDue

theorem steepEnds_eq (s : State) (g : Image) : s.steepEnds g =
    (if (s.steeped g).sealWord = 0 then (s.steeped g).setMode .quarantine 9 else (s.steeped g).setMode .safe 10).checkRates := rfl

theorem fillBuckets_changes (s : State) : s.fillBuckets.regs = s.regs ∧ s.fillBuckets.hub = s.hub ∧ s.fillBuckets.upd = s.upd ∧
    s.fillBuckets.now = s.now := by
  have h := fillBuckets_rest s
  generalize s.fillBuckets = t at h
  exact ⟨(congrArg State.regs h :), (congrArg State.hub h :), (congrArg State.upd h :), (congrArg State.now h :)⟩

/-- The seal in force is one of the settings of the running slot, unless the migration of the other failed. -/
theorem sealWord_congr {s t : State} (hw : t.word R.UPD_STATUS = s.word R.UPD_STATUS) (h0 : t.upd.copy0 = s.upd.copy0)
    (h1 : t.upd.copy1 = s.upd.copy1) (hb : t.upd.running = s.upd.running) : t.sealWord = s.sealWord := by
  have hfail : t.on R.UPD_STATUS_migration_fail = s.on R.UPD_STATUS_migration_fail := congrArg (fun w => fget w 48 1 != 0) hw
  unfold State.sealWord State.committed State.settingsOf
  rw [hfail, h0, h1, hb]

theorem steeped_changes (s : State) (g : Image) : (s.steeped g).rd R.STP_STATUS_source = s.hub.steepSrc % 4 ∧
    (s.steeped g).rd R.STP_LOADED_build = g.build % 2 ^ 32 ∧ (s.steeped g).rd R.STP_LOADED_epoch = g.epoch % 2 ^ 24 ∧
    (s.steeped g).hub = { s.hub with retried := false, nextSlot := none } ∧
    (s.steeped g).upd = { s.upd with fallbackDue := false, migrationDue := false } ∧ (s.steeped g).now = s.now ∧
    (s.steeped g).sealWord = s.sealWord := by
  obtain ⟨hsource, hbuild, hepoch, hhub, hupd, hnow, hword⟩ := recordLoad_changes s g
  unfold State.steeped
  generalize s.recordLoad g = t at *
  obtain ⟨hfr, hfh, hfu, hfn⟩ := fillBuckets_changes t
  generalize t.fillBuckets = v at *
  obtain ⟨hregs, hh, hn, hu⟩ := reportDue_changes v
  generalize v.reportDue = u at *
  have hw (a : Nat) : u.word a = t.word a := by rw [State.word, State.word, hregs, hfr]
  rw [hfu, hupd] at hu
  rw [rd_of_word _ (hw _), rd_of_word _ (hw _), rd_of_word _ (hw _), hh, hfh, hhub, hn, hfn, hnow]
  refine ⟨hsource, hbuild, hepoch, rfl, hu, rfl, ?_⟩
  exact sealWord_congr ((hw _).trans hword) (by rw [hu]) (by rw [hu]) (by rw [hu])

end Sys2Proof.Machine

namespace Sys2Proof.Machine

theorem entered_of_settled {s t u : State} {m : Mode} {row : Nat} (h : u.settled = t.settled) (k : Entered s t m row) : Entered s u m row := by
  obtain ⟨hmode, hrow, hprev, htime, hcount⟩ := k
  exact ⟨(congrArg (·.hub.mode) h :).trans hmode, (congrArg (·.hub.row) h :).trans hrow, (congrArg (·.hub.prev) h :).trans hprev,
    (congrArg (·.hub.modeTime) h :).trans htime, (congrArg (·.hub.transitions) h :).trans hcount⟩

/-- The mode that follows a Steep, and the check of the ring's rates: the record, the marks and the records of the housekeeper stay. -/
theorem setMode_checkRates (s : State) (m : Mode) (row : Nat) : Entered s (s.setMode m row).checkRates m row ∧
    (s.setMode m row).checkRates.steepWords = s.steepWords ∧ (s.setMode m row).checkRates.upd = s.upd ∧
    (s.setMode m row).checkRates.hub.retried = s.hub.retried ∧ (s.setMode m row).checkRates.hub.nextSlot = s.hub.nextSlot := by
  have hentered := setMode_entered s m row
  have hwords := setMode_steepWords s m row
  have hupd := setMode_upd s m row
  have hhub := setMode_hub s m row
  have hretried : (s.setMode m row).hub.retried = s.hub.retried := by rw [hhub]
  have hnext : (s.setMode m row).hub.nextSlot = s.hub.nextSlot := by rw [hhub]
  clear hhub
  generalize s.setMode m row = t at hentered hwords hupd hretried hnext ⊢
  have hsettled := checkRates_settled t
  have hchecked := (checkRates_steepWords t).trans hwords
  generalize t.checkRates = u at hsettled hchecked ⊢
  refine ⟨entered_of_settled hsettled hentered, hchecked, (congrArg State.upd hsettled :).trans hupd,
    (congrArg (·.hub.retried) hsettled :).trans hretried, (congrArg (·.hub.nextSlot) hsettled :).trans hnext⟩

/-- R121, R122: a Steep that succeeds ends in Quarantine where the hub is unsealed, and else in Safe, with its bit-stream recorded. -/
theorem steepEnds_entered (s : State) (g : Image) :
    (if s.sealWord = 0 then Entered s (s.steepEnds g) .quarantine 9 else Entered s (s.steepEnds g) .safe 10) ∧
    (s.steepEnds g).rd R.STP_STATUS_source = s.hub.steepSrc % 4 ∧ (s.steepEnds g).rd R.STP_LOADED_build = g.build % 2 ^ 32 ∧
    (s.steepEnds g).rd R.STP_LOADED_epoch = g.epoch % 2 ^ 24 ∧ (s.steepEnds g).hub.retried = false ∧
    (s.steepEnds g).hub.nextSlot = none ∧ (s.steepEnds g).upd.fallbackDue = false ∧ (s.steepEnds g).upd.migrationDue = false := by
  obtain ⟨hsource, hbuild, hepoch, hhub, hupd, hnow, hseal⟩ := steeped_changes s g
  rw [steepEnds_eq, hseal]
  generalize s.steeped g = t at *
  have hentered {u : State} {m : Mode} {row : Nat} (h : Entered t u m row) : Entered s u m row := by
    rw [Entered, hhub, hnow] at h
    exact h
  have hend (m : Mode) (row : Nat) : (t.setMode m row).checkRates.rd R.STP_STATUS_source = s.hub.steepSrc % 4 ∧
      (t.setMode m row).checkRates.rd R.STP_LOADED_build = g.build % 2 ^ 32 ∧
      (t.setMode m row).checkRates.rd R.STP_LOADED_epoch = g.epoch % 2 ^ 24 ∧ (t.setMode m row).checkRates.hub.retried = false ∧
      (t.setMode m row).checkRates.hub.nextSlot = none ∧ (t.setMode m row).checkRates.upd.fallbackDue = false ∧
      (t.setMode m row).checkRates.upd.migrationDue = false := by
    obtain ⟨-, hwords, hu, hr, hn⟩ := setMode_checkRates t m row
    generalize (t.setMode m row).checkRates = u at hwords hu hr hn ⊢
    rw [rd_of_steepWords hwords (.inl rfl), rd_of_steepWords hwords (.inr rfl), rd_of_steepWords hwords (.inr rfl), hu, hr, hn, hhub, hupd]
    exact ⟨hsource, hbuild, hepoch, rfl, rfl, rfl, rfl⟩
  by_cases h0 : s.sealWord = 0
  · rw [if_pos h0, if_pos h0]
    exact ⟨hentered (setMode_checkRates t .quarantine 9).1, hend .quarantine 9⟩
  · rw [if_neg h0, if_neg h0]
    exact ⟨hentered (setMode_checkRates t .safe 10).1, hend .safe 10⟩

theorem Alike.sealWord {s t : State} (h : Alike s t) : t.sealWord = s.sealWord :=
  sealWord_congr (h.word _ (by decide)) (by rw [h.upd]) (by rw [h.upd]) (by rw [h.upd])

theorem Alike.entered {s t u : State} (h : Alike s t) {m : Mode} {row : Nat} (k : Entered t u m row) : Entered s u m row := by
  rw [Entered, h.hub, h.now] at k
  exact k

/-! ### What ends a Steep -/

theorem component_sansFlashEcc (s : State) (b : Bool) (at_ cap : Nat) : s.sansFlashEcc.component b at_ cap = s.component b at_ cap := rfl

theorem readFlash_sansFlashEcc (s : State) (a n : Nat) : s.sansFlashEcc.readFlash a n = s.readFlash a n := rfl

/-- A read of the source leaves its bytes. -/
theorem noteSource_sourceBytes (s : State) (src : Nat) : (s.noteSource src).sourceBytes src = s.sourceBytes src := by
  have h := noteSource_sansFlashEcc s src
  generalize s.noteSource src = t at h ⊢
  have hreceived : t.rd R.STP_LOAD_STATUS_received = s.rd R.STP_LOAD_STATUS_received :=
    rd_of_word _ (by rw [← word_sansFlashEcc t (by decide), h, word_sansFlashEcc s (by decide)])
  unfold State.sourceBytes
  rw [hreceived, ← component_sansFlashEcc t, ← readFlash_sansFlashEcc t, h]
  rfl

theorem noteSource_hub (s : State) (src : Nat) : (s.noteSource src).hub = s.hub := (congrArg State.hub (noteSource_sansFlashEcc s src) :)

theorem steepComplete_good {s t : State} {g : Image} (hmode : s.hub.mode = .steep) (hfault : s.steepFault = none)
    (hg : g = imageOf (s.sourceBytes s.hub.steepSrc)) (ht : s.applyImage g = (t, none)) :
    ∃ u, s.steepComplete = u.steepEnds g ∧ Alike t u := by
  obtain ⟨u, hu, halike⟩ := applyImage_noteSource s.hub.steepSrc g ht
  refine ⟨u, ?_, halike⟩
  unfold State.steepComplete
  rw [if_neg (by simp [hmode]), hfault]
  dsimp only
  rw [noteSource_hub, noteSource_sourceBytes, ← hg, hu]

theorem steepComplete_bad {s : State} {c : Cause} (hmode : s.hub.mode = .steep) (hfault : s.steepFault = some c) :
    s.steepComplete = (s.noteSource s.hub.steepSrc).steepFailed c := by
  unfold State.steepComplete
  rw [if_neg (by simp [hmode]), hfault]

theorem steepFail_bad {s : State} {c : Cause} (storeError : Option (BitVec 32)) (hmode : s.hub.mode = .steep) (hfault : s.steepFault = some c) :
    s.steepFail storeError = (s.noteSource s.hub.steepSrc).steepFailed c := by
  unfold State.steepFail
  rw [if_neg (by simp [hmode]), hfault]

/-- The same for a Steep whose source has been read. -/
theorem steepFailed_read (s : State) (c : Cause) (hsrc : s.hub.steepSrc ≤ 1) : ∃ u, u = (s.noteSource s.hub.steepSrc).steepFailed c ∧ Entered s u .boot 5 ∧
    u.rd R.STP_STATUS_last_cause = c.code ∧ u.rd R.STP_STATUS_last_source = s.hub.steepSrc ∧ Keeps s u ∧
    (s.hub.retried = false → u.hub.retried = true ∧ u.hub.nextSlot = some (s.hub.steepSrc == 0) ∧ u.hub.bootFail = false) ∧
    (s.hub.retried = true → u.hub.bootFail = true ∧ u.errLow = true) := by
  have hread := noteSource_sansFlashEcc s s.hub.steepSrc
  generalize s.noteSource s.hub.steepSrc = t at hread ⊢
  have hhub : t.hub = s.hub := (congrArg State.hub hread :)
  have hnow : t.now = s.now := (congrArg State.now hread :)
  obtain ⟨hentered, hcause, hsource, hkeeps, hfirst, hsecond⟩ := steepFailed_entered t c (by rw [hhub]; exact hsrc)
  rw [hhub] at hsource hfirst hsecond
  rw [Entered, hhub, hnow] at hentered
  exact ⟨_, rfl, hentered, hcause, hsource, (keeps_of_anchor (anchor_of_sansFlashEcc hread)).trans hkeeps, hfirst, hsecond⟩

/-! ### The records that a start reads (R677) -/

theorem readRecords_blank {s : State} (h : s.upd.other = .blank) : s.readRecords.upd.boot = s.upd.boot := by
  unfold State.readRecords
  extract_lets t
  have hother : t.upd.other = s.upd.other := rfl
  rw [hother, h]
  rfl

theorem readRecords_held {s : State} {r : BootRec} (h : s.upd.other = .held r) :
    s.readRecords.upd.boot = if s.upd.boot.seq < r.seq then r else s.upd.boot := by
  unfold State.readRecords
  extract_lets t boot
  have hother : t.upd.other = s.upd.other := rfl
  have hboot : t.upd.boot = s.upd.boot := rfl
  rw [hother, h]
  dsimp only
  rw [hboot]
  split
  · rfl
  · exact hboot

/-- Reading the records changes the housekeeper's part of the state alone. -/
theorem readRecords_sansRecords (s : State) : s.readRecords.sansRecords = s.sansRecords := by
  unfold State.readRecords
  extract_lets t boot
  have ht : t.sansRecords = s.sansRecords := (setSettings_sansRecords _ _ _).trans (setSettings_sansRecords s _ _)
  split
  · split
    · exact ht
    · exact ht
  · exact ht
  · exact ht

end Sys2Proof.Machine

namespace Sys2Proof.Machine

/-! ### The Steep of a slot that starts (R121, R678) -/

/-- The count of failed Steeps in STP_STATUS. -/
def State.failCount (s : State) : Nat := s.rd R.STP_STATUS_fail_count

theorem failCount_of_steepWords {s t : State} (h : t.steepWords = s.steepWords) : t.failCount = s.failCount := rd_of_steepWords h (.inl rfl)

theorem wr_failCount (s : State) (f : Fld) (v : Nat) (hf : f.addr ≠ R.STP_STATUS) : (s.wr f v).failCount = s.failCount :=
  rd_of_word _ (word_wr_ne s f v hf.symm)

theorem wr_beyond (s : State) (f : Fld) (v : Nat) (hf : 0x10010 ≤ f.addr) : (s.wr f v).steepWords = s.steepWords := wr_steepWords s f v (.inr hf)

theorem unmarkPort_steepWords (s : State) (k : Nat) : (s.unmarkPort k).steepWords = s.steepWords := by
  have hstat (u : State) (f : Fld) (v : Nat) (hf : f.addr = R.PWP_STAT k) : (u.wr f v).steepWords = u.steepWords :=
    wr_beyond u f v (by rw [hf, R.PWP_STAT]; omega)
  unfold State.unmarkPort
  extract_lets t
  have ht : t.steepWords = s.steepWords := steepWords_ite (hstat s _ _ rfl) rfl
  clear_value t
  exact (hstat _ _ _ rfl).trans ht

theorem clearPortMarks_steepWords (s : State) : s.clearPortMarks.steepWords = s.steepWords :=
  foldl_keeps State.steepWords (fun t k => (t.unmarkPort k).refreshPort k) s.portList (fun t k hk =>
    (Follows.refreshPort _ k (Follows.mem_portList s hk)).steepWords.trans (unmarkPort_steepWords t k)) s

theorem switchPort_steepWords (s : State) (p : Nat) :
    (((((((((((s.wr (R.SWC_PORT_mirror_out p) 0).wr (R.SWC_PORT_mirror_in p) 0).wr (R.SWC_PORT_hold p) 2000).wr
      (R.SWC_PORT_orig_class p) (defaultClass p)).wr (R.SWC_ADMIT_reserve p) (defaultReserve p)).wr (R.SWC_ADMIT_lo p) 64).wr
      (R.SWC_ADMIT_hi p) 16384).wr (R.SWC_ADMIT_alpha p) 16).wr (R.SIV_ENTRY_default p) 1).wr (R.SIV_ENTRY_entry p) 0)).steepWords =
    s.steepWords := by
  have hport (u : State) (f : Fld) (v : Nat) (hf : f.addr = R.SWC_PORT p) : (u.wr f v).steepWords = u.steepWords :=
    wr_beyond u f v (by rw [hf, R.SWC_PORT]; omega)
  have hadmit (u : State) (f : Fld) (v : Nat) (hf : f.addr = R.SWC_ADMIT p) : (u.wr f v).steepWords = u.steepWords :=
    wr_beyond u f v (by rw [hf, R.SWC_ADMIT]; omega)
  have hentry (u : State) (f : Fld) (v : Nat) (hf : f.addr = R.SIV_ENTRY p) : (u.wr f v).steepWords = u.steepWords :=
    wr_beyond u f v (by rw [hf, R.SIV_ENTRY]; omega)
  rw [hentry _ _ _ rfl, hentry _ _ _ rfl, hadmit _ _ _ rfl, hadmit _ _ _ rfl, hadmit _ _ _ rfl, hadmit _ _ _ rfl,
    hport _ _ _ rfl, hport _ _ _ rfl, hport _ _ _ rfl, hport _ _ _ rfl]

theorem switchDefaults_steepWords (s : State) : s.switchDefaults.steepWords = s.steepWords := by
  unfold State.switchDefaults
  refine (foldl_keeps State.steepWords _ (List.range 24) (by exact fun t p _ => switchPort_steepWords t p) _).trans ?_
  exact (wr_beyond _ _ _ (by decide)).trans ((wr_beyond _ _ _ (by decide)).trans ((wr_beyond _ _ _ (by decide)).trans
    ((wr_beyond _ _ _ (by decide)).trans ((resetRange_steepWords _ _ (by decide)).trans (resetRange_steepWords s _ (by decide))))))

theorem emptyCaddy_steepWords (s : State) : (s.emptyCaddy false).steepWords = s.steepWords := by
  unfold State.emptyCaddy
  extract_lets t keys u v
  refine (foldl_keeps State.steepWords _ (List.range 24) (fun _ _ _ => by rfl) _).trans ?_
  exact wr_steepWords _ _ _ (by decide)

theorem emptyQueues_steepWords (s : State) : s.emptyQueues.steepWords = s.steepWords := by
  unfold State.emptyQueues
  refine (clearPortMarks_steepWords _).trans ?_
  have hfifos (t : State) : t.clearFifos.steepWords = t.steepWords := rfl
  exact (hfifos _).trans ((switchDefaults_steepWords _).trans ((emptyCaddy_steepWords _).trans
    (bump_steepWords { s with ring := { s.ring with strainer := [] } } _ (by decide))))

theorem clearEdges_word (s : State) (a : Nat) : s.clearEdges.word a = s.word a :=
  foldl_keeps (fun t : State => t.word a) _ s.bays.pins (fun _ _ _ => by rfl) s

/-- A Steep that starts leaves the count of those that failed. -/
theorem startSteep_failCount (s : State) (src row : Nat) : (s.startSteep src row).failCount = s.failCount := by
  have hmode := (setMode_steepWords s.endVerification .steep row).trans (endVerification_steepWords s)
  unfold State.startSteep
  generalize s.endVerification.setMode .steep row = t at hmode ⊢
  extract_lets t₁ hub t₂ t₂' t₃ t₄ ring switch time kettle t₅
  have h₂ : t₂'.failCount = t.failCount := by
    refine (rd_wr_lsb _ _ _ _ (by decide) (by decide) (by decide)).trans ?_
    exact (wr_failCount _ _ _ (by decide)).trans (wr_failCount t₂ _ _ (by decide))
  clear_value t₂'
  have h₃ : t₃.failCount = t₂'.failCount :=
    foldl_keeps State.failCount (fun (u : State) i => u.wr (R.STP_DIGEST_digest i) 0) (List.range 4)
      (fun u i _ => wr_failCount u _ _ (by simp only [R.STP_DIGEST_digest, R.STP_DIGEST, R.STP_STATUS]; omega)) t₂'
  have h₄ : t₄.failCount = t₃.failCount :=
    failCount_of_steepWords ((clearSelfFault_steepWords t₃.emptyQueues).trans (emptyQueues_steepWords t₃))
  clear_value t₃ t₄
  have h₅ : t₅.failCount = t₄.failCount := rfl
  clear_value t₅
  have h₆ : t₅.clearEdges.failCount = t₅.failCount := congrArg (fget · 48 8) (clearEdges_word t₅ R.STP_STATUS)
  refine (wr_failCount _ _ _ (by decide)).trans ((wr_failCount _ _ _ (by decide)).trans (h₆.trans (h₅.trans (h₄.trans (h₃.trans (h₂.trans ?_))))))
  exact failCount_of_steepWords hmode

/-- And it leaves the hub's note of a retry. -/
theorem startSteep_retried (s : State) (src row : Nat) : (s.startSteep src row).hub.retried = s.hub.retried := by
  have hanchor := startSteep_anchor s src row
  have hhub := setMode_hub s.endVerification .steep row
  have hv : s.endVerification.hub = s.hub := (congrArg State.hub (endVerification_still s) :)
  have hmode : (s.endVerification.setMode .steep row).hub.retried = s.hub.retried := by rw [hhub, hv]
  clear hhub
  generalize s.endVerification.setMode .steep row = t at *
  rw [hub_of_anchor hanchor]
  exact hmode

/-! ### Booting a slot (R678, R679) -/

/-- What counts in one boot starts anew, on the slot that is booted. -/
def State.beginBoot (s : State) (b : Bool) : State :=
  let t := (s.wr R.UPD_STATUS_migration_fail 0).wr R.UPD_STATUS_abandon_late 0
  { t with upd := { t.upd with
    running := b, trialNs := 0, abandoned := false, confirming := false, confirmEnded := false, migrationDue := false } }

theorem bootSlot_steep (s : State) (b : Bool) (h : (s.slotOf b).state ≠ 2) :
    s.bootSlot b = ((s.beginBoot b).takeBody b).startSteep (bit01 b) 6 := by
  have hslot : (s.beginBoot b).slotOf b = s.slotOf b := rfl
  exact if_neg fun k => h (hslot ▸ k.2)

theorem beginBoot_changes (s : State) (b : Bool) : ((s.beginBoot b).takeBody b).upd.running = b ∧
    ((s.beginBoot b).takeBody b).lasting = s.lasting ∧ ((s.beginBoot b).takeBody b).hub = s.hub ∧
    ((s.beginBoot b).takeBody b).failCount = s.failCount := by
  refine ⟨rfl, rfl, rfl, ?_⟩
  have h (t : State) (u : Upd) : { t with upd := u }.failCount = t.failCount := rfl
  exact (h _ _).trans ((h _ _).trans ((wr_failCount _ _ _ (by decide)).trans (wr_failCount s _ _ (by decide))))

/-- A slot that is not in TRIAL goes on to its Steep by row 6. -/
theorem bootSlot_entered (s : State) (b : Bool) (h : (s.slotOf b).state ≠ 2) : Entered s (s.bootSlot b) .steep 6 ∧
    (s.bootSlot b).hub.steepSrc = bit01 b ∧ (s.bootSlot b).upd.running = b ∧ (s.bootSlot b).switch.frames = [] ∧
    (s.bootSlot b).ring.strainer = [] ∧ Keeps s (s.bootSlot b) ∧ (s.bootSlot b).failCount = s.failCount ∧
    (s.bootSlot b).hub.retried = s.hub.retried := by
  rw [bootSlot_steep s b h]
  obtain ⟨hrunning, hlasting, hhub, hcount⟩ := beginBoot_changes s b
  have hnow : ((s.beginBoot b).takeBody b).now = s.now := (congrArg State.now hlasting :)
  generalize (s.beginBoot b).takeBody b = t at *
  obtain ⟨hentered, hkeeps, hupd, hsrc, -, -, hstrainer, hframes, -, -⟩ := startSteep_entered t (bit01 b) 6
  rw [Entered, hhub, hnow] at hentered
  rw [startSteep_failCount, startSteep_retried, hupd, hhub]
  exact ⟨hentered, hsrc, hrunning, hframes, hstrainer, (keeps_of_lasting hlasting).trans hkeeps, hcount, rfl⟩

/-- A read of a slot's firmware leaves the hub, the records and every register but the count of flash errors. -/
theorem noteFirmware_sansFlashEcc (s : State) (b : Bool) : (s.noteFirmware b).sansFlashEcc = s.sansFlashEcc := by
  unfold State.noteFirmware
  split
  · rfl
  · exact noteComponent_sansFlashEcc s b 16 2097152

theorem firmwareOk_sansFlashEcc (s : State) (b : Bool) : s.sansFlashEcc.firmwareOk b = s.firmwareOk b := rfl

theorem noteFirmware_firmwareOk (s : State) (b : Bool) : (s.noteFirmware b).firmwareOk b = s.firmwareOk b := by
  rw [← firmwareOk_sansFlashEcc, noteFirmware_sansFlashEcc, firmwareOk_sansFlashEcc]

end Sys2Proof.Machine

namespace Sys2Proof.Machine

/-! ### The start after the self-test (R24, R37, R677 to R679) -/

/-- Where no retry is due, the start boots the active slot or, by the strap, the other. -/
theorem selectSlot_strap {s : State} (hnext : s.hub.nextSlot = none) (hstrap : s.hub.strap = true) :
    s.selectSlot = (!s.readRecords.upd.boot.active, s.readRecords) := by
  have hhub : s.readRecords.hub = s.hub := (congrArg State.hub (readRecords_sansRecords s) :)
  unfold State.selectSlot
  dsimp only
  rw [hhub, hnext, hstrap]
  rfl

theorem selectSlot_active {s : State} (hnext : s.hub.nextSlot = none) (hstrap : s.hub.strap = false)
    (hstate : (s.readRecords.slotOf s.readRecords.upd.boot.active).state ≠ 2) :
    s.selectSlot = (s.readRecords.upd.boot.active, s.readRecords) := by
  have hhub : s.readRecords.hub = s.hub := (congrArg State.hub (readRecords_sansRecords s) :)
  unfold State.selectSlot
  dsimp only
  rw [hhub, hnext, hstrap, if_neg hstate]
  rfl

/-- A slot whose firmware matches is booted once its firmware has been read. -/
theorem selftestDone_ok {s t : State} {b : Bool} (hmode : s.hub.mode = .boot) (hreset : s.inReset = false) (hfail : s.hub.bootFail = false)
    (hselect : s.selectSlot = (b, t)) (hok : t.firmwareOk b = true) : s.selftestDone = (t.noteFirmware b).bootSlot b := by
  unfold State.selftestDone
  rw [if_neg (by simp [hmode, hreset, hfail]), hselect]
  dsimp only
  rw [if_pos ((noteFirmware_firmwareOk t b).trans hok)]

/-- The state after a slot has been found EMPTY: the failure is counted, and the other slot is to be tried (R23, R676). -/
def State.passEmpty (s : State) (b : Bool) : State := (s.noteSteepFailure (bit01 b) .signature).retryOther b

theorem noteSteepFailure_upd (s : State) (src : Nat) (c : Cause) : (s.noteSteepFailure src c).upd = s.upd ∧ (s.noteSteepFailure src c).hub = s.hub :=
  ⟨rfl, rfl⟩

theorem slotFailed_empty {s : State} {b : Bool} (hstate : (s.slotOf b).state = 0) (hretried : s.hub.retried = false) :
    (s.noteSteepFailure (bit01 b) .signature).slotFailed b .signature = s.passEmpty b := by
  obtain ⟨hupd, hhub⟩ := noteSteepFailure_upd s (bit01 b) .signature
  have hslot : ((s.noteSteepFailure (bit01 b) .signature).slotOf b).state = 0 := by rw [State.slotOf, hupd]; exact hstate
  unfold State.passEmpty
  generalize s.noteSteepFailure (bit01 b) .signature = t at *
  rw [slotFailed_first t b .signature (by rw [hhub]; exact hretried), State.steepFallback, if_neg (by rw [hslot]; decide)]

theorem firmwareOk_congr {s t : State} (hlasting : t.lasting = s.lasting) (hupd : t.upd = s.upd) (b : Bool) :
    t.firmwareOk b = s.firmwareOk b := by
  have h (u : State) : ({ u.lasting with upd := u.upd } : State).firmwareOk b = u.firmwareOk b := rfl
  rw [← h, ← h s, hlasting, hupd]

theorem passEmpty_changes (s : State) (b : Bool) : (s.passEmpty b).upd = s.upd ∧ (s.passEmpty b).lasting = s.lasting ∧
    (s.passEmpty b).failCount = min (s.failCount + 1) 255 ∧ (s.passEmpty b).hub = { s.hub with retried := true, nextSlot := some (!b) } := by
  obtain ⟨-, -, hcount⟩ := noteSteepFailure_rd s (bit01 b) .signature
  exact ⟨rfl, rfl, hcount, rfl⟩

theorem selftestDone_empty {s t : State} {b : Bool} (hmode : s.hub.mode = .boot) (hreset : s.inReset = false) (hfail : s.hub.bootFail = false)
    (hselect : s.selectSlot = (!b, t)) (ht : t.hub = s.hub) (hretried : s.hub.retried = false) (hempty : (t.slotOf (!b)).state = 0)
    (hok : t.firmwareOk b = true) : s.selftestDone = ((t.passEmpty (!b)).noteFirmware b).bootSlot b := by
  have hnone : t.noteFirmware (!b) = t := if_pos hempty
  have hbad : t.firmwareOk (!b) = false := by
    unfold State.firmwareOk
    rw [hempty]
    rfl
  obtain ⟨hupd, hlasting, -, hhub⟩ := passEmpty_changes t (!b)
  have hcontinue : (t.passEmpty (!b)).hub.bootFail = false := by
    rw [hhub, ht]
    exact hfail
  have hgood : (t.passEmpty (!b)).firmwareOk b = true := (firmwareOk_congr hlasting hupd b).trans hok
  unfold State.selftestDone
  rw [if_neg (by simp [hmode, hreset, hfail]), hselect]
  dsimp only
  rw [hnone, hbad, slotFailed_empty hempty (by rw [ht]; exact hretried), hcontinue, Bool.not_not, noteFirmware_firmwareOk, hgood]
  rfl

/-- What booting a slot whose firmware has been read leaves of the state before the read. -/
theorem bootRead_entered (s : State) (b : Bool) (h : (s.slotOf b).state ≠ 2) :
    ∃ u, u = (s.noteFirmware b).bootSlot b ∧ Entered s u .steep 6 ∧ u.hub.steepSrc = bit01 b ∧ u.upd.running = b ∧
    u.switch.frames = [] ∧ u.ring.strainer = [] ∧ Keeps s u ∧ u.failCount = s.failCount ∧ u.hub.retried = s.hub.retried := by
  have hread := noteFirmware_sansFlashEcc s b
  generalize s.noteFirmware b = t at hread ⊢
  have hhub : t.hub = s.hub := (congrArg State.hub hread :)
  have hnow : t.now = s.now := (congrArg State.now hread :)
  have hupd : t.upd = s.upd := (congrArg State.upd hread :)
  have hcount : t.failCount = s.failCount := rd_of_word _ (by rw [← word_sansFlashEcc t (by decide), hread, word_sansFlashEcc s (by decide)])
  obtain ⟨hentered, hsrc, hrunning, hframes, hstrainer, hkeeps, hfails, hretried⟩ :=
    bootSlot_entered t b (by rw [State.slotOf, hupd]; exact h)
  rw [Entered, hhub, hnow] at hentered
  exact ⟨_, rfl, hentered, hsrc, hrunning, hframes, hstrainer, (keeps_of_anchor (anchor_of_sansFlashEcc hread)).trans hkeeps,
    hfails.trans hcount, hretried.trans (by rw [hhub])⟩

theorem readRecords_leaves {s t : State} (ht : t = s.readRecords) : t.hub = s.hub ∧ t.failCount = s.failCount ∧ Keeps s t := by
  have h : t.sansRecords = s.sansRecords := ht ▸ readRecords_sansRecords s
  have hlasting : t.lasting = s.lasting := (congrArg State.lasting h :)
  exact ⟨(congrArg State.hub h :), (congrArg State.failCount h :), keeps_of_lasting hlasting⟩

/-- A change of mode is judged by the mode, the count of changes and the time before it. -/
theorem entered_congr {s t u : State} {m : Mode} {row : Nat} (hmode : t.hub.mode = s.hub.mode)
    (hcount : t.hub.transitions = s.hub.transitions) (hnow : t.now = s.now) (h : Entered t u m row) : Entered s u m row := by
  rw [Entered, hmode, hcount, hnow] at h
  exact h

theorem entered_of_same {s t u : State} {m : Mode} {row : Nat} (hhub : t.hub = s.hub) (hkeeps : Keeps s t) (h : Entered t u m row) :
    Entered s u m row := by
  obtain ⟨-, -, -, -, -, -, -, -, hnow, -⟩ := hkeeps
  exact entered_congr (by rw [hhub]) (by rw [hhub]) hnow h

theorem entered_of_passEmpty {s u : State} {b : Bool} {m : Mode} {row : Nat} (h : Entered (s.passEmpty b) u m row) : Entered s u m row := by
  obtain ⟨-, hlasting, -, hhub⟩ := passEmpty_changes s b
  obtain ⟨-, -, -, -, -, -, -, -, hnow, -⟩ := keeps_of_lasting hlasting
  exact entered_congr (by rw [hhub]) (by rw [hhub]) hnow h

theorem bit01_eq (b : Bool) : bit01 b = if b = true then 1 else 0 := by cases b <;> rfl

/-- Settles O11: the start selects and boots a slot, and each end of a Steep is one of the changes above; the read of the source before the
checks leaves all but the count of flash errors. -/
theorem bootAndSteepFollowTheTable : Obligations.BootAndSteepFollowTheTable := by
  refine ⟨fun s t hmode hreset hfail hnext hstrap ht hstate hok => ?_,
    fun s t hmode hreset hfail hnext hstrap hretried ht hempty hstate hok => ?_, fun s => readRecords_blank, fun s r => readRecords_held,
    fun s hmode hreset => ?_, fun s t g hmode hfault hg ht => ?_, fun s c storeError hmode hfault hsrc hretried => ?_,
    fun s c hmode hfault hsrc hretried => ?_⟩
  · have hselect := selectSlot_active hnext hstrap (by rw [← ht, hstate]; decide)
    rw [← ht] at hselect
    obtain ⟨hhub, -, hkeeps⟩ := readRecords_leaves ht
    obtain ⟨u, hu, hentered, hsrc, hrunning, hframes, hstrainer, hk, -, -⟩ := bootRead_entered t t.upd.boot.active (by rw [hstate]; decide)
    refine ⟨u, ?_, entered_of_same hhub hkeeps hentered, hsrc.trans (bit01_eq _), hrunning, hframes, hstrainer, hkeeps.trans hk⟩
    rw [hu, ← selftestDone_ok hmode hreset hfail hselect hok]
    rfl
  · have hselect := selectSlot_strap hnext hstrap
    rw [← ht] at hselect
    obtain ⟨hhub, hcount₀, hkeeps⟩ := readRecords_leaves ht
    obtain ⟨hupd, hlasting, hcount, hpassed⟩ := passEmpty_changes t (!t.upd.boot.active)
    have hk₀ := keeps_of_lasting hlasting
    obtain ⟨u, hu, hentered, hsrc, hrunning, -, -, hk, hfails, hretry⟩ :=
      bootRead_entered (t.passEmpty (!t.upd.boot.active)) t.upd.boot.active (by rw [State.slotOf, hupd]; exact hstate ▸ by decide)
    rw [hpassed] at hretry
    refine ⟨u, ?_, entered_of_same hhub hkeeps (entered_of_passEmpty hentered), hsrc.trans (bit01_eq _), hrunning, ?_, hretry,
      hkeeps.trans (hk₀.trans hk)⟩
    · rw [hu, ← selftestDone_empty hmode hreset hfail hselect hhub hretried hempty hok]
      rfl
    · rw [hcount, hcount₀] at hfails
      exact hfails
  · have hfails : s.selftestFail = s.failBoot 1 0 := if_pos ⟨hmode, by rw [hreset]; rfl⟩
    obtain ⟨hf, hlow, hm, hu, hk⟩ := failBoot_stays s 1 0
    rw [← hfails] at hf hlow hm hu hk
    exact ⟨_, rfl, hm.trans hmode, hf, hlow, hu, hk⟩
  · obtain ⟨u, hu, halike⟩ := steepComplete_good hmode hfault hg ht
    obtain ⟨hentered, hsource, hrest⟩ := steepEnds_entered u g
    rw [halike.sealWord] at hentered
    rw [halike.hub] at hsource
    rw [← hu] at hentered hsource hrest
    refine ⟨_, rfl, ?_, hsource, hrest⟩
    split at hentered
    · next h => exact (if_pos h).mpr (halike.entered hentered)
    · next h => exact (if_neg h).mpr (halike.entered hentered)
  · obtain ⟨u, hu, hentered, hcause, hsource, hkeeps, hfirst, -⟩ := steepFailed_read s c hsrc
    obtain ⟨hr, hn, hf⟩ := hfirst hretried
    refine ⟨u, ?_, hentered, hcause, hsource, hr, hn, hf, hkeeps⟩
    rw [hu, ← steepFail_bad storeError hmode hfault]
    rfl
  · obtain ⟨u, hu, hentered, hcause, -, hkeeps, -, hsecond⟩ := steepFailed_read s c hsrc
    obtain ⟨hf, hlow⟩ := hsecond hretried
    refine ⟨u, ?_, hentered, hcause, hf, hlow, hkeeps⟩
    rw [hu, ← steepComplete_bad hmode hfault]
    rfl

end Sys2Proof.Machine

namespace Sys2Proof.Machine

/-! ### What the Caddy's bookkeeping leaves alone -/

/-- The registers of the Caddy and of the performance counters. -/
abbrev caddyReg (a : Nat) : Prop := (0x32000 ≤ a ∧ a < 0x33000) ∨ pmcBlock a

/-- The state without the switch, the counts, the waiting events and the ECC marks. -/
def State.sansSwitch (s : State) : State := { s.sansCounts with switch := {}, eccMarks := [], raised := [] }

/-- What an output holds and sends: its queue, its transmitter and the frame last sent. -/
def State.lane (s : State) (q : Nat) : List Nat × Nat × Option Sent := ((s.outp q).queue, (s.outp q).busyUntil, (s.outp q).lastSent)

/-- A step within the switch: the rest of the state stays, and every register outside the Caddy's. -/
structure Along (s t : State) : Prop where
  rest : t.sansSwitch = s.sansSwitch
  word : ∀ a, ¬caddyReg a → t.word a = s.word a

/-- A step of the Caddy's bookkeeping: the frames, the queues and the lines stay too. -/
structure Calm (s t : State) : Prop extends Along s t where
  frames : t.switch.frames = s.switch.frames
  lane : ∀ q, t.lane q = s.lane q

namespace Along

variable {s t u : State}

theorem refl (s : State) : Along s s := ⟨rfl, fun _ _ => rfl⟩

theorem trans (h : Along s t) (k : Along t u) : Along s u := ⟨k.rest.trans h.rest, fun a ha => (k.word a ha).trans (h.word a ha)⟩

theorem rd (h : Along s t) {f : Fld} (hf : ¬caddyReg f.addr) : t.rd f = s.rd f := rd_of_word f (h.word _ hf)

theorem on (h : Along s t) {f : Fld} (hf : ¬caddyReg f.addr) : t.on f = s.on f := by rw [State.on, State.on, h.rd hf]

theorem hub (h : Along s t) : t.hub = s.hub := (congrArg State.hub h.rest :)

theorem time (h : Along s t) : t.time = s.time := (congrArg State.time h.rest :)

theorem clk (h : Along s t) : t.clk = s.clk := (congrArg State.clk h.rest :)

theorem variant (h : Along s t) : t.variant = s.variant := (congrArg State.variant h.rest :)

/-- The registers that stay are the same, and nothing but the switch has changed. -/
theorem of_switch (s : State) (w : Switch) : Along s { s with switch := w } := ⟨rfl, fun _ _ => rfl⟩

end Along

namespace Calm

variable {s t u : State}

theorem refl (s : State) : Calm s s := ⟨.refl s, rfl, fun _ => rfl⟩

theorem trans (h : Calm s t) (k : Calm t u) : Calm s u :=
  ⟨h.toAlong.trans k.toAlong, k.frames.trans h.frames, fun q => (k.lane q).trans (h.lane q)⟩

theorem of_sansCounts (h : t.sansCounts = s.sansCounts) (hw : ∀ a, ¬caddyReg a → t.word a = s.word a) : Calm s t where
  rest := congrArg (fun u : State => { u with switch := {}, eccMarks := [], raised := [] }) h
  word := hw
  frames := (congrArg (·.switch.frames) h :)
  lane q := (congrArg (fun u : State => u.lane q) h :)

theorem pmcBy (s : State) (cls ev x n : Nat) (a : Attrs) : Calm s (s.pmcBy cls ev x n a) :=
  of_sansCounts (pmcBy_sansCounts s cls ev x n a) fun _ hb => pmcBy_word s cls ev x n a fun h => hb (.inr h)

theorem pmcEv (s : State) (cls ev x : Nat) (a : Attrs) : Calm s (s.pmcEv cls ev x a) := pmcBy s cls ev x 1 a

theorem wr (s : State) (f : Fld) (v : Nat) (hf : caddyReg f.addr) : Calm s (s.wr f v) :=
  of_sansCounts (wr_sansCounts s f v) fun _ hb => word_wr_ne s f v fun h => hb (h ▸ hf)

theorem bump (s : State) (f : Fld) (hf : caddyReg f.addr) : Calm s (s.bump f) := wr s f _ hf

theorem raise (s : State) (src data : Nat) : Calm s (s.raise src data) := ⟨⟨rfl, fun _ _ => rfl⟩, rfl, fun _ => rfl⟩

theorem freshEcc (s : State) (m : EccMem) (i : Nat) : Calm s (s.freshEcc m i) := ⟨⟨rfl, fun _ _ => rfl⟩, rfl, fun _ => rfl⟩

theorem ite {c : Prop} [Decidable c] (h : Calm s t) (k : Calm s u) : Calm s (if c then t else u) := by
  split
  · exact h
  · exact k

theorem foldl {α : Type} {f : State → α → State} {l : List α} (h : ∀ t, ∀ a ∈ l, Calm t (f t a)) (s : State) : Calm s (l.foldl f s) :=
  List.foldlRecOn (motive := fun t => Calm s t) l f (refl s) fun t ht a ha => ht.trans (h t a ha)

end Calm

theorem outp_setOutp_same (s : State) (p : Nat) (o : Outp) : (s.setOutp p o).outp p = o := mget_mput_same _ _ _ _

theorem outp_setOutp_ne (s : State) {p q : Nat} (o : Outp) (h : q ≠ p) : (s.setOutp p o).outp q = s.outp q := mget_mput_ne _ _ _ h

theorem along_setOutp (s : State) (p : Nat) (o : Outp) : Along s (s.setOutp p o) := ⟨rfl, fun _ _ => rfl⟩

theorem frames_setOutp (s : State) (p : Nat) (o : Outp) : (s.setOutp p o).switch.frames = s.switch.frames := rfl

/-- An output whose accounts change keeps its queue and its line. -/
theorem calm_setOutp (s : State) (p : Nat) {o : Outp} (h : (o.queue, o.busyUntil, o.lastSent) = s.lane p) : Calm s (s.setOutp p o) where
  toAlong := along_setOutp s p o
  frames := frames_setOutp s p o
  lane q := by
    by_cases hq : q = p
    · rw [hq, ← h, State.lane, outp_setOutp_same]
    · rw [State.lane, outp_setOutp_ne s o hq, State.lane]

theorem calm_checkRisk (s : State) (p : Nat) : Calm s (s.checkRisk p) := by
  unfold State.checkRisk
  split
  · exact (Calm.wr s _ _ (.inl (by decide))).trans (calm_setOutp _ p rfl)
  · exact .refl s

theorem calm_checkRisks (s : State) : Calm s s.checkRisks := by
  unfold State.checkRisks
  split
  · exact .refl s
  · exact .foldl (fun t p _ => calm_checkRisk t p) s

theorem calm_charge (s : State) {p : Nat} (hp : p < 24) (n : Nat) (reserve : Bool) : Calm s (s.charge p n reserve) := by
  have hpeak : caddyReg (R.CAD_USED_peak p).addr := .inl (by simp only [R.CAD_USED_peak, R.CAD_USED]; omega)
  unfold State.charge
  extract_lets o o' t u
  have ht : Calm s t := calm_setOutp s p (by cases reserve <;> rfl)
  exact .ite (ht.trans (.wr t _ _ hpeak)) ht

theorem calm_noteLow (s : State) : Calm s s.noteLow := .ite (.wr s _ _ (.inl (by decide))) (.refl s)

theorem calm_writeLeaves (s : State) (leaves : List Nat) (f : Frame) : Calm s (s.writeLeaves leaves f) :=
  ⟨⟨rfl, fun _ _ => rfl⟩, rfl, fun _ => rfl⟩

theorem calm_noteCaddyWord (s : State) (m : EccMem) (i : Nat) : Calm s (s.noteCaddyWord m i) := by
  have hecc (t : State) (f : Fld) (hf : f.addr = R.CAD_ECC) : Calm t (t.bump f) := .bump t f (hf ▸ .inl (by decide))
  unfold State.noteCaddyWord
  split
  · exact .refl s
  · exact (hecc s _ rfl).trans (.freshEcc _ m i)
  · exact ((hecc s _ rfl).trans (.raise _ _ _)).trans (.freshEcc _ m i)

/-- Freeing a frame that has been read: it leaves the Caddy, and its leaves return. -/
theorem freeFrame_changes (s : State) (f : Stored) : Along s (s.freeFrame f true) ∧
    (s.freeFrame f true).switch.frames = s.switch.frames.filter (fun g => g.id != f.id) ∧ ∀ q, (s.freeFrame f true).lane q = s.lane q := by
  unfold State.freeFrame
  extract_lets lost left t u
  have ht : t = s := if_pos (.inr rfl)
  have hu : Calm s u := by
    simp only [u, ht]
    cases f.leaves.head? with
    | none => exact .refl s
    | some l => exact calm_noteCaddyWord s .caddyRef l
  clear_value u
  exact ⟨hu.toAlong.trans (.of_switch u _), congrArg (List.filter (fun g => g.id != f.id)) hu.frames, hu.lane⟩

end Sys2Proof.Machine

namespace Sys2Proof.Machine

/-! ### A frame that one output takes up and sends -/

/-- A frame of which one output holds the only queue entry, with nothing that holds it back. -/
structure Stored.Sole (f : Stored) (q : Nat) : Prop where
  outs : f.outs = [q]
  held : f.held = []
  launch : f.launch = none
  waited : f.waited = []

/-- The Caddy holds the frame `f` alone, and the output `q` the entry of it. -/
structure Holds (s : State) (f : Stored) (q : Nat) : Prop where
  frames : s.switch.frames = [f]
  queue : (s.outp q).queue = [f.id]

theorem stored_of_frames {s : State} {f : Stored} (h : s.switch.frames = [f]) : s.stored? f.id = some f := by
  rw [State.stored?, h, List.find?_cons_of_pos]
  exact beq_self_eq_true f.id

/-- The queue entry of output `q` is given up: the Caddy is empty then, and so is the queue. -/
theorem release_changes {s : State} {f : Stored} {q : Nat} (hf : f.Sole q) (hs : Holds s f q) : Along s (s.release q f.id true) ∧
    (s.release q f.id true).switch.frames = [] ∧ (s.release q f.id true).lane q = ([], (s.outp q).busyUntil, (s.outp q).lastSent) := by
  unfold State.release
  rw [stored_of_frames hs.frames]
  dsimp only
  generalize ho : (if f.fromReserve.contains q = true then _ else _ : Outp) = o
  have hlane : (o.queue, o.busyUntil, o.lastSent) = ([], (s.outp q).busyUntil, (s.outp q).lastSent) := by
    rw [← ho, hs.queue]
    split <;> simp
  have htouch (t : State) : t.touchKey q f = t := if_neg (by simp [hf.held])
  rw [htouch, hf.outs, if_pos (by simp)]
  obtain ⟨hfree, hframes, hlanes⟩ := freeFrame_changes (s.setOutp q o) f
  have hrisks := calm_checkRisks ((s.setOutp q o).freeFrame f true)
  refine ⟨((along_setOutp s q o).trans hfree).trans hrisks.toAlong, ?_, ?_⟩
  · rw [hrisks.frames, hframes, frames_setOutp, hs.frames]
    simp
  · rw [hrisks.lane, hlanes, State.lane, outp_setOutp_same, hlane]

/-- A frame put on a line is the one last sent there. -/
theorem putLine_changes (s : State) (q : Nat) (g : Frame) : Along s (s.putLine q g false) ∧
    (s.putLine q g false).switch.frames = s.switch.frames ∧
    ∃ busy, (s.putLine q g false).lane q = ((s.outp q).queue, busy, some ⟨g, false, s.tapEther q⟩) := by
  unfold State.putLine
  extract_lets o t
  have ht : Along s t := along_setOutp s q _
  have hlane : t.lane q = ((s.outp q).queue, s.clk + s.lineTime q g.size, some ⟨g, false, s.tapEther q⟩) := by
    rw [State.lane, outp_setOutp_same]
  have hframes : t.switch.frames = s.switch.frames := frames_setOutp s q _
  clear_value t
  have hu : Calm t ((t.pmcEv 3 1 q).pmcBy 3 5 q g.size) := (Calm.pmcEv t 3 1 q {}).trans (.pmcBy _ _ _ _ _ _)
  exact ⟨ht.trans hu.toAlong, hu.frames.trans hframes, _, (hu.lane q).trans hlane⟩

theorem transmit_unmirrored (s : State) (q : Nat) (g : Frame) (h : s.on R.SWC_CTRL_mirror = false) : s.transmit q g false = s.putLine q g false := by
  obtain ⟨halong, -, -⟩ := putLine_changes s q g
  have hm : (s.putLine q g false).on R.SWC_CTRL_mirror = false := by
    rw [halong.on (by decide), h]
  unfold State.transmit
  exact if_neg (by rw [hm]; simp)

/-! ### The other ring port (R231, R288) -/

theorem portFunction_main (s : State) {p : Nat} (hp : p < 2) : s.portFunction p = 1 := if_pos hp

theorem ringPort_main (s : State) {p : Nat} (hp : p < 2) : s.ringPort p = true := by
  unfold State.ringPort State.portPresent
  rw [portFunction_main s hp]
  have h : p ≠ 2 ∧ p ≠ 3 ∧ ¬16 ≤ p := by omega
  simp [h, show p < 4 by omega, show p < 24 by omega]

theorem tapPort_main (s : State) {p : Nat} (hp : p < 2) : s.tapPort p = false := by
  unfold State.tapPort
  rw [portFunction_main s hp]
  simp

theorem tapEther_main (s : State) {p : Nat} (hp : p < 2) : s.tapEther p = none := if_neg (by omega)

theorem ftype_withHops (g : Frame) (n : Nat) : (g.withHops n).ftype = g.ftype :=
  fget_fset_ne _ _ _ _ _ _ (by decide) (by decide) (.inl (by decide))

/-- The form in which a frame passes on round the ring. -/
def passedOn (g : Frame) : Frame := (g.withHops (g.hops + 1)).seal

theorem sendForm_passed {s : State} {f : Stored} {q : Nat} (hq : q < 2) (hi : f.ingress < 2) (htype : f.frame.ftype = 1) :
    s.sendForm f q = passedOn f.frame := by
  have hg : (f.frame.withHops (f.frame.hops + 1)).ftype = 1 := (ftype_withHops _ _).trans htype
  unfold State.sendForm
  extract_lets g g₁ g₂
  rw [if_neg (by rw [tapPort_main s hq]; decide), if_neg (by rw [ringPort_main s hq]; decide),
    if_pos ⟨by omega, ringPort_main s hi, by simp [hi, hq]⟩]
  exact congrArg Frame.seal (if_neg fun h => absurd (hg.symm.trans h.1) (by decide))

theorem readOut_plain {s : State} {f : Stored} {q : Nat} (hq : q < 2) (hi : f.ingress < 2) (htype : f.frame.ftype = 1) :
    s.readOut f q = (s, f) := by
  have hpour : s.servesPour f.frame f.ingress = false := by simp [State.servesPour, State.ownPour, htype]
  have htime (msg : Nat) : f.ownTime msg = false := by
    have h : f.ingress ≠ 7 := by omega
    simp [Stored.ownTime, h]
  unfold State.readOut
  rw [if_neg (by omega), if_neg (by simp [hpour]), htime, htime, htime]
  rfl

/-! ### The start of the frame at its output -/

/-- An output sends the only frame of the Caddy, of which it holds the only entry. -/
theorem startFrame_changes {s : State} {f : Stored} {q : Nat} (hq : q < 2) (hi : f.ingress < 2) (htype : f.frame.ftype = 1) (hf : f.Sole q)
    (hs : Holds s f q) (hmirror : s.on R.SWC_CTRL_mirror = false) : Along s (s.startFrame f q false) ∧
    (s.startFrame f q false).switch.frames = [] ∧
    ∃ busy, (s.startFrame f q false).lane q = ([], busy, some ⟨passedOn f.frame, false, none⟩) := by
  have hpassed : (passedOn f.frame).ftype = 1 := (ftype_withHops _ _).trans htype
  have hdual (t : State) : t.ownDual f = false := by simp [State.ownDual, ringPort_main t hi, show f.ingress < 4 by omega]
  obtain ⟨halong, hframes, busy, hlane⟩ := putLine_changes s q (passedOn f.frame)
  rw [tapEther_main s hq] at hlane
  unfold State.startFrame
  rw [readOut_plain hq hi htype]
  dsimp only
  rw [sendForm_passed hq hi htype, hf.waited]
  simp only [Bool.false_eq_true, if_false]
  rw [transmit_unmirrored s q _ hmirror]
  generalize s.putLine q (passedOn f.frame) false = t at halong hframes hlane ⊢
  have hguards : ¬(q < 2 ∧ (passedOn f.frame).ftype = 2 ∧ (!(passedOn f.frame).pourRet) = true) := by simp [hpassed]
  simp only [Bool.false_eq_true, if_false, List.contains_nil, hguards, hdual, and_false]
  have hqueue : (t.outp q).queue = [f.id] := (congrArg Prod.fst hlane).trans hs.queue
  have hsent : (t.outp q).lastSent = some ⟨passedOn f.frame, false, none⟩ := congrArg (·.2.2) hlane
  obtain ⟨hrelease, hempty, hfreed⟩ := release_changes hf ⟨hframes.trans hs.frames, hqueue⟩
  rw [hsent] at hfreed
  exact ⟨halong.trans hrelease, hempty, _, hfreed⟩

end Sys2Proof.Machine

namespace Sys2Proof.Machine

/-! ### The frame is stored (R276, R281, R285) -/

theorem portPresent_main (s : State) {p : Nat} (hp : p < 2) : s.portPresent p = true := by
  have h := ringPort_main s hp
  simp only [State.ringPort, Bool.and_eq_true] at h
  exact h.1.2

/-- A ring output that is up admits what R285 admits. -/
theorem admitAt_main {s : State} {free q : Nat} {f : Stored} {r : Bool} (hq : q < 2) (hdown : s.portDown q = false)
    (hadmits : s.admitsOf free q f.cls f.frame.leaves = some r) : s.admitAt free f q = (s.charge q f.frame.leaves r, some r) := by
  unfold State.admitAt
  rw [if_neg (by rw [portPresent_main s hq]; decide), if_neg (by rw [hdown]; simp), if_neg (by rw [tapPort_main s hq]; simp)]
  dsimp only
  rw [if_neg (by omega), hadmits]

/-- The frame is in the Caddy, and no output has an entry of it yet. -/
def State.storeFrame (s : State) (f : Stored) (n : Nat) : State :=
  { s with
    fresh := s.fresh + n
    switch := { s.switch with frames := s.switch.frames ++ [f], nextId := s.switch.nextId + 1, writer := f.ingress } }

/-- The frame with its id and its leaves, of which output `q` has the only entry; `t` is the state with the charge made. -/
def State.asStored (s t : State) (f : Stored) (q : Nat) (r : Bool) : Stored :=
  { f with
    id := s.switch.nextId, outs := [q], fromReserve := if r then f.fromReserve ++ [q] else f.fromReserve
    waited := if t.portDown q then f.waited ++ [q] else f.waited, leaves := pickLeaves f.frame.leaves t.leavesUsed t.fresh }

/-- Output `q` has an entry of frame `id`. -/
def State.queueAt (s : State) (q id : Nat) : State := (s.setOutp q { s.outp q with queue := (s.outp q).queue ++ [id] }).pmcEv 3 0 q

/-- What storing `g` makes of the state with its charge made. -/
def State.storeAt (s : State) (g : Stored) (q : Nat) : State :=
  (((s.storeFrame g g.frame.leaves).writeLeaves g.leaves g.frame).checkRisks.queueAt q g.id).noteLow

theorem portDown_of_along {s t : State} (h : Along s t) {q : Nat} (hq : q < 2) : t.portDown q = s.portDown q := by
  have hport : ¬caddyReg (R.RING_PORT_up q).addr := by simp only [caddyReg, pmcBlock, R.RING_PORT_up, R.RING_PORT]; omega
  unfold State.portDown
  rw [if_pos (by omega), if_pos (by omega), h.on hport]

theorem enqueue_eq {s : State} {f : Stored} {q : Nat} {r : Bool} (hq : q < 2) (hdown : s.portDown q = false)
    (hadmits : s.admits q f.cls f.frame.leaves = some r) :
    s.enqueue f [q] false =
      let t := s.charge q f.frame.leaves r
      let g := s.asStored t f q r
      (t.storeAt g q, ((t.storeAt g q).stored? g.id).getD g) := by
  unfold State.enqueue
  extract_lets f₀ free t g
  have hadmit : s.admitAt free f₀ q = (t, some r) := admitAt_main hq hdown hadmits
  simp only [List.foldl_cons, List.foldl_nil]
  rw [hadmit]
  clear_value t
  rfl

/-- Storing a frame for one output: the Caddy and the output's queue have it besides what they had. -/
theorem storeAt_changes (s : State) (g : Stored) (q : Nat) : Along s (s.storeAt g q) ∧
    (s.storeAt g q).switch.frames = s.switch.frames ++ [g] ∧
    (s.storeAt g q).lane q = ((s.outp q).queue ++ [g.id], (s.outp q).busyUntil, (s.outp q).lastSent) := by
  unfold State.storeAt
  have hstore : Along s (s.storeFrame g g.frame.leaves) := ⟨rfl, fun _ _ => rfl⟩
  have hframes : (s.storeFrame g g.frame.leaves).switch.frames = s.switch.frames ++ [g] := rfl
  have hlane : (s.storeFrame g g.frame.leaves).lane q = s.lane q := rfl
  generalize s.storeFrame g g.frame.leaves = t at *
  have hwrite := (calm_writeLeaves t g.leaves g.frame).trans (calm_checkRisks _)
  generalize (t.writeLeaves g.leaves g.frame).checkRisks = u at *
  have hqueue : Calm (u.setOutp q { u.outp q with queue := (u.outp q).queue ++ [g.id] }) (u.queueAt q g.id).noteLow :=
    (Calm.pmcEv _ 3 0 q {}).trans (calm_noteLow _)
  have hu := (hwrite.lane q).trans hlane
  simp only [State.lane, Prod.mk.injEq] at hu
  obtain ⟨hold, hbusy, hsent⟩ := hu
  refine ⟨((hstore.trans hwrite.toAlong).trans (along_setOutp u q _)).trans hqueue.toAlong, ?_, ?_⟩
  · rw [hqueue.frames, frames_setOutp, hwrite.frames, hframes]
  · rw [hqueue.lane, State.lane, outp_setOutp_same, hold, hbusy, hsent]

/-- The frame is stored, in an empty Caddy and for an output whose queue is empty. -/
theorem enqueue_one {s : State} {f : Stored} {q : Nat} {r : Bool} (hq : q < 2) (hdown : s.portDown q = false)
    (hadmits : s.admits q f.cls f.frame.leaves = some r) (hempty : s.switch.frames = []) (hqueue : (s.outp q).queue = [])
    (hheld : f.held = []) (hlaunch : f.launch = none) (hwaited : f.waited = []) :
    ∃ u g, s.enqueue f [q] false = (u, g) ∧ Along s u ∧ Holds u g q ∧ g.Sole q ∧ g.frame = f.frame ∧ g.ingress = f.ingress ∧
      (u.outp q).busyUntil = (s.outp q).busyUntil := by
  rw [enqueue_eq hq hdown hadmits]
  dsimp only
  have hcharge := calm_charge s (show q < 24 by omega) f.frame.leaves r
  generalize s.charge q f.frame.leaves r = t at *
  have hg : (s.asStored t f q r).Sole q := ⟨rfl, hheld, hlaunch, by
    rw [State.asStored, portDown_of_along hcharge.toAlong hq, hdown]
    exact hwaited⟩
  have hframe : (s.asStored t f q r).frame = f.frame := rfl
  have hingress : (s.asStored t f q r).ingress = f.ingress := rfl
  generalize s.asStored t f q r = g at *
  obtain ⟨halong, hframes, hlane⟩ := storeAt_changes t g q
  generalize t.storeAt g q = u at *
  rw [hcharge.frames, hempty] at hframes
  have hold := hcharge.lane q
  simp only [State.lane, Prod.mk.injEq] at hold hlane
  obtain ⟨hq₀, hbusy₀, -⟩ := hold
  obtain ⟨hq₁, hbusy₁, -⟩ := hlane
  rw [hq₀, hqueue] at hq₁
  refine ⟨u, g, ?_, hcharge.toAlong.trans halong, ⟨hframes, hq₁⟩, hg, hframe, hingress, hbusy₁.trans hbusy₀⟩
  rw [stored_of_frames hframes]
  rfl

end Sys2Proof.Machine

namespace Sys2Proof.Machine

/-! ### The frame leaves before its tail (R292) -/

/-- What `State.idleAtHead` says of the output stays while the output's line and the time do. -/
theorem idleAtHead_congr {s t : State} {q : Nat} (rx : RxFrame) (hbusy : (t.outp q).busyUntil = (s.outp q).busyUntil) (hclk : t.clk = s.clk) :
    t.idleAtHead q rx = s.idleAtHead q rx := by
  unfold State.idleAtHead State.headAt
  rw [hbusy, hclk]

/-- Nothing holds the only frame of the Caddy back at an output that was idle when its head came. -/
theorem couldCut_sole {s : State} {g : Stored} {q : Nat} {rx : RxFrame} (hq : q < 2) (hdown : s.portDown q = false) (hg : g.Sole q)
    (hs : Holds s g q) (hidle : s.idleAtHead q rx = true) (hlaunches : s.time.launches = []) (hdeadline : g.frame.deadline = 0)
    (hlength : 28 ≤ g.frame.payload.length) : s.couldCut g q rx = true := by
  have hbusy : (s.outp q).busyUntil ≤ s.clk := by
    unfold State.idleAtHead State.headAt at hidle
    simp only [Bool.and_eq_true, decide_eq_true_eq] at hidle
    omega
  have hstale (t : State) : t.frameStale g.frame = false := by simp [State.frameStale, hdeadline]
  have hlaunch (t n : Nat) : (s.clocksAt t).launchBlocks q g.cls n = false := by
    have hl : (s.clocksAt t).time.launches = [] := hlaunches
    have hf : (s.clocksAt t).switch.frames = [g] := hs.frames
    simp [State.launchBlocks, hl, hf, hg.launch]
  unfold State.couldCut
  extract_lets h
  rw [hstale, hlaunch, hdown, hs.queue]
  simp [hq, hg.outs, hg.held, hbusy]
  omega

theorem guardStops_off {s : State} {g : Stored} {q : Nat} {rx : RxFrame} (h : s.rd R.SWC_GUARD_enable = 0) : s.guardStops g q rx = false := by
  have hoff (t : Nat) : (s.clocksAt t).bitOn R.SWC_GUARD_enable q = false := by
    have hr : (s.clocksAt t).rd R.SWC_GUARD_enable = 0 := h
    rw [State.bitOn, hr]
    simp [bitAt]
  unfold State.guardStops State.guardBlocks
  rw [hoff]
  simp

theorem bump_switch (s : State) (f : Fld) : (s.bump f).switch = s.switch := rfl

/-- A frame that is cut through is counted and sent, and the Caddy is empty. -/
theorem cut_changes {s : State} {g : Stored} {q : Nat} (hq : q < 2) (hi : g.ingress < 2) (htype : g.frame.ftype = 1) (hg : g.Sole q)
    (hs : Holds s g q) (hmirror : s.on R.SWC_CTRL_mirror = false) : Along (s.bump (R.SWC_XCNT_count 0)) (s.cut g q false) ∧
    (s.cut g q false).switch.frames = [] ∧ ∃ busy, (s.cut g q false).lane q = ([], busy, some ⟨passedOn g.frame, false, none⟩) := by
  have hword : (s.bump (R.SWC_XCNT_count 0)).word R.SWC_CTRL_mirror.addr = s.word R.SWC_CTRL_mirror.addr := word_wr_ne s _ _ (by decide)
  have hon : (s.bump (R.SWC_XCNT_count 0)).on R.SWC_CTRL_mirror = s.on R.SWC_CTRL_mirror := by
    rw [State.on, State.on, rd_of_word _ hword]
  have hswitch := bump_switch s (R.SWC_XCNT_count 0)
  unfold State.cut
  generalize s.bump (R.SWC_XCNT_count 0) = t at *
  have hcalm := Calm.pmcEv t 3 2 q {}
  generalize t.pmcEv 3 2 q {} = u at *
  have hqueue : (u.outp q).queue = (s.outp q).queue := by
    have h := congrArg Prod.fst (hcalm.lane q)
    rw [State.lane, State.lane, State.outp, State.outp, hswitch] at h
    exact h
  have hu : Holds u g q := ⟨by rw [hcalm.frames, hswitch, hs.frames], hqueue.trans hs.queue⟩
  obtain ⟨halong, hframes, hlane⟩ := startFrame_changes hq hi htype hg hu (by rw [hcalm.on (by decide), hon, hmirror])
  exact ⟨hcalm.toAlong.trans halong, hframes, hlane⟩

theorem startedEarly_changes (s t : State) (q : Nat) (rx : RxFrame) : Along t (s.startedEarly t q rx) ∧
    (s.startedEarly t q rx).switch.frames = t.switch.frames ∧ ((s.startedEarly t q rx).outp q).queue = (t.outp q).queue ∧
    ((s.startedEarly t q rx).outp q).lastSent = (t.outp q).lastSent := by
  unfold State.startedEarly
  exact ⟨along_setOutp t q _, frames_setOutp t q _, by rw [outp_setOutp_same], by rw [outp_setOutp_same]⟩

/-- A frame whose tail has come leaves by the opposite port, where that was idle at its head: it is cut through. -/
theorem cutGood_changes {s : State} {g : Stored} {rx : RxFrame} {q : Nat} (hp : rx.port.val < 2) (hq : q = opposite rx.port.val) (hq2 : q < 2)
    (hi : g.ingress < 2) (htype : g.frame.ftype = 1) (hg : g.Sole q) (hs : Holds s g q) (hmirror : s.on R.SWC_CTRL_mirror = false)
    (hcould : s.couldCut g q rx = true) (hguard : s.rd R.SWC_GUARD_enable = 0) (hidle : s.idleAtHead q rx = true) :
    Along (s.bump (R.SWC_XCNT_count 0)) (s.cutGood g rx) ∧ (s.cutGood g rx).switch.frames = [] ∧
    ((s.cutGood g rx).outp q).queue = [] ∧ ((s.cutGood g rx).outp q).lastSent = some ⟨passedOn g.frame, false, none⟩ := by
  obtain ⟨hcut, hframes, busy, hlane⟩ := cut_changes hq2 hi htype hg hs hmirror
  obtain ⟨hearly, hearlyFrames, hearlyQueue, hearlySent⟩ := startedEarly_changes s (s.cut g q false) q rx
  unfold State.cutGood
  dsimp only
  rw [← hq, if_neg (by rw [hcould]; simp; omega), if_neg (by rw [guardStops_off hguard]; decide), if_pos hidle]
  simp only [State.lane, Prod.mk.injEq] at hlane
  obtain ⟨hqueue, -, hsent⟩ := hlane
  exact ⟨hcut.trans hearly, hearlyFrames.trans hframes, hearlyQueue.trans hqueue, hearlySent.trans hsent⟩

end Sys2Proof.Machine

namespace Sys2Proof.Machine

/-! ### What R230 to R232 read stays while the Caddy's bookkeeping goes on -/

namespace Along

variable {s t : State}

theorem portFunction (h : Along s t) {p : Nat} (hp : p < 4) : t.portFunction p = s.portFunction p := by
  have hport : ¬caddyReg (R.RING_PORT_function p).addr := by
    simp only [caddyReg, pmcBlock, R.RING_PORT_function, R.RING_PORT]
    omega
  rw [State.portFunction, State.portFunction, h.rd hport]

theorem portPresent (h : Along s t) (p : Nat) : t.portPresent p = s.portPresent p := by rw [State.portPresent, State.portPresent, h.variant]

theorem ringPort (h : Along s t) {p : Nat} (hp : p < 4) : t.ringPort p = s.ringPort p := by
  rw [State.ringPort, State.ringPort, h.portPresent, h.portFunction hp]

theorem isCoupler (h : Along s t) : t.isCoupler = s.isCoupler := by
  rw [State.isCoupler, State.isCoupler, State.hasSub, State.hasSub, h.ringPort (by decide), h.ringPort (by decide), h.on (by decide)]

theorem ringOf (h : Along s t) (p : Nat) : t.ringOf p = s.ringOf p := by
  rw [State.ringOf, State.ringOf, h.rd (by decide), h.rd (by decide)]

theorem nodeOf (h : Along s t) (p : Nat) : t.nodeOf p = s.nodeOf p := by rw [State.nodeOf, State.nodeOf, h.hub, h.rd (by decide)]

theorem ringLen (h : Along s t) (p : Nat) : t.ringLen p = s.ringLen p := by
  rw [State.ringLen, State.ringLen, h.rd (by decide), h.rd (by decide)]

theorem headFault (h : Along s t) {p : Nat} (hp : p < 4) (f : Frame) : t.headFault p f = s.headFault p f := by
  have hnamed (r : Nat) : t.ringNamed p r = s.ringNamed p r := by
    rw [State.ringNamed, State.ringNamed, h.ringOf, h.ringOf, h.ringOf, h.isCoupler]
  rw [State.headFault, State.headFault, h.ringPort hp, hnamed, hnamed, h.portFunction hp]

theorem tailFault (h : Along s t) (rx : RxFrame) : t.tailFault rx = s.tailFault rx := by
  have hp := h.portFunction rx.port.isLt
  rw [State.tailFault, State.tailFault, State.tapPort, State.tapPort, State.crcMatches, State.crcMatches, hp]

theorem addressed (h : Along s t) (f : Frame) (p : Nat) : t.addressed f p = s.addressed f p := by
  rw [State.addressed, State.addressed, State.ownFrame, State.ownFrame, h.ringOf, h.nodeOf]

theorem forwardsRound (h : Along s t) (f : Frame) (p : Nat) : t.forwardsRound f p = s.forwardsRound f p := by
  rw [State.forwardsRound, State.forwardsRound, h.ringOf, h.nodeOf, h.ringLen]

end Along

/-! ### Flow entries -/

/-- The registers of the flow table that are listed. -/
def State.flowRegs (s : State) : List (Nat × Word) := s.regs.filter (fun kv => 0x38000 ≤ kv.1 ∧ kv.1 < 0x40000)

theorem flowEntry_congr {s t : State} (h : t.flowRegs = s.flowRegs) (flow : Nat) : t.flowEntry flow = s.flowEntry flow := by
  unfold State.flowRegs at h
  rw [State.flowEntry, State.flowEntry, h]

theorem wr_flowRegs (s : State) (f : Fld) (v : Nat) (hf : f.addr < 0x38000 ∨ 0x40000 ≤ f.addr) : (s.wr f v).flowRegs = s.flowRegs := by
  have h (m : List (Nat × Word)) : (m.filter (fun kv => kv.1 != f.addr)).filter (fun kv => 0x38000 ≤ kv.1 ∧ kv.1 < 0x40000) =
      m.filter (fun kv => 0x38000 ≤ kv.1 ∧ kv.1 < 0x40000) := by
    rw [List.filter_filter]
    refine List.filter_congr fun kv _ => ?_
    by_cases hkv : kv.1 = f.addr
    · simp [hkv]
      omega
    · simp [hkv]
  rw [State.flowRegs, State.flowRegs, ← h, ← h s.regs]
  exact congrArg _ (mput_filter_ne (resetWord f.addr) s.regs f.addr _)

theorem pmcAdd_flowRegs (s : State) (h : Tally) (hi : h.counter < 64) : (s.pmcAdd h).flowRegs = s.flowRegs := by
  have hcnt : (R.PMC_CNT_count h.counter).addr < 0x38000 ∨ 0x40000 ≤ (R.PMC_CNT_count h.counter).addr := by
    simp only [R.PMC_CNT_count, R.PMC_CNT]
    omega
  have hovf : R.PMC_OVF_ovf.addr < 0x38000 ∨ 0x40000 ≤ R.PMC_OVF_ovf.addr := by decide
  unfold State.pmcAdd
  dsimp only
  split
  · exact wr_flowRegs _ _ _ hcnt
  · split <;> exact (wr_flowRegs _ _ _ hovf).trans (wr_flowRegs _ _ _ hcnt)

theorem pmcBy_flowRegs (s : State) (cls ev x n : Nat) (a : Attrs) : (s.pmcBy cls ev x n a).flowRegs = s.flowRegs := by
  unfold State.pmcBy
  split
  · rfl
  · refine foldl_keeps State.flowRegs _ _ (fun t kv hkv => ?_) s
    have hrange := (List.mem_filter.mp hkv).2
    simp only [decide_eq_true_eq] at hrange
    dsimp only
    split
    · rfl
    · exact pmcAdd_flowRegs t _ (show (kv.1 - 0x80100) / 8 < 64 by omega)

/-! ### Where the frame goes (R231, R232, R277) -/

/-- A frame that is for another hub of its ring goes on round the ring alone. -/
theorem choose_forward {s : State} {rx : RxFrame} (hp : rx.port.val < 2) (htype : rx.frame.ftype = 1)
    (hring : rx.frame.dstRing = s.ringOf rx.port.val) (haddressed : s.addressed rx.frame rx.port.val = false)
    (hforward : s.forwardsRound rx.frame rx.port.val = true) :
    s.choose rx true = (s, [opposite rx.port.val], [], { forwards := true }) := by
  have hpeer : peerFrame rx.frame = false := by simp [peerFrame, htype]
  have hcross : s.crosses rx.frame rx.port.val = false := by simp [State.crosses, hring]
  unfold State.choose
  dsimp only
  rw [hpeer, haddressed, hforward, hcross, ringPort_main s hp]
  simp

/-- A verdict without ROUTE adds no output. -/
theorem routed_zero (s : State) (f : Frame) (i : Nat) : s.routed f i 0 = [] := by
  have h : maskPorts 0 = [] := by decide
  rw [State.routed, h, List.filter_nil]

/-- An ingress port with the default program and no flow entry for the frame. -/
theorem route_plain {s : State} {f : Frame} {p q : Nat} {way : Way} (hdefault : s.on (R.SIV_ENTRY_default p) = true) (hp : p < 2)
    (hmirror : s.on R.SWC_CTRL_mirror = false) (hentry : s.flowEntry f.flow = none) (htype : f.ftype = 1) :
    s.route f p [q] [] way = (s, some { outs := [q], cls := f.tclass }) := by
  have hsieve (m : Nat) : s.sieve p f m = {} := if_pos hdefault
  have hrecord : s.recordVerdict p {} = s := rfl
  have hloop : (p == 23) = false := by
    rw [beq_eq_false_iff_ne]
    omega
  unfold State.route
  rw [hsieve]
  dsimp only
  rw [hrecord, hentry, routed_zero]
  simp [hmirror, htype, hloop]

/-! ### The frame as it is received (R230) -/

/-- The counters of a frame that a port has received whole. -/
def State.counted (s : State) (rx : RxFrame) : State :=
  (s.pmcBy 2 7 rx.port.val (36 + rx.frame.payload.length)).pmcEv 2 0 rx.port.val

theorem counted_calm (s : State) (rx : RxFrame) : Calm s (s.counted rx) := (Calm.pmcBy s 2 7 _ _ {}).trans (.pmcEv _ 2 0 _ {})

theorem counted_flowRegs (s : State) (rx : RxFrame) : (s.counted rx).flowRegs = s.flowRegs :=
  (pmcBy_flowRegs _ _ _ _ _ _).trans (pmcBy_flowRegs s _ _ _ _ _)

theorem counted_sansCounts (s : State) (rx : RxFrame) : (s.counted rx).sansCounts = s.sansCounts :=
  (pmcEv_sansCounts _ _ _ _ _).trans (pmcBy_sansCounts s _ _ _ _ _)

/-- A frame that a ring port receives without a fault is accepted. -/
theorem receiveFrame_good {s : State} {rx : RxFrame} (hears : Hears s rx) (hp : rx.port.val < 2)
    (hhead : s.headFault rx.port.val rx.frame = none) (htail : s.tailFault rx = none) (htype : rx.frame.ftype = 1) :
    s.receiveFrame rx = (s.counted rx).accept rx true := by
  obtain ⟨hup, hring, hlink, haborted⟩ := hears
  have hretimers : s.retimersOnly = false := by simp [State.retimersOnly, hup]
  have hforeign : s.foreign rx = false := by simp [State.foreign, tapPort_main s hp]
  have hlinked : s.linked rx.port.val = true := by
    simp [State.linked, portPresent_main s hp, portFunction_main s hp, show rx.port.val < 4 by omega]
  have hbytes := (Calm.pmcBy s 2 7 rx.port.val (36 + rx.frame.payload.length) {}).toAlong
  have huntapped (t : State) : t.untapped rx = rx := by simp [State.untapped, tapPort_main t hp]
  unfold State.receiveFrame
  dsimp only
  rw [hretimers, if_neg (by decide), if_neg (by simp [hup, hlinked, portFunction_main s hp, hlink, hforeign]), tapPort_main s hp]
  simp only [Bool.false_eq_true, if_false]
  rw [hbytes.headFault rx.port.isLt, hbytes.tailFault, hhead, htail, haborted]
  simp only [Bool.false_eq_true, if_false, Option.orElse_none, htype, huntapped]
  rfl

/-! ### The statement -/

theorem retime_passes {s : State} {rx : RxFrame} (hp : rx.port.val < 2) (h0 : s.on (R.RING_PORT_up 0) = true)
    (h1 : s.on (R.RING_PORT_up 1) = true) (haborted : rx.aborted = false) :
    s.retime rx = s.setOutp (opposite rx.port.val) { s.outp (opposite rx.port.val) with
      lastSent := some { frame := rx.frame, poisoned := rx.poisoned } } := by
  have hup : s.on (R.RING_PORT_up rx.port.val) = true ∧ s.on (R.RING_PORT_up (opposite rx.port.val)) = true := by
    rcases (by omega : rx.port.val = 0 ∨ rx.port.val = 1) with h | h <;> rw [h]
    · exact ⟨h0, h1⟩
    · exact ⟨h1, h0⟩
  exact if_pos ⟨hp, hup.1, hup.2, by rw [haborted]; rfl⟩

end Sys2Proof.Machine

namespace Sys2Proof.Machine

/-! ### A frame that goes on round the ring -/

/-- The frame of the statement: the port `q` opposite to its own takes it up at once. -/
structure Passes (s : State) (rx : RxFrame) (q : Nat) : Prop where
  main : rx.port.val < 2
  other : q = opposite rx.port.val
  main' : q < 2
  program : s.on (R.SIV_ENTRY_default rx.port.val) = true
  unmirrored : s.on R.SWC_CTRL_mirror = false
  empty : s.switch.frames = []
  type : rx.frame.ftype = 1
  deadline : rx.frame.deadline = 0
  noEntry : s.flowEntry rx.frame.flow = none
  long : 28 ≤ rx.frame.payload.length
  ring : rx.frame.dstRing = s.ringOf rx.port.val
  passed : s.addressed rx.frame rx.port.val = false
  forwarded : s.forwardsRound rx.frame rx.port.val = true
  up : s.portDown q = false
  idle : s.idleAtHead q rx = true
  queue : (s.outp q).queue = []
  admitted : (s.admits q rx.frame.tclass rx.frame.leaves).isSome = true
  unguarded : s.rd R.SWC_GUARD_enable = 0
  launches : s.time.launches = []

theorem opposite_main {p : Nat} (hp : p < 2) : opposite p < 2 := by
  rcases (by omega : p = 0 ∨ p = 1) with h | h <;> rw [h] <;> decide

theorem takePour_none {s : State} {rx : RxFrame} (htype : rx.frame.ftype = 1) : s.takePour rx = (s, none) := by
  have hpour : s.ownPour rx.frame rx.port.val = false := by simp [State.ownPour, htype]
  exact if_neg (by rw [hpour]; decide)

/-- The frame as the Caddy takes it in. -/
def arriving (rx : RxFrame) : Stored :=
  { id := 0, frame := rx.frame, ingress := rx.port.val, cls := rx.frame.tclass, start := rx.start }

theorem accept_eq {s t : State} {rx : RxFrame} {q : Nat} {g : Stored} (h : Passes s rx q) (hstored : s.enqueue (arriving rx) [q] false = (t, g))
    (houts : g.outs = [q]) : s.accept rx true = (t.pmcEv 2 3 rx.port.val).cutGood g rx := by
  have hthis : s.enqueue { id := 0, frame := rx.frame, ingress := rx.port.val, cls := rx.frame.tclass, start := rx.start } [q] false = (t, g) :=
    hstored
  unfold State.accept
  dsimp only
  rw [choose_forward h.main h.type h.ring h.passed h.forwarded]
  dsimp only
  rw [← h.other, route_plain h.program h.main h.unmirrored h.noEntry h.type]
  dsimp only
  rw [if_pos rfl, takePour_none h.type]
  dsimp only
  rw [hthis]
  simp [houts]

/-- The frame is stored and cut through, and the Caddy is empty again. -/
theorem accept_passes {s : State} {rx : RxFrame} {q : Nat} (h : Passes s rx q) :
    ∃ t, Along s t ∧ Along (t.bump (R.SWC_XCNT_count 0)) (s.accept rx true) ∧ (s.accept rx true).switch.frames = [] ∧
    ((s.accept rx true).outp q).queue = [] ∧ ((s.accept rx true).outp q).lastSent = some ⟨passedOn rx.frame, false, none⟩ := by
  obtain ⟨r, hr⟩ := Option.isSome_iff_exists.mp h.admitted
  obtain ⟨t, g, henqueue, halong, hholds, hsole, hframe, hingress, hbusy⟩ :=
    enqueue_one (f := arriving rx) h.main' h.up hr h.empty h.queue rfl rfl rfl
  have hframe : g.frame = rx.frame := hframe
  have hcalm := Calm.pmcEv t 2 3 rx.port.val {}
  rw [accept_eq h henqueue hsole.outs, ← hframe]
  generalize t.pmcEv 2 3 rx.port.val {} = u at hcalm ⊢
  have hlane := hcalm.lane q
  simp only [State.lane, Prod.mk.injEq] at hlane
  obtain ⟨hqueue, hline, -⟩ := hlane
  have hu := halong.trans hcalm.toAlong
  have hs : Holds u g q := ⟨hcalm.frames.trans hholds.frames, hqueue.trans hholds.queue⟩
  have hidle : u.idleAtHead q rx = true := (idleAtHead_congr rx (hline.trans hbusy) hu.clk).trans h.idle
  have hcould := couldCut_sole h.main' ((portDown_of_along hu h.main').trans h.up) hsole hs hidle (by rw [hu.time]; exact h.launches)
    (by rw [hframe]; exact h.deadline) (by rw [hframe]; exact h.long)
  exact ⟨u, hu, cutGood_changes h.main h.other h.main' (by rw [hingress]; exact h.main) (by rw [hframe]; exact h.type) hsole hs
    ((hu.on (by decide)).trans h.unmirrored) hcould ((hu.rd (by decide)).trans h.unguarded) hidle⟩

/-- What output `p` admits depends on the switch and on the registers of admission. -/
theorem admits_congr {s t : State} (h : Along s t) (hswitch : t.switch = s.switch) {p : Nat} (hp : p < 24) (cls n : Nat) :
    t.admits p cls n = s.admits p cls n := by
  have houtp (p : Nat) : t.outp p = s.outp p := by rw [State.outp, State.outp, hswitch]
  have hreg {p : Nat} (hp : p < 24) {f : Fld} (hf : f.addr = R.SWC_ADMIT p) : t.rd f = s.rd f :=
    h.rd (by simp only [caddyReg, pmcBlock, hf, R.SWC_ADMIT]; omega)
  have hfree : t.freeShared = s.freeShared := by
    unfold State.freeShared State.leavesFree
    rw [hswitch]
    congr 1
    refine List.foldl_ext _ _ _ fun n k hk => ?_
    rw [hreg (List.mem_range.mp hk) rfl, houtp]
  unfold State.admits State.admitsOf State.thresholdOf State.rawThresholdOf
  rw [hfree, houtp, hreg hp rfl, hreg hp rfl, hreg hp rfl, hreg hp rfl]

/-- The counters of the reception leave what the frame's way depends on. -/
theorem passes_counted {s : State} {rx : RxFrame} {q : Nat} (h : Passes s rx q) : Passes (s.counted rx) rx q := by
  have halong := (counted_calm s rx).toAlong
  have hsans := counted_sansCounts s rx
  have hflow := counted_flowRegs s rx
  generalize s.counted rx = t at *
  have hswitch : t.switch = s.switch := (congrArg State.switch hsans :)
  have houtp : t.outp q = s.outp q := by rw [State.outp, State.outp, hswitch]
  have hentry : ¬caddyReg (R.SIV_ENTRY_default rx.port.val).addr := by
    have := h.main
    simp only [caddyReg, pmcBlock, R.SIV_ENTRY_default, R.SIV_ENTRY]
    omega
  exact { h with
    program := (halong.on hentry).trans h.program
    unmirrored := (halong.on (by decide)).trans h.unmirrored
    empty := by rw [hswitch, h.empty]
    noEntry := (flowEntry_congr hflow _).trans h.noEntry
    ring := h.ring.trans (halong.ringOf _).symm
    passed := (halong.addressed _ _).trans h.passed
    forwarded := (halong.forwardsRound _ _).trans h.forwarded
    up := (portDown_of_along halong h.main').trans h.up
    idle := (idleAtHead_congr rx (by rw [houtp]) halong.clk).trans h.idle
    queue := by rw [houtp, h.queue]
    admitted := by
      rw [admits_congr halong hswitch (by have := h.main'; omega)]
      exact h.admitted
    unguarded := (halong.rd (by decide)).trans h.unguarded
    launches := by rw [halong.time, h.launches] }

theorem bump_sansSwitch (s : State) (f : Fld) : (s.bump f).sansSwitch = s.sansSwitch := rfl

theorem rd_bump_same (s : State) (f : Fld) (hf : f.lsb + f.width ≤ 64) : (s.bump f).rd f = min (s.rd f + 1) (2 ^ f.width - 1) := by
  have hpos : 0 < 2 ^ f.width := Nat.two_pow_pos _
  exact (rd_wr_same s f _ hf).trans (Nat.mod_eq_of_lt (by omega))

/-- A frame that is cut through is counted once, and nothing but the switch and its counters has changed. -/
theorem cut_leaves {s t u : State} (h : Along s t) (hu : Along (t.bump (R.SWC_XCNT_count 0)) u) :
    Counted s u (R.SWC_XCNT_count 0) ∧ u.sansSwitch = s.sansSwitch := by
  refine ⟨?_, hu.rest.trans ((bump_sansSwitch t _).trans h.rest)⟩
  rw [Counted, hu.rd (by decide), rd_bump_same t _ (by decide), h.rd (by decide)]

theorem keeps_of_sansSwitch {s u : State} (h : u.sansSwitch = s.sansSwitch) : Keeps s { u with eccMarks := s.eccMarks } :=
  keeps_of_lasting (congrArg (fun v : State => { v.lasting with eccMarks := s.eccMarks }) h :)

/-- A frame that passes the checks of its tail has the payload that its length field says. -/
theorem payload_of_tail {s : State} {rx : RxFrame} (h : s.tailFault rx = none) : rx.frame.payload.length = rx.frame.length := by
  unfold State.tailFault at h
  by_contra hne
  dsimp only at h
  rw [if_pos (.inl hne)] at h
  contradiction

/-- Settles O30: the retimers pass the frame on as it came, and in service the frame is received without a fault, has the opposite port
alone as its output, is stored for it, and is cut through there at once. -/
theorem framesAreForwardedThroughTheOtherPort : Obligations.FramesAreForwardedThroughTheOtherPort := by
  refine ⟨fun s rx hretimers hp h0 h1 haborted => ?_, fun s rx q hears hp hq hcore hhead htail htype hdeadline hentry hlength hring hpassed
    hforwarded hup hidle hqueue hadmitted hguard hlaunches => ?_⟩
  · have hretime : s.receiveFrame rx = s.retime rx := if_pos hretimers
    rw [← retime_passes hp h0 h1 haborted, ← hretime]
    rfl
  · obtain ⟨hdefault, hmirror, hempty⟩ := hcore
    have hlong : 28 ≤ rx.frame.payload.length := by rw [payload_of_tail htail]; exact hlength
    have h : Passes s rx q := ⟨hp, hq, hq ▸ opposite_main hp, hdefault, hmirror, hempty, htype, hdeadline, hentry, hlong, hring, hpassed,
      hforwarded, hup, hidle, hqueue, hadmitted, hguard, hlaunches⟩
    have hcounted := (counted_calm s rx).toAlong
    obtain ⟨t, ht, hcut, hframes, hq', hsent⟩ := accept_passes (passes_counted h)
    have hreceive := receiveFrame_good hears hp hhead htail htype
    rw [← hreceive] at hcut hframes hq' hsent
    obtain ⟨hcount, hrest⟩ := cut_leaves (hcounted.trans ht) hcut
    exact ⟨s.receiveFrame rx, rfl, hsent, hq', hframes, hcount, (congrArg State.ring hrest :), (congrArg State.hub hrest :),
      keeps_of_sansSwitch hrest⟩

end Sys2Proof.Machine

namespace Sys2Proof.Machine

/-! ### RST_N and the hub's own supply -/

/-- Before its hold time the low supply does not reset the hub (R49). -/
theorem usHold_early {s : State} {since : Nat} (hlow : s.hub.usLowSince = some since)
    (hearly : s.clk - since < (if s.hub.reserve = true then 1200000 else 20000)) : s.usHold = s := by
  have hdue : s.holdDue = false := by simpa [State.holdDue, hlow] using hearly
  rw [State.usHold, if_neg (by simp [hdue])]

/-- Settles O3: the length of the low picks the branch of RST_N_LOW, and each of the other commands sets its one field of the hub, or
none. -/
theorem shortLowsAndDipsLeaveTheHubAlone : Obligations.ShortLowsAndDipsLeaveTheHubAlone := by
  obtain ⟨-, hlong, -, -⟩ := everyResetLeadsToBoot
  refine ⟨fun s ns hns => if_pos hns, fun s ns hlow hns => ?_, fun s ns hns => ?_, fun s strap hhigh => ?_, fun s => rfl,
    fun s hnone => ?_, fun s hfree => ?_, fun s since hlow hearly => ?_⟩
  · change execRstNLow ns s = _
    rw [execRstNLow, if_neg (by omega), if_pos hns]
  · obtain ⟨t, hexec, hafter, hrst, -⟩ := hlong s ns hns
    exact ⟨t, hexec, hafter, hrst⟩
  · exact congrArg done (if_neg (by simp [hhigh]) : s.rstRelease strap = s)
  · have hfall : s.usFall = { s with hub := { s.hub with usLowSince := some s.clk } } := by simp [State.usFall, hnone]
    exact congrArg done hfall
  · exact congrArg done (if_neg (by simp [hfree]) : s.usReturn = { s with hub := { s.hub with usLowSince := none } })
  · exact congrArg done (usHold_early hlow hearly)

end Sys2Proof.Machine

namespace Sys2Proof.Machine

/-! ### Fields of one register -/

/-- The bits of the two fields lie apart in a word. -/
def Fld.apart (f g : Fld) : Bool :=
  decide (f.lsb + f.width ≤ 64) && decide (g.lsb + g.width ≤ 64) && (decide (f.lsb + f.width ≤ g.lsb) || decide (g.lsb + g.width ≤ f.lsb))

theorem rd_wr_apart (s : State) {f g : Fld} (v : Nat) (h : Fld.apart f g = true) : (s.wr f v).rd g = s.rd g := by
  simp only [Fld.apart, Bool.and_eq_true, Bool.or_eq_true, decide_eq_true_eq] at h
  obtain ⟨⟨hf, hg⟩, hd⟩ := h
  exact rd_wr_lsb s f g v hf hg hd

/-! ### Actions of power ports, and what they leave alone -/

theorem port_setPort_same (s : State) (k : Nat) (p : Port) : (s.setPort k p).port k = p := mget_mput_same _ _ _ _

theorem port_setPort_ne (s : State) {k j : Nat} (p : Port) (h : j ≠ k) : (s.setPort k p).port j = s.port j := mget_mput_ne _ _ _ h

theorem group_setGroup_same (s : State) (g : Nat) (x : Group) : (s.setGroup g x).group g = x := mget_mput_same _ _ _ _

/-- What the effective command of a port follows (R555). -/
theorem effective_congr {s t : State} {k : Nat} (hhub : t.hub = s.hub) (hloaded : t.loaded = s.loaded) (hport : t.port k = s.port k)
    (hcmd : t.rd (R.PWP_CMD_on k) = s.rd (R.PWP_CMD_on k)) : t.effective k = s.effective k := by
  have hrule : t.portRule = s.portRule := by
    unfold State.portRule
    rw [hhub]
  have hforced : t.isolatorsForced = s.isolatorsForced := by
    rw [State.isolatorsForced, State.isolatorsForced, hhub, hrule]
  have htest : t.testPort k = s.testPort k := by
    rw [State.testPort, State.testPort, hhub]
  simp only [State.effective, State.on, hforced, hrule, htest, hcmd, hloaded, hport]

/-- `t` is `s` after actions of the ports in `p`: they move their own fields and registers, pins that follow their power-good, and the
performance counters. -/
structure PortsActed (p : Nat → Prop) (s t : State) : Prop where
  still : t.still = s.still
  groups : t.power.groups = s.power.groups
  port : ∀ j, ¬p j → t.port j = s.port j
  word : ∀ a, ¬pmcBlock a → (∀ j, p j → a ≠ R.PWP_STAT j ∧ a ≠ R.PWP_CNT j) → t.word a = s.word a

namespace PortsActed

variable {p q : Nat → Prop} {s t u : State}

theorem refl (p : Nat → Prop) (s : State) : PortsActed p s s := ⟨rfl, rfl, fun _ _ => rfl, fun _ _ _ => rfl⟩

theorem trans (h : PortsActed p s t) (k : PortsActed p t u) : PortsActed p s u where
  still := k.still.trans h.still
  groups := k.groups.trans h.groups
  port j hj := (k.port j hj).trans (h.port j hj)
  word a ha hp := (k.word a ha hp).trans (h.word a ha hp)

theorem mono (h : PortsActed p s t) (hpq : ∀ j, p j → q j) : PortsActed q s t where
  still := h.still
  groups := h.groups
  port j hj := h.port j (fun hp => hj (hpq j hp))
  word a ha hq := h.word a ha (fun j hp => hq j (hpq j hp))

theorem foldl {f : State → Nat → State} {l : List Nat} (h : ∀ t, ∀ k ∈ l, PortsActed p t (f t k)) (s : State) :
    PortsActed p s (l.foldl f s) :=
  List.foldlRecOn (motive := fun t => PortsActed p s t) l f (refl p s) (fun t ht k hk => ht.trans (h t k hk))

theorem hub (h : PortsActed p s t) : t.hub = s.hub := (congrArg State.hub h.still :)

theorem group (h : PortsActed p s t) (g : Nat) : t.group g = s.group g := congrArg (mget ({} : Group) · g) h.groups

/-- The registers of the port groups are no port's. -/
theorem rdGroup (h : PortsActed p s t) {f : Fld} {g : Nat} (hg : g < 2) (hf : f.addr = R.PWP_GROUP g) : t.rd f = s.rd f := by
  refine rd_of_word f (h.word _ ?_ (fun j _ => ?_))
  · rw [hf, pmcBlock, R.PWP_GROUP]
    omega
  · rw [hf, R.PWP_GROUP, R.PWP_STAT, R.PWP_CNT]
    omega

/-- What other ports do leaves the status register of a port. -/
theorem rdStat {k : Nat} (h : PortsActed (· ≠ k) s t) (hk : k < 32) {f : Fld} (hf : f.addr = R.PWP_STAT k) : t.rd f = s.rd f := by
  refine rd_of_word f (h.word _ ?_ (fun j hj => ?_))
  · rw [hf, pmcBlock, R.PWP_STAT]
    omega
  · rw [hf, R.PWP_STAT, R.PWP_STAT, R.PWP_CNT]
    omega

theorem effective {k : Nat} (h : PortsActed (· ≠ k) s t) (hk : k < 32) : t.effective k = s.effective k := by
  have hcmd : t.rd (R.PWP_CMD_on k) = s.rd (R.PWP_CMD_on k) := by
    refine rd_of_word _ (h.word _ ?_ (fun j hj => ?_))
    · simp only [R.PWP_CMD_on, R.PWP_CMD]
      omega
    · simp only [R.PWP_CMD_on, R.PWP_CMD, R.PWP_STAT, R.PWP_CNT]
      omega
  exact effective_congr h.hub (congrArg State.loaded h.still :) (h.port k (· rfl)) hcmd

theorem portCool {k : Nat} (h : PortsActed (· ≠ k) s t) : t.portCool k = s.portCool k := by
  rw [State.portCool, State.portCool, h.port k (· rfl)]

variable (s) (k : Nat)

theorem setPort (x : Port) : PortsActed (· = k) s (s.setPort k x) := ⟨rfl, rfl, fun _ hj => port_setPort_ne s x hj, fun _ _ _ => rfl⟩

theorem wr (f : Fld) (v : Nat) (hf : f.addr = R.PWP_STAT k ∨ f.addr = R.PWP_CNT k) : PortsActed (· = k) s (s.wr f v) where
  still := rfl
  groups := rfl
  port _ _ := rfl
  word a _ ha := by
    obtain ⟨hstat, hcnt⟩ := ha k rfl
    exact word_wr_ne s f v (by rcases hf with hf | hf <;> rwa [hf])

theorem pmcEv (cls ev x : Nat) (a : Attrs) : PortsActed p s (s.pmcEv cls ev x a) where
  still := pmcEv_still s cls ev x a
  groups := (congrArg (·.power.groups) (pmcEv_sansCounts s cls ev x a) :)
  port j _ := (congrArg (fun t : State => t.port j) (pmcEv_sansCounts s cls ev x a) :)
  word _ ha _ := pmcEv_word s cls ev x a ha

theorem applyLplus_sansPins : (s.applyLplus k).sansPins = s.sansPins :=
  foldl_keeps State.sansPins _ _ (fun t _ _ => (applyPin_repinned t _).rest) s

theorem applyLplus : PortsActed p s (s.applyLplus k) where
  still := applyLplus_still s k
  groups := (congrArg (·.power.groups) (applyLplus_sansPins s k) :)
  port j _ := (congrArg (fun t : State => t.port j) (applyLplus_sansPins s k) :)
  word a _ _ := (congrArg (fun t : State => t.word a) (applyLplus_sansPins s k) :)

theorem setPg (b : Bool) : PortsActed (· = k) s (s.setPg k b) := by
  unfold State.setPg
  split
  · exact refl _ s
  · exact (wr s k _ _ (.inl rfl)).trans (applyLplus _ k)

theorem noteDamageCond : PortsActed (· = k) s (s.noteDamageCond k) := setPort s k _

theorem passOff (n : Nat) : PortsActed (· = k) s (s.passOff k n) :=
  (((setPort s k _).trans (wr _ k _ _ (.inl rfl))).trans (setPg _ k _)).trans (noteDamageCond _ k)

theorem startRamp : PortsActed (· = k) s (s.startRamp k) :=
  ((((setPort s k _).trans (wr _ k _ _ (.inl rfl))).trans (wr _ k (R.PWP_CNT_ramps k) _ (.inr rfl))).trans
    (pmcEv _ _ _ _ _)).trans (noteDamageCond _ k)

theorem refreshPort : PortsActed (· = k) s (s.refreshPort k) := by
  unfold State.refreshPort
  dsimp only
  split
  · exact passOff s k _
  split
  · exact passOff s k _
  split
  · exact passOff s k _
  split
  · exact refl _ s
  split
  · exact startRamp s k
  · exact passOff s k _

end PortsActed

/-- In a fold of actions of ports, each once, a port acts after and before actions of other ports alone. -/
theorem foldl_ports_at {f : State → Nat → State} (hf : ∀ t k, PortsActed (· = k) t (f t k)) {l : List Nat} (hl : l.Nodup) {k : Nat}
    (hk : k ∈ l) (s : State) : ∃ t, PortsActed (· ≠ k) s t ∧ PortsActed (· ≠ k) (f t k) (l.foldl f s) := by
  obtain ⟨before, after, rfl⟩ := List.append_of_mem hk
  obtain ⟨-, hafter, hbefore⟩ := List.nodup_append.mp hl
  have others {m : List Nat} (hm : k ∉ m) (t : State) : PortsActed (· ≠ k) t (m.foldl f t) :=
    PortsActed.foldl (fun u j hj => (hf u j).mono (fun i (hi : i = j) (hik : i = k) => hm (hi.symm.trans hik ▸ hj))) t
  refine ⟨before.foldl f s, others (fun hmem => hbefore k hmem k List.mem_cons_self rfl) s, ?_⟩
  rw [List.foldl_append, List.foldl_cons]
  exact others (List.nodup_cons.mp hafter).1 _

theorem nodup_groupPorts (g : Nat) : (groupPorts g).Nodup :=
  List.nodup_range.map (fun _ _ h => by simpa using h)

theorem groupOfPort_mem {g k : Nat} (h : k ∈ groupPorts g) : groupOfPort k = g := by
  obtain ⟨j, hj, rfl⟩ := List.mem_map.mp h
  have := List.mem_range.mp hj
  unfold groupOfPort
  omega

/-! ### What a port that is refreshed comes to (R558, R561, R575) -/

theorem setPg_port (s : State) (k : Nat) (b : Bool) (j : Nat) : (s.setPg k b).port j = s.port j := by
  unfold State.setPg
  split
  · rfl
  · exact (PortsActed.applyLplus (p := fun _ => False) _ k).port j id

/-- A write of power-good leaves the state of the port. -/
theorem setPg_state (s : State) (k : Nat) (b : Bool) : (s.setPg k b).rd (R.PWP_STAT_state k) = s.rd (R.PWP_STAT_state k) := by
  unfold State.setPg
  split
  · rfl
  · have hlplus := PortsActed.applyLplus_sansPins (s.wr (R.PWP_STAT_pg k) (bit01 b)) k
    have hword : ((s.wr (R.PWP_STAT_pg k) (bit01 b)).applyLplus k).word (R.PWP_STAT k) =
        (s.wr (R.PWP_STAT_pg k) (bit01 b)).word (R.PWP_STAT k) :=
      (congrArg (fun t : State => t.word (R.PWP_STAT k)) hlplus :)
    exact (rd_of_word (R.PWP_STAT_state k) hword).trans (rd_wr_apart _ _ rfl)

theorem noteDamageCond_passOn (s : State) (k : Nat) : ((s.noteDamageCond k).port k).passOn = (s.port k).passOn := by
  rw [State.noteDamageCond, port_setPort_same]

theorem wr_port (s : State) (f : Fld) (v k : Nat) : (s.wr f v).port k = s.port k := by
  rw [State.port, State.wr_power, State.port]

theorem passOff_passOn (s : State) (k n : Nat) : ((s.passOff k n).port k).passOn = false := by
  have hport : (s.setPort k { s.port k with passOn := false, inReg := false, acc := 0 }).port k =
    { s.port k with passOn := false, inReg := false, acc := 0 } := port_setPort_same s k _
  unfold State.passOff
  dsimp only
  rw [noteDamageCond_passOn, setPg_port, wr_port, hport]

theorem passOff_state (s : State) (k : Nat) {n : Nat} (hn : n < 8) : (s.passOff k n).rd (R.PWP_STAT_state k) = n :=
  (setPg_state _ k false).trans ((rd_wr_same _ (R.PWP_STAT_state k) n (by simp [R.PWP_STAT_state])).trans (Nat.mod_eq_of_lt hn))

/-- What follows in a ramp's start leaves the state of the port and its pass transistor. -/
theorem startRamp_at (s : State) {k : Nat} (hk : k < 32) :
    ((s.startRamp k).port k).passOn = true ∧ (s.startRamp k).rd (R.PWP_STAT_state k) = 1 := by
  have hport : (s.setPort k { s.port k with passOn := true, inReg := true }).port k = { s.port k with passOn := true, inReg := true } :=
    port_setPort_same s k _
  unfold State.startRamp
  dsimp only
  generalize s.setPort k { s.port k with passOn := true, inReg := true } = t at hport ⊢
  have hcount := PortsActed.pmcEv (p := (· ≠ k)) ((t.wr (R.PWP_STAT_state k) 1).bump (R.PWP_CNT_ramps k)) 10 2 (groupOfPort k) {}
  refine ⟨?_, ?_⟩
  · rw [noteDamageCond_passOn, hcount.port k (· rfl), State.bump, State.bumpBy, wr_port, wr_port, hport]
  · have hramp : (R.PWP_STAT_state k).addr ≠ (R.PWP_CNT_ramps k).addr := by
      simp only [R.PWP_STAT_state, R.PWP_CNT_ramps, R.PWP_STAT, R.PWP_CNT]
      omega
    exact (hcount.rdStat hk rfl).trans ((rd_wr_addr _ _ _ _ hramp).trans (rd_wr_same _ _ _ (by simp [R.PWP_STAT_state])))

/-- A port behind an open isolator is off, in NO_SUPPLY unless it is LATCHED. -/
theorem refreshPort_open {s : State} {k : Nat} (hopen : (s.group (groupOfPort k)).iso = .opened) :
    ((s.refreshPort k).port k).passOn = false ∧
    (s.refreshPort k).rd (R.PWP_STAT_state k) = if s.rd (R.PWP_STAT_state k) = 4 then 4 else 6 := by
  by_cases hlatched : s.rd (R.PWP_STAT_state k) = 4
  · rw [if_pos hlatched, State.refreshPort, if_pos hlatched]
    exact ⟨passOff_passOn s k 4, passOff_state s k (by decide)⟩
  · rw [if_neg hlatched, State.refreshPort, if_neg hlatched, if_pos (by rw [hopen]; rfl)]
    exact ⟨passOff_passOn s k 6, passOff_state s k (by decide)⟩

/-- A port in NO_SUPPLY whose isolator has closed turns on where its effective command says so and it is cool (R558). -/
theorem refreshPort_closed {s : State} {k : Nat} (hk : k < 32) (hclosed : (s.group (groupOfPort k)).iso = .closed)
    (hstate : s.rd (R.PWP_STAT_state k) = 6) (hsound : s.on (R.PWP_STAT_damaged k) = false) :
    (s.refreshPort k).rd (R.PWP_STAT_state k) = (if s.effective k = false then 0 else if s.portCool k = true then 1 else 5) ∧
    ((s.refreshPort k).port k).passOn = (s.effective k && s.portCool k) := by
  rw [State.refreshPort, hstate, if_neg (by decide), if_neg (by rw [hclosed]; decide), hsound]
  cases heffective : s.effective k
  · exact ⟨passOff_state s k (by decide), passOff_passOn s k 0⟩
  · cases hcool : s.portCool k
    · exact ⟨passOff_state s k (by decide), passOff_passOn s k 5⟩
    · obtain ⟨hpass, hstate⟩ := startRamp_at s hk
      exact ⟨hstate, hpass⟩

end Sys2Proof.Machine

namespace Sys2Proof.Machine

/-! ### Group supplies and isolators (R574 to R576) -/

theorem wr_group (s : State) (f : Fld) (v g : Nat) : (s.wr f v).group g = s.group g := by
  rw [State.group, State.wr_power, State.group]

/-- Writes to the register of a port group leave the registers of the ports. -/
theorem rd_wr_group {g k : Nat} (hg : g < 2) (s : State) {f h : Fld} (v : Nat) (hf : f.addr = R.PWP_GROUP g) (hh : h.addr = R.PWP_STAT k) :
    (s.wr f v).rd h = s.rd h := by
  refine rd_wr_addr s f h v ?_
  rw [hf, hh, R.PWP_GROUP, R.PWP_STAT]
  omega

/-- The isolator of group `g` is open, and its ports have not followed yet. -/
def State.isolate (s : State) (g cause : Nat) : State :=
  ((s.setGroup g { s.group g with iso := .opened }).wr (R.PWP_GROUP_closed g) 0).wr (R.PWP_GROUP_opened_by g)
    (if (s.group g).iso = .closed ∨ (s.group g).iso = .closing then cause else max (s.rd (R.PWP_GROUP_opened_by g)) cause)

theorem openIsolator_eq (s : State) (g cause : Nat) : s.openIsolator g cause = (groupPorts g).foldl State.refreshPort (s.isolate g cause) := rfl

/-- Actions of all ports, of which each leaves the groups. -/
theorem portsActed_foldl {f : State → Nat → State} (hf : ∀ t k, PortsActed (· = k) t (f t k)) (l : List Nat) (s : State) :
    PortsActed (fun _ => True) s (l.foldl f s) :=
  PortsActed.foldl (fun t k _ => (hf t k).mono (fun _ _ => trivial)) s

theorem openIsolator_group (s : State) (g cause : Nat) : (s.openIsolator g cause).group g = { s.group g with iso := .opened } := by
  rw [openIsolator_eq, (portsActed_foldl PortsActed.refreshPort _ _).group, State.isolate, wr_group, wr_group, group_setGroup_same]

theorem openIsolator_closed (s : State) {g : Nat} (hg : g < 2) (cause : Nat) : (s.openIsolator g cause).rd (R.PWP_GROUP_closed g) = 0 := by
  rw [openIsolator_eq, (portsActed_foldl PortsActed.refreshPort _ _).rdGroup hg rfl, State.isolate, rd_wr_apart _ _ rfl]
  exact rd_wr_same _ _ _ (by simp [R.PWP_GROUP_closed])

/-- Opening an isolator leaves the other fields of its group's register. -/
theorem openIsolator_rd (s : State) {g : Nat} (hg : g < 2) (cause : Nat) {f : Fld} (hf : f.addr = R.PWP_GROUP g)
    (hclosed : Fld.apart (R.PWP_GROUP_closed g) f = true) (hby : Fld.apart (R.PWP_GROUP_opened_by g) f = true) :
    (s.openIsolator g cause).rd f = s.rd f := by
  rw [openIsolator_eq, (portsActed_foldl PortsActed.refreshPort _ _).rdGroup hg hf, State.isolate, rd_wr_apart _ _ hby, rd_wr_apart _ _ hclosed]
  rfl

/-- Behind an isolator that opens every port is off, and in NO_SUPPLY unless it is LATCHED. -/
theorem openIsolator_ports (s : State) {g k : Nat} (hg : g < 2) (cause : Nat) (hk : k ∈ groupPorts g) :
    ((s.openIsolator g cause).port k).passOn = false ∧
    (s.openIsolator g cause).rd (R.PWP_STAT_state k) = if s.rd (R.PWP_STAT_state k) = 4 then 4 else 6 := by
  have hk32 := Follows.mem_groupPorts hg hk
  obtain ⟨t, hbefore, hafter⟩ := foldl_ports_at PortsActed.refreshPort (nodup_groupPorts g) hk (s.isolate g cause)
  have hopen : (t.group (groupOfPort k)).iso = .opened := by
    rw [groupOfPort_mem hk, hbefore.group, State.isolate, wr_group, wr_group, group_setGroup_same]
  have hstate : t.rd (R.PWP_STAT_state k) = s.rd (R.PWP_STAT_state k) := by
    rw [hbefore.rdStat hk32 rfl, State.isolate, rd_wr_group hg _ _ rfl rfl, rd_wr_group hg _ _ rfl rfl]
    rfl
  obtain ⟨hoff, hrd⟩ := refreshPort_open hopen
  rw [openIsolator_eq, hafter.port k (· rfl), hafter.rdStat hk32 rfl]
  exact ⟨hoff, hstate ▸ hrd⟩

theorem raise_group (s : State) (i d g : Nat) : (s.raise i d).group g = s.group g := rfl

theorem raise_port (s : State) (i d k : Nat) : (s.raise i d).port k = s.port k := rfl

theorem raise_rd (s : State) (i d : Nat) (f : Fld) : (s.raise i d).rd f = s.rd f := rfl

/-- The supply of group `g` is absent, and the isolator has not followed yet. -/
def State.supplyGone (s : State) (g mv : Nat) : State :=
  ((s.setGroup g { s.group g with supply := false, overSince := none }).wr (R.PWP_GROUP_present g) 0).wr (R.PWP_GROUP_supply g) mv

theorem supplyLoss_eq {s : State} (hpower : s.hasPower = true) (g mv : Nat) :
    s.supplyLoss g mv = ((s.supplyGone g mv).openIsolator g 1).raise (0x064 + g) mv :=
  if_neg (by simp [hpower])

theorem supplyGone_still (s : State) (g mv : Nat) : (s.supplyGone g mv).still = s.still := by
  rw [State.supplyGone, wr_still, wr_still, setGroup_still]

theorem supplyGone_group (s : State) (g mv : Nat) : (s.supplyGone g mv).group g = { s.group g with supply := false, overSince := none } := by
  rw [State.supplyGone, wr_group, wr_group, group_setGroup_same]

theorem supplyGone_present (s : State) (g mv : Nat) : (s.supplyGone g mv).rd (R.PWP_GROUP_present g) = 0 := by
  rw [State.supplyGone, rd_wr_apart _ _ rfl]
  exact rd_wr_same _ _ _ (by simp [R.PWP_GROUP_present])

theorem supplyGone_supply (s : State) (g : Nat) (mv : BitVec 16) : (s.supplyGone g mv.toNat).rd (R.PWP_GROUP_supply g) = mv.toNat :=
  (rd_wr_same _ (R.PWP_GROUP_supply g) _ (by simp [R.PWP_GROUP_supply])).trans (Nat.mod_eq_of_lt mv.isLt)

theorem supplyGone_state (s : State) {g : Nat} (hg : g < 2) (mv k : Nat) :
    (s.supplyGone g mv).rd (R.PWP_STAT_state k) = s.rd (R.PWP_STAT_state k) := by
  rw [State.supplyGone, rd_wr_group hg _ _ rfl rfl, rd_wr_group hg _ _ rfl rfl]
  rfl

/-- The supply of group `g` is present again, and the isolator has not followed yet. -/
def State.supplyBack (s : State) (g mv : Nat) : State :=
  ((s.setGroup g { s.group g with supply := true, since := s.clk }).wr (R.PWP_GROUP_present g) 1).wr (R.PWP_GROUP_supply g) mv

theorem supplyReturn_eq {s : State} {g : Nat} (hpower : s.hasPower = true) (habsent : (s.group g).supply = false) (mv : Nat) :
    s.supplyReturn g mv = (s.supplyBack g mv).letClose g :=
  if_neg (by simp [hpower, habsent])

theorem supplyBack_still (s : State) (g mv : Nat) : (s.supplyBack g mv).still = s.still := by
  rw [State.supplyBack, wr_still, wr_still, setGroup_still]

theorem supplyBack_group (s : State) (g mv : Nat) : (s.supplyBack g mv).group g = { s.group g with supply := true, since := s.clk } := by
  rw [State.supplyBack, wr_group, wr_group, group_setGroup_same]

theorem supplyBack_present (s : State) (g mv : Nat) : (s.supplyBack g mv).rd (R.PWP_GROUP_present g) = 1 := by
  rw [State.supplyBack, rd_wr_apart _ _ rfl]
  exact rd_wr_same _ _ _ (by simp [R.PWP_GROUP_present])

theorem supplyBack_supply (s : State) (g : Nat) (mv : BitVec 16) : (s.supplyBack g mv.toNat).rd (R.PWP_GROUP_supply g) = mv.toNat :=
  (rd_wr_same _ (R.PWP_GROUP_supply g) _ (by simp [R.PWP_GROUP_supply])).trans (Nat.mod_eq_of_lt mv.isLt)

theorem supplyBack_opened_by (s : State) (g mv : Nat) : (s.supplyBack g mv).rd (R.PWP_GROUP_opened_by g) = s.rd (R.PWP_GROUP_opened_by g) := by
  rw [State.supplyBack, rd_wr_apart _ _ rfl, rd_wr_apart _ _ rfl]
  rfl

theorem letClose_rd (s : State) (g : Nat) (f : Fld) : (s.letClose g).rd f = s.rd f := by
  unfold State.letClose State.startClose
  dsimp only
  (repeat' split) <;> rfl

/-- An isolator whose supply has just returned begins its 10 ms unless the mode, the Kettle or software holds it open (R576). -/
theorem letClose_fresh {s : State} {g : Nat} (hopen : (s.group g).iso = .opened) (hsupply : (s.group g).supply = true)
    (hsince : (s.group g).since = s.clk) : s.letClose g =
    if s.isolatorsForced = false ∧ s.rd (R.PWP_GROUP_opened_by g) ≤ 1 then s.setGroup g { s.group g with iso := .delay } else s := by
  have hearly : ¬10000000 ≤ s.clk - (s.group g).since := by omega
  simp [State.letClose, hopen, hsupply, if_neg hearly]

/-- The group once its supply has returned. -/
theorem supplyReturn_group {s : State} {g : Nat} (mv : Nat) (hopen : (s.group g).iso = .opened) :
    ((s.supplyBack g mv).letClose g).group g = { s.group g with
      supply := true
      since := s.clk
      iso := if s.isolatorsForced = false ∧ s.rd (R.PWP_GROUP_opened_by g) ≤ 1 then .delay else .opened } := by
  have hgroup := supplyBack_group s g mv
  have hforced : (s.supplyBack g mv).isolatorsForced = s.isolatorsForced := rfl
  rw [letClose_fresh (by rw [hgroup]; exact hopen) (by rw [hgroup]) (by rw [hgroup]; rfl), hforced, supplyBack_opened_by]
  split
  · rw [group_setGroup_same, hgroup]
  · simp only [hgroup, hopen]

/-- The isolator of group `g` is closed, and its ports have not followed yet. -/
def State.isolatorShut (s : State) (g : Nat) : State :=
  ((s.setGroup g { s.group g with iso := .closed }).wr (R.PWP_GROUP_closed g) 1).wr (R.PWP_GROUP_opened_by g) 0

/-- A port follows the isolator that has closed, and the conditions of R572 are watched anew. -/
def State.portFollowsClose (s : State) (k : Nat) : State := (s.refreshPort k).noteDamageCond k

theorem portFollowsClose_acts (s : State) (k : Nat) : PortsActed (· = k) s (s.portFollowsClose k) :=
  (PortsActed.refreshPort s k).trans (PortsActed.noteDamageCond _ k)

theorem isolatorClosed_eq {s : State} {g : Nat} (hclosing : (s.group g).iso = .closing) (hover : 1000000 ≤ s.clk - (s.group g).closeAt) :
    s.isolatorClosed g = (groupPorts g).foldl State.portFollowsClose (s.isolatorShut g) :=
  if_pos ⟨hclosing, hover⟩

theorem isolatorShut_still (s : State) (g : Nat) : (s.isolatorShut g).still = s.still := by
  rw [State.isolatorShut, wr_still, wr_still, setGroup_still]

theorem isolatorShut_group (s : State) (g : Nat) : (s.isolatorShut g).group g = { s.group g with iso := .closed } := by
  rw [State.isolatorShut, wr_group, wr_group, group_setGroup_same]

/-- Writes to the register of a port group leave the commands of the ports. -/
theorem isolatorShut_effective (s : State) {g : Nat} (hg : g < 2) (k : Nat) : (s.isolatorShut g).effective k = s.effective k := by
  have hcmd : (R.PWP_CMD_on k).addr ≠ R.PWP_GROUP g := by
    simp only [R.PWP_CMD_on, R.PWP_CMD, R.PWP_GROUP]
    omega
  refine effective_congr rfl rfl (by rw [State.isolatorShut, wr_port, wr_port]; rfl) ?_
  rw [State.isolatorShut, rd_wr_addr _ _ _ _ hcmd, rd_wr_addr _ _ _ _ hcmd]
  rfl

/-- R558 applies to a port in NO_SUPPLY once the isolator of its group has closed. -/
theorem isolatorClosed_ports {s : State} {g k : Nat} (hg : g < 2) (hk : k ∈ groupPorts g) (hstate : s.rd (R.PWP_STAT_state k) = 6)
    (hsound : s.on (R.PWP_STAT_damaged k) = false) {u : State} (hu : u = (groupPorts g).foldl State.portFollowsClose (s.isolatorShut g)) :
    u.rd (R.PWP_STAT_state k) = (if s.effective k = false then 0 else if s.portCool k = true then 1 else 5) ∧
    (u.port k).passOn = (s.effective k && s.portCool k) := by
  have hk32 := Follows.mem_groupPorts hg hk
  obtain ⟨t, hbefore, hafter⟩ := foldl_ports_at portFollowsClose_acts (nodup_groupPorts g) hk (s.isolatorShut g)
  have hrd {f : Fld} (hf : f.addr = R.PWP_STAT k) : t.rd f = s.rd f := by
    rw [hbefore.rdStat hk32 hf, State.isolatorShut, rd_wr_group hg _ _ rfl hf, rd_wr_group hg _ _ rfl hf]
    rfl
  have hport : (s.isolatorShut g).port k = s.port k := by
    rw [State.isolatorShut, wr_port, wr_port]
    rfl
  have hcool : t.portCool k = s.portCool k := by
    rw [hbefore.portCool, State.portCool, hport, State.portCool]
  have heffective : t.effective k = s.effective k := (hbefore.effective hk32).trans (isolatorShut_effective s hg k)
  have hclosed : (t.group (groupOfPort k)).iso = .closed := by
    rw [groupOfPort_mem hk, hbefore.group, isolatorShut_group]
  obtain ⟨hafterState, hafterPass⟩ := refreshPort_closed hk32 hclosed ((hrd rfl).trans hstate) (by rw [State.on, hrd rfl]; exact hsound)
  rw [heffective, hcool] at hafterState hafterPass
  rw [hu, hafter.rdStat hk32 rfl, hafter.port k (· rfl), State.portFollowsClose, noteDamageCond_passOn]
  exact ⟨hafterState, hafterPass⟩

theorem isolatorShut_closed (s : State) (g : Nat) : (s.isolatorShut g).rd (R.PWP_GROUP_closed g) = 1 := by
  rw [State.isolatorShut, rd_wr_apart _ _ rfl]
  exact rd_wr_same _ _ _ (by simp [R.PWP_GROUP_closed])

theorem isolatorShut_opened_by (s : State) (g : Nat) : (s.isolatorShut g).rd (R.PWP_GROUP_opened_by g) = 0 :=
  rd_wr_same _ _ _ (by simp [R.PWP_GROUP_opened_by])

/-! ### The statement -/

/-- Settles O4: the ports of a group follow its isolator one by one, each of them leaving the others; an overload is raised at its time,
once. -/
theorem groupSuppliesDriveTheIsolatorsAndOverloadsAreRaised : Obligations.GroupSuppliesDriveTheIsolatorsAndOverloadsAreRaised := by
  refine ⟨fun s g mv hpower => ?_, fun s g mv hpower habsent hopen => ?_, fun s g hdelay hover => ?_, fun s g hclosing hover => ?_,
    fun s k hk => ?_, fun s k hk => ?_, fun s k since hawake hsince hover => ?_, fun s k since raised hsince hnot => ?_,
    fun s k hnone => ?_, fun s g ma since hawake hsince hover hfirst => ?_⟩
  · have hgroup := openIsolator_group (s.supplyGone g.val mv.toNat) g.val 1
    rw [supplyGone_group] at hgroup
    have hstill : ((s.supplyGone g.val mv.toNat).openIsolator g.val 1).still = s.still :=
      (openIsolator_still ..).trans (supplyGone_still ..)
    have hkeeps : Keeps s ((s.supplyGone g.val mv.toNat).openIsolator g.val 1) := keeps_of_still hstill
    have hraised : ((s.supplyGone g.val mv.toNat).openIsolator g.val 1).raised = s.raised := (congrArg State.raised hstill :)
    have hhub : ((s.supplyGone g.val mv.toNat).openIsolator g.val 1).hub = s.hub := (congrArg State.hub hstill :)
    have hdata : mv.toNat % 2 ^ 32 = mv.toNat := Nat.mod_eq_of_lt (by have := mv.isLt; omega)
    refine ⟨((s.supplyGone g.val mv.toNat).openIsolator g.val 1).raise (0x064 + g.val) mv.toNat,
      congrArg done (supplyLoss_eq hpower g.val mv.toNat), ?_⟩
    simp only [raise_group, raise_port, raise_rd, State.raise_raised, State.raise_hub, hgroup, hraised, hdata]
    refine ⟨trivial, trivial, ?_, openIsolator_closed _ g.isLt 1, ?_, fun k hk => ?_, trivial, hhub, hkeeps⟩
    · rw [openIsolator_rd _ g.isLt 1 rfl rfl rfl, supplyGone_present]
    · rw [openIsolator_rd _ g.isLt 1 rfl rfl rfl, supplyGone_supply]
    · rw [← supplyGone_state s g.isLt mv.toNat]
      exact openIsolator_ports (s.supplyGone g.val mv.toNat) g.isLt 1 hk
  · have hgroup := supplyReturn_group mv.toNat hopen
    have hstill : ((s.supplyBack g.val mv.toNat).letClose g.val).still = s.still :=
      (letClose_still ..).trans (supplyBack_still ..)
    exact ⟨(s.supplyBack g.val mv.toNat).letClose g.val, congrArg done (supplyReturn_eq hpower habsent mv.toNat),
      congrArg Group.supply hgroup, congrArg Group.since hgroup, (letClose_rd ..).trans (supplyBack_present ..),
      (letClose_rd ..).trans (supplyBack_supply ..), congrArg Group.iso hgroup, (congrArg State.raised hstill :),
      (congrArg State.hub hstill :), keeps_of_still hstill⟩
  · exact congrArg done (if_pos ⟨hdelay, hover⟩ : s.closeDelayOver g.val = s.startClose g.val)
  · have hacted := portsActed_foldl portFollowsClose_acts (groupPorts g.val) (s.isolatorShut g.val)
    have hstill := hacted.still.trans (isolatorShut_still s g.val)
    exact ⟨_, congrArg done (isolatorClosed_eq hclosing hover), congrArg Group.iso ((hacted.group _).trans (isolatorShut_group ..)),
      (hacted.rdGroup g.isLt rfl).trans (isolatorShut_closed ..), (hacted.rdGroup g.isLt rfl).trans (isolatorShut_opened_by ..),
      fun k hk hstate hsound => isolatorClosed_ports g.isLt hk hstate hsound rfl, (congrArg State.raised hstill :),
      (congrArg State.hub hstill :), keeps_of_still hstill⟩
  · exact congrArg done (if_pos hk)
  · exact congrArg done (if_pos hk)
  · refine congrArg done (?_ : s.groupOverload k.val = _)
    simp [State.groupOverload, hsince, hawake, hover]
  · refine congrArg done (?_ : s.groupOverload k.val = _)
    rcases hnot with hasleep | hearly | honce
    · simp [State.groupOverload, hsince, hasleep]
    · simp [State.groupOverload, hsince, Nat.not_le.mpr hearly]
    · simp [State.groupOverload, hsince, honce]
  · refine congrArg done (?_ : s.groupOverload k.val = _)
    simp [State.groupOverload, hnone]
  · refine congrArg done (?_ : s.portOverload g.val ma.toNat = _)
    simp [State.portOverload, hsince, hawake, hover, hfirst]

end Sys2Proof.Machine

namespace Sys2Proof.Machine

/-! ### Accepted edges and the contexts that latch them (R412, R508) -/

theorem ctx_setCtx_same (s : State) (e c : Nat) (x : Ctx) : (s.setCtx e c x).ctx e c = x := by
  unfold State.setCtx State.setEngine State.ctx State.engine
  dsimp only
  rw [mget_mput_same, mget_mput_same]

theorem ctx_setCtx_ne (s : State) {e c f d : Nat} (x : Ctx) (h : ¬(f = e ∧ d = c)) : (s.setCtx e c x).ctx f d = s.ctx f d := by
  unfold State.setCtx State.setEngine State.ctx State.engine
  dsimp only
  by_cases hf : f = e
  · subst hf
    rw [mget_mput_same, mget_mput_ne _ _ _ (fun hd => h ⟨rfl, hd⟩)]
  · rw [mget_mput_ne _ _ _ hf]

/-- The context's latch of slot `k` for edges of one direction. -/
def Ctx.latched (x : Ctx) (rose : Bool) (k : Nat) : Bool := if rose then x.riseL.getLsbD k else x.fallL.getLsbD k

/-- What an edge makes of a context with the pin in slot `k`. -/
def Ctx.seesEdge (x : Ctx) (rose : Bool) (k : Nat) : Ctx :=
  let y := { x with stampRep := x.stampRep &&& ~~~(BitVec.ofNat 16 (2 ^ k)) }
  if !x.runs then y
  else if rose then { y with riseL := y.riseL ||| BitVec.ofNat 16 (2 ^ k) } else { y with fallL := y.fallL ||| BitVec.ofNat 16 (2 ^ k) }

theorem latchEdge_eq (s : State) (rose : Bool) (e c k : Nat) :
    s.latchEdge rose (e, c, k) = s.setCtx e c ((s.ctx e c).seesEdge rose k) := rfl

theorem seesEdge_runs (x : Ctx) (rose : Bool) (k : Nat) : (x.seesEdge rose k).runs = x.runs := by
  unfold Ctx.seesEdge
  dsimp only
  (repeat' split) <;> rfl

/-- An edge adds its latch, and no other, to those of a running context. -/
theorem seesEdge_latched (x : Ctx) (rose rose' : Bool) (k k' : Nat) : (x.seesEdge rose' k').latched rose k =
    (x.latched rose k || (x.runs && rose == rose' && (BitVec.ofNat 16 (2 ^ k')).getLsbD k)) := by
  unfold Ctx.seesEdge
  cases x.runs
  · simp [Ctx.latched]
  · cases rose' <;> cases rose <;> simp [Ctx.latched]

/-- An edge leaves the mode of every context, and what it has latched. -/
theorem latchEdge_ctx (s : State) (rose : Bool) (x : Nat × Nat × Nat) (e c : Nat) :
    (s.latchEdge rose x).ctx e c = s.ctx e c ∨ (s.latchEdge rose x).ctx e c = (s.ctx e c).seesEdge rose x.2.2 := by
  obtain ⟨f, d, k⟩ := x
  rw [latchEdge_eq]
  by_cases h : e = f ∧ c = d
  · obtain ⟨rfl, rfl⟩ := h
    exact .inr (ctx_setCtx_same ..)
  · exact .inl (ctx_setCtx_ne s _ h)

theorem latchEdges_keep (l : List (Nat × Nat × Nat)) (rose : Bool) {e c k : Nat} {s : State} (h : (s.ctx e c).latched rose k = true) :
    ((l.foldl (fun t x => t.latchEdge rose x) s).ctx e c).latched rose k = true :=
  List.foldlRecOn (motive := fun t : State => (t.ctx e c).latched rose k = true) l _ h (fun t ht x _ => by
    rcases latchEdge_ctx t rose x e c with hsame | hsees
    · rw [hsame]
      exact ht
    · rw [hsees]
      rw [seesEdge_latched, ht, Bool.true_or])

/-- Every running context of the list latches the edge. -/
theorem latchEdges_latch (l : List (Nat × Nat × Nat)) (rose : Bool) {e c k : Nat} (hk : k < 16) (s : State) (hmem : (e, c, k) ∈ l)
    (hruns : (s.ctx e c).runs = true) : ((l.foldl (fun t x => t.latchEdge rose x) s).ctx e c).latched rose k = true := by
  induction l generalizing s with
  | nil => contradiction
  | cons x l ih =>
    rw [List.foldl_cons]
    rcases List.mem_cons.mp hmem with rfl | hrest
    · refine latchEdges_keep l rose ?_
      rw [latchEdge_eq, ctx_setCtx_same]
      have hbit : (BitVec.ofNat 16 (2 ^ k)).getLsbD k = true := by
        rw [BitVec.getLsbD_ofNat]
        simp [hk]
      simp only [seesEdge_latched, hruns, hbit, beq_self_eq_true, Bool.and_self, Bool.or_true]
    · refine ih _ hrest ?_
      rcases latchEdge_ctx s rose x e c with hsame | hsees
      · rw [hsame]
        exact hruns
      · rw [hsees, seesEdge_runs]
        exact hruns

theorem slotsOf_lt {s : State} {g e c k : Nat} (h : (e, c, k) ∈ s.slotsOf g) : k < 16 := by
  simp only [State.slotsOf, List.mem_flatMap, List.mem_map, List.mem_filter, List.mem_range] at h
  grind

/-- The state without the engines. -/
def State.sansEngines (s : State) : State := { s with engines := [] }

/-- An edge is stamped in its pin's cell; besides, contexts alone see it. -/
theorem recordEdge_sansEngines (s : State) (g : Nat) (stamp : Word) (rose : Bool) : (s.recordEdge g stamp rose).sansEngines =
    (s.setPin g { s.pin g with edges := (stamp, rose) :: (s.pin g).edges }).sansEngines :=
  foldl_keeps State.sansEngines (fun (t : State) k => t.latchEdge rose k) _ (fun _ _ _ => rfl) _

theorem recordEdge_latched (s : State) {g : Nat} (stamp : Word) (rose : Bool) {e c k : Nat} (hslot : (e, c, k) ∈ s.slotsOf g)
    (hruns : (s.ctx e c).runs = true) : ((s.recordEdge g stamp rose).ctx e c).latched rose k = true :=
  latchEdges_latch (s.slotsOf g) rose (slotsOf_lt hslot) _ hslot hruns

/-- The pin with the level of an edge, before the edge is stamped. -/
def State.withLevel (s : State) (g : Nat) (level : Bool) : State := s.setPin g { s.pin g with level := some level }

theorem withLevel_pin (s : State) (g : Nat) (level : Bool) : (s.withLevel g level).pin g = { s.pin g with level := some level } :=
  pin_setPin_same ..

/-- The stamped edge in its pin's cell. -/
theorem recordEdge_pin (s : State) (g : Nat) (stamp : Word) (rose : Bool) :
    (s.recordEdge g stamp rose).pin g = { s.pin g with edges := (stamp, rose) :: (s.pin g).edges } := by
  have hcell := congrArg (fun u : State => u.pin g) (recordEdge_sansEngines s g stamp rose)
  exact hcell.trans (pin_setPin_same ..)

/-- What an accepted edge leaves alone. -/
theorem recordEdge_rest (s : State) (g : Nat) (stamp : Word) (rose : Bool) : (s.recordEdge g stamp rose).regs = s.regs ∧
    (s.recordEdge g stamp rose).hub = s.hub ∧ Keeps s (s.recordEdge g stamp rose) := by
  have h := recordEdge_sansEngines s g stamp rose
  exact ⟨(congrArg State.regs h :), (congrArg State.hub h :), keeps_of_lasting (congrArg State.lasting h :)⟩

/-- An edge that is accepted by a receiver with power, on a line that the hub's own driver does not hold, is stamped. -/
theorem acceptEdge_seen {s : State} {g : Nat} {level : Bool} {t : Word} (hfitted : g < s.nPins) (hchange : s.acceptedLevel g ≠ level)
    (hline : s.ownLine g = none) (hmode : s.pinMode g ≠ 0) (hfiltered : s.filtered g t = true) (hpair : s.pairOdd g = false)
    (hgated : s.groupGated (groupOfPin g) = false) (hawake : s.asleep = false) :
    s.acceptEdge g level t = (s.withLevel g level).recordEdge g (s.edgeStamp g t) (level != s.on (R.BAY_PIN_invert g)) := by
  unfold State.acceptEdge
  dsimp only
  rw [if_neg (by simp [hfitted, hfiltered]), if_neg (by simp [hchange, hline, hmode, hpair, hgated, hawake])]
  rfl

/-- An edge that changes nothing at the receiver, or to which the hub's own driver holds the line, is not stamped. -/
theorem acceptEdge_unseen {s : State} {g : Nat} {level : Bool} (t : Word) (h : s.acceptedLevel g = level ∨ (s.ownLine g).isSome = true) :
    s.acceptEdge g level t = s ∨ s.acceptEdge g level t = s.withLevel g level := by
  unfold State.acceptEdge
  dsimp only
  split
  · exact .inl rfl
  · rw [if_pos (by rcases h with h | h <;> simp [h])]
    exact .inr rfl

theorem input24_iff (s : State) (g : Nat) : s.input24 g = true ↔ s.pinMode g = 1 ∨ s.pinMode g = 2 := by
  simp [State.input24]

theorem filtered_of {s : State} {g : Nat} {t : Word}
    (h : s.pinMode g = 1 ∨ s.pinMode g = 2 → (s.rd (R.BAY_PIN_filter g) * 1000 : Int) ≤ tdiff s.now t) : s.filtered g t = true := by
  rw [← input24_iff] at h
  cases hinput : s.input24 g
  · simp [State.filtered, hinput]
  · simpa [State.filtered, hinput] using h hinput

theorem edgeStamp_eq (s : State) (g : Nat) (t : Word) :
    s.edgeStamp g t = if s.pinMode g = 1 ∨ s.pinMode g = 2 then t - 45 else t := by
  simp only [State.edgeStamp, input24_iff]

/-- A new level that has not outlasted the filter is no edge (R412). -/
theorem acceptEdge_short {s : State} {g : Nat} (level : Bool) {t : Word} (hinput : s.pinMode g = 1 ∨ s.pinMode g = 2)
    (hshort : tdiff s.now t < (s.rd (R.BAY_PIN_filter g) * 1000 : Int)) : s.acceptEdge g level t = s := by
  have hfiltered : s.filtered g t = false := by
    simp [State.filtered, (input24_iff s g).mpr hinput, Int.not_le.mpr hshort]
  exact if_pos (.inr (by simp [hfiltered]))

/-- What the hub's own driver makes of a line does not follow the level that the receiver accepted. -/
theorem ownLine_withLevel (s : State) (g : Nat) (level : Bool) : (s.withLevel g level).ownLine g = s.ownLine g := by
  have hmode : (s.withLevel g level).pinMode g = s.pinMode g := rfl
  unfold State.ownLine
  rw [withLevel_pin, hmode]

theorem acceptedLevel_withLevel (s : State) (g : Nat) (level : Bool) : (s.withLevel g level).acceptedLevel g = level := by
  rw [State.acceptedLevel, withLevel_pin]
  rfl

/-- What an edge that is not stamped leaves: the level of the pin may become that of the edge. -/
theorem acceptEdge_frame {s : State} {g : Nat} {level : Bool} (t : Word) (h : s.acceptedLevel g = level ∨ (s.ownLine g).isSome = true) :
    ((s.acceptEdge g level t).pin g).edges = (s.pin g).edges ∧ (s.acceptEdge g level t).ownLine g = s.ownLine g ∧
    ((s.acceptEdge g level t).acceptedLevel g = s.acceptedLevel g ∨ (s.acceptEdge g level t).acceptedLevel g = level) ∧
    (s.acceptEdge g level t).engines = s.engines ∧ (s.acceptEdge g level t).regs = s.regs ∧ (s.acceptEdge g level t).hub = s.hub ∧
    Keeps s (s.acceptEdge g level t) := by
  rcases acceptEdge_unseen t h with hsame | hlevel
  · rw [hsame]
    exact ⟨rfl, rfl, .inl rfl, rfl, rfl, rfl, keeps_of_still rfl⟩
  · rw [hlevel]
    exact ⟨by rw [withLevel_pin], ownLine_withLevel .., .inr (acceptedLevel_withLevel ..), rfl, rfl, rfl,
      keeps_of_still (setPin_still ..)⟩

end Sys2Proof.Machine

namespace Sys2Proof.Machine

/-! ### The pad of a pin (R408 to R422) -/

/-- `t` has the hub's own fields, the bit-stream's values, the cell of pin `g` and, but for the register at `a`, the registers of `s`. -/
structure CellBut (a : Nat) (s t : State) (g : Nat) : Prop where
  hub : t.hub = s.hub
  loaded : t.loaded = s.loaded
  pin : t.pin g = s.pin g
  word : ∀ b, b ≠ a → t.word b = s.word b

/-- A register of a bay behind its pin cells. -/
abbrev pastCells (a : Nat) : Prop := 0x100000 ≤ a ∧ a < 0x160000 ∧ 64 ≤ a % 0x2000

theorem pastCells_out {n : Nat} (hn : n < 48) : pastCells (R.BAY_OUT n) := by
  unfold pastCells R.BAY_OUT bayBase
  omega

theorem pastCells_pinstat {n : Nat} (hn : n < 48) : pastCells (R.BAY_PINSTAT n) := by
  unfold pastCells R.BAY_PINSTAT bayBase
  omega

namespace CellBut

variable {a : Nat} {s t u : State} {g : Nat}

theorem trans (h : CellBut a s t g) (k : CellBut a t u g) : CellBut a s u g :=
  ⟨k.hub.trans h.hub, k.loaded.trans h.loaded, k.pin.trans h.pin, fun b hb => (k.word b hb).trans (h.word b hb)⟩

theorem wr (s : State) (f : Fld) (v g : Nat) : CellBut f.addr s (s.wr f v) g :=
  ⟨rfl, rfl, by rw [State.pin, State.wr_bays, State.pin], fun _ hb => word_wr_ne s f v hb⟩

theorem of_sansPins (h : t.sansPins = s.sansPins) (hpin : t.pin g = s.pin g) : CellBut a s t g :=
  ⟨(congrArg State.hub h :), (congrArg State.loaded h :), hpin, fun b _ => (congrArg (fun u : State => u.word b) h :)⟩

theorem rd (h : CellBut a s t g) {f : Fld} (hf : f.addr ≠ a) : t.rd f = s.rd f := rd_of_word f (h.word _ hf)

theorem on (h : CellBut a s t g) {f : Fld} (hf : f.addr ≠ a) : t.on f = s.on f := congrArg (· != 0) (h.rd hf)

theorem bitOn (h : CellBut a s t g) {f : Fld} (hf : f.addr ≠ a) (i : Nat) : t.bitOn f i = s.bitOn f i := congrArg (bitAt · i) (h.rd hf)

theorem outputRule (h : CellBut a s t g) : t.outputRule = s.outputRule := by
  unfold State.outputRule
  rw [h.hub]

section
variable (ha : pastCells a)
include ha

theorem cell_ne (g : Nat) : R.BAY_PIN g ≠ a := by
  unfold R.BAY_PIN bayBase
  unfold pastCells at ha
  omega

theorem pinMode (h : CellBut a s t g) : t.pinMode g = s.pinMode g := h.rd (cell_ne ha g)

theorem hasDriver (h : CellBut a s t g) : t.hasDriver g = s.hasDriver g := by
  simp only [State.hasDriver, State.pairOdd, h.pinMode ha]

theorem groupGated (h : CellBut a s t g) (k : Nat) : t.groupGated k = s.groupGated k :=
  h.bitOn (by simp only [R.PWR_STATUS_gated, R.PWR_STATUS]; omega) k

theorem bayForced (h : CellBut a s t g) (n : Nat) : t.bayForced n = s.bayForced n :=
  h.bitOn (by simp only [R.KET_FORCE_forced, R.KET_FORCE]; omega) n

theorem islandDrives (h : CellBut a s t g) : t.islandDrives g = s.islandDrives g := by
  have howner : t.rd (R.BAY_PIN_owner g) = s.rd (R.BAY_PIN_owner g) := h.rd (cell_ne ha g)
  have hfallback (e c : Nat) : t.on (R.INF_CTX_CFG_fallback e c) = s.on (R.INF_CTX_CFG_fallback e c) :=
    h.on (by simp only [R.INF_CTX_CFG_fallback, R.INF_CTX_CFG, engBase]; omega)
  simp only [State.islandDrives, howner, h.pin, hfallback]

theorem ownerDrives (h : CellBut a s t g) : t.ownerDrives g = s.ownerDrives g := by
  simp only [State.ownerDrives, h.bayForced ha, h.groupGated ha, h.outputRule, h.islandDrives ha]

theorem testDrive (h : CellBut a s t g) : t.testDrive g = s.testDrive g := by
  simp only [State.testDrive, h.hub, h.bayForced ha, h.groupGated ha]

theorem lplusLow (h : CellBut a s t g) : t.lplusLow g = s.lplusLow g := by
  have hpg {k : Nat} (hk : k < 32) : t.on (R.PWP_STAT_pg k) = s.on (R.PWP_STAT_pg k) :=
    h.on (by simp only [R.PWP_STAT_pg, R.PWP_STAT]; omega)
  rw [State.lplusLow, State.lplusLow, h.pinMode ha, h.loaded]
  by_cases hk : mget 255 s.loaded.lplus (g / 8) < 32
  · rw [hpg hk]
  · simp [hk]

theorem ownerState (h : CellBut a s t g) (hout : a ≠ R.BAY_OUT (g / 8)) : t.ownerState g = s.ownerState g := by
  have howner : t.rd (R.BAY_PIN_owner g) = s.rd (R.BAY_PIN_owner g) := h.rd (cell_ne ha g)
  have henable : t.bitOn (R.BAY_OUT_enable (g / 8)) (g % 8) = s.bitOn (R.BAY_OUT_enable (g / 8)) (g % 8) := h.bitOn hout.symm _
  have hvalue : t.bitOn (R.BAY_OUT_value (g / 8)) (g % 8) = s.bitOn (R.BAY_OUT_value (g / 8)) (g % 8) := h.bitOn hout.symm _
  simp only [State.ownerState, howner, henable, hvalue, h.pin]

end

end CellBut

/-- A driver whose overload bit is set is released. -/
theorem applyPad_overload {s : State} {g : Nat} (hover : s.bitOn (R.BAY_PINSTAT_overload (g / 8)) (g % 8) = true) :
    ((s.applyPad g).pin g).pad = .released := by
  unfold State.applyPad
  dsimp only
  split
  · rw [pin_setPin_same]
  split
  · rw [pin_setPin_same]
  · rw [pin_setPin_same]

/-- A driver whose owner drives takes its owner's drive state. -/
theorem applyPin_owner {s : State} {g : Nat} (hdriver : s.hasDriver g = true) (hlplus : s.lplusLow g = false)
    (hdrives : s.ownerDrives g = true) (hrule : s.outputRule ≠ .off)
    (hover : s.bitOn (R.BAY_PINSTAT_overload (g / 8)) (g % 8) = false)
    (hagent : ¬((s.rd (R.BAY_PIN_owner g) == 2 || s.rd (R.BAY_PIN_owner g) == 3) = true ∧ (s.pin g).kept = true)) :
    ((s.applyPin g).pin g).pad = (s.ownerState g).through (s.on (R.BAY_PIN_invert g)) := by
  rw [State.applyPin, (followLine_repinned ..).2, State.applyPad, if_neg (by simp [hdriver, hlplus]), if_neg hrule, if_neg (by simp [hover]),
    if_pos hdrives, if_neg hagent, pin_setPin_same]

/-- Where the safe values are in force and no test drives the pin, its driver takes its safe drive state. -/
theorem applyPin_safe {s : State} {g : Nat} (hdriver : s.hasDriver g = true) (hlplus : s.lplusLow g = false) (hrule : s.outputRule = .safe)
    (htest : s.testDrive g = none) (hover : s.bitOn (R.BAY_PINSTAT_overload (g / 8)) (g % 8) = false) :
    ((s.applyPin g).pin g).pad = safeDrive (s.rd (R.BAY_PIN_safe g)) (s.pin g).pad := by
  have hdrives : s.ownerDrives g = false := by simp [State.ownerDrives, hrule]
  rw [State.applyPin, (followLine_repinned ..).2, State.applyPad, if_neg (by simp [hdriver, hlplus]), if_neg (by simp [hrule]),
    if_neg (by simp [hover]), if_neg (by simp [hdrives]), pin_setPin_same, htest]
  rfl

/-- In a fold over the pins of a bay that acts on each pin's own cell, a pin is acted on as it was, and stays as that leaves it. -/
theorem foldl_bay_at {f : State → Nat → State} (n : Nat) (hf : ∀ t p, Repinned t (f t p) (8 * n + p)) (s : State) {p : Nat} (hp : p < 8) :
    ∃ t, t.sansPins = s.sansPins ∧ t.pin (8 * n + p) = s.pin (8 * n + p) ∧
      ((List.range 8).foldl f s).pin (8 * n + p) = (f t p).pin (8 * n + p) := by
  obtain ⟨before, after, hsplit⟩ := List.append_of_mem (List.mem_range.mpr hp)
  have hnodup : (before ++ p :: after).Nodup := hsplit ▸ List.nodup_range
  obtain ⟨-, hafter, hbefore⟩ := List.nodup_append.mp hnodup
  have hothers {l : List Nat} (hl : p ∉ l) (t : State) : (l.foldl f t).pin (8 * n + p) = t.pin (8 * n + p) :=
    foldl_keeps (fun u : State => u.pin (8 * n + p)) f l (fun u q hq => (hf u q).other _ (fun h => hl (by
      have : p = q := by omega
      exact this ▸ hq))) t
  refine ⟨before.foldl f s, foldl_keeps State.sansPins f before (fun u q _ => (hf u q).rest) s,
    hothers (fun hmem => hbefore p hmem p List.mem_cons_self rfl) s, ?_⟩
  rw [hsplit, List.foldl_append, List.foldl_cons]
  exact hothers (List.nodup_cons.mp hafter).1 _

theorem foldl_bay_sansPins {f : State → Nat → State} {n : Nat} (hf : ∀ t p, Repinned t (f t p) (8 * n + p)) (l : List Nat) (s : State) :
    (l.foldl f s).sansPins = s.sansPins :=
  foldl_keeps State.sansPins f l (fun u q _ => (hf u q).rest) s

/-! ### BAY_OUT (R418, R420, R422) -/

/-- A register-owned pin takes the drive state that BAY_OUT gives. -/
def State.takeBayOut (n : Nat) (s : State) (p : Nat) : State :=
  if s.rd (R.BAY_PIN_owner (8 * n + p)) = 1 then s.applyPin (8 * n + p) else s

theorem takeBayOut_repinned (n : Nat) (s : State) (p : Nat) : Repinned s (s.takeBayOut n p) (8 * n + p) := by
  unfold State.takeBayOut
  split
  · exact applyPin_repinned s _
  · exact repinned_refl s _

/-- BAY_OUT holds the two fields, and the pins have not followed yet. -/
def State.withBayOut (s : State) (n : Nat) (v : Word) : State :=
  (s.wr (R.BAY_OUT_enable n) (fget v 8 8)).wr (R.BAY_OUT_value n) (fget v 0 8)

theorem writeBayOut_eq (s : State) (n : Nat) (v : Word) :
    s.writeBayOut n v = (List.range 8).foldl (State.takeBayOut n) (s.withBayOut n v) := rfl

theorem hub_of_sansPins {s t : State} (h : t.sansPins = s.sansPins) : t.hub = s.hub := (congrArg State.hub h :)

theorem rd_of_sansPins {s t : State} (h : t.sansPins = s.sansPins) (f : Fld) : t.rd f = s.rd f :=
  rd_of_word f (congrArg (fun u : State => u.word f.addr) h :)

theorem bitOn_of_sansPins {s t : State} (h : t.sansPins = s.sansPins) (f : Fld) (i : Nat) : t.bitOn f i = s.bitOn f i :=
  congrArg (bitAt · i) (rd_of_sansPins h f)

theorem fget_lt (w : Word) (l n : Nat) : fget w l n < 2 ^ n := Nat.mod_lt _ (Nat.two_pow_pos n)

theorem withBayOut_but (s : State) (n : Nat) (v : Word) (g : Nat) : CellBut (R.BAY_OUT n) s (s.withBayOut n v) g :=
  (CellBut.wr s (R.BAY_OUT_enable n) _ g).trans (CellBut.wr _ (R.BAY_OUT_value n) _ g)

theorem withBayOut_enable (s : State) (n : Nat) (v : Word) : (s.withBayOut n v).rd (R.BAY_OUT_enable n) = fget v 8 8 := by
  rw [State.withBayOut, rd_wr_apart _ _ rfl, rd_wr_same _ _ _ (by simp [R.BAY_OUT_enable])]
  exact Nat.mod_eq_of_lt (fget_lt v 8 8)

theorem withBayOut_value (s : State) (n : Nat) (v : Word) : (s.withBayOut n v).rd (R.BAY_OUT_value n) = fget v 0 8 := by
  rw [State.withBayOut, rd_wr_same _ _ _ (by simp [R.BAY_OUT_value])]
  exact Nat.mod_eq_of_lt (fget_lt v 0 8)

theorem withBayOut_still (s : State) (n : Nat) (v : Word) : (s.withBayOut n v).still = s.still := by
  rw [State.withBayOut, wr_still, wr_still]

theorem withBayOut_hub (s : State) (n : Nat) (v : Word) : (s.withBayOut n v).hub = s.hub := by
  rw [State.withBayOut, State.wr_hub, State.wr_hub]

/-- The drive state that the word `v` in BAY_OUT gives pin `p` of its bay (R420). -/
def bayOutDrive (v : Word) (p : Nat) : Drive :=
  if bitAt (fget v 8 8) p = true then (if bitAt (fget v 0 8) p = true then .high else .low) else .released

theorem ownerState_bayOut {s : State} {n p : Nat} {v : Word} (hp : p < 8) (howner : s.rd (R.BAY_PIN_owner (8 * n + p)) = 1)
    (henable : s.rd (R.BAY_OUT_enable n) = fget v 8 8) (hvalue : s.rd (R.BAY_OUT_value n) = fget v 0 8) :
    s.ownerState (8 * n + p) = bayOutDrive v p := by
  have hdiv : (8 * n + p) / 8 = n := by omega
  have hmod : (8 * n + p) % 8 = p := by omega
  simp [State.ownerState, State.bitOn, bayOutDrive, howner, hdiv, hmod, henable, hvalue]

/-- A write of BAY_OUT leaves a register-owned pin as `State.applyPin` does, at a state with that BAY_OUT and the overload bits of the
bay. -/
theorem writeBayOut_at (s : State) {n p : Nat} (v : Word) (hn : n < 48) (hp : p < 8) (howner : s.rd (R.BAY_PIN_owner (8 * n + p)) = 1) :
    ∃ t, CellBut (R.BAY_OUT n) s t (8 * n + p) ∧ t.rd (R.BAY_PIN_owner (8 * n + p)) = 1 ∧ t.ownerState (8 * n + p) = bayOutDrive v p ∧
      t.bitOn (R.BAY_PINSTAT_overload ((8 * n + p) / 8)) ((8 * n + p) % 8) = s.bitOn (R.BAY_PINSTAT_overload n) p ∧
      (s.writeBayOut n v).pin (8 * n + p) = (t.applyPin (8 * n + p)).pin (8 * n + p) := by
  obtain ⟨t, hrest, hpin, hat⟩ := foldl_bay_at n (takeBayOut_repinned n) (s.withBayOut n v) hp
  have hbut : CellBut (R.BAY_OUT n) s t (8 * n + p) := (withBayOut_but s n v _).trans (CellBut.of_sansPins hrest hpin)
  have howner' : t.rd (R.BAY_PIN_owner (8 * n + p)) = 1 := (hbut.rd (CellBut.cell_ne (pastCells_out hn) _)).trans howner
  refine ⟨t, hbut, howner', ownerState_bayOut hp howner' ((rd_of_sansPins hrest _).trans (withBayOut_enable ..))
    ((rd_of_sansPins hrest _).trans (withBayOut_value ..)), ?_, ?_⟩
  · rw [show (8 * n + p) / 8 = n by omega, show (8 * n + p) % 8 = p by omega]
    exact hbut.bitOn (by simp only [R.BAY_PINSTAT_overload, R.BAY_PINSTAT, R.BAY_OUT]; omega) p
  · rw [writeBayOut_eq, hat, State.takeBayOut, if_pos howner']

/-- Where owners drive, the pad of a register-owned pin takes what BAY_OUT gives, through the inverter. -/
theorem writeBayOut_pad {s : State} {n p : Nat} (v : Word) (hn : n < 48) (hp : p < 8) (howner : s.rd (R.BAY_PIN_owner (8 * n + p)) = 1)
    (hdriver : s.hasDriver (8 * n + p) = true) (hlplus : s.lplusLow (8 * n + p) = false) (hdrives : s.ownerDrives (8 * n + p) = true)
    (hrule : s.outputRule ≠ .off) (hover : s.bitOn (R.BAY_PINSTAT_overload n) p = false) :
    ((s.writeBayOut n v).pin (8 * n + p)).pad = (bayOutDrive v p).through (s.on (R.BAY_PIN_invert (8 * n + p))) := by
  have ha := pastCells_out hn
  obtain ⟨t, hbut, howner', hstate, hbits, hat⟩ := writeBayOut_at s v hn hp howner
  rw [hat, applyPin_owner ((hbut.hasDriver ha).trans hdriver) ((hbut.lplusLow ha).trans hlplus) ((hbut.ownerDrives ha).trans hdrives)
    (hbut.outputRule ▸ hrule) (hbits.trans hover) (by simp [howner']), hstate, hbut.on (CellBut.cell_ne ha _)]

/-- Where the safe values are in force, BAY_OUT does not reach the pad. -/
theorem writeBayOut_pad_safe {s : State} {n p : Nat} (v : Word) (hn : n < 48) (hp : p < 8) (howner : s.rd (R.BAY_PIN_owner (8 * n + p)) = 1)
    (hrule : s.outputRule = .safe) (htest : s.testDrive (8 * n + p) = none) (hdriver : s.hasDriver (8 * n + p) = true)
    (hlplus : s.lplusLow (8 * n + p) = false) (hover : s.bitOn (R.BAY_PINSTAT_overload n) p = false) :
    ((s.writeBayOut n v).pin (8 * n + p)).pad = safeDrive (s.rd (R.BAY_PIN_safe (8 * n + p))) (s.pin (8 * n + p)).pad := by
  have ha := pastCells_out hn
  obtain ⟨t, hbut, -, -, hbits, hat⟩ := writeBayOut_at s v hn hp howner
  rw [hat, applyPin_safe ((hbut.hasDriver ha).trans hdriver) ((hbut.lplusLow ha).trans hlplus) (hbut.outputRule.trans hrule)
    ((hbut.testDrive ha).trans htest) (hbits.trans hover), hbut.rd (CellBut.cell_ne ha _), hbut.pin]

/-! ### Clearing overload bits (R416) -/

/-- Taking away the common bits clears the bits of `m`. -/
theorem testBit_sub_and (b m p : Nat) : (b - (b &&& m)).testBit p = (b.testBit p && !m.testBit p) := by
  induction p generalizing b m with
  | zero =>
    have hle : b &&& m ≤ b := Nat.and_le_left
    have hodd := Nat.and_mod_two_eq_one (a := b) (b := m)
    simp only [Nat.testBit_zero]
    grind
  | succ p ih =>
    have hle : b &&& m ≤ b := Nat.and_le_left
    have hodd : (b &&& m) % 2 = 1 → b % 2 = 1 := fun h => (Nat.and_mod_two_eq_one.mp h).1
    have hdiv : (b &&& m) / 2 = b / 2 &&& m / 2 := Nat.and_div_two
    have hhalf : (b - (b &&& m)) / 2 = b / 2 - (b / 2 &&& m / 2) := by omega
    rw [Nat.testBit_succ, Nat.testBit_succ, Nat.testBit_succ, hhalf, ih]

/-- The low bits of a number, put together again. -/
theorem foldl_bits (v n : Nat) : ((List.range n).filter (bitAt v)).foldl (fun w p => w + 2 ^ p) 0 = v % 2 ^ n := by
  induction n with
  | zero => simp [Nat.mod_one]
  | succ n ih =>
    rw [List.range_succ, List.filter_append, List.foldl_append, ih, Nat.mod_pow_succ]
    rcases Nat.mod_two_eq_zero_or_one (v / 2 ^ n) with h | h <;> simp [bitAt, h]

/-- A write that meets no trip clears the bits that it names. -/
theorem overloadClear_alone (s : State) (n : Nat) {mask : Nat} (hmask : mask < 256) : s.overloadClear n mask 0 = s.clearOverload n mask := by
  have hnone : (List.range 8).filter (fun p => bitAt 0 p && s.tripDue (8 * n + p)) = [] :=
    List.filter_eq_nil_iff.mpr (fun p _ => by simp [bitAt])
  have hbits := foldl_bits mask 8
  rw [Nat.mod_eq_of_lt (show mask < 2 ^ 8 from hmask)] at hbits
  unfold State.overloadClear
  simp only [hnone, List.filter_nil, List.contains_nil, Bool.not_false, Bool.and_true, hbits, List.foldl_nil, List.length_nil]
  exact if_pos rfl

theorem reenablePin_repinned (s : State) (g : Nat) : Repinned s (s.reenablePin g) g := by
  unfold State.reenablePin
  dsimp only
  split
  · have hset : Repinned s (s.setPin g { s.pin g with pad := safeDrive (s.rd (R.BAY_PIN_safe g)) (s.pin g).pad }) g :=
      repinned_setPin s g _ rfl
    exact hset.trans (followLine_repinned _ s g).1
  · exact applyPin_repinned s g

/-- Of the pins of bay `n` those selected are driven again. -/
def State.reenableIn (n sel : Nat) (s : State) (p : Nat) : State := if bitAt sel p then s.reenablePin (8 * n + p) else s

theorem reenableIn_repinned (n sel : Nat) (s : State) (p : Nat) : Repinned s (s.reenableIn n sel p) (8 * n + p) := by
  unfold State.reenableIn
  split
  · exact reenablePin_repinned s _
  · exact repinned_refl s _

/-- The overload bits in `mask` are cleared, and the drivers have not followed yet. -/
def State.dropOverload (s : State) (n mask : Nat) : State :=
  s.wr (R.BAY_PINSTAT_overload n) (s.rd (R.BAY_PINSTAT_overload n) - (s.rd (R.BAY_PINSTAT_overload n) &&& mask))

theorem clearOverload_eq (s : State) (n mask : Nat) : s.clearOverload n mask =
    (List.range 8).foldl (State.reenableIn n (s.rd (R.BAY_PINSTAT_overload n) &&& mask)) (s.dropOverload n mask) := rfl

theorem dropOverload_still (s : State) (n mask : Nat) : (s.dropOverload n mask).still = s.still := wr_still ..

theorem dropOverload_hub (s : State) (n mask : Nat) : (s.dropOverload n mask).hub = s.hub := State.wr_hub ..

theorem dropOverload_bit (s : State) (n mask p : Nat) : (s.dropOverload n mask).bitOn (R.BAY_PINSTAT_overload n) p =
    (s.bitOn (R.BAY_PINSTAT_overload n) p && !mask.testBit p) := by
  have hlt : s.rd (R.BAY_PINSTAT_overload n) - (s.rd (R.BAY_PINSTAT_overload n) &&& mask) < 2 ^ 8 :=
    (Nat.sub_le _ _).trans_lt (fget_lt _ 0 8)
  have hrd : (s.dropOverload n mask).rd (R.BAY_PINSTAT_overload n) =
      s.rd (R.BAY_PINSTAT_overload n) - (s.rd (R.BAY_PINSTAT_overload n) &&& mask) :=
    (rd_wr_same _ _ _ (by simp [R.BAY_PINSTAT_overload])).trans (Nat.mod_eq_of_lt hlt)
  rw [State.bitOn, State.bitOn, hrd, bitAt_eq_testBit, bitAt_eq_testBit, testBit_sub_and]

/-- A driver whose overload bit is cleared takes what its owner asks for, where that has been set since safe values were in force. -/
theorem clearOverload_pad {s : State} {n mask p : Nat} (hn : n < 48) (hp : p < 8) (hover : s.bitOn (R.BAY_PINSTAT_overload n) p = true)
    (hmask : mask.testBit p = true) (hdriver : s.hasDriver (8 * n + p) = true) (hlplus : s.lplusLow (8 * n + p) = false)
    (hdrives : s.ownerDrives (8 * n + p) = true) (hkept : (s.pin (8 * n + p)).kept = false) (hrule : s.outputRule ≠ .off) :
    ((s.clearOverload n mask).pin (8 * n + p)).pad = (s.ownerState (8 * n + p)).through (s.on (R.BAY_PIN_invert (8 * n + p))) := by
  have ha := pastCells_pinstat hn
  have hdiv : (8 * n + p) / 8 = n := by omega
  have hmod : (8 * n + p) % 8 = p := by omega
  obtain ⟨t, hrest, hpin, hat⟩ := foldl_bay_at n (reenableIn_repinned n (s.rd (R.BAY_PINSTAT_overload n) &&& mask)) (s.dropOverload n mask) hp
  have hbut : CellBut (R.BAY_PINSTAT n) s t (8 * n + p) := (CellBut.wr s (R.BAY_PINSTAT_overload n) _ _).trans (CellBut.of_sansPins hrest hpin)
  have hout : R.BAY_PINSTAT n ≠ R.BAY_OUT ((8 * n + p) / 8) := by
    rw [hdiv, R.BAY_PINSTAT, R.BAY_OUT]
    omega
  have hselected : bitAt (s.rd (R.BAY_PINSTAT_overload n) &&& mask) p = true := by
    rw [State.bitOn, bitAt_eq_testBit] at hover
    rw [bitAt_eq_testBit, Nat.testBit_and, hover, hmask, Bool.and_self]
  have hclear : t.bitOn (R.BAY_PINSTAT_overload ((8 * n + p) / 8)) ((8 * n + p) % 8) = false := by
    have hdrop := dropOverload_bit s n mask p
    rw [hmask, Bool.not_true, Bool.and_false] at hdrop
    rw [hdiv, hmod, ← hdrop]
    exact bitOn_of_sansPins hrest _ p
  have hkept' : (t.pin (8 * n + p)).kept = false := by rw [hbut.pin, hkept]
  rw [clearOverload_eq, hat, State.reenableIn, if_pos hselected, State.reenablePin, if_neg (by simp [hkept']),
    applyPin_owner ((hbut.hasDriver ha).trans hdriver) ((hbut.lplusLow ha).trans hlplus) ((hbut.ownerDrives ha).trans hdrives)
      (hbut.outputRule ▸ hrule) hclear (by simp [hkept']), hbut.ownerState ha hout, hbut.on (CellBut.cell_ne ha _)]

end Sys2Proof.Machine

namespace Sys2Proof.Machine

/-! ### Current limit and trip (R415) -/

theorem followLine_limitSince (s old : State) (g : Nat) : ((s.followLine old g).pin g).limitSince = (s.pin g).limitSince := by
  unfold State.followLine
  split
  · rfl
  · dsimp only
    rw [pin_setPin_same]

theorem wr_pin (s : State) (f : Fld) (v g : Nat) : (s.wr f v).pin g = s.pin g := by
  rw [State.pin, State.wr_bays, State.pin]

/-- The driver of pin `g` is in its current limit or not, and the receiver has not followed yet. -/
def State.limiting (s : State) (g : Nat) (on : Bool) : State :=
  (s.setPin g { s.pin g with
    limitSince := if on then some ((s.pin g).limitSince.getD s.clk) else none
    level := if on ∧ (s.pin g).limitSince.isNone then some (s.lineLevel g) else (s.pin g).level }).wrBit
    (R.BAY_PINSTAT_in_limit (g / 8)) (g % 8) on

theorem currentLimit_eq {s : State} {g : Nat} (h : s.limits g = true) (on : Bool) : s.currentLimit g on = (s.limiting g on).followLine s g :=
  if_neg (by simp [h])

/-- What the entry to the current limit, or the end of it, leaves. -/
theorem currentLimit_at {s : State} {g : Nat} (h : s.limits g = true) (on : Bool) :
    ((s.currentLimit g on).pin g).limitSince = (if on then some ((s.pin g).limitSince.getD s.clk) else none) ∧
    (s.currentLimit g on).bitOn (R.BAY_PINSTAT_in_limit (g / 8)) (g % 8) = on ∧
    ((s.currentLimit g on).pin g).pad = (s.pin g).pad ∧ (s.currentLimit g on).hub = s.hub := by
  obtain ⟨hfollow, hpad⟩ := followLine_repinned (s.limiting g on) s g
  have hcell : (s.limiting g on).pin g = { s.pin g with
      limitSince := if on then some ((s.pin g).limitSince.getD s.clk) else none
      level := if on ∧ (s.pin g).limitSince.isNone then some (s.lineLevel g) else (s.pin g).level } := by
    rw [State.limiting, State.wrBit, wr_pin, pin_setPin_same]
  have hbit : (s.limiting g on).bitOn (R.BAY_PINSTAT_in_limit (g / 8)) (g % 8) = on :=
    (bitOn_wrBit _ _ _ _ (by simp [R.BAY_PINSTAT_in_limit]) (Nat.mod_lt g (by decide : 8 > 0))).trans (if_pos rfl)
  rw [currentLimit_eq h, followLine_limitSince, hpad, bitOn_of_sansPins hfollow.rest, hcell]
  exact ⟨rfl, hbit, rfl, (congrArg State.hub hfollow.rest :)⟩

/-- The cell and the bits of pin `g` say that its driver has tripped. -/
def State.tripBits (s : State) (g : Nat) : State :=
  ((s.setPin g { s.pin g with limitSince := none }).wrBit (R.BAY_PINSTAT_in_limit (g / 8)) (g % 8) false).wrBit
    (R.BAY_PINSTAT_overload (g / 8)) (g % 8) true

/-- The driver of pin `g` has tripped, which is counted and raised, and the pad has not followed yet. -/
def State.tripping (s : State) (g : Nat) : State :=
  (((s.tripBits g).bump (R.BAY_PINCNT_overloads (g / 8))).raise (0x080 + g / 8) (2 ^ (g % 8))).pmcEv 8 6 (g / 8 / 4)

theorem tripPin_eq (s : State) (g : Nat) : s.tripPin g = ((s.tripping g).applyPad g).followLine s g := rfl

theorem tripPin_repinned (s : State) (g : Nat) : Repinned (s.tripping g) (s.tripPin g) g :=
  tripPin_eq s g ▸ (applyPad_repinned _ g).trans (followLine_repinned _ s g).1

theorem raise_sansCounts (s : State) (i d : Nat) : (s.raise i d).sansCounts = s.sansCounts.raise i d := rfl

theorem wrBit_sansCounts (s : State) (f : Fld) (i : Nat) (b : Bool) : (s.wrBit f i b).sansCounts = s.sansCounts := rfl

/-- Besides registers and counters a trip moves the cell of its pin and raises its event. -/
theorem tripping_sansCounts (s : State) (g : Nat) : (s.tripping g).sansCounts =
    (s.setPin g { s.pin g with limitSince := none }).sansCounts.raise (0x080 + g / 8) (2 ^ (g % 8)) := by
  rw [State.tripping, pmcEv_sansCounts, raise_sansCounts, State.bump, State.bumpBy, wr_sansCounts, State.tripBits, wrBit_sansCounts,
    wrBit_sansCounts]

/-- The performance counters are no registers of a bay. -/
theorem tripping_rd (s : State) (g : Nat) {f : Fld} (hf : 0x100000 ≤ f.addr) :
    (s.tripping g).rd f = ((s.tripBits g).bump (R.BAY_PINCNT_overloads (g / 8))).rd f :=
  (rd_of_word f (pmcEv_word _ 8 6 (g / 8 / 4) {} (by omega))).trans (raise_rd _ _ _ f)

/-- The count of trips stands apart from the bits. -/
theorem tripping_bitOn (s : State) (g : Nat) {f : Fld} (hf : f.addr = R.BAY_PINSTAT (g / 8)) (i : Nat) :
    (s.tripping g).bitOn f i = (s.tripBits g).bitOn f i := by
  have haddr : f.addr ≠ (R.BAY_PINCNT_overloads (g / 8)).addr := by
    simp only [hf, R.BAY_PINCNT_overloads, R.BAY_PINSTAT, R.BAY_PINCNT]
    omega
  have hbay : 0x100000 ≤ f.addr := by
    rw [hf, R.BAY_PINSTAT, bayBase]
    omega
  rw [State.bitOn, tripping_rd s g hbay, State.bump, State.bumpBy, rd_wr_addr _ _ _ _ haddr, State.bitOn]

theorem tripping_overload (s : State) (g : Nat) : (s.tripping g).bitOn (R.BAY_PINSTAT_overload (g / 8)) (g % 8) = true :=
  (tripping_bitOn s g rfl _).trans
    ((bitOn_wrBit _ _ _ _ (by simp [R.BAY_PINSTAT_overload]) (Nat.mod_lt g (by decide : 8 > 0))).trans (if_pos rfl))

theorem tripping_in_limit (s : State) (g : Nat) : (s.tripping g).bitOn (R.BAY_PINSTAT_in_limit (g / 8)) (g % 8) = false := by
  have hbits : (s.tripBits g).bitOn (R.BAY_PINSTAT_in_limit (g / 8)) (g % 8) = false := by
    rw [State.tripBits, State.bitOn, State.wrBit, rd_wr_apart _ _ rfl]
    exact (bitOn_wrBit _ _ _ _ (by simp [R.BAY_PINSTAT_in_limit]) (Nat.mod_lt g (by decide : 8 > 0))).trans (if_pos rfl)
  exact (tripping_bitOn s g rfl _).trans hbits

theorem tripping_counted (s : State) (g : Nat) : Counted s (s.tripping g) (R.BAY_PINCNT_overloads (g / 8)) := by
  have haddr : (R.BAY_PINCNT_overloads (g / 8)).addr ≠ R.BAY_PINSTAT (g / 8) := by
    simp only [R.BAY_PINCNT_overloads, R.BAY_PINSTAT, R.BAY_PINCNT]
    omega
  have hbits : (s.tripBits g).rd (R.BAY_PINCNT_overloads (g / 8)) = s.rd (R.BAY_PINCNT_overloads (g / 8)) := by
    rw [State.tripBits, State.wrBit, State.wrBit, rd_wr_addr _ _ _ _ haddr, rd_wr_addr _ _ _ _ haddr]
    rfl
  rw [Counted, tripping_rd s g (by simp only [R.BAY_PINCNT_overloads, R.BAY_PINCNT, bayBase]; omega),
    rd_bump_same _ _ (by simp [R.BAY_PINCNT_overloads]), hbits]

theorem keeps_of_sansPins {s t : State} (h : t.sansPins = s.sansPins) : Keeps s t := keeps_of_lasting (congrArg State.lasting h :)

/-- What a trip leaves of the cell and of the state around the registers. -/
theorem tripPin_frame (s : State) (g : Nat) : ((s.tripPin g).pin g).owner = (s.pin g).owner ∧
    (s.tripPin g).raised = s.raised ++ [⟨0x080 + g / 8, 2 ^ (g % 8)⟩] ∧ (s.tripPin g).hub = s.hub ∧ Keeps s (s.tripPin g) := by
  have hpins := tripPin_repinned s g
  have hcounts := tripping_sansCounts s g
  have hcell : (s.tripping g).pin g = { s.pin g with limitSince := none } :=
    (congrArg (fun u : State => u.pin g) hcounts).trans (pin_setPin_same ..)
  have hdata : 2 ^ (g % 8) % 2 ^ 32 = 2 ^ (g % 8) := Nat.mod_eq_of_lt (Nat.pow_lt_pow_right (by decide) (by omega))
  have hraised : (s.tripping g).raised = s.raised ++ [⟨0x080 + g / 8, 2 ^ (g % 8) % 2 ^ 32⟩] := (congrArg State.raised hcounts :)
  have hhub : (s.tripping g).hub = s.hub := (congrArg State.hub hcounts :)
  have hkeeps : Keeps s (s.tripping g) := keeps_of_lasting (congrArg State.lasting hcounts :)
  rw [hdata] at hraised
  exact ⟨hpins.owner.trans (by rw [hcell]), (congrArg State.raised hpins.rest).trans hraised, (congrArg State.hub hpins.rest).trans hhub,
    hkeeps.trans (keeps_of_sansPins hpins.rest)⟩

/-- A trip releases the driver. -/
theorem tripPin_pad (s : State) (g : Nat) : ((s.tripPin g).pin g).pad = .released := by
  rw [tripPin_eq, (followLine_repinned ..).2]
  exact applyPad_overload (tripping_overload s g)

/-! ### The statement -/

/-- Settles O40: an edge goes through the cases of `State.acceptEdge`; of the pins of a bay that are brought up to date together each
is brought to what `State.applyPin` makes of it alone. -/
theorem pinsStampEdgesAndTakeTheirDriveStates : Obligations.PinsStampEdgesAndTakeTheirDriveStates := by
  refine ⟨fun s g level t hfitted hchange hline hmode hfilter hpair hgated hawake => ?_, fun s g level t hinput hshort => ?_,
    fun s g level t hline => ?_, fun s g t => ?_, fun s g hlimits => ?_, fun s g hlimits => ?_, fun s g t hlimits hsince hover => ?_,
    fun s g t hsince hearly => ?_, fun s r n mask hg => ?_, fun s r n v hg => ?_⟩
  · obtain ⟨hregs, hhub, hkeeps⟩ :=
      recordEdge_rest (s.withLevel g.val level) g.val (s.edgeStamp g.val t) (level != s.on (R.BAY_PIN_invert g.val))
    refine ⟨_, congrArg done (acceptEdge_seen hfitted hchange hline hmode (filtered_of hfilter) hpair hgated hawake), ?_,
      fun e c k hslot hruns => ?_, hregs, hhub, hkeeps⟩
    · rw [recordEdge_pin, withLevel_pin, edgeStamp_eq]
    · have hlatched := recordEdge_latched (s.withLevel g.val level) (s.edgeStamp g.val t) (level != s.on (R.BAY_PIN_invert g.val)) hslot hruns
      unfold Ctx.latched at hlatched
      split at hlatched
      · next hrose => rwa [if_pos hrose]
      · next hfell => rwa [if_neg hfell]
  · exact congrArg done (acceptEdge_short level hinput hshort)
  · obtain ⟨hedges, hown, -, hengines, hregs, hhub, hkeeps⟩ := acceptEdge_frame (level := level) t (.inr hline)
    obtain ⟨driven, hdriven⟩ := Option.isSome_iff_exists.mp hline
    refine ⟨s.acceptEdge g.val level t, rfl, hedges, ?_, hengines, hregs, hhub, hkeeps⟩
    rw [State.lineLevel, hown, State.lineLevel, hdriven]
    rfl
  · obtain ⟨hedges, -, hlevel, hengines, hregs, hhub, hkeeps⟩ := acceptEdge_frame (s := s) (g := g.val) t (.inl rfl)
    exact ⟨s.acceptEdge g.val (s.acceptedLevel g.val) t, rfl, hedges, hlevel.elim id id, hengines, hregs, hhub, hkeeps⟩
  · obtain ⟨hlimit, hbit, hpad, hhub⟩ := currentLimit_at hlimits true
    exact ⟨s.currentLimit g.val true, rfl, hlimit, hbit, hpad, hhub⟩
  · obtain ⟨hlimit, hbit, -, hhub⟩ := currentLimit_at hlimits false
    exact ⟨s.currentLimit g.val false, rfl, hlimit, hbit, hhub⟩
  · have hdue : s.tripDue g.val = true := by simp [State.tripDue, hlimits, hsince, hover]
    have hrest := (tripPin_repinned s g.val).rest
    obtain ⟨howner, hraised, hhub, hkeeps⟩ := tripPin_frame s g.val
    exact ⟨s.tripPin g.val, congrArg done (if_pos hdue), tripPin_pad s g.val, howner,
      (bitOn_of_sansPins hrest _ _).trans (tripping_overload ..), (bitOn_of_sansPins hrest _ _).trans (tripping_in_limit ..),
      (rd_of_sansPins hrest _).trans (tripping_counted ..), hraised, hhub, hkeeps⟩
  · have hdue : s.tripDue g.val = false := by simp [State.tripDue, hsince, hearly]
    exact congrArg done (if_neg (by simp [hdue]))
  · have hrest := foldl_bay_sansPins (reenableIn_repinned n.val (s.rd (R.BAY_PINSTAT_overload n.val) &&& mask.toNat)) (List.range 8)
      (s.dropOverload n.val mask.toNat)
    have hstill := dropOverload_still s n.val mask.toNat
    have hhub := dropOverload_hub s n.val mask.toNat
    rw [← clearOverload_eq] at hrest
    refine writes_of (eff := fun t => t.overloadClear n.val mask.toNat 0) rfl hg ?_
    rw [overloadClear_alone s n.val mask.isLt]
    refine ⟨fun p _ => ?_, fun p hp hover hmask hdriver hlplus hdrives hkept hrule => ?_, (hub_of_sansPins hrest).trans hhub,
      (keeps_of_still hstill).trans (keeps_of_sansPins hrest)⟩
    · rw [bitOn_of_sansPins hrest, dropOverload_bit, BitVec.testBit_toNat]
    · exact clearOverload_pad n.isLt hp hover (by rwa [BitVec.testBit_toNat]) hdriver hlplus hdrives hkept hrule
  · have hrest := foldl_bay_sansPins (takeBayOut_repinned n.val) (List.range 8) (s.withBayOut n.val v)
    have hstill := withBayOut_still s n.val v
    have hhub := withBayOut_hub s n.val v
    rw [← writeBayOut_eq] at hrest
    have henable := (rd_of_sansPins hrest (R.BAY_OUT_enable n.val)).trans (withBayOut_enable s n.val v)
    have hvalue := (rd_of_sansPins hrest (R.BAY_OUT_value n.val)).trans (withBayOut_value s n.val v)
    refine writes_of (eff := fun t => t.writeBayOut n.val v) rfl hg ⟨henable, hvalue, (hub_of_sansPins hrest).trans hhub,
      (keeps_of_still hstill).trans (keeps_of_sansPins hrest), fun p d hp howner hd => ?_⟩
    have howner' : (s.writeBayOut n.val v).rd (R.BAY_PIN_owner (8 * n.val + p)) = 1 := by
      rw [rd_of_sansPins hrest, (withBayOut_but s n.val v 0).rd (CellBut.cell_ne (pastCells_out n.isLt) _), howner]
    obtain rfl : bayOutDrive v p = d := hd.symm
    exact ⟨ownerState_bayOut hp howner' henable hvalue,
      fun hdriver hlplus hdrives hrule hover => writeBayOut_pad v n.isLt hp howner hdriver hlplus hdrives hrule hover,
      fun hrule htest hdriver hlplus hover => writeBayOut_pad_safe v n.isLt hp howner hrule htest hdriver hlplus hover⟩

end Sys2Proof.Machine

namespace Sys2Proof.Machine

/-! ### One port's own operations: what they make of its cell and its registers -/

theorem setPort_rd (s : State) (k : Nat) (p : Port) (f : Fld) : (s.setPort k p).rd f = s.rd f := rfl

theorem noteDamageCond_rd (s : State) (k : Nat) (f : Fld) : (s.noteDamageCond k).rd f = s.rd f := rfl

theorem noteDamageCond_port (s : State) (k : Nat) : ∃ c, (s.noteDamageCond k).port k = { s.port k with condSince := c } :=
  ⟨_, port_setPort_same ..⟩

theorem bump_port (s : State) (f : Fld) (k : Nat) : (s.bump f).port k = s.port k := wr_port ..

theorem pmcEv_port (s : State) (cls ev x : Nat) (a : Attrs) (k : Nat) : (s.pmcEv cls ev x a).port k = s.port k :=
  (PortsActed.pmcEv (p := fun _ => False) s cls ev x a).port k id

theorem pmcEv_rd (s : State) (cls ev x : Nat) (a : Attrs) {f : Fld} (hf : ¬pmcBlock f.addr) : (s.pmcEv cls ev x a).rd f = s.rd f :=
  rd_of_word f (pmcEv_word s cls ev x a hf)

theorem rd_bump_apart (s : State) {f g : Fld} (h : Fld.apart f g = true) : (s.bump f).rd g = s.rd g := rd_wr_apart s _ h

theorem stat_not_pmcBlock (k : Nat) : ¬pmcBlock (R.PWP_STAT k) := by
  rw [pmcBlock, R.PWP_STAT]
  omega

theorem cnt_not_pmcBlock (k : Nat) : ¬pmcBlock (R.PWP_CNT k) := by
  rw [pmcBlock, R.PWP_CNT]
  omega

theorem cnt_ne_stat (k : Nat) : R.PWP_CNT k ≠ R.PWP_STAT k := by
  rw [R.PWP_CNT, R.PWP_STAT]
  omega

theorem stat_ne_cmd (k : Nat) : R.PWP_STAT k ≠ R.PWP_CMD k := by
  rw [R.PWP_STAT, R.PWP_CMD]
  omega

theorem cnt_ne_cmd (k : Nat) : R.PWP_CNT k ≠ R.PWP_CMD k := by
  rw [R.PWP_CNT, R.PWP_CMD]
  omega

/-- What a port does leaves its command. -/
theorem PortsActed.rdCmd {s t : State} {k : Nat} (h : PortsActed (· = k) s t) :
    t.rd (R.PWP_CMD_on k) = s.rd (R.PWP_CMD_on k) := by
  refine rd_of_word _ (h.word (R.PWP_CMD k) ?_ ?_)
  · rw [pmcBlock, R.PWP_CMD]
    omega
  · rintro j rfl
    rw [R.PWP_CMD, R.PWP_STAT, R.PWP_CNT]
    omega

theorem PortsActed.raised {p : Nat → Prop} {s t : State} (h : PortsActed p s t) : t.raised = s.raised := (congrArg State.raised h.still :)

theorem PortsActed.clk {p : Nat → Prop} {s t : State} (h : PortsActed p s t) : t.clk = s.clk := (congrArg State.clk h.still :)

theorem bit01_ne_zero {n : Nat} (hn : n < 2) : bit01 (n != 0) = n := by
  interval_cases n <;> rfl

/-- Power-good reads as it was set. -/
theorem setPg_pg (s : State) (k : Nat) (b : Bool) : (s.setPg k b).rd (R.PWP_STAT_pg k) = bit01 b := by
  unfold State.setPg
  split
  · next hsame => rw [← hsame, State.on, bit01_ne_zero (fget_lt ..)]
  · rw [rd_of_sansPins (PortsActed.applyLplus_sansPins _ k), rd_wr_same _ _ _ (by simp [R.PWP_STAT_pg])]
    exact Nat.mod_eq_of_lt (bit01_lt b)

/-- A write of power-good leaves the other registers. -/
theorem setPg_rd (s : State) (k : Nat) (b : Bool) {f : Fld} (hf : f.addr ≠ R.PWP_STAT k) : (s.setPg k b).rd f = s.rd f := by
  unfold State.setPg
  split
  · rfl
  · rw [rd_of_sansPins (PortsActed.applyLplus_sansPins _ k)]
    exact rd_wr_addr _ _ _ _ hf

theorem setPg_power (s : State) (k : Nat) (b : Bool) : (s.setPg k b).power = s.power := by
  unfold State.setPg
  split
  · rfl
  · exact (congrArg State.power (PortsActed.applyLplus_sansPins _ k) :)

/-- Turning a port off keeps of its cell what the mode, the latch and the thermometers have left there. -/
theorem passOff_port (s : State) (k n : Nat) : ∃ c, (s.passOff k n).port k =
    { s.port k with passOn := false, inReg := false, acc := 0, condSince := c } := by
  obtain ⟨c, hc⟩ := noteDamageCond_port
    (((s.setPort k { s.port k with passOn := false, inReg := false, acc := 0 }).wr (R.PWP_STAT_state k) n).setPg k false) k
  exact ⟨c, hc.trans (by rw [setPg_port, wr_port, port_setPort_same])⟩

theorem passOff_pg (s : State) (k n : Nat) : (s.passOff k n).rd (R.PWP_STAT_pg k) = 0 := setPg_pg _ k false

/-- The counters of a port do not count that it is turned off. -/
theorem passOff_rdCnt (s : State) {k : Nat} (n : Nat) {f : Fld} (hf : f.addr = R.PWP_CNT k) :
    (s.passOff k n).rd f = s.rd f := by
  have haddr : f.addr ≠ R.PWP_STAT k := hf ▸ cnt_ne_stat k
  exact (setPg_rd _ k false haddr).trans (rd_wr_addr _ (R.PWP_STAT_state k) f n haddr)

/-- A ramp's start leaves of the port's cell all but the pass transistor, its regulation and the watch for damage. -/
theorem startRamp_port (s : State) (k : Nat) : ∃ c, (s.startRamp k).port k =
    { s.port k with passOn := true, inReg := true, condSince := c } := by
  obtain ⟨c, hc⟩ := noteDamageCond_port ((((s.setPort k { s.port k with passOn := true, inReg := true }).wr (R.PWP_STAT_state k) 1).bump
    (R.PWP_CNT_ramps k)).pmcEv 10 2 (groupOfPort k)) k
  exact ⟨c, hc.trans (by rw [pmcEv_port, bump_port, wr_port, port_setPort_same])⟩

theorem startRamp_counts (s : State) (k : Nat) : Counted s (s.startRamp k) (R.PWP_CNT_ramps k) := by
  rw [Counted, State.startRamp, noteDamageCond_rd, pmcEv_rd _ _ _ _ _ (cnt_not_pmcBlock k), rd_bump_same _ _ (by simp [R.PWP_CNT_ramps]),
    rd_wr_apart _ _ rfl, setPort_rd]

/-! ### The branches of a port that is refreshed behind a closed isolator (R558, R561) -/

/-- The mode says nothing against the command that stands in PWP_CMD. -/
theorem effective_command {s : State} (hforced : s.isolatorsForced = false) (hrule : s.portRule = .command) (k : Nat) :
    s.effective k = s.on (R.PWP_CMD_on k) := by
  simp [State.effective, hforced, hrule]

/-- Of a port's cell the effective command follows what a mode has kept of it alone. -/
theorem effective_setPort (s : State) {k : Nat} {p : Port} (hkept : p.kept = (s.port k).kept) : (s.setPort k p).effective k = s.effective k := by
  have hport : ((s.setPort k p).port k).kept = (s.port k).kept := by rw [port_setPort_same, hkept]
  simp only [State.effective, hport]
  rfl

theorem effective_wrStat (s : State) {k : Nat} {f : Fld} (v : Nat) (hf : f.addr = R.PWP_STAT k) :
    (s.wr f v).effective k = s.effective k :=
  effective_congr rfl rfl (wr_port ..) (rd_wr_addr _ _ _ _ (hf ▸ (stat_ne_cmd k).symm))

section

variable {s : State} {k : Nat} (hclosed : (s.group (groupOfPort k)).iso = .closed)

include hclosed

theorem refreshPort_off (hstate : s.rd (R.PWP_STAT_state k) ≠ 4) (hoff : s.effective k = false) : s.refreshPort k = s.passOff k 0 := by
  rw [State.refreshPort, if_neg hstate, if_neg (by rw [hclosed]; decide), if_pos (by simp [hoff])]

/-- A port that is off, or cooling, and may turn on, ramps if it is cool, and cools if not. -/
theorem refreshPort_on (hstate : s.rd (R.PWP_STAT_state k) = 0 ∨ s.rd (R.PWP_STAT_state k) = 5 ∨ s.rd (R.PWP_STAT_state k) = 6)
    (hon : s.effective k = true) (hsound : s.on (R.PWP_STAT_damaged k) = false) :
    s.refreshPort k = if s.portCool k then s.startRamp k else s.passOff k 5 := by
  rw [State.refreshPort, if_neg (by omega), if_neg (by rw [hclosed]; decide), if_neg (by simp [hon, hsound]), if_neg (by omega)]

end

/-- The port whose latch has been cleared, before it follows its effective command. -/
def State.unlatched (s : State) (k : Nat) : State := (s.setPort k { s.port k with resetDue := false }).wr (R.PWP_STAT_state k) 0

theorem clearLatch_eq {s : State} {k : Nat} (hlatched : s.rd (R.PWP_STAT_state k) = 4) : s.clearLatch k = (s.unlatched k).refreshPort k :=
  if_pos hlatched

theorem unlatched_acts (s : State) (k : Nat) : PortsActed (· = k) s (s.unlatched k) :=
  (PortsActed.setPort s k _).trans (PortsActed.wr _ k _ _ (.inl rfl))

theorem unlatched_port (s : State) (k : Nat) : (s.unlatched k).port k = { s.port k with resetDue := false } :=
  (wr_port ..).trans (port_setPort_same ..)

theorem unlatched_state (s : State) (k : Nat) : (s.unlatched k).rd (R.PWP_STAT_state k) = 0 :=
  rd_wr_same _ _ _ (by simp [R.PWP_STAT_state])

theorem unlatched_damaged (s : State) (k : Nat) : (s.unlatched k).rd (R.PWP_STAT_damaged k) = s.rd (R.PWP_STAT_damaged k) :=
  rd_wr_apart _ _ rfl

theorem unlatched_effective (s : State) (k : Nat) : (s.unlatched k).effective k = s.effective k :=
  (effective_wrStat _ _ rfl).trans (effective_setPort s rfl)

theorem unlatched_cool (s : State) (k : Nat) : (s.unlatched k).portCool k = s.portCool k := by
  rw [State.portCool, State.portCool, unlatched_port]

/-! ### Commands (R556, R559) -/

/-- The command stands in PWP_CMD, and the port has not followed it yet. -/
def State.commanded (s : State) (k : Nat) (on : Bool) : State := s.wr (R.PWP_CMD_on k) (bit01 on)

theorem commanded_on (s : State) (k : Nat) (on : Bool) : (s.commanded k on).rd (R.PWP_CMD_on k) = bit01 on :=
  (rd_wr_same _ _ _ (by simp [R.PWP_CMD_on])).trans (by cases on <;> rfl)

theorem commanded_port (s : State) (k : Nat) (on : Bool) (j : Nat) : (s.commanded k on).port j = s.port j := wr_port ..

theorem commanded_group (s : State) (k : Nat) (on : Bool) (g : Nat) : (s.commanded k on).group g = s.group g := wr_group ..

theorem commanded_rdStat (s : State) {k : Nat} (on : Bool) {f : Fld} (hf : f.addr = R.PWP_STAT k) :
    (s.commanded k on).rd f = s.rd f :=
  rd_wr_addr _ _ _ _ (hf ▸ stat_ne_cmd k)

theorem commanded_rdCnt (s : State) {k : Nat} (on : Bool) {f : Fld} (hf : f.addr = R.PWP_CNT k) :
    (s.commanded k on).rd f = s.rd f :=
  rd_wr_addr _ _ _ _ (hf ▸ cnt_ne_cmd k)

theorem commanded_effective {s : State} (hforced : s.isolatorsForced = false) (hrule : s.portRule = .command) (k : Nat) (on : Bool) :
    (s.commanded k on).effective k = on := by
  rw [effective_command (s := s.commanded k on) hforced hrule, State.on, commanded_on]
  cases on <;> rfl

/-- The port after actions that follow its command: what the command leaves of the rest of the hub. -/
theorem commanded_frame {s u : State} {k : Nat} {on : Bool} (h : PortsActed (· = k) (s.commanded k on) u) :
    u.rd (R.PWP_CMD_on k) = bit01 on ∧ u.raised = s.raised ∧ (∀ j, j ≠ k → u.port j = s.port j) ∧ u.hub = s.hub ∧ Keeps s u :=
  ⟨(h.rdCmd).trans (commanded_on ..), h.raised, fun j hj => (h.port j hj).trans (commanded_port ..), h.hub,
    keeps_of_still (h.still.trans (wr_still ..))⟩

/-- A command that may take effect does; one that may not is recorded as refused (R136, R586). -/
theorem commandPort_allowed {s : State} (r : Requester) {k : Nat} {on : Bool} (hsection : on = true → s.loaded.sections.contains 0xD = true)
    (hlimits : s.limitsAllow (R.PWP_CMD_on k) (bit01 on) = true) : s.commandPort r k on = s.writePortCmd k on := by
  have hok : (!on || s.loaded.sections.contains 0xD) = true := by
    cases on
    · rfl
    · exact hsection rfl
  exact if_pos (by rw [State.tuneAllowed, hok, hlimits]; rfl)

theorem commandPort_refused {s : State} (r : Requester) (k : Nat) (hsection : s.loaded.sections.contains 0xD = false) :
    s.commandPort r k true = s.refuseTune r (R.PWP_CMD k) :=
  if_neg (by rw [State.tuneAllowed, hsection]; simp)

/-- A 1 has a port that may turn on ramp. -/
theorem writePortCmd_on {s : State} {k : Nat} (hforced : s.isolatorsForced = false) (hrule : s.portRule = .command)
    (hstate : s.rd (R.PWP_STAT_state k) = 0 ∨ s.rd (R.PWP_STAT_state k) = 5 ∨ s.rd (R.PWP_STAT_state k) = 6)
    (hclosed : (s.group (groupOfPort k)).iso = .closed) (hsound : s.on (R.PWP_STAT_damaged k) = false) (hcool : s.portCool k = true) :
    s.writePortCmd k true = (s.commanded k true).startRamp k := by
  have hcool' : (s.commanded k true).portCool k = true := by rw [← hcool, State.portCool, State.portCool, commanded_port]
  have hrefresh := refreshPort_on (s := s.commanded k true) (k := k) (by rw [commanded_group]; exact hclosed)
    (by rw [commanded_rdStat s true rfl]; exact hstate) (commanded_effective hforced hrule k true)
    (by rw [State.on, commanded_rdStat s true rfl]; exact hsound)
  rw [hcool'] at hrefresh
  exact hrefresh

/-- A 0 turns the port off, and clears its latch before. -/
theorem writePortCmd_off {s : State} {k : Nat} (hforced : s.isolatorsForced = false) (hrule : s.portRule = .command)
    (hclosed : (s.group (groupOfPort k)).iso = .closed) : ∃ t, s.writePortCmd k false = t.passOff k 0 ∧
    PortsActed (· = k) (s.commanded k false) t := by
  have hoff := commanded_effective hforced hrule k false
  have hclosed' : ((s.commanded k false).group (groupOfPort k)).iso = .closed := by rw [commanded_group]; exact hclosed
  by_cases hlatched : (s.commanded k false).rd (R.PWP_STAT_state k) = 4
  · refine ⟨(s.commanded k false).unlatched k, ?_, unlatched_acts _ k⟩
    have hwrite : s.writePortCmd k false = (s.commanded k false).clearLatch k := if_pos ⟨rfl, hlatched⟩
    rw [hwrite, clearLatch_eq hlatched]
    refine refreshPort_off ?_ (by rw [unlatched_state]; decide) ((unlatched_effective _ k).trans hoff)
    rw [(unlatched_acts _ k).group]
    exact hclosed'
  · have hwrite : s.writePortCmd k false = (s.commanded k false).refreshPort k := if_neg (fun h => hlatched h.2)
    exact ⟨_, hwrite.trans (refreshPort_off hclosed' hlatched hoff), PortsActed.refl ..⟩

/-! ### Trips (R559, R563, R564, R566 to R568) -/

/-- The port is off and LATCHED from now on, and its trip has not been recorded yet. -/
def State.latched (s : State) (k : Nat) : State :=
  (s.passOff k 4).setPort k { (s.passOff k 4).port k with latchedAt := (s.passOff k 4).clk, resetDue := false }

/-- The housekeeper counts the trip for the settings (R684). -/
def State.countTrip (s : State) (k : Nat) : State := { s with upd := { s.upd with trips := mput 0 s.upd.trips k (mget 0 s.upd.trips k + 1) } }

/-- The trip is recorded in the port's registers and counted. -/
def State.recordTrip (s : State) (k cause : Nat) : State :=
  (((s.wr (R.PWP_STAT_tripped k) 1).wr (R.PWP_STAT_cause k) cause).bump (R.PWP_CNT_trips k)).pmcEv 10 0 (groupOfPort k)

theorem trip_eq {s : State} {k : Nat} (cause : Nat) (hstate : s.rd (R.PWP_STAT_state k) ≠ 4) (hon : (s.port k).passOn = true) :
    s.trip k cause = (((s.latched k).countTrip k).recordTrip k cause).raise (0x180 + k) cause :=
  if_neg (by simp [hstate, hon])

/-- A port that is LATCHED or off does not trip. -/
theorem trip_none {s : State} {k : Nat} (cause : Nat) (h : (s.port k).passOn = false ∨ s.rd (R.PWP_STAT_state k) = 4) :
    s.trip k cause = s :=
  if_pos (by
    rcases h with hoff | hlatched
    · exact .inr (by rw [hoff]; rfl)
    · exact .inl hlatched)

theorem latched_acts (s : State) (k : Nat) : PortsActed (· = k) s (s.latched k) := (PortsActed.passOff s k 4).trans (PortsActed.setPort _ k _)

theorem latched_port (s : State) (k : Nat) : ∃ c, (s.latched k).port k =
    { s.port k with passOn := false, inReg := false, acc := 0, condSince := c, latchedAt := s.clk, resetDue := false } := by
  obtain ⟨c, hc⟩ := passOff_port s k 4
  exact ⟨c, by rw [State.latched, port_setPort_same, hc, (PortsActed.passOff s k 4).clk]⟩

theorem latched_rd (s : State) (k : Nat) (f : Fld) : (s.latched k).rd f = (s.passOff k 4).rd f := rfl

theorem countTrip_rd (s : State) (k : Nat) (f : Fld) : (s.countTrip k).rd f = s.rd f := rfl

theorem countTrip_keeps (s : State) (k : Nat) : Keeps s (s.countTrip k) := ⟨rfl, rfl, rfl, rfl, rfl, rfl, rfl, rfl, rfl, rfl⟩

theorem raise_keeps (s : State) (src data : Nat) : Keeps s (s.raise src data) := ⟨rfl, rfl, rfl, rfl, rfl, rfl, rfl, rfl, rfl, rfl⟩

theorem recordTrip_acts (s : State) (k cause : Nat) : PortsActed (· = k) s (s.recordTrip k cause) :=
  (((PortsActed.wr s k _ _ (.inl rfl)).trans (PortsActed.wr _ k _ _ (.inl rfl))).trans
    (PortsActed.wr _ k (R.PWP_CNT_trips k) _ (.inr rfl))).trans (PortsActed.pmcEv _ _ _ _ _)

theorem recordTrip_port (s : State) (k cause j : Nat) : (s.recordTrip k cause).port j = s.port j := by
  rw [State.recordTrip, pmcEv_port, bump_port, wr_port, wr_port]

/-- The status register once a trip has been recorded. -/
theorem recordTrip_rdStat (s : State) {k : Nat} (cause : Nat) {f : Fld} (hf : f.addr = R.PWP_STAT k) :
    (s.recordTrip k cause).rd f = ((s.wr (R.PWP_STAT_tripped k) 1).wr (R.PWP_STAT_cause k) cause).rd f := by
  rw [State.recordTrip, pmcEv_rd _ _ _ _ _ (hf ▸ stat_not_pmcBlock k)]
  exact rd_wr_addr _ _ _ _ (hf ▸ (cnt_ne_stat k).symm)

theorem recordTrip_counts (s : State) (k cause : Nat) : Counted s (s.recordTrip k cause) (R.PWP_CNT_trips k) := by
  have haddr : (R.PWP_CNT_trips k).addr ≠ R.PWP_STAT k := cnt_ne_stat k
  rw [Counted, State.recordTrip, pmcEv_rd _ _ _ _ _ (cnt_not_pmcBlock k), rd_bump_same _ _ (by simp [R.PWP_CNT_trips]),
    rd_wr_addr _ _ _ _ haddr, rd_wr_addr _ _ _ _ haddr]

theorem trip_port {s : State} {k : Nat} (cause : Nat) (hstate : s.rd (R.PWP_STAT_state k) ≠ 4) (hon : (s.port k).passOn = true) :
    ∃ c, (s.trip k cause).port k =
      { s.port k with passOn := false, inReg := false, acc := 0, condSince := c, latchedAt := s.clk, resetDue := false } := by
  rw [trip_eq cause hstate hon, raise_port, recordTrip_port]
  exact latched_port s k

theorem trip_tripped {s : State} {k cause : Nat} (hcause : cause < 16) (hstate : s.rd (R.PWP_STAT_state k) ≠ 4)
    (hon : (s.port k).passOn = true) : Tripped s (s.trip k cause) k cause := by
  obtain ⟨c, hport⟩ := trip_port cause hstate hon
  have hbefore := latched_acts s k
  have hafter := recordTrip_acts ((s.latched k).countTrip k) k cause
  have hraised : ((s.latched k).countTrip k).raised = s.raised := hbefore.raised
  have hdata : cause % 2 ^ 32 = cause := Nat.mod_eq_of_lt (by omega)
  have hstat {f : Fld} (hf : f.addr = R.PWP_STAT k) (htripped : Fld.apart (R.PWP_STAT_tripped k) f = true)
      (hcause : Fld.apart (R.PWP_STAT_cause k) f = true) : (s.trip k cause).rd f = (s.passOff k 4).rd f := by
    rw [trip_eq cause hstate hon, raise_rd, recordTrip_rdStat _ _ hf, rd_wr_apart _ _ hcause, rd_wr_apart _ _ htripped, countTrip_rd,
      latched_rd]
  refine ⟨by rw [hport], by rw [hport], by rw [hport], by rw [hport], (hstat rfl rfl rfl).trans (passOff_state s k (by decide)),
    (hstat rfl rfl rfl).trans (passOff_pg s k 4), ?_⟩
  rw [trip_eq cause hstate hon]
  refine ⟨?_, ?_, ?_, ?_, fun j hj => (hafter.port j hj).trans (hbefore.port j hj), hafter.hub.trans hbefore.hub,
    ((keeps_of_still hbefore.still).trans (countTrip_keeps ..)).trans
      ((keeps_of_still hafter.still).trans (raise_keeps ..))⟩
  · rw [raise_rd, recordTrip_rdStat _ _ rfl, rd_wr_apart _ _ rfl]
    exact rd_wr_same _ _ _ (by simp [R.PWP_STAT_tripped])
  · rw [raise_rd, recordTrip_rdStat _ _ rfl]
    exact (rd_wr_same _ _ _ (by simp [R.PWP_STAT_cause])).trans (Nat.mod_eq_of_lt hcause)
  · have hcount := recordTrip_counts ((s.latched k).countTrip k) k cause
    rw [Counted, countTrip_rd, latched_rd, passOff_rdCnt s 4 rfl] at hcount
    exact hcount
  · rw [State.raise_raised, hafter.raised, hraised, hdata]

/-- A trip of a port whose cell has just taken a reading is a trip from before it. -/
theorem Tripped.of_setPort {s u : State} {k cause : Nat} {p : Port} (h : Tripped (s.setPort k p) u k cause) : Tripped s u k cause := by
  obtain ⟨hpass, hreg, hacc, hat, hstate, hpg, htripped, hcause, hcount, hraised, hports, hhub, hkeeps⟩ := h
  exact ⟨hpass, hreg, hacc, hat, hstate, hpg, htripped, hcause, hcount, hraised, fun j hj => (hports j hj).trans (port_setPort_ne s p hj),
    hhub, hkeeps⟩

/-- A port that trips as soon as its cell has taken the reading `p`. -/
theorem trip_setPort {s : State} {k cause : Nat} {p : Port} (hcause : cause < 16) (hstate : s.rd (R.PWP_STAT_state k) ≠ 4)
    (hon : p.passOn = true) : Tripped s ((s.setPort k p).trip k cause) k cause ∧
    ∃ c, ((s.setPort k p).trip k cause).port k =
      { p with passOn := false, inReg := false, acc := 0, condSince := c, latchedAt := s.clk, resetDue := false } := by
  have hon' : ((s.setPort k p).port k).passOn = true := by rw [port_setPort_same]; exact hon
  obtain ⟨c, hc⟩ := trip_port (s := s.setPort k p) cause hstate hon'
  rw [port_setPort_same] at hc
  exact ⟨(trip_tripped (s := s.setPort k p) hcause hstate hon').of_setPort, c, hc⟩

theorem diodeTrip_hot {s : State} {k : Nat} {tj : Int} (hlive : s.portsLive = true) (hhot : 160 ≤ tj) :
    s.diodeTrip k tj = (s.setPort k { s.port k with diode := tj }).trip k 3 :=
  if_neg (by simp [hlive, hhot])

/-- The cell of a port after one evaluation of its thermal model (R568). -/
def Port.evaluated (p : Port) (mw : Nat) (tj : Int) : Port :=
  { p with
    diode := tj
    delayed := p.delayed + ((mw : Rat) / 1000 - p.delayed) / 5
    estimate := (tj : Rat) + ((mw : Rat) / 1000 - (p.delayed + ((mw : Rat) / 1000 - p.delayed) / 5)) / 2 }

theorem modelEval_eq {s : State} {k : Nat} (mw : Nat) (tj : Int) (hruns : s.modelRuns (groupOfPort k) = true) :
    s.modelEval k mw tj = if 160 ≤ ((s.port k).evaluated mw tj).estimate then (s.setPort k ((s.port k).evaluated mw tj)).trip k 4
      else s.setPort k ((s.port k).evaluated mw tj) :=
  if_neg (by simp [hruns])

theorem timerUpdate_eq {s : State} (k : Nat) (hlive : s.portsLive = true) : s.timerUpdate k =
    if 80 * s.rd (R.PWP_CFG_timer k) ≤ (s.port k).timerStep then (s.setPort k { s.port k with acc := (s.port k).timerStep }).trip k 2
    else s.setPort k { s.port k with acc := (s.port k).timerStep } := by
  simp [State.timerUpdate, State.timerFull, hlive, port_setPort_same, setPort_rd]

/-- The accumulator of a port that is on counts in regulation and unwinds outside it. -/
theorem timerStep_on {p : Port} (hon : p.passOn = true) : p.timerStep = if p.inReg = true then p.acc + 8 else p.acc - 1 := by
  simp [Port.timerStep, hon]

theorem timerStep_off {p : Port} (hoff : p.passOn = false) : p.timerStep = 0 := by
  simp [Port.timerStep, hoff]

/-! ### Regulation and power-good (R562, R569, R570) -/

/-- The port is in regulation, and its power-good has fallen. -/
def State.regulated (s : State) (k : Nat) : State := (s.setPort k { s.port k with inReg := true }).setPg k false

theorem regulationEnter_eq {s : State} {k : Nat} (hon : (s.port k).passOn = true) (hout : (s.port k).inReg = false) :
    s.regulationEnter k = if (s.regulated k).rd (R.PWP_STAT_state k) = 2 then
        (((s.regulated k).wr (R.PWP_STAT_state k) 3).bump (R.PWP_CNT_limits k)).pmcEv 10 1 (groupOfPort k)
      else s.regulated k :=
  if_neg (by simp [hon, hout])

theorem regulated_acts (s : State) (k : Nat) : PortsActed (· = k) s (s.regulated k) := (PortsActed.setPort s k _).trans (PortsActed.setPg _ k _)

theorem regulated_port (s : State) (k : Nat) : (s.regulated k).port k = { s.port k with inReg := true } :=
  (setPg_port ..).trans (port_setPort_same ..)

theorem regulated_state (s : State) (k : Nat) : (s.regulated k).rd (R.PWP_STAT_state k) = s.rd (R.PWP_STAT_state k) := setPg_state ..

theorem regulated_pg (s : State) (k : Nat) : (s.regulated k).rd (R.PWP_STAT_pg k) = 0 := setPg_pg ..

theorem regulated_limits (s : State) (k : Nat) : (s.regulated k).rd (R.PWP_CNT_limits k) = s.rd (R.PWP_CNT_limits k) :=
  setPg_rd _ k false (cnt_ne_stat k)

/-- A port that enters regulation leaves ON for LIMIT, which is counted, and any other state as it was. -/
theorem regulationEnter_at {s : State} {k : Nat} (hon : (s.port k).passOn = true) (hout : (s.port k).inReg = false) :
    PortsActed (· = k) s (s.regulationEnter k) ∧ (s.regulationEnter k).port k = { s.port k with inReg := true } ∧
    (s.regulationEnter k).rd (R.PWP_STAT_pg k) = 0 ∧
    (s.regulationEnter k).rd (R.PWP_STAT_state k) = (if s.rd (R.PWP_STAT_state k) = 2 then 3 else s.rd (R.PWP_STAT_state k)) ∧
    (s.rd (R.PWP_STAT_state k) = 2 → Counted s (s.regulationEnter k) (R.PWP_CNT_limits k)) := by
  have hacts := regulated_acts s k
  have hport := regulated_port s k
  rw [regulationEnter_eq hon hout, regulated_state]
  by_cases hstate : s.rd (R.PWP_STAT_state k) = 2
  · simp only [if_pos hstate]
    have hnot := stat_not_pmcBlock k
    refine ⟨((hacts.trans (PortsActed.wr _ k _ _ (.inl rfl))).trans (PortsActed.wr _ k (R.PWP_CNT_limits k) _ (.inr rfl))).trans
      (PortsActed.pmcEv _ _ _ _ _), ?_, ?_, ?_, fun _ => ?_⟩
    · rw [pmcEv_port, bump_port, wr_port, hport]
    · rw [pmcEv_rd _ _ _ _ _ hnot, rd_bump_apart _ rfl, rd_wr_apart _ _ rfl, regulated_pg]
    · rw [pmcEv_rd _ _ _ _ _ hnot, rd_bump_apart _ rfl]
      exact rd_wr_same _ _ _ (by simp [R.PWP_STAT_state])
    · rw [Counted, pmcEv_rd _ _ _ _ _ (cnt_not_pmcBlock k), rd_bump_same _ _ (by simp [R.PWP_CNT_limits]), rd_wr_apart _ _ rfl,
        regulated_limits s k]
  · simp only [if_neg hstate]
    exact ⟨hacts, hport, regulated_pg s k, regulated_state s k, fun h => absurd h hstate⟩

section

variable {s : State} {k vout : Nat} (hon : (s.port k).passOn = true) (hout : (s.port k).inReg = false)
  (hlow : s.rd (R.PWP_GROUP_supply (groupOfPort k)) ≤ vout + 1000) (hhigh : vout ≤ s.rd (R.PWP_GROUP_supply (groupOfPort k)) + 1000)

include hon hout hlow hhigh

/-- Full enhancement near the supply, outside regulation: a full fault timer acts first, else power-good rises. -/
theorem pgRise_near : s.pgRise k vout = if s.portsLive ∧ s.timerFull k then s.trip k 2 else
    (if s.rd (R.PWP_STAT_state k) = 1 ∨ s.rd (R.PWP_STAT_state k) = 3 then s.wr (R.PWP_STAT_state k) 2 else s).setPg k true :=
  if_neg (by simp [hon, hout]; omega)

theorem pgRise_rises (hstate : s.rd (R.PWP_STAT_state k) = 1 ∨ s.rd (R.PWP_STAT_state k) = 3)
    (hfirst : (s.port k).acc < 80 * s.rd (R.PWP_CFG_timer k) ∨ s.portsLive = false) :
    s.pgRise k vout = (s.wr (R.PWP_STAT_state k) 2).setPg k true := by
  have hnot : ¬(s.portsLive = true ∧ s.timerFull k = true) := by
    rcases hfirst with hfree | hdead
    · simp [State.timerFull, hfree]
    · simp [hdead]
  rw [pgRise_near hon hout hlow hhigh, if_neg hnot, if_pos hstate]

theorem pgRise_trips (hlive : s.portsLive = true) (hfull : 80 * s.rd (R.PWP_CFG_timer k) ≤ (s.port k).acc) :
    s.pgRise k vout = s.trip k 2 := by
  rw [pgRise_near hon hout hlow hhigh, if_pos ⟨hlive, by simpa [State.timerFull] using hfull⟩]

end

/-- The rise of power-good from RAMP or LIMIT is an action of the port that leaves it ON. -/
theorem rise_at (s : State) (k : Nat) : PortsActed (· = k) s ((s.wr (R.PWP_STAT_state k) 2).setPg k true) ∧
    ((s.wr (R.PWP_STAT_state k) 2).setPg k true).rd (R.PWP_STAT_state k) = 2 ∧
    ((s.wr (R.PWP_STAT_state k) 2).setPg k true).rd (R.PWP_STAT_pg k) = 1 :=
  ⟨(PortsActed.wr s k _ _ (.inl rfl)).trans (PortsActed.setPg _ k _),
    (setPg_state ..).trans (rd_wr_same _ _ _ (by simp [R.PWP_STAT_state])), setPg_pg ..⟩

/-- On a port that is off, in regulation or away from the supply, power-good does not rise. -/
theorem pgRise_none {s : State} {k vout : Nat} (h : (s.port k).passOn = false ∨ (s.port k).inReg = true ∨
    vout + 1000 < s.rd (R.PWP_GROUP_supply (groupOfPort k)) ∨ s.rd (R.PWP_GROUP_supply (groupOfPort k)) + 1000 < vout) :
    s.pgRise k vout = s :=
  if_pos (by simpa using h)

/-! ### Cooling and retry (R558, R559) -/

/-- A COOLING port that has cooled starts a ramp with the reading that ended its wait. -/
theorem portCooled_eq {s : State} {k : Nat} {tj : Int} (hlive : s.portsLive = true) (hstate : s.rd (R.PWP_STAT_state k) = 5) (htj : tj ≤ 130)
    (hestimate : (s.port k).estimate ≤ 130) (hclosed : (s.group (groupOfPort k)).iso = .closed) (hon : s.effective k = true)
    (hsound : s.on (R.PWP_STAT_damaged k) = false) : s.portCooled k tj = (s.setPort k { s.port k with diode := tj }).startRamp k := by
  have hcool : (s.setPort k { s.port k with diode := tj }).portCool k = true := by
    simp [State.portCool, port_setPort_same, htj, hestimate]
  have hrefresh := refreshPort_on (s := s.setPort k { s.port k with diode := tj }) (k := k) hclosed (.inr (.inl hstate))
    ((effective_setPort s (p := { s.port k with diode := tj }) rfl).trans hon) hsound
  rw [if_pos hcool] at hrefresh
  have hwaits : s.portCooled k tj = (s.setPort k { s.port k with diode := tj }).refreshPort k := by
    rw [State.portCooled, if_neg (by simp [hlive])]
    exact if_pos hstate
  exact hwaits.trans hrefresh

/-- The latch is cleared, and the port turns on, cools or stays off as R558 says. -/
theorem resetPort_at {s : State} {k : Nat} (hk : k < 32) (hlatched : s.rd (R.PWP_STAT_state k) = 4)
    (hover : s.rd (R.PWP_CFG_retry k) * 100000000 ≤ s.clk - (s.port k).latchedAt)
    (hclosed : (s.group (groupOfPort k)).iso = .closed) (hsound : s.on (R.PWP_STAT_damaged k) = false) :
    PortsActed (· = k) s (s.resetPort k) ∧ ((s.resetPort k).port k).resetDue = false ∧
    (s.resetPort k).rd (R.PWP_STAT_state k) = (if s.effective k = false then 0 else if s.portCool k = true then 1 else 5) := by
  have hreset : s.resetPort k = (s.unlatched k).refreshPort k := by
    rw [State.resetPort, if_neg (by simp [hlatched]), if_pos hover, clearLatch_eq hlatched]
  have hclosed' : ((s.unlatched k).group (groupOfPort k)).iso = .closed := by rw [(unlatched_acts s k).group]; exact hclosed
  have hsound' : (s.unlatched k).on (R.PWP_STAT_damaged k) = false := by rw [State.on, unlatched_damaged]; exact hsound
  have hstate' := unlatched_state s k
  have heffective := unlatched_effective s k
  have hdue := congrArg Port.resetDue (unlatched_port s k)
  rw [hreset]
  refine ⟨(unlatched_acts s k).trans (PortsActed.refreshPort _ k), ?_⟩
  have hoff (n : Nat) : (((s.unlatched k).passOff k n).port k).resetDue = false := by
    obtain ⟨c, hc⟩ := passOff_port (s.unlatched k) k n
    rw [hc]
    exact hdue
  cases hon : s.effective k
  · rw [refreshPort_off hclosed' (by omega) (heffective.trans hon)]
    exact ⟨hoff 0, passOff_state _ k (by decide)⟩
  · rw [refreshPort_on hclosed' (.inl hstate') (heffective.trans hon) hsound', unlatched_cool]
    cases s.portCool k
    · exact ⟨hoff 5, passOff_state _ k (by decide)⟩
    · obtain ⟨c, hc⟩ := startRamp_port (s.unlatched k) k
      obtain ⟨-, hramp⟩ := startRamp_at (s.unlatched k) hk
      exact ⟨by simpa [hc] using hdue, hramp⟩

/-! ### The statement -/

/-- Settles O53: each command comes to one operation of its port, an action that leaves the rest of the hub (`PortsActed`) or a trip, and
what that operation makes of the port's cell and registers is said once for all the commands that come to it. -/
theorem portsRampTripAndReportPowerGood : Obligations.PortsRampTripAndReportPowerGood := by
  refine ⟨fun s r k hg hsection hlimits hforced hrule hstate hclosed hsound hcool => ?_,
    fun s r k hg hlimits hforced hrule hclosed => ?_, fun s r k hg hsection => ?_, fun s k hlive hon hstate => ?_,
    fun s k hnot => ?_, fun s k tj hbelow => ?_, fun s k mw tj d e hruns hd he hbelow => ?_, fun s k hlive hoff => ?_,
    fun s k n hlive hon hn hbelow => ?_, fun s k hon hout => ?_, fun s k hon => ?_, fun s k vout hon hout hlow hhigh => ?_,
    fun s k vout hnot => ?_, fun s k vout hfall => ?_, fun s k vout hnear => ?_,
    fun s k tj hlive hstate htj hestimate hclosed hon hsound => ?_,
    fun s k hawake hdue hlatched hover hclosed hsound => ?_, fun s k hnot => ?_⟩
  · refine writes_of (eff := fun t => t.commandPort r k true) rfl hg ?_
    rw [commandPort_allowed (on := true) r (fun _ => hsection) hlimits, writePortCmd_on hforced hrule hstate hclosed hsound hcool]
    obtain ⟨hcmd, hraised, hports, hhub, hkeeps⟩ := commanded_frame (PortsActed.startRamp (s.commanded k true) k)
    obtain ⟨c, hport⟩ := startRamp_port (s.commanded k true) k
    obtain ⟨-, hramp⟩ := startRamp_at (s.commanded k true) k.isLt
    have hcount := startRamp_counts (s.commanded k true) k
    rw [Counted, commanded_rdCnt s true rfl] at hcount
    exact ⟨hcmd, hramp, by rw [hport], by rw [hport], hcount, hraised, hports, hhub, hkeeps⟩
  · refine writes_of (eff := fun t => t.commandPort r k false) rfl hg ?_
    obtain ⟨t, hoff, hacts⟩ := writePortCmd_off hforced hrule hclosed
    rw [commandPort_allowed (on := false) r (by simp) hlimits, hoff]
    obtain ⟨hcmd, hraised, hports, hhub, hkeeps⟩ := commanded_frame (hacts.trans (PortsActed.passOff t k 0))
    obtain ⟨c, hport⟩ := passOff_port t k 0
    exact ⟨hcmd, passOff_state t k (by decide), by rw [hport], by rw [hport], passOff_pg t k 0, hraised, hports, hhub, hkeeps⟩
  · exact congrArg done ((asWrite_grants _ hg).trans (congrArg (State.wrote · r (R.PWP_CMD k)) (commandPort_refused r k hsection)))
  · refine ⟨⟨_, congrArg done (if_pos hlive), trip_tripped (by decide) hstate hon⟩, fun tj hhot => ?_,
      fun mw tj d hruns hd hhot => ?_, fun hfull => ?_, fun hfull => ?_⟩
    · obtain ⟨htripped, c, hport⟩ := trip_setPort (s := s) (cause := 3) (p := { s.port k with diode := tj }) (by decide) hstate hon
      exact ⟨_, congrArg done (diodeTrip_hot hlive hhot), htripped, by rw [hport]⟩
    · subst hd
      obtain ⟨htripped, c, hport⟩ := trip_setPort (s := s) (cause := 4) (p := (s.port k).evaluated mw tj) (by decide) hstate hon
      exact ⟨_, congrArg done ((modelEval_eq mw tj hruns).trans (if_pos hhot)), htripped, by rw [hport]; rfl, by rw [hport]; rfl⟩
    · rw [← timerStep_on hon] at hfull
      obtain ⟨htripped, -⟩ := trip_setPort (s := s) (cause := 2) (p := { s.port k with acc := (s.port k).timerStep }) (by decide)
        hstate hon
      exact ⟨_, congrArg done ((timerUpdate_eq k.val hlive).trans (if_pos hfull)), htripped⟩
    · exact ⟨_, congrArg done (if_pos ⟨hlive, by simpa [State.timerFull] using hfull⟩), trip_tripped (by decide) hstate hon⟩
  · have hidle (cause : Nat) {c : Prop} [Decidable c] (hlive : c → s.portsLive = true) : (if c then s.trip k cause else s) = s := by
      split
      · next h => exact trip_none cause (hnot.resolve_left (by simp [hlive h]))
      · rfl
    exact ⟨congrArg done (hidle 1 id), congrArg done (hidle 2 And.left)⟩
  · exact congrArg done (if_pos (.inr hbelow) : s.diodeTrip k tj = s)
  · subst hd he
    exact congrArg done ((modelEval_eq mw tj hruns).trans (if_neg (not_le.mpr hbelow)))
  · have hupdate := timerUpdate_eq k.val hlive
    rw [timerStep_off hoff, trip_none 2 (.inl (by rw [port_setPort_same]; exact hoff)), ite_self] at hupdate
    exact congrArg done hupdate
  · rw [← timerStep_on hon] at hn
    subst hn
    exact congrArg done ((timerUpdate_eq k.val hlive).trans (if_neg (not_le.mpr hbelow)))
  · obtain ⟨hacts, hport, hpg, hstate, hcount⟩ := regulationEnter_at hon hout
    exact ⟨_, rfl, by rw [hport], by rw [hport]; exact hon, hpg, hstate, hcount, hacts.raised, hacts.hub, keeps_of_still hacts.still⟩
  · exact congrArg done (if_pos hon)
  · refine ⟨fun hstate hfirst => ?_, fun hstate hlive hfull => ?_⟩
    · obtain ⟨hacts, hup, hpg⟩ := rise_at s k
      exact ⟨_, congrArg done (pgRise_rises hon hout hlow hhigh hstate hfirst), hup, hpg, hacts.raised, hacts.hub,
        keeps_of_still hacts.still⟩
    · exact ⟨_, congrArg done (pgRise_trips hon hout hlow hhigh hlive hfull), trip_tripped (by decide) hstate hon⟩
  · exact congrArg done (pgRise_none hnot)
  · have hacts := PortsActed.setPg s k false
    exact ⟨_, congrArg done (if_pos hfall : s.outputDrop k vout.toNat = s.setPg k false), setPg_pg s k false,
      setPg_state s k false, setPg_power s k false, hacts.raised, hacts.hub⟩
  · exact congrArg done (if_neg (not_lt.mpr hnear))
  · have hacts := (PortsActed.setPort s k _).trans (PortsActed.startRamp (s.setPort k { s.port k with diode := tj }) k)
    obtain ⟨c, hport⟩ := startRamp_port (s.setPort k { s.port k with diode := tj }) k
    obtain ⟨-, hramp⟩ := startRamp_at (s.setPort k { s.port k with diode := tj }) k.isLt
    rw [port_setPort_same] at hport
    exact ⟨_, congrArg done (portCooled_eq hlive hstate htj hestimate hclosed hon hsound), hramp, by rw [hport], by rw [hport],
      by rw [hport], startRamp_counts _ k, hacts.raised, hacts.hub, keeps_of_still hacts.still⟩
  · obtain ⟨hacts, hreset, hstate⟩ := resetPort_at k.isLt hlatched hover hclosed hsound
    exact ⟨_, congrArg done (if_pos (by simp [hawake, hdue])), hstate, hacts.rdCmd, hreset, hacts.raised, hacts.hub⟩
  · exact congrArg done (if_neg (by
      rcases hnot with hasleep | hdue
      · simp [hasleep]
      · simp [hdue]))

end Sys2Proof.Machine

/-!
Certificates of the statements on steeping: the seal, the epoch and the policy, loads, and the contexts' programs.
-/

namespace Sys2Proof.Machine

/-! ### Accesses whose effect is known -/

/-- A register command that passes the checks completes in the state that its effect is known to leave. -/
theorem exec_granted {c : Instr} {s t : State} {r : Requester} {a : Nat} {eff : State → State}
    (hexec : exec c s = done (s.asWrite r a eff)) (hg : Grants s r a .write) (heff : eff s = t) :
    exec c s = .next (t.wrote r a).settle := by
  rw [hexec, asWrite_grants eff hg, heff, done_eq]

/-- A Supervisor's access to the housekeeper in the two modes that admit it. -/
theorem housekeeping_supervisor {s : State} {r : Requester} (hlevel : r.level = .supervisor)
    (hmode : s.hub.mode = .quarantine ∨ s.hub.mode = .safe) : s.housekeeping r = true := by
  rcases hmode with h | h <;> simp [State.housekeeping, hlevel, h]

/-! ### Seal, epoch and policy (R148 to R156, R695) -/

theorem nextCommit_fresh {s : State} (h : s.upd.commit = none) : s.nextCommit = ⟨false, s.storedEpoch, s.sealWord, s.policy⟩ := by
  rw [State.nextCommit, h]

section
variable {s : State} {r : Requester} (hlevel : r.level = .supervisor) (hmigration : s.on R.UPD_STATUS_migration_fail = false)
include hlevel hmigration

/-- The housekeeper takes a write: no failed migration holds it back (R686). -/
theorem settings_writable (hmode : s.hub.mode = .quarantine ∨ s.hub.mode = .safe) :
    ¬((!s.housekeeping r) = true ∨ s.on R.UPD_STATUS_migration_fail = true) := by
  simp [housekeeping_supervisor hlevel hmode, hmigration]

theorem writeSeal_pends (hmode : s.hub.mode = .quarantine) (v : Word) :
    s.writeSeal r v = { s with hub := { s.hub with pendSeal := some v } } := by
  rw [State.writeSeal, if_neg (settings_writable hlevel hmigration (.inl hmode)), if_pos hmode]

theorem writeSeal_commits (hmode : s.hub.mode = .safe) (hfree : s.upd.commit = none) (v : Word) :
    s.writeSeal r v = s.startCommit ⟨false, if v = 0 then 0 else s.storedEpoch, v, s.policy⟩ := by
  rw [State.writeSeal, if_neg (settings_writable hlevel hmigration (.inr hmode)), if_neg (by simp [hmode])]
  dsimp only
  rw [nextCommit_fresh hfree]

theorem writeEpoch_pends (hmode : s.hub.mode = .quarantine) (v : Nat) :
    s.writeEpoch r v = { s with hub := { s.hub with pendEpoch := some v } } := by
  rw [State.writeEpoch, if_neg (settings_writable hlevel hmigration (.inl hmode)), if_pos hmode]

theorem writeEpoch_commits (hmode : s.hub.mode = .safe) (hfree : s.upd.commit = none) (hsealed : s.sealWord ≠ 0) {v : Nat}
    (hlow : s.storedEpoch ≤ v) (hhigh : v ≤ s.rd R.STP_LOADED_epoch) :
    s.writeEpoch r v = s.startCommit ⟨false, v, s.sealWord, s.policy⟩ := by
  rw [State.writeEpoch, if_neg (settings_writable hlevel hmigration (.inr hmode)), if_neg (by simp [hmode])]
  dsimp only
  rw [nextCommit_fresh hfree]
  exact if_pos ⟨hsealed, hlow, hhigh⟩

/-- The policy `w` with the fields of UPD_TRIAL taken from `v`. -/
def trialPolicy (w v : Word) : Word :=
  trialFields.foldl (fun p f => fset p f.1 f.2.1 (fget v f.1 f.2.1)) w

theorem writeTrial_commits (hmode : s.hub.mode = .safe) (hfree : s.upd.commit = none) {v : Word}
    (hgood : ∀ f ∈ trialFields, f.2.2 (fget v f.1 f.2.1) = true) :
    s.writeTrial r v = s.startCommit ⟨false, s.storedEpoch, s.sealWord, trialPolicy s.policy v⟩ := by
  rw [State.writeTrial, if_neg (settings_writable hlevel hmigration (.inr hmode))]
  dsimp only
  rw [nextCommit_fresh hfree, List.filter_eq_self.mpr hgood, if_pos rfl]
  rfl

end

/-- The fields of UPD_TRIAL lie apart, so that each reads as it was written. -/
theorem trialPolicy_fields (w v : Word) : fget (trialPolicy w v) 48 8 = fget v 48 8 ∧ fget (trialPolicy w v) 42 2 = fget v 42 2 ∧
    fget (trialPolicy w v) 41 1 = fget v 41 1 ∧ fget (trialPolicy w v) 16 16 = fget v 16 16 := by
  have hmod (l n : Nat) : fget v l n % 2 ^ n = fget v l n := Nat.mod_eq_of_lt (fget_lt v l n)
  simp only [trialPolicy, trialFields, List.foldl_cons, List.foldl_nil]
  refine ⟨?_, ?_, ?_, ?_⟩
  · rw [fget_fset_ne _ _ _ _ _ _ (by decide) (by decide) (by decide), fget_fset_ne _ _ _ _ _ _ (by decide) (by decide) (by decide),
      fget_fset_ne _ _ _ _ _ _ (by decide) (by decide) (by decide), fget_fset_same _ _ _ _ (by decide), hmod]
  · rw [fget_fset_ne _ _ _ _ _ _ (by decide) (by decide) (by decide), fget_fset_ne _ _ _ _ _ _ (by decide) (by decide) (by decide),
      fget_fset_same _ _ _ _ (by decide), hmod]
  · rw [fget_fset_ne _ _ _ _ _ _ (by decide) (by decide) (by decide), fget_fset_same _ _ _ _ (by decide), hmod]
  · rw [fget_fset_same _ _ _ _ (by decide), hmod]

/-! ### Settings records (R683) -/

theorem setPlaces_places (x : Settings) (h : Bool) (ps : List (Option SetRec)) : (x.setPlaces h ps).places h = ps := by
  cases h <;> rfl

theorem setPlaces_rest (x : Settings) (h : Bool) (ps : List (Option SetRec)) : (x.setPlaces h ps).cur = x.cur ∧
    (x.setPlaces h ps).half = x.half ∧ (x.setPlaces h ps).writes = x.writes := by
  cases h <;> exact ⟨rfl, rfl, rfl⟩

/-- Where the half in use is full, the other half begins with the current record. -/
theorem roomy_records (x : Settings) : x.roomy.records = if x.records < 128 then x.records else 1 := by
  unfold Settings.roomy
  split
  · rfl
  · show ((x.setPlaces (!x.half) [x.cur]).places (!x.half)).length = 1
    rw [setPlaces_places]
    rfl

theorem append_records (x : Settings) (r : SetRec) : (x.append r).records = if x.records < 128 then x.records + 1 else 2 := by
  have hlen : (x.append r).records = x.roomy.records + 1 := by
    have hhalf : (x.append r).half = x.roomy.half := (setPlaces_rest _ _ _).2.1
    have hplaces : (x.append r).places x.roomy.half = x.roomy.places x.roomy.half ++ [some r] := setPlaces_places _ _ _
    rw [Settings.records, hhalf, hplaces, List.length_append]
    rfl
  rw [hlen, roomy_records]
  split <;> rfl

theorem settingsOf_setSettings_same (s : State) (b : Bool) (x : Settings) : (s.setSettings b x).settingsOf b = x := by
  cases b <;> rfl

theorem settingsOf_setSettings_other (s : State) (b : Bool) (x : Settings) :
    (s.setSettings b x).settingsOf (!b) = s.settingsOf (!b) := by
  cases b <;> rfl

/-- The record that commits `c` to the copy of the running slot. -/
def State.recordOf (s : State) (c : Commit) : SetRec :=
  ⟨((s.settingsOf s.upd.running).seq + 1) % 2 ^ 32, (s.slotOf s.upd.running).version, c.epoch, c.sealWord, s.setBody c.policy, s.fresh⟩

/-- The state with that record written, and none being written. -/
def State.recorded (s : State) (c : Commit) : State :=
  let t := s.writeSettings s.upd.running c
  { t with upd := { t.upd with commit := none } }

theorem recorded_settings (s : State) (c : Commit) :
    (s.recorded c).settingsOf s.upd.running = (s.settingsOf s.upd.running).append (s.recordOf c) :=
  settingsOf_setSettings_same ..

theorem recorded_other (s : State) (c : Commit) : (s.recorded c).settingsOf (!s.upd.running) = s.settingsOf (!s.upd.running) :=
  settingsOf_setSettings_other ..

theorem setSettings_boot (s : State) (b : Bool) (x : Settings) : (s.setSettings b x).upd.boot = s.upd.boot := by
  cases b <;> rfl

theorem recorded_rest (s : State) (c : Commit) : (s.recorded c).upd.commit = none ∧ (s.recorded c).upd.boot = s.upd.boot ∧
    (s.recorded c).hub = s.hub ∧ (s.recorded c).now = s.now ∧ Keeps s (s.recorded c) := by
  have h := writeSettings_sansRecords s s.upd.running c
  exact ⟨rfl, setSettings_boot .., (congrArg State.hub h :), (congrArg State.now h :), keeps_of_lasting (congrArg State.lasting h :)⟩

theorem commitDone_eq {s : State} {c : Commit} (h : s.upd.commit = some c) : s.commitDone =
    if c.admission = true ∧ (s.recorded c).hub.mode = .quarantine then (s.recorded c).discardPending.setMode .safe 11
    else s.recorded c := by
  rw [State.commitDone, h]
  rfl

/-- What the end of a record write leaves of the records is what the record makes of them, with or without the admission. -/
theorem commitDone_upd {s : State} {c : Commit} (h : s.upd.commit = some c) : s.commitDone.upd = (s.recorded c).upd := by
  rw [commitDone_eq h]
  split
  · exact setMode_upd ..
  · rfl

theorem commitDone_keeps {s : State} {c : Commit} (h : s.upd.commit = some c) : Keeps s s.commitDone := by
  have hkeeps : Keeps s (s.recorded c) := (recorded_rest s c).2.2.2.2
  rw [commitDone_eq h]
  split
  · exact hkeeps.trans (setMode_keeps (s.recorded c).discardPending .safe 11)
  · exact hkeeps

theorem commitDone_hub {s : State} {c : Commit} (h : s.upd.commit = some c) :
    if c.admission = true ∧ s.hub.mode = .quarantine then
      Entered s s.commitDone .safe 11 ∧ s.commitDone.hub.pendSeal = none ∧ s.commitDone.hub.pendEpoch = none
    else s.commitDone.hub = s.hub := by
  obtain ⟨-, -, hhub, hnow, -⟩ := recorded_rest s c
  rw [commitDone_eq h, hhub]
  split
  · have hentered := setMode_entered (s.recorded c).discardPending .safe 11
    refine ⟨?_, ?_, ?_⟩
    · simpa only [Entered, State.discardPending, hhub, hnow] using hentered
    · rw [setMode_hub]
      rfl
    · rw [setMode_hub]
      rfl
  · exact hhub

/-- An admission from Quarantine writes the pending seal and epoch (R152, R153). -/
theorem requestSafe_admits {s : State} (r : ModeReq) {w : Word} {e : Nat} (hmode : s.hub.mode = .quarantine)
    (hseal : s.hub.pendSeal = some w) (hw : w ≠ 0) (hepoch : s.hub.pendEpoch = some e) (he : e = s.rd R.STP_LOADED_epoch)
    (hmigration : s.on R.UPD_STATUS_migration_fail = false) (hfree : s.upd.commit = none) :
    s.requestSafe r = s.modeRequest r 6 (some (s.startCommit ⟨true, e, w, s.policy⟩)) := by
  have hproceed : s.proceed r = s.startCommit ⟨true, e, w, s.policy⟩ := by
    rw [State.proceed, hseal, hepoch]
    dsimp only
    rw [if_pos ⟨hw, he, by rw [hmigration]; rfl⟩, nextCommit_fresh hfree]
    rfl
  rw [State.requestSafe, arbMode_direct (by rw [hmode]; decide), hmode]
  dsimp only
  rw [hproceed]

theorem writeChallenge_taken {s : State} {r : Requester} (h : s.housekeeping r = true) (v : Word) :
    s.writeChallenge r v = { s.setWord R.TOP_SEAL_CHAL v with hub := { s.hub with sealCalc := some v } } := by
  rw [State.writeChallenge, if_neg (by simp [h])]
  rfl

theorem sealReady_answers {s : State} {c : Word} (hawake : s.asleep = false) (hcalc : s.hub.sealCalc = some c) :
    s.sealReady = { s.setWord R.TOP_SEAL_RESP (s.sealResponse c) with hub := { s.hub with sealCalc := none } } := by
  rw [State.sealReady, hcalc]
  dsimp only
  rw [if_neg (by simp [hawake]), State.setWord_hub]

/-- Settles O20: what each write makes of the housekeeper's state, and what a record does once it is complete (`recorded`). -/
theorem sealEpochAndPolicyAreCommittedByRecords : Obligations.SealEpochAndPolicyAreCommittedByRecords := by
  refine ⟨fun s r v hg hlevel hmode hmigration => ?_, fun s r v hg hlevel hmode hmigration hfree => ?_,
    fun s r v hg hlevel hmode hmigration => ?_, fun s r v hg hlevel hmode hmigration hfree hsealed hlow hhigh => ?_,
    fun s r v hg hlevel hmode hmigration hfree hwindow hwindow' hseverity hdwell hdwell' => ?_, fun s c hc => ?_,
    fun s r w e hr hmode hseal hw hepoch he hmigration hfree => ?_, fun s r v hg hlevel hmode => ?_, fun s c hawake hcalc => ?_⟩
  · exact exec_granted rfl hg (writeSeal_pends hlevel hmigration hmode v)
  · exact exec_granted rfl hg (writeSeal_commits hlevel hmigration hmode hfree v)
  · exact exec_granted rfl hg (writeEpoch_pends hlevel hmigration hmode v.toNat)
  · exact exec_granted rfl hg (writeEpoch_commits hlevel hmigration hmode hfree hsealed hlow hhigh)
  · have hgood : ∀ f ∈ trialFields, f.2.2 (fget v f.1 f.2.1) = true := by
      simp [trialFields, hwindow, hwindow', hseverity, hdwell, hdwell']
    exact writes_of rfl hg ⟨trialPolicy s.policy v, writeTrial_commits hlevel hmigration hmode hfree hgood, trialPolicy_fields _ v⟩
  · obtain ⟨hcommit, hboot, -⟩ := recorded_rest s c
    have hupd := commitDone_upd hc
    have hsettings (b : Bool) : s.commitDone.settingsOf b = (s.recorded c).settingsOf b := by
      rw [State.settingsOf, State.settingsOf, hupd]
    refine ⟨s.commitDone, rfl, ?_⟩
    dsimp only
    rw [hsettings, hsettings, recorded_settings, recorded_other, hupd]
    exact ⟨hcommit, rfl, rfl, rfl, rfl, rfl, rfl, append_records .., rfl, hboot, commitDone_keeps hc, commitDone_hub hc⟩
  · rw [exec_modeRequest 6 _ rfl (requestSafe_admits r hmode hseal hw hepoch he hmigration hfree) hr]
    rfl
  · exact exec_granted rfl hg (writeChallenge_taken (housekeeping_supervisor hlevel hmode) v)
  · exact congrArg done (sealReady_answers hawake hcalc)

end Sys2Proof.Machine

namespace Sys2Proof.Machine

/-! ### Bytes of flash (R133, R662, R669) -/

/-- Within the range cut out every key reads the default. -/
theorem mget_mcut_in {α : Type} (d : α) (m : SMap α) {lo hi k : Nat} (hlo : lo ≤ k) (hhi : k < hi) : mget d (mcut m lo hi) k = d := by
  induction m with
  | nil => rfl
  | cons x rest ih =>
    obtain ⟨j, v⟩ := x
    by_cases hj : j < lo ∨ hi ≤ j
    · have hcut : mcut ((j, v) :: rest) lo hi = (j, v) :: mcut rest lo hi := List.filter_cons_of_pos (by simpa using hj)
      rw [hcut, mget, ih, if_neg (by omega)]
    · have hcut : mcut ((j, v) :: rest) lo hi = mcut rest lo hi := List.filter_cons_of_neg (by simpa using hj)
      rw [hcut, ih]

theorem flashByte_below (s : State) {o : Nat} (h : o < stagingBase) : s.flashByte o = mget 0xFF s.flash o :=
  if_pos (.inr (.inl h))

theorem flashByte_defined {s : State} (h : s.upd.stagingUndef = []) (o : Nat) : s.flashByte o = mget 0xFF s.flash o :=
  if_pos (.inl (by rw [h]; rfl))

/-- A block that has been programmed is no longer undefined. -/
theorem flashByte_programmed {s : State} {o : Nat} (h : mget false s.upd.blocks ((o - stagingBase) / 256) = true) :
    s.flashByte o = mget 0xFF s.flash o := by
  rw [State.flashByte, if_pos h, ite_self]

/-! ### The status of a load (R127, R131) -/

theorem loadState_rd (s : State) (n cause : Nat) : (s.loadState n cause).rd R.STP_LOAD_STATUS_state = n % 2 ^ 3 ∧
    (s.loadState n cause).rd R.STP_LOAD_STATUS_cause = cause % 2 ^ 4 :=
  ⟨(rd_wr_apart _ _ (by decide)).trans (rd_wr_same _ _ _ (by decide)), rd_wr_same _ _ _ (by decide)⟩

theorem loadState_apart (s : State) (n cause : Nat) {f : Fld} (hstate : Fld.apart R.STP_LOAD_STATUS_state f = true)
    (hcause : Fld.apart R.STP_LOAD_STATUS_cause f = true) : (s.loadState n cause).rd f = s.rd f :=
  (rd_wr_apart _ _ hcause).trans (rd_wr_apart _ _ hstate)

/-- What a load shows once it is open. -/
theorem openLoad_rd (s : State) (r : Requester) (received : Nat) :
    (s.openLoad r received).rd R.STP_LOAD_STATUS_owner = r.master.val ∧ (s.openLoad r received).rd R.STP_LOAD_STATUS_state = 1 ∧
    (s.openLoad r received).rd R.STP_LOAD_STATUS_received = received % 2 ^ 23 ∧
    (s.openLoad r received).rd R.STP_LOAD_STATUS_busy = s.rd R.STP_LOAD_STATUS_busy := by
  unfold State.openLoad
  dsimp only
  refine ⟨?_, (loadState_rd _ _ _).1, ?_, ?_⟩
  · rw [loadState_apart _ _ _ (by decide) (by decide), rd_wr_apart _ _ (by decide), rd_wr_same _ _ _ (by decide)]
    exact Nat.mod_eq_of_lt r.master.isLt
  · rw [loadState_apart _ _ _ (by decide) (by decide), rd_wr_same _ _ _ (by decide)]
    rfl
  · rw [loadState_apart _ _ _ (by decide) (by decide), rd_wr_apart _ _ (by decide), rd_wr_apart _ _ (by decide)]
    rfl

theorem openLoad_rest (s : State) (r : Requester) (received : Nat) :
    (s.openLoad r received).upd = { s.upd with loadOpen := true, loadVerifying := false } ∧ (s.openLoad r received).hub = s.hub ∧
    (s.openLoad r received).pimem = s.pimem :=
  ⟨rfl, rfl, rfl⟩

/-! ### The start of a load (R126 to R128, R669) -/

/-- The staging area and the journal erased, and the erase in progress. -/
def State.beginLoad (s : State) : State :=
  let t := s.eraseStaging
  let t : State := { t with upd := { t.upd with erasing := true } }
  (t.wr R.STP_LOAD_STATUS_busy 1).wr R.UPD_STATUS_state 0

theorem loadStart_opens {s : State} {r : Requester} {discard : Bool} (hhouse : s.housekeeping r = true) (hclosed : s.upd.loadOpen = false)
    (hstaged : s.stagedImage = false ∨ discard = true) : s.loadStart r discard = s.beginLoad.openLoad r 0 := by
  rw [State.loadStart, if_neg (by rcases hstaged with h | h <;> simp [hhouse, hclosed, h])]
  rfl

theorem loadStart_staged {s : State} (r : Requester) (hstaged : s.stagedImage = true) : s.loadStart r false = s :=
  if_pos (.inr (.inr ⟨hstaged, rfl⟩))

theorem beginLoad_busy (s : State) : s.beginLoad.rd R.STP_LOAD_STATUS_busy = 1 :=
  (rd_wr_addr _ _ _ _ (by decide)).trans (rd_wr_same _ _ _ (by decide))

theorem beginLoad_rest (s : State) :
    s.beginLoad.upd = { s.upd with erasing := true, journal := [], blocks := [], stagingUndef := [] } ∧ s.beginLoad.hub = s.hub ∧
    s.beginLoad.pimem = s.pimem :=
  ⟨rfl, rfl, rfl⟩

/-- The records, the hub and the memory once a load has begun. -/
theorem openedLoad_rest (s : State) (r : Requester) : (s.beginLoad.openLoad r 0).upd =
      { s.upd with loadOpen := true, loadVerifying := false, erasing := true, journal := [], blocks := [], stagingUndef := [] } ∧
    (s.beginLoad.openLoad r 0).hub = s.hub ∧ (s.beginLoad.openLoad r 0).pimem = s.pimem := by
  obtain ⟨hupd, hhub, hmem⟩ := openLoad_rest s.beginLoad r 0
  obtain ⟨hupd', hhub', hmem'⟩ := beginLoad_rest s
  exact ⟨by rw [hupd, hupd'], hhub.trans hhub', hmem.trans hmem'⟩

/-- A load that begins: the staging area reads erased, and the rest of flash as before. -/
theorem openedLoad_flash (s : State) (r : Requester) :
    (∀ o, stagingBase ≤ o → o < stagingBase + 0x400000 → (s.beginLoad.openLoad r 0).flashByte o = 0xFF) ∧
    (∀ o, o < stagingBase → (s.beginLoad.openLoad r 0).flashByte o = s.flashByte o) := by
  refine ⟨fun o hlo hhi => ?_, fun o ho => ?_⟩
  · rw [flashByte_defined rfl]
    exact mget_mcut_in _ _ hlo hhi
  · rw [flashByte_below _ ho, flashByte_below _ ho]
    exact mget_mcut_ne _ _ (.inl ho)

/-! ### The end of a load (R133) -/

theorem loadAbort_closes {s : State} {r : Requester} (hhouse : s.housekeeping r = true) (hopen : s.upd.loadOpen = true) :
    s.loadAbort r = s.closeLoad.undefineStaging :=
  if_neg (by simp [hhouse, hopen])

theorem closeLoad_rd (s : State) : s.closeLoad.rd R.STP_LOAD_STATUS_owner = 0 ∧ s.closeLoad.rd R.STP_LOAD_STATUS_state = 0 :=
  ⟨(loadState_apart _ _ _ (by decide) (by decide)).trans (rd_wr_same _ _ _ (by decide)), (loadState_rd _ _ _).1⟩

theorem closeLoad_rest (s : State) : s.closeLoad.upd = { s.upd with loadOpen := false, loadVerifying := false } ∧
    s.closeLoad.flash = s.flash ∧ s.closeLoad.hub = s.hub ∧ s.closeLoad.pimem = s.pimem :=
  ⟨rfl, rfl, rfl, rfl⟩

theorem undefineStaging_rest (s : State) : s.undefineStaging.upd.loadOpen = s.upd.loadOpen ∧ s.undefineStaging.upd.boot = s.upd.boot ∧
    s.undefineStaging.hub = s.hub ∧ s.undefineStaging.pimem = s.pimem ∧ ∀ f, s.undefineStaging.rd f = s.rd f :=
  ⟨rfl, rfl, rfl, rfl, fun _ => rfl⟩

theorem undefineStaging_below (s : State) {o : Nat} (h : o < stagingBase) : s.undefineStaging.flashByte o = mget 0xFF s.flash o := by
  rw [flashByte_below _ h]
  exact mget_mcut_ne _ _ (.inl h)

/-! ### Verification of a load (R131, R663) -/

theorem loadVerify_begins {s : State} {r : Requester} (howns : s.ownsLoad r = true) (hstate : s.rd R.STP_LOAD_STATUS_state = 1) :
    s.loadVerify r = ({ s with upd := { s.upd with loadVerifying := true } } : State).loadState 2 0 := by
  rw [State.loadVerify, if_neg (by simp [howns, hstate])]

/-- The state with no verification running. -/
def State.unverified (s : State) : State := { s with upd := { s.upd with loadVerifying := false } }

/-- The state once the verification has read the staging area. -/
def State.stagingRead (s : State) : State := s.unverified.noteSource 2

/-- The fault that checks 1 to 6 find in the staging area. -/
def State.stagingFault (s : State) : Option Cause := imageFault (s.sourceBytes 2) s.rootKey s.variant.code s.storedEpoch

theorem loadVerifyDone_eq {s : State} (h : s.upd.loadVerifying = true) : s.loadVerifyDone =
    match s.stagingFault with
    | none => s.stagingRead.loadState 3 0
    | some c => s.stagingRead.loadState 4 c.code := by
  rw [State.loadVerifyDone, if_neg (by simp [h])]
  rfl

theorem loadVerifyDone_loadState {s : State} (h : s.upd.loadVerifying = true) :
    ∃ n cause, s.loadVerifyDone = s.stagingRead.loadState n cause := by
  rw [loadVerifyDone_eq h]
  cases s.stagingFault with
  | none => exact ⟨3, 0, rfl⟩
  | some c => exact ⟨4, c.code, rfl⟩

/-- Reading the staging area counts and raises the errors of flash, and changes nothing else. -/
theorem stagingRead_frame (s : State) : s.stagingRead.upd = { s.upd with loadVerifying := false } ∧ s.stagingRead.hub = s.hub ∧
    Keeps s s.stagingRead := by
  have h := noteSource_sansFlashEcc s.unverified 2
  exact ⟨(congrArg State.upd h :), (congrArg State.hub h :), keeps_of_lasting (congrArg State.lasting h :)⟩

theorem code_lt (c : Cause) : c.code < 2 ^ 4 := by cases c <;> decide

theorem flashMarks_single {s : State} {i o n : Nat} {x : Ecc} (h : s.eccMarks = [(.flash, i, x)]) (hlo : o ≤ 8 * i) (hhi : 8 * i < o + n) :
    s.flashMarks o n = [i] := by
  have hword : o / 8 ≤ i := by omega
  simp [State.flashMarks, h, hword, hhi]

theorem noteFlashEcc_bad {s : State} {i : Nat} (h : s.eccOf .flash i = .bad) :
    s.noteFlashEcc [i] = (s.bump R.UPD_FLASH_ECC_uncorrectable).raise 0x007 i := by
  rw [State.noteFlashEcc, List.foldl_cons, List.foldl_nil, h]

theorem unverified_rd (s : State) (f : Fld) : s.unverified.rd f = s.rd f := rfl

/-- One uncorrectable word among the bytes received is counted and raised. -/
theorem stagingRead_bad {s : State} {i : Nat} (hmarks : s.eccMarks = [(.flash, i, .bad)]) (hlo : stagingBase ≤ 8 * i)
    (hhi : 8 * i < stagingBase + s.rd R.STP_LOAD_STATUS_received) : s.stagingRead =
      (s.unverified.bump R.UPD_FLASH_ECC_uncorrectable).raise 0x007 i := by
  have hmarks' : s.unverified.eccMarks = [(.flash, i, .bad)] := hmarks
  have hhi' : 8 * i < stagingBase + s.unverified.rd R.STP_LOAD_STATUS_received := hhi
  have hecc : s.unverified.eccOf .flash i = .bad := by simp [State.eccOf, hmarks']
  rw [State.stagingRead, State.noteSource, if_pos rfl, State.noteFlashRead, flashMarks_single hmarks' hlo hhi', noteFlashEcc_bad hecc]

/-! ### Puts (R129, R130, R668) -/

theorem not_ownsLoad {s : State} {r : Requester} (howns : s.ownsLoad r = true) : ¬(!s.ownsLoad r) = true := by simp [howns]

theorem writeLoadBuf_taken {s : State} {r : Requester} (howns : s.ownsLoad r = true) (hidle : s.on R.STP_LOAD_STATUS_busy = false)
    (i : Nat) (v : Word) : s.writeLoadBuf r i v = s.setWord (R.STP_LOAD_BUF i) v := by
  rw [State.writeLoadBuf, if_neg (not_ownsLoad howns), if_neg (by simp [hidle])]

theorem writeLoadBuf_overruns {s : State} {r : Requester} (howns : s.ownsLoad r = true) (hbusy : s.on R.STP_LOAD_STATUS_busy = true)
    (i : Nat) (v : Word) : s.writeLoadBuf r i v = s.wr R.STP_LOAD_STATUS_overrun 1 := by
  rw [State.writeLoadBuf, if_neg (not_ownsLoad howns), if_pos hbusy]

/-- The words of the buffer that a put takes. -/
def State.bufferWords (s : State) (n : Nat) : List Word := (List.range n).map (fun i => s.word (R.STP_LOAD_BUF i))

theorem writeLoadPut_taken {s : State} {r : Requester} (howns : s.ownsLoad r = true) (hidle : s.on R.STP_LOAD_STATUS_busy = false)
    (block : Nat) {words : Nat} (hsome : words ≠ 0) (hfit : words ≤ 32) : s.writeLoadPut r block words =
    (({ s with upd := { s.upd with put := some ⟨block, s.bufferWords words⟩, loadVerifying := false } } : State).wr
      R.STP_LOAD_STATUS_busy 1).loadState 1 0 := by
  rw [State.writeLoadPut, if_neg (not_ownsLoad howns), if_neg (by simp [hidle]), if_neg (by omega)]
  rfl

/-- The put is over; the erase may go on. -/
def State.endPut (s : State) : State :=
  ({ s with upd := { s.upd with put := none } } : State).wr R.STP_LOAD_STATUS_busy (bit01 s.upd.erasing)

/-- The bytes received reach up to `top`. -/
def State.noteReceived (s : State) (top : Nat) : State :=
  if s.rd R.STP_LOAD_STATUS_received < top then s.wr R.STP_LOAD_STATUS_received top else s

/-- The chunk of a block just programmed is journaled if it is complete, and after block 0 the last one of the package. -/
def State.journalPut (s : State) (block : Nat) : State :=
  let t := s.journalChunk (block / 256)
  if block = 0 ∧ t.packageLength ≠ 0 then t.journalChunk ((t.packageLength - 1) / 65536 % 64) else t

theorem putDone_eq {s : State} {p : Put} (hput : s.upd.put = some p) (hopen : s.upd.loadOpen = true) : s.putDone =
    ((s.endPut.programPut p).noteReceived (256 * p.block + 8 * p.words.length)).journalPut p.block := by
  rw [State.putDone, hput]
  dsimp only
  rw [if_neg (by simp [hopen])]
  rfl

/-- The state without the journal and what reading flash changes. -/
def State.sansJournal (s : State) : State := { s.sansFlashEcc with upd := { s.upd with journal := [] } }

theorem journalChunk_sansJournal (s : State) (c : Nat) : (s.journalChunk c).sansJournal = s.sansJournal := by
  unfold State.journalChunk
  split
  · exact (congrArg (fun t : State => { t with upd := { t.upd with journal := [] } })
      (noteFlashEcc_sansFlashEcc s (s.flashMarks (stagingBase + 65536 * c) 65536)) :)
  · rfl

theorem journalPut_sansJournal (s : State) (block : Nat) : (s.journalPut block).sansJournal = s.sansJournal := by
  unfold State.journalPut
  dsimp only
  split
  · exact (journalChunk_sansJournal ..).trans (journalChunk_sansJournal s _)
  · exact journalChunk_sansJournal s _

theorem noteReceived_sansCounts (s : State) (top : Nat) : (s.noteReceived top).sansCounts = s.sansCounts := by
  unfold State.noteReceived
  split <;> rfl

theorem noteReceived_busy (s : State) (top : Nat) :
    (s.noteReceived top).rd R.STP_LOAD_STATUS_busy = s.rd R.STP_LOAD_STATUS_busy := by
  unfold State.noteReceived
  split
  · exact rd_wr_apart _ _ (by decide)
  · rfl

theorem endPut_busy (s : State) : s.endPut.rd R.STP_LOAD_STATUS_busy = bit01 s.upd.erasing :=
  (rd_wr_same _ _ _ (by decide)).trans (Nat.mod_eq_of_lt (bit01_lt _))

theorem words_length (ws : List Word) : (ws.flatMap wordBytes).length = 8 * ws.length := by
  induction ws with
  | nil => rfl
  | cons w ws ih =>
    rw [List.flatMap_cons, List.length_append, ih, wordBytes_length, List.length_cons]
    omega

/-- The bytes of a put stand in its block, which is then defined. -/
theorem programPut_in (s : State) {p : Put} (hfit : p.words.length ≤ 32) {i : Nat} (hi : i < 8 * p.words.length) :
    (s.programPut p).flashByte (stagingBase + 256 * p.block + i) = (p.words.flatMap wordBytes).getD i 0 := by
  have hblock : (stagingBase + 256 * p.block + i - stagingBase) / 256 = p.block := by omega
  have hlen : i < (p.words.flatMap wordBytes).length := by rwa [words_length]
  rw [flashByte_programmed (by rw [hblock]; exact mget_mput_same false _ _ true), List.getD_eq_getElem _ _ hlen]
  exact mget_mputList_in _ _ _ hlen

theorem programPut_below (s : State) (p : Put) {o : Nat} (h : o < stagingBase) : (s.programPut p).flashByte o = s.flashByte o := by
  rw [flashByte_below _ h, flashByte_below _ h]
  exact mget_mputList_lt _ _ _ (by omega)

/-- What a put that is done leaves, but for the count of bytes received and the journal. -/
theorem putDone_changes {s : State} {p : Put} (hput : s.upd.put = some p) (hopen : s.upd.loadOpen = true) :
    s.putDone.upd = { (s.endPut.programPut p).upd with journal := s.putDone.upd.journal } ∧
    s.putDone.rd R.STP_LOAD_STATUS_busy = bit01 s.upd.erasing ∧ (∀ o, s.putDone.flashByte o = (s.endPut.programPut p).flashByte o) ∧
    s.putDone.hub = s.hub ∧ s.putDone.pimem = s.pimem := by
  rw [putDone_eq hput hopen]
  have hbusy : (s.endPut.programPut p).rd R.STP_LOAD_STATUS_busy = bit01 s.upd.erasing := endPut_busy s
  have hhub : (s.endPut.programPut p).hub = s.hub := rfl
  have hmem : (s.endPut.programPut p).pimem = s.pimem := rfl
  generalize s.endPut.programPut p = t at *
  have hcounts := noteReceived_sansCounts t (256 * p.block + 8 * p.words.length)
  rw [← noteReceived_busy t (256 * p.block + 8 * p.words.length)] at hbusy
  generalize t.noteReceived (256 * p.block + 8 * p.words.length) = v at *
  have h := journalPut_sansJournal v p.block
  generalize v.journalPut p.block = u at *
  have hupd : { u.upd with journal := [] } = { t.upd with journal := [] } :=
    (congrArg State.upd h :).trans (congrArg (fun x : State => { x.upd with journal := [] }) hcounts :)
  refine ⟨(congrArg (fun x : Upd => { x with journal := u.upd.journal }) hupd :), ?_, fun o => ?_, ?_, ?_⟩
  · rw [← hbusy]
    refine rd_of_word _ ?_
    rw [← word_sansFlashEcc u (by decide), ← word_sansFlashEcc v (by decide)]
    exact (congrArg (State.word · R.STP_LOAD_STATUS) h :)
  · exact (congrArg (State.flashByte · o) h :).trans (congrArg (State.flashByte · o) hcounts :)
  · rw [← hhub]
    exact (congrArg State.hub h :).trans (congrArg State.hub hcounts :)
  · rw [← hmem]
    exact (congrArg State.pimem h :).trans (congrArg State.pimem hcounts :)

theorem eraseDone_ends {s : State} (h : s.upd.erasing = true) : s.eraseDone =
    ({ s with upd := { s.upd with erasing := false } } : State).wr R.STP_LOAD_STATUS_busy (bit01 s.upd.put.isSome) := by
  rw [State.eraseDone, if_neg (by simp [h])]

/-- Settles O21: what a load shows follows from the fields that its start, its puts and its verification write, and what flash reads
from the blocks programmed since its erase. -/
theorem loadsFollowTheirOwner : Obligations.LoadsFollowTheirOwner := by
  refine ⟨fun s r hg hlevel hmode hclosed hstaged => ?_, fun s r hg hlevel hmode hclosed => ?_,
    fun s r hg hlevel hmode hclosed hstaged => ?_, fun s r hg hlevel hmode hopen => ?_, fun s r hg howns hstate => ?_,
    fun s hverifying => ?_, fun s i hverifying hmarks hlo hhi => ?_, fun s r i v hg howns hidle => ?_,
    fun s r i v hg howns hbusy => ?_, fun s r block words hg howns hidle hsome hfit => ?_, fun s p hput hopen _ hfit => ?_,
    fun s herasing => ?_⟩
  · obtain ⟨howner, hstate, hreceived, hbusy⟩ := openLoad_rd s.beginLoad r 0
    obtain ⟨herased, hkept⟩ := openedLoad_flash s r
    obtain ⟨hupd, hhub, hmem⟩ := openedLoad_rest s r
    refine writes_of (eff := fun t => t.loadStart r false) rfl hg ?_
    rw [loadStart_opens (housekeeping_supervisor hlevel hmode) hclosed (.inl hstaged)]
    rw [hupd]
    exact ⟨rfl, rfl, rfl, howner, hstate, hbusy.trans (beginLoad_busy s), hreceived.trans (Nat.zero_mod _), herased, hkept, rfl,
      hhub, hmem⟩
  · obtain ⟨howner, hstate, -⟩ := openLoad_rd s.beginLoad r 0
    obtain ⟨hupd, hhub, -⟩ := openedLoad_rest s r
    refine writes_of (eff := fun t => t.loadStart r true) rfl hg ?_
    rw [loadStart_opens (housekeeping_supervisor hlevel hmode) hclosed (.inr rfl)]
    rw [hupd]
    exact ⟨rfl, rfl, rfl, howner, hstate, (openedLoad_flash s r).1, hhub⟩
  · exact exec_granted rfl hg (loadStart_staged r hstaged)
  · obtain ⟨howner, hstate⟩ := closeLoad_rd s
    obtain ⟨hupd, hflash, hhub, hmem⟩ := closeLoad_rest s
    obtain ⟨hopen', hboot, hhub', hmem', hrd⟩ := undefineStaging_rest s.closeLoad
    refine writes_of (eff := fun t => t.loadAbort r) rfl hg ?_
    rw [loadAbort_closes (housekeeping_supervisor hlevel hmode) hopen]
    rw [hopen', hboot, hupd, hrd, hrd]
    refine ⟨rfl, howner, hstate, fun o ho => ?_, rfl, hhub'.trans hhub, hmem'.trans hmem⟩
    rw [undefineStaging_below _ ho, hflash, flashByte_below _ ho]
  · exact exec_granted rfl hg (loadVerify_begins howns hstate)
  · obtain ⟨hupd, hhub, hkeeps⟩ := stagingRead_frame s
    refine ⟨s.loadVerifyDone, rfl, ?_, ?_, ?_, ?_⟩
    · obtain ⟨n, cause, hdone⟩ := loadVerifyDone_loadState hverifying
      rw [hdone]
      exact hupd
    · obtain ⟨n, cause, hdone⟩ := loadVerifyDone_loadState hverifying
      rw [hdone]
      exact hhub
    · obtain ⟨n, cause, hdone⟩ := loadVerifyDone_loadState hverifying
      rw [hdone]
      exact hkeeps
    · rw [loadVerifyDone_eq hverifying]
      unfold State.stagingFault
      cases imageFault (s.sourceBytes 2) s.rootKey s.variant.code s.storedEpoch with
      | none => exact loadState_rd _ _ _
      | some c =>
        obtain ⟨hstate, hcause⟩ := loadState_rd s.stagingRead 4 c.code
        exact ⟨hstate, hcause.trans (Nat.mod_eq_of_lt (code_lt c))⟩
  · obtain ⟨n, cause, hdone⟩ := loadVerifyDone_loadState hverifying
    rw [stagingRead_bad hmarks hlo hhi] at hdone
    refine ⟨s.loadVerifyDone, rfl, ?_⟩
    rw [hdone]
    refine ⟨rfl, ?_⟩
    rw [Counted, State.loadState, rd_wr_addr _ _ _ _ (by decide), rd_wr_addr _ _ _ _ (by decide), raise_rd,
      rd_bump_same _ _ (by decide), unverified_rd]
  · exact exec_granted rfl hg (writeLoadBuf_taken howns hidle i.val v)
  · exact exec_granted rfl hg (writeLoadBuf_overruns howns hbusy i.val v)
  · refine writes_of (eff := fun t => t.writeLoadPut r block.toNat words.toNat) rfl hg ?_
    rw [writeLoadPut_taken howns hidle block.toNat (by bv_omega) hfit]
    refine ⟨rfl, ?_, (loadState_rd _ _ _).1, rfl, keeps_of_lasting rfl⟩
    rw [loadState_apart _ _ _ (by decide) (by decide)]
    exact rd_wr_same _ _ _ (by decide)
  · obtain ⟨hupd, hbusy, hflash, hhub, hmem⟩ := putDone_changes hput hopen
    refine ⟨s.putDone, rfl, ?_, hbusy, fun i hi => ?_, fun o ho => ?_, ?_, hhub, hmem⟩
    · rw [hupd]
      rfl
    · rw [hflash]
      exact programPut_in _ hfit hi
    · rw [hflash]
      exact programPut_below _ p ho
    · rw [hupd]
      rfl
  · exact congrArg done (eraseDone_ends herasing)

end Sys2Proof.Machine

namespace Sys2Proof.Machine

/-! ### What starting, stopping and patching leave alone -/

/-- `t` is `s` after actions on the contexts in `p` of engine `e`: they move those contexts, the engine's marks of its issue slots and the
performance counters. -/
structure Steers (e : Nat) (p : Nat → Prop) (s t : State) : Prop where
  rest : t.sansCounts.sansEngines = s.sansCounts.sansEngines
  word : ∀ a, ¬pmcBlock a → t.word a = s.word a
  ctx : ∀ f d, ¬(f = e ∧ p d) → t.ctx f d = s.ctx f d

/-- The word fetched for a context is gone. -/
def Ctx.unfetched (x : Ctx) : Ctx := { x with pre := none, refetch := true }

/-- The engine wastes a slot. -/
def State.wastes (s : State) (e : Nat) : State := (s.setEngine e { s.engine e with wasted := true }).pmcEv 6 8 e engAttrs

theorem dropPre_cases (s : State) (e c : Nat) : ((s.ctx e c).pre = none ∧ s.dropPre e c = s) ∨
    s.dropPre e c = (s.setCtx e c (s.ctx e c).unfetched).wastes e := by
  unfold State.dropPre
  split
  · next h => exact .inl ⟨h, rfl⟩
  · exact .inr rfl

namespace Steers

variable {e : Nat} {p q : Nat → Prop} {s t u : State}

theorem refl (e : Nat) (p : Nat → Prop) (s : State) : Steers e p s s := ⟨rfl, fun _ _ => rfl, fun _ _ _ => rfl⟩

theorem trans (h : Steers e p s t) (k : Steers e p t u) : Steers e p s u where
  rest := k.rest.trans h.rest
  word a ha := (k.word a ha).trans (h.word a ha)
  ctx f d hd := (k.ctx f d hd).trans (h.ctx f d hd)

theorem mono (h : Steers e p s t) (hpq : ∀ d, p d → q d) : Steers e q s t where
  rest := h.rest
  word := h.word
  ctx f d hd := h.ctx f d (fun ⟨hf, hp⟩ => hd ⟨hf, hpq d hp⟩)

theorem foldl {α : Type} {f : State → α → State} {l : List α} (h : ∀ t, ∀ a ∈ l, Steers e p t (f t a)) (s : State) :
    Steers e p s (l.foldl f s) :=
  List.foldlRecOn (motive := fun t => Steers e p s t) l f (refl e p s) (fun t ht a ha => ht.trans (h t a ha))

theorem of_sansCounts (hcounts : t.sansCounts = s.sansCounts) (hword : ∀ a, ¬pmcBlock a → t.word a = s.word a) : Steers e p s t where
  rest := (congrArg State.sansEngines hcounts :)
  word := hword
  ctx f d _ := (congrArg (fun v : State => v.ctx f d) hcounts :)

theorem hub (h : Steers e p s t) : t.hub = s.hub := (congrArg State.hub h.rest :)

theorem eccMarks (h : Steers e p s t) : t.eccMarks = s.eccMarks := (congrArg State.eccMarks h.rest :)

theorem raised (h : Steers e p s t) : t.raised = s.raised := (congrArg State.raised h.rest :)

theorem keeps (h : Steers e p s t) : Keeps s t := keeps_of_lasting (congrArg State.lasting h.rest :)

/-- The registers of the engines are none of the counters'. -/
theorem rd (h : Steers e p s t) {f : Fld} (hf : 0x200000 ≤ f.addr) : t.rd f = s.rd f :=
  rd_of_word f (h.word _ (by unfold pmcBlock; omega))

theorem inRegion (h : Steers e p s t) (f c pc : Nat) : t.inRegion f c pc = s.inRegion f c pc := by
  have haddr : 0x200000 ≤ R.INF_CTX_CFG f c := by
    unfold R.INF_CTX_CFG engBase
    omega
  rw [State.inRegion, State.inRegion, h.rd haddr, h.rd haddr]

variable (s) (c : Nat)

theorem setCtx (x : Ctx) : Steers e (· = c) s (s.setCtx e c x) := ⟨rfl, fun _ _ => rfl, fun _ _ hd => ctx_setCtx_ne s x hd⟩

theorem setEngine {x : Engine} (hx : x.ctxs = (s.engine e).ctxs) : Steers e p s (s.setEngine e x) :=
  ⟨rfl, fun _ _ => rfl, fun f d _ => ctx_setEngine s hx f d⟩

theorem pmcEv (cls ev x : Nat) (a : Attrs) : Steers e p s (s.pmcEv cls ev x a) :=
  of_sansCounts (pmcEv_sansCounts ..) (fun _ ha => pmcEv_word s cls ev x a ha)

theorem wastes : Steers e p s (s.wastes e) := (setEngine s (by rfl)).trans (pmcEv _ _ _ _ _)

theorem dropPre : Steers e (· = c) s (s.dropPre e c) := by
  rcases dropPre_cases s e c with ⟨-, h⟩ | h <;> rw [h]
  · exact refl e _ s
  · exact (setCtx s c _).trans (wastes _)

/-- Discarding a grid instruction moves the marks of issue slots, and not even its context. -/
theorem dropGrid : Steers e (fun _ => False) s (s.dropGrid e c) := by
  unfold State.dropGrid
  dsimp only
  split
  · exact refl e _ s
  split
  · exact setEngine s rfl
  · refine (setEngine s ?_).trans (foldl (fun t _ _ => (pmcEv t _ _ _ _).trans (pmcEv _ _ _ _ _)) _)
    rfl

theorem haltCtx (st : CtxState) : Steers e (· = c) s (s.haltCtx e c st) :=
  ((dropPre s c).trans ((dropGrid _ c).mono (fun _ => False.elim))).trans (setCtx _ c _)

theorem enterWait (r : Nat) : Steers e (· = c) s (s.enterWait e c r) := (setCtx s c _).trans (pmcEv _ _ _ _ _)

theorem ready : Steers e (· = c) s (s.ready e c) := by
  unfold State.ready
  dsimp only
  split
  · exact enterWait s c 9
  · exact setCtx s c _

end Steers

/-- In a fold of actions on the contexts of an engine, each once, a context moves after and before actions on other contexts alone. -/
theorem foldl_steers_at {e : Nat} {f : State → Nat → State} (hf : ∀ t c, Steers e (· = c) t (f t c)) {l : List Nat} (hl : l.Nodup)
    {c : Nat} (hc : c ∈ l) (s : State) : ∃ t, Steers e (· ≠ c) s t ∧ Steers e (· ≠ c) (f t c) (l.foldl f s) := by
  obtain ⟨before, after, rfl⟩ := List.append_of_mem hc
  obtain ⟨-, hafter, hbefore⟩ := List.nodup_append.mp hl
  have others {m : List Nat} (hm : c ∉ m) (t : State) : Steers e (· ≠ c) t (m.foldl f t) :=
    Steers.foldl (fun u d hd => (hf u d).mono (fun i (hi : i = d) (hic : i = c) => hm (hi.symm.trans hic ▸ hd))) t
  refine ⟨before.foldl f s, others (fun hmem => hbefore c hmem c List.mem_cons_self rfl) s, ?_⟩
  rw [List.foldl_append, List.foldl_cons]
  exact others (List.nodup_cons.mp hafter).1 _

/-! ### A context that starts, waits or stops (R454 to R459, R506) -/

theorem pmcEv_ctx (s : State) (cls ev x : Nat) (a : Attrs) (e c : Nat) : (s.pmcEv cls ev x a).ctx e c = s.ctx e c :=
  (congrArg (fun t : State => t.ctx e c) (pmcEv_sansCounts s cls ev x a) :)

theorem enterWait_ctx (s : State) (e c r : Nat) : (s.enterWait e c r).ctx e c = { s.ctx e c with st := .waiting, wait := r } := by
  rw [State.enterWait, pmcEv_ctx, ctx_setCtx_same]

theorem ready_waits {s : State} {e c : Nat} (hregion : s.inRegion e c (s.ctx e c).pc = true) (hpre : (s.ctx e c).pre = none) :
    s.ready e c = s.enterWait e c 9 :=
  if_pos ⟨hregion, by rw [hpre]; exact (Option.some_ne_none _).symm⟩

/-- Becoming RUNNING or waiting for a fetch moves a context's state and reason alone. -/
theorem ready_ctx (s : State) (e c : Nat) : ∃ st w, (s.ready e c).ctx e c = { s.ctx e c with st := st, wait := w } := by
  unfold State.ready
  dsimp only
  split
  · exact ⟨_, _, enterWait_ctx ..⟩
  · exact ⟨_, _, ctx_setCtx_same ..⟩

theorem dropPre_ctx (s : State) (e c : Nat) : ((s.dropPre e c).ctx e c).pre = none ∧ ((s.dropPre e c).ctx e c).pc = (s.ctx e c).pc ∧
    ((s.dropPre e c).ctx e c).st = (s.ctx e c).st ∧ ((s.dropPre e c).ctx e c).c0 = (s.ctx e c).c0 ∧
    ((s.dropPre e c).ctx e c).tau = (s.ctx e c).tau := by
  rcases dropPre_cases s e c with ⟨hpre, h⟩ | h <;> rw [h]
  · exact ⟨hpre, rfl, rfl, rfl, rfl⟩
  · rw [State.wastes, pmcEv_ctx, ctx_setEngine _ (by rfl), ctx_setCtx_same]
    exact ⟨rfl, rfl, rfl, rfl, rfl⟩

theorem stopCtx_ctx (s : State) (e c : Nat) : ((s.stopCtx e c).ctx e c).st = .idle ∧ ((s.stopCtx e c).ctx e c).grid = none ∧
    ((s.stopCtx e c).ctx e c).c0 = (s.ctx e c).c0 ∧ ((s.stopCtx e c).ctx e c).tau = (s.ctx e c).tau := by
  have hkept : ((s.dropPre e c).dropGrid e c).ctx e c = (s.dropPre e c).ctx e c := (Steers.dropGrid _ c).ctx e c (fun h => h.2)
  obtain ⟨-, -, -, hc0, htau⟩ := dropPre_ctx s e c
  unfold State.stopCtx State.haltCtx
  dsimp only
  rw [ctx_setCtx_same, hkept]
  exact ⟨rfl, rfl, hc0, htau⟩

/-- What a start that is granted makes of the context before it fetches its first word (R458). -/
theorem startCtx_ready {s : State} {e c : Nat} (tau : Word) (hstill : (s.ctx e c).runs = false) (hmay : s.mayRun e c = true) :
    ∃ y : Ctx, s.startCtx e c tau false = (s.setCtx e c y).ready e c ∧ y.pre = none ∧ y.pc = s.rd (R.INF_CTX_STATE_start_pc e c) ∧
      y.tau = tau ∧ y.c0 = 0 ∧ y.c1 = 0 ∧ y.outCnt = 0 ∧ y.inCnt = 0 ∧ y.flags = 0 ∧ y.loopOn = false := by
  rw [State.startCtx, if_neg (by simp [hstill, hmay])]
  exact ⟨_, rfl, rfl, rfl, rfl, rfl, rfl, rfl, rfl, rfl, rfl⟩

/-- A context set at a pc of its region waits for its first word (R506). -/
theorem setCtx_ready {s : State} {e c : Nat} {y : Ctx} (hpre : y.pre = none) (hregion : s.inRegion e c y.pc = true) :
    Steers e (· = c) s ((s.setCtx e c y).ready e c) ∧
    ((s.setCtx e c y).ready e c).ctx e c = { y with st := .waiting, wait := 9 } := by
  have hctx := ctx_setCtx_same s e c y
  refine ⟨(Steers.setCtx s c y).trans (Steers.ready _ c), ?_⟩
  rw [ready_waits (by rw [hctx]; exact hregion) (by rw [hctx]; exact hpre), enterWait_ctx, hctx]

theorem startCtx_refused {s : State} {e c : Nat} (tau : Word) (island : Bool) (h : (s.ctx e c).runs = true ∨ s.mayRun e c = false) :
    s.startCtx e c tau island = s.bump (R.INF_STATUS_refused e) :=
  if_pos (h.imp_right (fun hmay => by simp [hmay]))

/-! ### Masks of contexts (R458, R460) -/

/-- The contexts of a mask. -/
def maskCtxs (mask : Nat) : List Nat := (List.range 16).filter (bitAt mask)

theorem maskCtxs_zero : maskCtxs 0 = [] := by decide

theorem maskCtxs_single (c : Fin 16) : maskCtxs (2 ^ c.val) = [c.val] := by
  revert c
  decide

/-- A context that is not IDLE stops. -/
def State.stopBusy (s : State) (e c : Nat) : State := if (s.ctx e c).st ≠ .idle then s.stopCtx e c else s

theorem stopBusy_steers (s : State) (e c : Nat) : Steers e (· = c) s (s.stopBusy e c) := by
  unfold State.stopBusy
  split
  · exact Steers.haltCtx s c .idle
  · exact Steers.refl e _ s

theorem stopBusy_idle (s : State) (e c : Nat) : ((s.stopBusy e c).ctx e c).st = .idle := by
  unfold State.stopBusy
  split
  · exact (stopCtx_ctx s e c).1
  · next h => exact not_not.mp h

theorem startMask_eq (s : State) (e mask : Nat) :
    s.startMask e mask = (maskCtxs mask).foldl (fun t c => t.startCtx e c s.startTau false) s := by
  rw [State.startMask, maskCtxs, List.foldl_filter]

theorem stopMask_eq (s : State) (e mask : Nat) : s.stopMask e mask = (maskCtxs mask).foldl (fun t c => t.stopBusy e c) s := by
  rw [State.stopMask, maskCtxs, List.foldl_filter]
  refine congrArg (fun f => List.foldl f s (List.range 16)) (funext fun t => funext fun c => ?_)
  rw [State.stopBusy, ite_and]

theorem writeInfCtrl_start (s : State) (e : Nat) (c : Fin 16) :
    s.writeInfCtrl e (2 ^ c.val) 0 = s.startCtx e c s.startTau false := by
  rw [State.writeInfCtrl, stopMask_eq, maskCtxs_zero, Nat.and_zero, Nat.sub_zero, startMask_eq, maskCtxs_single]
  rfl

theorem writeInfCtrl_stops (s : State) (e : Nat) {start stop : Nat} (h : start - (start &&& stop) = 0) :
    s.writeInfCtrl e start stop = s.stopMask e stop := by
  rw [State.writeInfCtrl, h, startMask_eq, maskCtxs_zero]
  rfl

theorem writeInfCtrl_stop (s : State) (e : Nat) (c : Fin 16) : s.writeInfCtrl e 0 (2 ^ c.val) = s.stopBusy e c := by
  rw [writeInfCtrl_stops s e (Nat.zero_sub _), stopMask_eq, maskCtxs_single]
  rfl

/-- Every context of a stop mask is IDLE after the stop. -/
theorem stopMask_idle (s : State) (e : Nat) {mask c : Nat} (hc : c < 16) (hmask : bitAt mask c = true) :
    ((s.stopMask e mask).ctx e c).st = .idle := by
  have hmem : c ∈ maskCtxs mask := List.mem_filter.mpr ⟨List.mem_range.mpr hc, hmask⟩
  have hnodup : (maskCtxs mask).Nodup := List.nodup_range.filter _
  obtain ⟨t, -, hafter⟩ := foldl_steers_at (fun t d => stopBusy_steers t e d) hnodup hmem s
  rw [stopMask_eq, hafter.ctx e c (fun h => h.2 rfl)]
  exact stopBusy_idle t e c

theorem maskBit_toNat (c : Fin 16) : (BitVec.ofNat 16 (2 ^ c.val)).toNat = 2 ^ c.val := by
  revert c
  decide

theorem exec_contextStart (s : State) (r : Requester) (e c : Fin 16) : exec (.contextStart r e (BitVec.ofNat 16 (2 ^ c.val)) 0) s =
    done (s.asWrite r (R.INF_CTRL e.val) (fun t => t.startCtx e.val c.val t.startTau false)) := by
  show done (s.asWrite r (R.INF_CTRL e.val) (fun t => t.writeInfCtrl e.val (BitVec.ofNat 16 (2 ^ c.val)).toNat 0)) = _
  simp only [maskBit_toNat, writeInfCtrl_start]

theorem exec_contextStop (s : State) (r : Requester) (e c : Fin 16) : exec (.contextStop r e (BitVec.ofNat 16 (2 ^ c.val))) s =
    done (s.asWrite r (R.INF_CTRL e.val) (fun t => t.stopBusy e.val c.val)) := by
  show done (s.asWrite r (R.INF_CTRL e.val) (fun t => t.writeInfCtrl e.val 0 (BitVec.ofNat 16 (2 ^ c.val)).toNat)) = _
  simp only [maskBit_toNat, writeInfCtrl_stop]

/-! ### Program memory (R494, R495) -/

theorem eccOf_freshEcc_same (s : State) (m : EccMem) (i : Nat) : (s.freshEcc m i).eccOf m i = .clean := by
  have hnone : (s.freshEcc m i).eccMarks.find? (fun x => x.1 = m ∧ x.2.1 = i) = none :=
    List.find?_eq_none.mpr (fun x hx => by simpa [imp_iff_not_or] using (List.mem_filter.mp hx).2)
  rw [State.eccOf, hnone]

theorem eccOf_of_marks {s t : State} (h : t.eccMarks = s.eccMarks) (m : EccMem) (i : Nat) : t.eccOf m i = s.eccOf m i := by
  rw [State.eccOf, State.eccOf, h]

/-- A word of program memory stored whole. -/
def State.storeProg (s : State) (e i : Nat) (v : Word) : State := (s.setWord (R.INF_PROG e i) v).freshEcc .prog (512 * e + i)

theorem storeProg_eccOf (s : State) (e i : Nat) (v : Word) : (s.storeProg e i v).eccOf .prog (512 * e + i) = .clean := by
  rw [State.storeProg, eccOf_freshEcc_same]

/-- A context that has fetched word `i` drops it, and fetches it again if it is RUNNING. -/
def State.followPatch (s : State) (e i c : Nat) : State :=
  if (s.ctx e c).pre.map (·.1) ≠ some i then s
  else if (s.ctx e c).st = .running then (s.dropPre e c).ready e c
  else s.dropPre e c

/-- The write with every context following. -/
def State.patched (s : State) (e i : Nat) (v : Word) : State := (List.range 16).foldl (fun t c => t.followPatch e i c) (s.storeProg e i v)

/-- The running contexts whose region the word touches. -/
def State.touchedBy (s : State) (e i : Nat) : List Nat := (List.range 16).filter (s.touches e i)

theorem mem_touchedBy {s : State} {e i c : Nat} : c ∈ s.touchedBy e i ↔ c < 16 ∧ s.touches e i c = true := by
  rw [State.touchedBy, List.mem_filter, List.mem_range]

theorem writeProg_taken {s : State} {e i : Nat} (v : Word)
    (hpatch : ∀ c, c < 16 → s.touches e i c = true → s.on (R.INF_CTX_CFG_hot_patch e c) = true) : s.writeProg e i v =
      if (s.touchedBy e i).isEmpty then s.patched e i v else (s.patched e i v).bump (R.INF_PATCH_patches e) := by
  have hnone : ¬((s.touchedBy e i).any (fun c => !s.on (R.INF_CTX_CFG_hot_patch e c)) = true) := by
    rw [List.any_eq_true]
    rintro ⟨c, hc, hoff⟩
    obtain ⟨hlt, htouch⟩ := mem_touchedBy.mp hc
    simp [hpatch c hlt htouch] at hoff
  exact if_neg hnone

theorem writeProg_refused {s : State} {e i c : Nat} (v : Word) (hc : c < 16) (htouch : s.touches e i c = true)
    (hoff : s.on (R.INF_CTX_CFG_hot_patch e c) = false) :
    s.writeProg e i v = (s.bump (R.INF_PATCH_refused e)).wr (R.INF_PATCH_last e) (2 * i) :=
  if_pos (List.any_eq_true.mpr ⟨c, mem_touchedBy.mpr ⟨hc, htouch⟩, by simp [hoff]⟩)

theorem patchProg_allowed {s : State} (r : Requester) {e i : Nat} {v : Word}
    (hodd : s.limitsAllow (R.INF_PROG_odd e i) (fget v 32 32) = true)
    (heven : s.limitsAllow (R.INF_PROG_even e i) (fget v 0 32) = true) : s.patchProg r e i v = s.writeProg e i v :=
  if_pos ⟨hodd, heven⟩

theorem patchProg_refused {s : State} (r : Requester) {e i : Nat} {v : Word}
    (h : s.limitsAllow (R.INF_PROG_odd e i) (fget v 32 32) = false ∨ s.limitsAllow (R.INF_PROG_even e i) (fget v 0 32) = false) :
    s.patchProg r e i v = s.refuseTune r (R.INF_PROG e i) :=
  if_neg (by rcases h with h | h <;> simp [h])

theorem followPatch_steers (s : State) (e i c : Nat) : Steers e (· = c) s (s.followPatch e i c) := by
  unfold State.followPatch
  (repeat' split)
  · exact Steers.refl e _ s
  · exact (Steers.dropPre s c).trans (Steers.ready _ c)
  · exact Steers.dropPre s c

/-- What a patch of word `i` makes of a context `x`, whose pc lies in its region if `region`: `y`. -/
structure Refetches (i : Nat) (region : Bool) (x y : Ctx) : Prop where
  pre : y.pre.map (·.1) ≠ some i
  pc : y.pc = x.pc
  other : x.pre.map (·.1) ≠ some i → y = x
  st : x.st ≠ .running → y.st = x.st
  waits : x.st = .running → x.pre.map (·.1) = some i → region = true → y.st = .waiting ∧ y.wait = 9

theorem followPatch_ctx (s : State) (e i c : Nat) :
    Refetches i (s.inRegion e c (s.ctx e c).pc) (s.ctx e c) ((s.followPatch e i c).ctx e c) := by
  obtain ⟨hnone, hpc, hst, -⟩ := dropPre_ctx s e c
  have hgone {y : Ctx} (hy : y.pre = none) : y.pre.map (·.1) ≠ some i := by
    rw [hy]
    exact (Option.some_ne_none i).symm
  unfold State.followPatch
  split
  · next hother => exact ⟨hother, rfl, fun _ => rfl, fun _ => rfl, fun _ hpre => absurd hpre hother⟩
  next hfetched =>
  split
  · next hrun =>
    obtain ⟨st, w, hready⟩ := ready_ctx (s.dropPre e c) e c
    refine ⟨hgone (by rw [hready]; exact hnone), by rw [hready]; exact hpc, fun h => absurd h hfetched, fun h => absurd hrun h,
      fun _ _ hregion => ?_⟩
    have hregion' : (s.dropPre e c).inRegion e c ((s.dropPre e c).ctx e c).pc = true := by
      rw [(Steers.dropPre s c).inRegion, hpc]
      exact hregion
    rw [ready_waits hregion' hnone, enterWait_ctx]
    exact ⟨rfl, rfl⟩
  · next hstill => exact ⟨hgone hnone, hpc, fun h => absurd h hfetched, fun _ => hst, fun hrun => absurd hrun hstill⟩

theorem storeProg_rd (s : State) {e i : Nat} (v : Word) {f : Fld} (h : f.addr ≠ R.INF_PROG e i) : (s.storeProg e i v).rd f = s.rd f :=
  rd_of_word f (word_setWord_ne s v h)

theorem patched_steers (s : State) (e i : Nat) (v : Word) : Steers e (fun _ => True) (s.storeProg e i v) (s.patched e i v) :=
  Steers.foldl (fun t c _ => (followPatch_steers t e i c).mono (fun _ _ => trivial)) _

theorem patched_ctx (s : State) (e i : Nat) (v : Word) {c : Nat} (hc : c < 16) :
    Refetches i (s.inRegion e c (s.ctx e c).pc) (s.ctx e c) ((s.patched e i v).ctx e c) := by
  obtain ⟨t, hbefore, hafter⟩ := foldl_steers_at (fun t d => followPatch_steers t e i d) List.nodup_range (List.mem_range.mpr hc)
    (s.storeProg e i v)
  have hctx : t.ctx e c = s.ctx e c := hbefore.ctx e c (fun h => h.2 rfl)
  have hne : R.INF_CTX_CFG e c ≠ R.INF_PROG e i := by
    unfold R.INF_CTX_CFG R.INF_PROG
    omega
  have hregion : t.inRegion e c (s.ctx e c).pc = s.inRegion e c (s.ctx e c).pc := by
    rw [hbefore.inRegion, State.inRegion, State.inRegion, storeProg_rd s v (f := R.INF_CTX_CFG_region_lo e c) hne,
      storeProg_rd s v (f := R.INF_CTX_CFG_region_hi e c) hne]
  have h := followPatch_ctx t e i c
  rw [hctx, hregion] at h
  rw [State.patched, hafter.ctx e c (fun h => h.2 rfl)]
  exact h

/-- What a patch does besides: the word stands with fresh ECC, and the patch counter has not moved yet. -/
theorem patched_rest (s : State) (e i : Nat) (v : Word) : (s.patched e i v).word (R.INF_PROG e i) = v ∧
    (s.patched e i v).eccOf .prog (512 * e + i) = .clean ∧
    (s.patched e i v).rd (R.INF_PATCH_patches e) = s.rd (R.INF_PATCH_patches e) ∧ (s.patched e i v).hub = s.hub := by
  have h := patched_steers s e i v
  have hprog : ¬pmcBlock (R.INF_PROG e i) := by
    unfold pmcBlock R.INF_PROG engBase
    omega
  have hpatch : 0x200000 ≤ R.INF_PATCH e := by
    unfold R.INF_PATCH engBase
    omega
  have hne : R.INF_PATCH e ≠ R.INF_PROG e i := by
    unfold R.INF_PATCH R.INF_PROG
    omega
  refine ⟨(h.word _ hprog).trans (word_setWord_same s _ v), ?_, ?_, h.hub⟩
  · rw [eccOf_of_marks h.eccMarks, storeProg_eccOf]
  · rw [h.rd (f := R.INF_PATCH_patches e) hpatch, storeProg_rd s v (f := R.INF_PATCH_patches e) hne]

/-- Counting the patch leaves what it has done. -/
theorem bump_patches (s : State) (e i : Nat) : (s.bump (R.INF_PATCH_patches e)).word (R.INF_PROG e i) = s.word (R.INF_PROG e i) ∧
    (∀ m k, (s.bump (R.INF_PATCH_patches e)).eccOf m k = s.eccOf m k) ∧
    (∀ f c, (s.bump (R.INF_PATCH_patches e)).ctx f c = s.ctx f c) ∧ (s.bump (R.INF_PATCH_patches e)).hub = s.hub := by
  refine ⟨word_wr_ne _ _ _ ?_, fun _ _ => rfl, fun _ _ => rfl, rfl⟩
  show R.INF_PROG e i ≠ R.INF_PATCH e
  unfold R.INF_PROG R.INF_PATCH
  omega

theorem writeProg_changes {s : State} {e i : Nat} (v : Word)
    (hpatch : ∀ c, c < 16 → s.touches e i c = true → s.on (R.INF_CTX_CFG_hot_patch e c) = true) :
    (s.writeProg e i v).word (R.INF_PROG e i) = v ∧ (s.writeProg e i v).eccOf .prog (512 * e + i) = .clean ∧
    (∀ c, c < 16 → Refetches i (s.inRegion e c (s.ctx e c).pc) (s.ctx e c) ((s.writeProg e i v).ctx e c)) ∧
    ((∃ c, c < 16 ∧ s.touches e i c = true) → Counted s (s.writeProg e i v) (R.INF_PATCH_patches e)) ∧
    (s.writeProg e i v).hub = s.hub := by
  obtain ⟨hword, hecc, hcount, hhub⟩ := patched_rest s e i v
  obtain ⟨hword', hecc', hctx', hhub'⟩ := bump_patches (s.patched e i v) e i
  rw [writeProg_taken v hpatch]
  split
  · next hempty =>
    refine ⟨hword, hecc, fun c hc => patched_ctx s e i v hc, fun ⟨c, hc, htouch⟩ => ?_, hhub⟩
    exact absurd (mem_touchedBy.mpr ⟨hc, htouch⟩) (by rw [List.isEmpty_iff.mp hempty]; exact List.not_mem_nil)
  · refine ⟨hword'.trans hword, (hecc' _ _).trans hecc, fun c hc => ?_, fun _ => ?_, hhub'.trans hhub⟩
    · rw [hctx']
      exact patched_ctx s e i v hc
    · rw [Counted, rd_bump_same _ _ (show 32 + 16 ≤ 64 by decide), hcount]

/-- Settles O50: a context moves alone (`Steers`), so that what a mask or a patch does to it is what the one action on it does. -/
theorem contextsStartStopAndArePatched : Obligations.ContextsStartStopAndArePatched := by
  refine ⟨fun s r e c hg hstill hmay hregion => ?_, fun s r e c hg hrefused => ?_, fun s r e c hg hbusy => ?_,
    fun s r e c m hg hmask hbusy => ?_, fun s r e i v hg hodd heven hpatch => ?_,
    fun s r e c i v hg hodd heven htouch hoff => ?_, fun s r e i v hg hlimit => ?_⟩
  · refine writes_of (exec_contextStart s r e c) hg ?_
    obtain ⟨y, hstart, hpre, hpc, htau, hc0, hc1, hout, hin, hflags, hloop⟩ := startCtx_ready s.startTau hstill hmay
    obtain ⟨hsteers, hctx⟩ := setCtx_ready hpre (by rw [hpc]; exact hregion)
    rw [hstart, hctx]
    exact ⟨rfl, rfl, hpc, htau, hc0, hc1, hout, hin, hflags, hloop, fun k hk => hsteers.ctx e k (fun h => hk h.2), hsteers.hub,
      hsteers.keeps⟩
  · exact writes_of (exec_contextStart s r e c) hg (startCtx_refused _ _ hrefused)
  · refine writes_of (exec_contextStop s r e c) hg ?_
    rw [State.stopBusy, if_pos hbusy]
    obtain ⟨hst, hgrid, hc0, htau⟩ := stopCtx_ctx s e c
    have hsteers := Steers.haltCtx s (e := e.val) c.val .idle
    exact ⟨hst, hgrid, hc0, htau, fun k hk => hsteers.ctx e k (fun h => hk h.2), hsteers.raised, hsteers.hub, hsteers.keeps⟩
  · refine writes_of (eff := fun t => t.writeInfCtrl e.val m.toNat m.toNat) rfl hg ?_
    rw [writeInfCtrl_stops _ _ (by rw [Nat.and_self, Nat.sub_self])]
    exact stopMask_idle s e c.isLt (by rw [bitAt_eq_testBit]; exact hmask)
  · refine writes_of (eff := fun t => t.patchProg r e.val i.val v) rfl hg ?_
    rw [patchProg_allowed r hodd heven]
    obtain ⟨hword, hecc, hctx, hcount, hhub⟩ := writeProg_changes v hpatch
    exact ⟨hword, hecc, fun c hc => (hctx c hc).pre, fun c hc => ⟨(hctx c hc).pc, (hctx c hc).other, (hctx c hc).st, (hctx c hc).waits⟩,
      hcount, hhub⟩
  · exact exec_granted rfl hg ((patchProg_allowed r hodd heven).trans (writeProg_refused v c.isLt htouch hoff))
  · exact exec_granted rfl hg (patchProg_refused r hlimit)

end Sys2Proof.Machine

namespace Sys2Proof.Machine

/-! ### Process image memory and flash: what leaves them alone

Few operations of the model write process image memory or flash. Every other one leaves both alone, which its `_memory` lemma says, in
the order of the model's definitions; `simp` puts the lemmas of an operation's parts together. -/

/-- Process image memory and flash. -/
def State.memory (s : State) : SMap Byte × SMap Byte := (s.pimem, s.flash)

@[simp] theorem memory_ite {c : Prop} [Decidable c] (s t : State) :
    (if c then s else t).memory = if c then s.memory else t.memory := by
  split <;> rfl

@[simp] theorem memory_fst_ite {β : Type} {c : Prop} [Decidable c] (x y : State × β) :
    (if c then x else y).1.memory = if c then x.1.memory else y.1.memory := by
  split <;> rfl

/-- A state with the memory of `s`, whatever else it holds. The equation is for `simp`, so it is not proved by plain `rfl`: `simp` would
then use it in steps that leave no proof, which its calls on `memory_foldl` need. -/
@[simp] theorem memory_mk (s : State) (pending variant rootKey now clk regs store eccMarks loaded hub upd ring switch cyc time bays
    engines initReqs buckets power kettle pmc raised answer fresh) :
    (State.mk pending variant rootKey now clk regs store s.pimem s.flash eccMarks loaded hub upd ring switch cyc time bays engines
      initReqs buckets power kettle pmc raised answer fresh).memory = s.memory := (rfl)

@[simp] theorem memory_foldl {α : Type} (f : State → α → State) (l : List α) (h : ∀ t a, (f t a).memory = t.memory) (s : State) :
    (l.foldl f s).memory = s.memory :=
  foldl_keeps State.memory f l (fun t a _ => h t a) s

theorem memory_of_fst {β : Type} {x : State × β} {t : State} {b : β} (h : x = (t, b)) : t.memory = x.1.memory := by rw [h]

theorem memory_of_anchor {s t : State} (h : t.anchor = s.anchor) : t.memory = s.memory := (congrArg State.memory h :)

theorem memory_hub (t : State) (x : Hub) : ({ t with hub := x }).memory = t.memory := rfl

theorem memory_power (t : State) (x : Power) : ({ t with power := x }).memory = t.memory := rfl

theorem memory_ring (t : State) (x : Ring) : ({ t with ring := x }).memory = t.memory := rfl

theorem memory_time (t : State) (x : Time) : ({ t with time := x }).memory = t.memory := rfl

theorem memory_cyc (t : State) (x : Cyc) : ({ t with cyc := x }).memory = t.memory := rfl

theorem memory_pmc (t : State) (x : Pmc) : ({ t with pmc := x }).memory = t.memory := rfl

/-- Every state that an optional one can be has a property, where each of two alternatives says so. -/
theorem forall_mem_orElse {P : State → Prop} {o p : Option State} (ho : ∀ t ∈ o, P t) (hp : ∀ t ∈ p, P t) : ∀ t ∈ (o <|> p), P t := by
  cases o
  · exact hp
  · exact ho

theorem forall_mem_map {P : State → Prop} {o : Option Nat} {f : Nat → State} (h : ∀ i, P (f i)) : ∀ t ∈ o.map f, P t :=
  Option.forall_mem_map.mpr fun i _ => h i

theorem forall_mem_some {P : State → Prop} {u : State} (h : P u) : ∀ t ∈ some u, P t := by simpa

theorem forall_mem_ite {P : State → Prop} {c : Prop} [Decidable c] {o p : Option State} (ho : ∀ t ∈ o, P t) (hp : ∀ t ∈ p, P t) :
    ∀ t ∈ (if c then o else p), P t := by
  split
  · exact ho
  · exact hp

/-! ### Memory frames: registers and random values -/

section
variable (s : State)

@[simp] theorem setWord_memory (a w) : (s.setWord a w).memory = s.memory := (rfl)
@[simp] theorem wr_memory (f v) : (s.wr f v).memory = s.memory := (rfl)
@[simp] theorem wrInt_memory (f v) : (s.wrInt f v).memory = s.memory := (rfl)
@[simp] theorem wrIntSat_memory (f v) : (s.wrIntSat f v).memory = s.memory := (rfl)
@[simp] theorem wrBit_memory (f i b) : (s.wrBit f i b).memory = s.memory := (rfl)
@[simp] theorem bumpBy_memory (f n) : (s.bumpBy f n).memory = s.memory := (rfl)
@[simp] theorem bump_memory (f) : (s.bump f).memory = s.memory := (rfl)
@[simp] theorem bumpWrap_memory (f) : (s.bumpWrap f).memory = s.memory := (rfl)
@[simp] theorem takeFree_memory : s.takeFree.2.memory = s.memory := (rfl)
@[simp] theorem resetRange_memory (lo hi) : (s.resetRange lo hi).memory = s.memory := (rfl)
@[simp] theorem restoreRange_memory (lo hi) : (s.restoreRange lo hi).memory = s.memory := by simp [State.restoreRange]
@[simp] theorem freshEcc_memory (m i) : (s.freshEcc m i).memory = s.memory := (rfl)
@[simp] theorem raise_memory (src data) : (s.raise src data).memory = s.memory := (rfl)
@[simp] theorem pmcAdd_memory (h) : (s.pmcAdd h).memory = s.memory := by simp [State.pmcAdd]
@[simp] theorem pmcBy_memory (cls ev x n a) : (s.pmcBy cls ev x n a).memory = s.memory := by simp [State.pmcBy]
@[simp] theorem pmcEv_memory (cls ev x a) : (s.pmcEv cls ev x a).memory = s.memory := by simp [State.pmcEv]

end

/-! ### Memory frames: contexts -/

section
variable (s : State)

@[simp] theorem setEngine_memory (e x) : (s.setEngine e x).memory = s.memory := (rfl)
@[simp] theorem setCtx_memory (e c x) : (s.setCtx e c x).memory = s.memory := (rfl)
@[simp] theorem latchEdge_memory (rose eck) : (s.latchEdge rose eck).memory = s.memory := (rfl)

end

/-! ### Memory frames: pins -/

section
variable (s : State)

@[simp] theorem setPin_memory (g p) : (s.setPin g p).memory = s.memory := (rfl)
@[simp] theorem recordEdge_memory (g stamp rose) : (s.recordEdge g stamp rose).memory = s.memory := by simp [State.recordEdge]
@[simp] theorem followLine_memory (old g) : (s.followLine old g).memory = s.memory := by simp [State.followLine]

@[simp] theorem acceptComing_memory (g) : (s.acceptComing g).memory = s.memory := by
  unfold State.acceptComing
  split <;> simp

@[simp] theorem acceptComings_memory : s.acceptComings.memory = s.memory := by simp [State.acceptComings]
@[simp] theorem applyPad_memory (g) : (s.applyPad g).memory = s.memory := by simp [State.applyPad]
@[simp] theorem applyPin_memory (g) : (s.applyPin g).memory = s.memory := by simp [State.applyPin]
@[simp] theorem applyPins_memory : s.applyPins.memory = s.memory := by simp [State.applyPins]
@[simp] theorem applyBay_memory (n) : (s.applyBay n).memory = s.memory := by simp [State.applyBay]
@[simp] theorem drivePin_memory (g d) : (s.drivePin g d).memory = s.memory := by simp [State.drivePin]
@[simp] theorem applyBayOut_memory (n) : (s.applyBayOut n).memory = s.memory := by simp [State.applyBayOut]

end

/-! ### Memory frames: engines -/

section
variable (s : State)

@[simp] theorem progEcc_memory (e i) : (s.progEcc e i).memory = s.memory := by
  unfold State.progEcc
  split <;> simp

@[simp] theorem fetch_memory (e c) : (s.fetch e c).memory = s.memory := by simp [State.fetch]

@[simp] theorem dropPre_memory (e c) : (s.dropPre e c).memory = s.memory := by
  unfold State.dropPre
  split <;> simp

@[simp] theorem enterWait_memory (e c r) : (s.enterWait e c r).memory = s.memory := by simp [State.enterWait]
@[simp] theorem ready_memory (e c) : (s.ready e c).memory = s.memory := by simp [State.ready]
@[simp] theorem advance_memory (e c) : (s.advance e c).memory = s.memory := by simp [State.advance]
@[simp] theorem pmcRecord_memory (r) : (s.pmcRecord r).memory = s.memory := by simp [State.pmcRecord]

@[simp] theorem pmcReady_memory : s.pmcReady.memory = s.memory := by
  unfold State.pmcReady
  extract_lets _ t
  have ht : t.memory = s.memory := rfl
  split
  · exact ht
  · refine (memory_foldl _ _ (fun u w => ?_) _).trans ht
    split <;> simp

@[simp] theorem pmcIssued_memory (e c pc) : (s.pmcIssued e c pc).memory = s.memory := by simp [State.pmcIssued]
@[simp] theorem noteIssue_memory (e c) : (s.noteIssue e c).memory = s.memory := (rfl)
@[simp] theorem retire_memory (e c pc) : (s.retire e c pc).memory = s.memory := by simp [State.retire]
@[simp] theorem issueHeld_memory (e c pc) : (s.issueHeld e c pc).memory = s.memory := by simp [State.issueHeld]
@[simp] theorem chargeAs_memory (e k) : (s.chargeAs e k).memory = s.memory := by simp [State.chargeAs]
@[simp] theorem retireHeld_memory (e c pc) : (s.retireHeld e c pc).memory = s.memory := by simp [State.retireHeld]
@[simp] theorem dropGrid_memory (e c) : (s.dropGrid e c).memory = s.memory := by simp [State.dropGrid]
@[simp] theorem turned_memory (e c) : (s.turned e c).memory = s.memory := (rfl)
@[simp] theorem haltCtx_memory (e c st) : (s.haltCtx e c st).memory = s.memory := by simp [State.haltCtx]
@[simp] theorem stopCtx_memory (e c) : (s.stopCtx e c).memory = s.memory := by simp [State.stopCtx]
@[simp] theorem faultCtx_memory (e c cause pc) : (s.faultCtx e c cause pc).memory = s.memory := by simp [State.faultCtx]
@[simp] theorem resetEngine_memory (e) : (s.resetEngine e).memory = s.memory := by simp [State.resetEngine]
@[simp] theorem startCtx_memory (e c tau island) : (s.startCtx e c tau island).memory = s.memory := by simp [State.startCtx]
@[simp] theorem startMask_memory (e mask) : (s.startMask e mask).memory = s.memory := by simp [State.startMask]
@[simp] theorem stopMask_memory (e mask) : (s.stopMask e mask).memory = s.memory := by simp [State.stopMask]
@[simp] theorem suspendQuad_memory (q) : (s.suspendQuad q).memory = s.memory := by simp [State.suspendQuad]
@[simp] theorem resumeQuad_memory (q) : (s.resumeQuad q).memory = s.memory := by simp [State.resumeQuad]
@[simp] theorem noteSlack_memory (e c t early) : (s.noteSlack e c t early).memory = s.memory := by simp [State.noteSlack]
@[simp] theorem noteLate_memory (e c l) : (s.noteLate e c l).memory = s.memory := by simp [State.noteLate]

@[simp] theorem pinAction_memory (e c g d t isOut) : (s.pinAction e c g d t isOut).memory = s.memory := by
  unfold State.pinAction
  dsimp only
  (repeat' split) <;> simp

@[simp] theorem releaseShift_memory (e c op inLane n adv stuff cont eff) :
    (s.releaseShift e c op inLane n adv stuff cont eff).memory = s.memory :=
  (rfl)

@[simp] theorem releaseGrid_memory (e c op early) : (s.releaseGrid e c op early).memory = s.memory := by
  unfold State.releaseGrid
  dsimp only
  (repeat' split) <;> simp

@[simp] theorem gridRelease_memory (e c) : (s.gridRelease e c).memory = s.memory := by
  unfold State.gridRelease
  dsimp only
  (repeat' split) <;> simp

@[simp] theorem finish_memory (e c w r) : (s.finish e c w r).memory = s.memory := by
  unfold State.finish
  split <;> simp

theorem issueAs_memory {s : State} {f : Insn → State → Option (State × IRes)}
    (hf : ∀ i x, f i s = some x → x.1.memory = s.memory) (e c opcode) :
    (s.issueAs e c opcode f).memory = s.memory := by
  unfold State.issueAs
  dsimp only
  split
  · rfl
  split
  · simp
  split
  · rfl
  split
  · rfl
  split
  · simp
  split
  · simp
  next i _ =>
  split
  · rfl
  next t r h =>
    have ht : t.memory = s.memory := hf i _ h
    split <;> simp [ht]

end

/-! ### Memory frames: the sieve -/

section
variable (s : State)

@[simp] theorem recordVerdict_memory (i v) : (s.recordVerdict i v).memory = s.memory := by
  unfold State.recordVerdict
  split <;> simp

end

/-! ### Memory frames: the switch -/

section
variable (s : State)

@[simp] theorem setOutp_memory (p o) : (s.setOutp p o).memory = s.memory := (rfl)
@[simp] theorem countDrop_memory (p c) : (s.countDrop p c).memory = s.memory := by simp [State.countDrop]
@[simp] theorem checkRisk_memory (p) : (s.checkRisk p).memory = s.memory := by simp [State.checkRisk]
@[simp] theorem checkRisks_memory : s.checkRisks.memory = s.memory := by simp [State.checkRisks]
@[simp] theorem charge_memory (p n reserve) : (s.charge p n reserve).memory = s.memory := by simp [State.charge]
@[simp] theorem noteLow_memory : s.noteLow.memory = s.memory := by simp [State.noteLow]

@[simp] theorem noteCaddyEcc_memory (ws) : (s.noteCaddyEcc ws).memory = s.memory := by
  refine memory_foldl _ _ (fun t i => ?_) s
  split <;> simp

@[simp] theorem noteCaddyWord_memory (m i) : (s.noteCaddyWord m i).memory = s.memory := by
  unfold State.noteCaddyWord
  split <;> simp

@[simp] theorem noteCaddyRead_memory (m i) : (s.noteCaddyRead m i).memory = s.memory := by simp [State.noteCaddyRead]
@[simp] theorem writeLeaves_memory (leaves f) : (s.writeLeaves leaves f).memory = s.memory := (rfl)
@[simp] theorem setStored_memory (f) : (s.setStored f).memory = s.memory := (rfl)
@[simp] theorem noteLinks_memory (f) : (s.noteLinks f).memory = s.memory := by simp [State.noteLinks]

@[simp] theorem freeFrame_memory (f read) : (s.freeFrame f read).memory = s.memory := by
  unfold State.freeFrame
  extract_lets lost left t u
  have ht : t.memory = s.memory := by simp [t]
  have hu : u.memory = s.memory := by
    simp only [u]
    cases f.leaves.head? <;> simp [ht]
  exact hu

@[simp] theorem touchKey_memory (p f) : (s.touchKey p f).memory = s.memory := by simp [State.touchKey]

@[simp] theorem release_memory (p id read) : (s.release p id read).memory = s.memory := by
  unfold State.release
  split
  · rfl
  next f _ =>
  extract_lets n o o' o'' t outs u v
  have hu : u.memory = s.memory := by simp [u, t]
  have hv : v.memory = s.memory := by
    unfold v
    split
    · simp [hu]
    · cases f.leaves.head? <;> simp [hu]
  simp [hv]

@[simp] theorem markWaited_memory (p) : (s.markWaited p).memory = s.memory := (rfl)

@[simp] theorem endHold_memory (p f) : (s.endHold p f).memory = s.memory := by
  unfold State.endHold
  dsimp only
  (repeat' split) <;> simp

@[simp] theorem reseqRelease_memory (k f) : (s.reseqRelease k f).memory = s.memory := by simp [State.reseqRelease]

@[simp] theorem holdFrame_memory (p f) : (s.holdFrame p f).memory = s.memory := by
  unfold State.holdFrame
  dsimp only
  (repeat' split) <;> simp

@[simp] theorem reseqJoin_memory (p id) : (s.reseqJoin p id).memory = s.memory := by
  unfold State.reseqJoin
  dsimp only
  (repeat' split) <;> simp

@[simp] theorem admitAt_memory (free f p) : (s.admitAt free f p).1.memory = s.memory := by
  unfold State.admitAt
  dsimp only
  (repeat' split) <;> simp

@[simp] theorem enqueue_memory (f outs marked) : (s.enqueue f outs marked).1.memory = s.memory := by
  unfold State.enqueue
  extract_lets f₀ free
  split
  next t g hfold =>
  have ht : t.memory = s.memory := by
    refine (memory_of_fst hfold).trans (List.foldlRecOn (motive := fun acc : State × Stored => acc.1.memory = s.memory) _ _ rfl
      fun acc hacc p _ => ?_)
    split
    next u ok hadmit =>
    have hu : u.memory = s.memory := by simp [memory_of_fst hadmit, hacc]
    split <;> exact hu
  split
  · exact ht
  · simp [ht]

@[simp] theorem route_memory (f i out del w) : (s.route f i out del w).1.memory = s.memory := by
  unfold State.route
  dsimp only
  (repeat' split) <;> simp

@[simp] theorem putLine_memory (p g poisoned) : (s.putLine p g poisoned).memory = s.memory := by simp [State.putLine]
@[simp] theorem transmit_memory (p g poisoned) : (s.transmit p g poisoned).memory = s.memory := by simp [State.transmit]

@[simp] theorem takeSeq_memory (sub) : (s.takeSeq sub).2.2.memory = s.memory := by
  unfold State.takeSeq
  split <;> simp

@[simp] theorem originate_memory (o f) : (s.originate o f).1.memory = s.memory := by
  unfold State.originate
  split
  · rfl
  extract_lets cls f₁ sub ringP f₂
  split
  next seq at0 t hseq =>
  have ht : t.memory = s.memory := by
    rw [show t = (seq, at0, t).2.2 from rfl, ← hseq]
    split
    · simp
    · split <;> rfl
  extract_lets f₃ out del
  split
  next u hroute => simp [memory_of_fst hroute, ht]
  next u r hroute =>
  simp [memory_of_fst hroute, ht]

end

/-! ### Memory frames: notices -/

section
variable (s : State)

@[simp] theorem setBucket_memory (m b) : (s.setBucket m b).memory = s.memory := (rfl)
@[simp] theorem initPeak_memory : s.initPeak.memory = s.memory := (rfl)
@[simp] theorem notice_memory (unit m b) : (s.notice unit m b).memory = s.memory := by simp [State.notice]
@[simp] theorem notices_memory (unit mask b) : (s.notices unit mask b).memory = s.memory := by simp [State.notices]
@[simp] theorem fillBuckets_memory : s.fillBuckets.memory = s.memory := memory_foldl _ _ (fun t m => setBucket_memory t m _) s

end

/-! ### Memory frames: bays -/

section
variable (s : State)

@[simp] theorem setRx_memory (n f) : (s.setRx n f).memory = s.memory := (rfl)
@[simp] theorem setTx_memory (n f) : (s.setTx n f).memory = s.memory := (rfl)
@[simp] theorem putRx_memory (n f) : (s.putRx n f).memory = s.memory := by simp [State.putRx]

@[simp] theorem rxPush_memory (n w) : (s.rxPush n w).1.memory = s.memory := by
  unfold State.rxPush
  dsimp only
  (repeat' split) <;> simp

@[simp] theorem txPush_memory (n w) : (s.txPush n w).1.memory = s.memory := by
  unfold State.txPush
  dsimp only
  (repeat' split) <;> simp

@[simp] theorem countEcc_memory (n tx w) : (s.countEcc n tx w).memory = s.memory := by
  unfold State.countEcc
  dsimp only
  (repeat' split) <;> simp

theorem rxPop_memory {s : State} {n p} (h : s.rxPop n = some p) : p.1.memory = s.memory := by
  unfold State.rxPop at h
  split at h
  · cases h
    simp
  · cases h

theorem txPop_memory {s : State} {n p} (h : s.txPop n = some p) : p.1.memory = s.memory := by
  unfold State.txPop at h
  split at h
  · cases h
    simp
  · cases h

@[simp] theorem rxFlush_memory (n) : (s.rxFlush n).memory = s.memory := by simp [State.rxFlush]
@[simp] theorem txFlush_memory (n) : (s.txFlush n).memory = s.memory := by simp [State.txFlush]
@[simp] theorem reenablePin_memory (g) : (s.reenablePin g).memory = s.memory := by simp [State.reenablePin]
@[simp] theorem clearOverload_memory (n mask) : (s.clearOverload n mask).memory = s.memory := by simp [State.clearOverload]
@[simp] theorem forceBay_memory (n) : (s.forceBay n).memory = s.memory := by simp [State.forceBay]

end

/-! ### Memory frames: power ports -/

section
variable (s : State)

@[simp] theorem setPort_memory (k p) : (s.setPort k p).memory = s.memory := (rfl)
@[simp] theorem setGroup_memory (g x) : (s.setGroup g x).memory = s.memory := (rfl)
@[simp] theorem applyLplus_memory (k) : (s.applyLplus k).memory = s.memory := by simp [State.applyLplus]
@[simp] theorem setPg_memory (k b) : (s.setPg k b).memory = s.memory := by simp [State.setPg]
@[simp] theorem noteDamageCond_memory (k) : (s.noteDamageCond k).memory = s.memory := (rfl)
@[simp] theorem passOff_memory (k state) : (s.passOff k state).memory = s.memory := by simp [State.passOff]
@[simp] theorem startRamp_memory (k) : (s.startRamp k).memory = s.memory := by simp [State.startRamp]
@[simp] theorem refreshPort_memory (k) : (s.refreshPort k).memory = s.memory := by simp [State.refreshPort]
@[simp] theorem refreshPorts_memory : s.refreshPorts.memory = s.memory := by simp [State.refreshPorts]
@[simp] theorem trip_memory (k cause) : (s.trip k cause).memory = s.memory := by simp [State.trip]
@[simp] theorem clearLatch_memory (k) : (s.clearLatch k).memory = s.memory := by simp [State.clearLatch]
@[simp] theorem resetPort_memory (k) : (s.resetPort k).memory = s.memory := by simp [State.resetPort]
@[simp] theorem writePortCmd_memory (k on) : (s.writePortCmd k on).memory = s.memory := by simp [State.writePortCmd]
@[simp] theorem openIsolator_memory (g cause) : (s.openIsolator g cause).memory = s.memory := by simp [State.openIsolator]
@[simp] theorem startClose_memory (g) : (s.startClose g).memory = s.memory := (rfl)
@[simp] theorem letClose_memory (g) : (s.letClose g).memory = s.memory := by simp [State.letClose]
@[simp] theorem refreshIsolators_memory : s.refreshIsolators.memory = s.memory := by simp [State.refreshIsolators]

end

/-! ### Memory frames: time -/

section
variable (s : State)

@[simp] theorem setServo_memory (n) : (s.setServo n).memory = s.memory := (rfl)
@[simp] theorem beginHold_memory : s.beginHold.memory = s.memory := (rfl)
@[simp] theorem enterHoldover_memory (loss) : (s.enterHoldover loss).memory = s.memory := by simp [State.enterHoldover]
@[simp] theorem enterTimeHold_memory : s.enterTimeHold.memory = s.memory := (rfl)

@[simp] theorem timebaseLost_memory : s.timebaseLost.memory = s.memory := by
  unfold State.timebaseLost
  dsimp only
  (repeat' split) <;> simp

@[simp] theorem refreshClock_memory : s.refreshClock.memory = s.memory := by simp [State.refreshClock]
@[simp] theorem setTio_memory (k x) : (s.setTio k x).memory = s.memory := (rfl)

@[simp] theorem tioAction_memory (k action arg t) : (s.tioAction k action arg t).memory = s.memory := by
  unfold State.tioAction
  split <;> simp

@[simp] theorem setArmed_memory (i d) : (s.setArmed i d).memory = s.memory := (rfl)
@[simp] theorem recall_memory (i due) : (s.recall i due).memory = s.memory := by simp [State.recall]
@[simp] theorem dropLaunch_memory (i) : (s.dropLaunch i).memory = s.memory := (rfl)

@[simp] theorem handOver_memory (i due) : (s.handOver i due).memory = s.memory := by
  unfold State.handOver
  extract_lets f words t
  split
  · simp
  have ht : t.memory = s.memory := by simp [t]
  split
  next u h => simp [memory_of_fst h, ht]
  next u h => simp [memory_of_fst h, ht]

@[simp] theorem runSched_memory (i fields due late) : (s.runSched i fields due late).memory = s.memory := by
  unfold State.runSched
  dsimp only
  (repeat' split) <;> simp

@[simp] theorem pastSched_memory (i fields due) : (s.pastSched i fields due).memory = s.memory := by simp [State.pastSched]
@[simp] theorem countPast_memory : s.countPast.memory = s.memory := by simp [State.countPast]
@[simp] theorem pastRate_memory : s.pastRate.memory = s.memory := by simp [State.pastRate]
@[simp] theorem pastWake_memory : s.pastWake.memory = s.memory := by simp [State.pastWake]
@[simp] theorem pointOver_memory (apply i n) : (s.pointOver apply i n).memory = s.memory := by simp [State.pointOver]
@[simp] theorem passPoints_memory (old apply i) : (s.passPoints old apply i).memory = s.memory := by simp [State.passPoints]
@[simp] theorem retirePoints_memory (old) : (s.retirePoints old).memory = s.memory := by simp [State.retirePoints]

@[simp] theorem decidePassed_memory : s.decidePassed.memory = s.memory := by
  refine memory_foldl _ _ (fun t kv => ?_) s
  split
  · rfl
  · dsimp only
    split
    · rfl
    · split <;> simp

@[simp] theorem decideAt_memory (e c d) : (s.decideAt e c d).memory = s.memory := by
  unfold State.decideAt
  dsimp only
  (repeat' split) <;> simp

@[simp] theorem moveCounter_memory (d) : (s.moveCounter d).memory = s.memory := by simp [State.moveCounter]
@[simp] theorem stepCounter_memory (d) : (s.stepCounter d).memory = s.memory := by simp [State.stepCounter]

end

/-! ### Memory frames: power domains -/

section
variable (s : State)

@[simp] theorem endRisk_memory : s.endRisk.memory = s.memory := by simp [State.endRisk]
@[simp] theorem noteRisk_memory : s.noteRisk.memory = s.memory := by simp [State.noteRisk]
@[simp] theorem vsiSend_memory (q retry) : (s.vsiSend q retry).memory = s.memory := by simp [State.vsiSend]

@[simp] theorem vsiRequest_memory (q) : (s.vsiRequest q).memory = s.memory := by
  unfold State.vsiRequest
  split <;> simp

@[simp] theorem vsiSettle_memory (source) : (s.vsiSettle source).memory = s.memory := by
  unfold State.vsiSettle
  dsimp only
  (repeat' split) <;> simp

@[simp] theorem resetRingCore_memory : s.resetRingCore.memory = s.memory := by simp [State.resetRingCore]
@[simp] theorem gateDomain_memory (d) : (s.gateDomain d).memory = s.memory := by simp [State.gateDomain]

@[simp] theorem noteRefuser_memory (i code element aborted) : (s.noteRefuser i code element aborted).memory = s.memory :=
  by simp [State.noteRefuser]

end

/-! ### Memory frames: steam -/

section
variable (s : State)

@[simp] theorem setSteam_memory (p q) : (s.setSteam p q).memory = s.memory := (rfl)
@[simp] theorem queueSteam_memory (p m own) : (s.queueSteam p m own).memory = s.memory := by simp [State.queueSteam]

@[simp] theorem drainSteam_memory (p) : (s.drainSteam p).memory = s.memory := by
  unfold State.drainSteam
  split <;> simp

@[simp] theorem steamFirst_memory (p) : (s.steamFirst p).memory = s.memory := by simp [State.steamFirst]

@[simp] theorem sendSteam_memory (type dst body ports) : (s.sendSteam type dst body ports).memory = s.memory :=
  by simp [State.sendSteam]

@[simp] theorem report_memory (code data) : (s.report code data).memory = s.memory := by simp [State.report]

end

/-! ### Memory frames: modes -/

section
variable (s : State)

@[simp] theorem setScript_memory (i x) : (s.setScript i x).memory = s.memory := (rfl)
@[simp] theorem stopScript_memory (i) : (s.stopScript i).memory = s.memory := (rfl)
@[simp] theorem startScript_memory (i) : (s.startScript i).memory = s.memory := by simp [State.startScript]
@[simp] theorem setCpl_memory (state drive) : (s.setCpl state drive).memory = s.memory := (rfl)
@[simp] theorem releaseLine_memory (state) : (s.releaseLine state).memory = s.memory := (rfl)
@[simp] theorem setMode_memory (m row) : (s.setMode m row).memory = s.memory :=
  setMode_proj State.memory (fun _ => rfl) (fun _ _ => rfl) s m row
@[simp] theorem emptyCaddy_memory (counted) : (s.emptyCaddy counted).memory = s.memory := by simp [State.emptyCaddy]
@[simp] theorem clearSelfFault_memory : s.clearSelfFault.memory = s.memory := (rfl)
@[simp] theorem endVerification_memory : s.endVerification.memory = s.memory := by simp [State.endVerification]

@[simp] theorem startSteep_memory (src row) : (s.startSteep src row).memory = s.memory := by
  have h := memory_of_anchor (startSteep_anchor s src row)
  have hmode : (s.endVerification.setMode .steep row).memory = s.memory := by simp
  generalize s.endVerification.setMode .steep row = t at h hmode
  exact h.trans hmode

@[simp] theorem enterBoot_memory (row) : (s.enterBoot row).memory = s.memory := by
  unfold State.enterBoot
  extract_lets t
  have ht : t.memory = s.memory := by simp [t]
  clear_value t
  exact ht

@[simp] theorem leaveDoze_memory (m row) : (s.leaveDoze m row).memory = s.memory := by
  unfold State.leaveDoze
  split <;> simp

@[simp] theorem changeMode_memory (m row) : (s.changeMode m row).memory = s.memory := by simp [State.changeMode]
@[simp] theorem refuseMode_memory (who code reason) : (s.refuseMode who code reason).memory = s.memory := (rfl)

@[simp] theorem kettleSafe_memory (row) : (s.kettleSafe row).1.memory = s.memory := by
  unfold State.kettleSafe
  split <;> simp

@[simp] theorem ringOrMastersLost_memory : s.ringOrMastersLost.memory = s.memory := by
  unfold State.ringOrMastersLost
  split <;> simp

@[simp] theorem ringMonitor_memory : s.ringMonitor.memory = s.memory := by simp [State.ringMonitor]
@[simp] theorem askRing_memory : s.askRing.memory = s.memory := (rfl)
@[simp] theorem setLink_memory (p l) : (s.setLink p l).memory = s.memory := (rfl)
@[simp] theorem cutFrame_memory (p) : (s.cutFrame p).memory = s.memory := by simp [State.cutFrame]
@[simp] theorem noteRing_memory (p) : (s.noteRing p).memory = s.memory := by simp [State.noteRing]
@[simp] theorem linkDown_memory (p) : (s.linkDown p).memory = s.memory := by simp [State.linkDown]

end

/-! ### Memory frames: the Kettle -/

section
variable (s : State)

@[simp] theorem noteDone_memory : s.noteDone.memory = s.memory := (rfl)
@[simp] theorem startMasks_memory (src) : (s.startMasks src).memory = s.memory := by simp [State.startMasks]

theorem blockReset_memory {s : State} {src t} (h : s.blockReset src = some t) : t.memory = s.memory := by
  unfold State.blockReset at h
  split at h
  · dsimp only at h
    split at h <;> simp [← Option.some.inj h]
  split at h
  · simp [← Option.some.inj h]
  split at h
  · dsimp only at h
    split at h
    · cases h
    · simp [← Option.some.inj h]
  · extract_lets n at h
    split at h
    · cases h
    · simp [← Option.some.inj h]

@[simp] theorem react_memory (src) : (s.react src).1.memory = s.memory := by
  unfold State.react
  dsimp only
  split
  · split
    next t h => exact blockReset_memory h
    · rfl
  · simp
  · exact memory_foldl _ _ (fun _ _ => by split <;> simp) s
  · simp
  · rfl

@[simp] theorem recordEvent_memory (sev src data) : (s.recordEvent sev src data).1.memory = s.memory := by simp [State.recordEvent]
@[simp] theorem pulse_memory (sev) : (s.pulse sev).memory = s.memory := by simp [State.pulse]
@[simp] theorem noteSevere_memory (sev) : (s.noteSevere sev).memory = s.memory := by simp [State.noteSevere]

@[simp] theorem grant_memory (src data) : (s.grant src data).memory = s.memory := by
  unfold State.grant
  extract_lets sev reaction now
  split
  next t i hrecord =>
  extract_lets u v w
  have hv : v.memory = s.memory := by simp [v, u, memory_of_fst hrecord]
  have hw : w.memory = s.memory := by
    unfold w
    split <;> simp [hv]
  split
  · exact hv
  split
  · split <;> simp [hv]
  split
  · exact hw
  split
  next x h => simp [memory_of_fst h, hw]
  next x h => simp [memory_of_fst h, hw]

@[simp] theorem collectorFault_memory (cause i) : (s.collectorFault cause i).memory = s.memory := by simp [State.collectorFault]

@[simp] theorem checkCopy_memory (i w) : (s.checkCopy i w).memory = s.memory := by
  unfold State.checkCopy
  dsimp only
  (repeat' split) <;> simp

@[simp] theorem checkCopies_memory (i) : (s.checkCopies i).memory = s.memory := by simp [State.checkCopies]
@[simp] theorem freshCopies_memory (w) : (s.freshCopies w).memory = s.memory := (rfl)
@[simp] theorem takeEvent_memory (e) : (s.takeEvent e).memory = s.memory := by simp [State.takeEvent]

@[simp] theorem intake_memory (n) : (State.intake n s).memory = s.memory := by
  induction n generalizing s with
  | zero => rfl
  | succ n ih =>
    unfold State.intake
    split
    · rfl
    · split
      · rfl
      · exact (ih _).trans (memory_foldl _ _ (fun t e => takeEvent_memory t e) _)

@[simp] theorem ringSettle_memory (n) : (State.ringSettle n s).memory = s.memory := by
  induction n generalizing s with
  | zero => rfl
  | succ n ih =>
    unfold State.ringSettle
    split
    · simp [ih, intake_memory]
    · rfl

@[simp] theorem settle_memory : s.settle.memory = s.memory := by
  unfold State.settle
  simp

end

/-! ### Memory frames: views -/

section
variable (s : State)

@[simp] theorem setSettings_memory (b x) : (s.setSettings b x).memory = s.memory := by simp [State.setSettings]

end

/-! ### Memory frames: bit-streams -/

section
variable (s : State)

@[simp] theorem cfg_memory (f v) : (s.cfg f v).memory = s.memory := (rfl)
@[simp] theorem cfgWord_memory (a w) : (s.cfgWord a w).memory = s.memory := (rfl)
@[simp] theorem clearConfig_memory : s.clearConfig.memory = s.memory := by simp [State.clearConfig]
@[simp] theorem defaultSwitch_memory : s.defaultSwitch.memory = s.memory := by simp [State.defaultSwitch]
@[simp] theorem defaultTime_memory : s.defaultTime.memory = s.memory := (rfl)
@[simp] theorem defaultPorts_memory : s.defaultPorts.memory = s.memory := by simp [State.defaultPorts]
@[simp] theorem defaultStates_memory : s.defaultStates.memory = s.memory := by simp [State.defaultStates]

end

/-- A section that was applied left process image memory and flash alone. -/
def AppliedClean (s : State) (x : Applied) : Prop := ∀ t, x = .ok t → t.memory = s.memory

namespace AppliedClean

/-- A check stands before what is applied. -/
theorem check {s : State} {c : Bool} {k : Cause} {x : Applied} (h : AppliedClean s x) : AppliedClean s (orElseFail c k >>= fun _ => x) := by
  cases c
  · intro t ht
    have he : (.error k : Applied) = .ok t := ht
    exact absurd he nofun
  · exact h

theorem done {s t : State} (h : t.memory = s.memory) : AppliedClean s (pure t) := by
  intro u hu
  cases hu
  exact h

variable (s : State)

theorem applySafe (b) : AppliedClean s (s.applySafe b) := by
  unfold State.applySafe
  refine .check (.check ?_)
  extract_lets t
  have ht : t.memory = s.memory := by simp [t]
  exact .done (by simp [ht])

theorem applyPinCells (g b) : AppliedClean s (s.applyPinCells g b) := by
  unfold State.applyPinCells
  exact .check (.check (.done (by simp)))

theorem applyWindows (b) : AppliedClean s (s.applyWindows b) := by
  unfold State.applyWindows
  refine .check (.check ?_)
  extract_lets t u
  have hu : u.memory = s.memory := by simp [u, t]
  clear_value u
  exact .done (by simp [hu])

theorem applyRing (b) : AppliedClean s (s.applyRing b) := by
  unfold State.applyRing
  exact .check (.check (.done (by simp)))

theorem applyKettle (b) : AppliedClean s (s.applyKettle b) := by
  unfold State.applyKettle
  exact .check (.check (.done (by simp)))

theorem applyTuning (b) : AppliedClean s (s.applyTuning b) := by
  unfold State.applyTuning
  exact .check (.check (.done (by simp)))

theorem applySwitch (b) : AppliedClean s (s.applySwitch b) := by
  unfold State.applySwitch
  exact .check (.check (.done (by simp)))

theorem applySieve (b) : AppliedClean s (s.applySieve b) := by
  unfold State.applySieve
  exact .check (.check (.done (by simp)))

theorem applyTime (b) : AppliedClean s (s.applyTime b) := by
  unfold State.applyTime
  exact .check (.check (.done (by simp)))

theorem applyCyclic (b) : AppliedClean s (s.applyCyclic b) := by
  unfold State.applyCyclic
  exact .check (.check (.done (by simp)))

theorem applyEngines (g b) : AppliedClean s (s.applyEngines g b) := by
  unfold State.applyEngines
  exact .check (.check (.done (by simp)))

theorem applyPrograms (b) : AppliedClean s (s.applyPrograms b) := by
  unfold State.applyPrograms
  exact .check (.done (by simp))

theorem applyPorts (b) : AppliedClean s (s.applyPorts b) := by
  unfold State.applyPorts
  refine .check (.check (.check ?_))
  extract_lets t u v w
  have ht : t.memory = s.memory := by simp [t]
  have hu : u.memory = s.memory := by simp [u, ht]
  have hv : v.memory = s.memory := by simp [v, hu]
  exact .done (by simp [w, hv])

theorem applyStates (b) : AppliedClean s (s.applyStates b) := by
  unfold State.applyStates
  exact .check (.check (.done (by simp)))

theorem applySection (g : Image) (code : Nat) (b : List Byte) : AppliedClean s (s.applySection g code b) := by
  unfold State.applySection
  split
  · exact applySafe s b
  · exact applyPinCells s g b
  · exact applyWindows s b
  · exact applyRing s b
  · exact applyKettle s b
  · exact applyTuning s b
  · exact applySwitch s b
  · exact applySieve s b
  · exact applyTime s b
  · exact applyCyclic s b
  · exact applyEngines s g b
  · exact applyPrograms s b
  · exact applyPorts s b
  · exact applyStates s b

end AppliedClean

@[simp] theorem applyFrom_memory (s : State) (g : Image) (secs : List (Nat × List Byte)) : (State.applyFrom s g secs).1.memory = s.memory := by
  induction secs generalizing s with
  | nil => rfl
  | cons sec secs ih =>
    have h := AppliedClean.applySection s g sec.1 sec.2
    unfold State.applyFrom
    split
    · rfl
    next t ht => exact (ih t).trans (h t ht)

section
variable (s : State)

@[simp] theorem applyImage_memory (g) : (s.applyImage g).1.memory = s.memory := by
  simp [State.applyImage, applyFrom_memory]

end

/-! ### Memory frames: reads of registers and of memory -/

section
variable (s : State)

@[simp] theorem answered_memory (c data) : (s.answered c data).memory = s.memory := (rfl)
@[simp] theorem heard_memory : s.heard.memory = s.memory := (rfl)

@[simp] theorem heardFrom_memory (r) : (s.heardFrom r).memory = s.memory := by
  unfold State.heardFrom
  split <;> simp

@[simp] theorem countTxn_memory (r a c ev bytes n) : (s.countTxn r a c ev bytes n).memory = s.memory := by simp [State.countTxn]

@[simp] theorem asWrite_memory {s : State} {eff : State → State} (h : (eff s).memory = s.memory) (r a) :
    (s.asWrite r a eff).memory = s.memory := by
  unfold State.asWrite
  split
  · rfl
  split
  · simp
  · simp [h]

@[simp] theorem popRx_memory (n) : (s.popRx n).1.memory = s.memory := by
  unfold State.popRx
  split
  · rfl
  next t w d h =>
    have ht : t.memory = s.memory := rxPop_memory h
    simp [ht]

@[simp] theorem popCapture_memory (k) : (s.popCapture k).1.memory = s.memory := by
  unfold State.popCapture
  split <;> simp

@[simp] theorem popSample_memory : s.popSample.1.memory = s.memory := by
  unfold State.popSample
  split <;> simp

theorem popAt_memory {s : State} {a p} (h : s.popAt a = some p) : p.1.memory = s.memory := by
  unfold State.popAt at h
  split at h
  · cases h
    simp
  split at h
  · cases h
    simp
  split at h
  · cases h
    simp
  · cases h

@[simp] theorem readOne_memory (r a only) : (s.readOne r a only).1.memory = s.memory := by
  unfold State.readOne
  split
  · rfl
  split
  · rfl
  split
  next p h =>
    split
    · exact popAt_memory h
    · rfl
  · split
    · rfl
    · split <;> simp

@[simp] theorem readRegs_memory (r only n a) : (s.readRegs r only n a).1.memory = s.memory := by
  induction n generalizing s a with
  | zero => rfl
  | succ n ih => exact (ih _ _).trans (readOne_memory ..)

@[simp] theorem readAs_memory (r a) : (s.readAs r a).1.memory = s.memory := by
  unfold State.readAs
  split <;> simp

@[simp] theorem asRead_memory (r a) : (s.asRead r a).memory = s.memory := by simp [State.asRead]
@[simp] theorem noteMemEcc_memory (ws) : (s.noteMemEcc ws).memory = s.memory := by simp [State.noteMemEcc]
@[simp] theorem memRead_memory (o n) : (s.memRead o n).1.memory = s.memory := by simp [State.memRead]

@[simp] theorem noteFlashEcc_memory (ws) : (s.noteFlashEcc ws).memory = s.memory := by
  refine memory_foldl _ _ (fun t i => ?_) s
  split <;> simp

@[simp] theorem noteFlashRead_memory (o n) : (s.noteFlashRead o n).memory = s.memory := by simp [State.noteFlashRead]
@[simp] theorem noteComponent_memory (b at_ cap) : (s.noteComponent b at_ cap).memory = s.memory := by simp [State.noteComponent]
@[simp] theorem noteSource_memory (src) : (s.noteSource src).memory = s.memory := by simp [State.noteSource]

@[simp] theorem caddyRead_memory (o n) : (s.caddyRead o n).1.memory = s.memory := by
  unfold State.caddyRead
  dsimp only
  (repeat' split) <;> simp

@[simp] theorem flashWindowRead_memory (o n) : (s.flashWindowRead o n).1.memory = s.memory := by
  unfold State.flashWindowRead
  dsimp only
  (repeat' split) <;> simp

end

/-! ### Memory frames: tuning -/

section
variable (s : State)

@[simp] theorem refuseTune_memory (r a) : (s.refuseTune r a).memory = s.memory := (rfl)
@[simp] theorem tune_memory (r a xs) : (s.tune r a xs).memory = s.memory := by simp [State.tune]
@[simp] theorem tuneWhole_memory (r a xs okAfter) : (s.tuneWhole r a xs okAfter).memory = s.memory := by simp [State.tuneWhole]

end

/-! ### Memory frames: doze and hibernate -/

section
variable (s : State)

@[simp] theorem failReport_memory (code data) : (s.failReport code data).memory = s.memory := by simp [State.failReport]
@[simp] theorem failBoot_memory (code data) : (s.failBoot code data).memory = s.memory := by simp [State.failBoot]

@[simp] theorem vsiProgress_memory (own) : (s.vsiProgress own).memory = s.memory := by
  unfold State.vsiProgress
  split <;> simp

@[simp] theorem vsiNext_memory (own) : (s.vsiNext own).memory = s.memory := by
  unfold State.vsiNext
  dsimp only
  (repeat' split) <;> simp

@[simp] theorem vsiAcknowledge_memory : s.vsiAcknowledge.memory = s.memory := by
  unfold State.vsiAcknowledge
  split <;> simp

@[simp] theorem wakeFailed_memory : s.wakeFailed.memory = s.memory := by
  unfold State.wakeFailed
  split <;> simp

@[simp] theorem vsiFailed_memory (v) : (s.vsiFailed v).memory = s.memory := by
  unfold State.vsiFailed
  dsimp only
  (repeat' split) <;> simp

@[simp] theorem vsiTimeout_memory : s.vsiTimeout.memory = s.memory := by
  unfold State.vsiTimeout
  split <;> simp

@[simp] theorem writeWindow_memory (r v) : (s.writeWindow r v).memory = s.memory := by simp [State.writeWindow]
@[simp] theorem resumeLoop_memory (r) : (s.resumeLoop r).memory = s.memory := by simp [State.resumeLoop]
@[simp] theorem noteCanaries_memory (counts) : (s.noteCanaries counts).memory = s.memory := by simp [State.noteCanaries]
@[simp] theorem loopEvaluate_memory : s.loopEvaluate.memory = s.memory := by simp [State.loopEvaluate]
@[simp] theorem avsEval_memory (counts) : (s.avsEval counts).memory = s.memory := by simp [State.avsEval]
@[simp] theorem removePower_memory (d) : (s.removePower d).memory = s.memory := by simp [State.removePower]

@[simp] theorem enterHibernate_memory : s.enterHibernate.memory = s.memory := by
  unfold State.enterHibernate
  extract_lets target mv t u
  have hu : u.memory = s.memory := by simp [u, t]
  clear_value u
  exact hu

@[simp] theorem poweredDown_memory : s.poweredDown.memory = s.memory := by
  unfold State.poweredDown
  split <;> simp

@[simp] theorem noteWake_memory (w) : (s.noteWake w).memory = s.memory := (rfl)

@[simp] theorem beginWake_memory (h w) : (s.beginWake h w).memory = s.memory :=
  (vsiRequest_memory _ _).trans ((memory_power _ _).trans (noteWake_memory s w))

@[simp] theorem wake_memory (w) : (s.wake w).memory = s.memory := by
  unfold State.wake
  split
  · rfl
  split
  · split <;> simp
  · split
    · rfl
    · split
      · split <;> simp
      · rfl
  · rfl

@[simp] theorem wakePin_memory (j rising ns) : (s.wakePin j rising ns).memory = s.memory := by simp [State.wakePin]

@[simp] theorem wakeTime_memory : s.wakeTime.memory = s.memory := by
  unfold State.wakeTime
  split <;> simp

/-- The definition is opened by hand, here and where `resolve` decides again below: the kernel would check the equation of the definition
by evaluating `resolve`, which compares with numbers as large as 2 ^ 39. -/
@[simp] theorem armWake_memory (t) : (s.armWake t).memory = s.memory := by
  have h := Eq.refl State.armWake
  conv_rhs at h => delta State.armWake
  rw [h]
  beta_reduce
  extract_lets +onlyGivenNames u
  have hu : u.memory = s.memory := wr_memory ..
  clear_value u
  generalize resolve _ _ _ = x
  cases x
  · exact (wr_memory ..).trans ((wr_memory ..).trans ((memory_power _ _).trans hu))
  · exact (pastWake_memory _).trans hu
  · exact (pastWake_memory _).trans hu

@[simp] theorem cancelWake_memory : s.cancelWake.memory = s.memory := (rfl)
@[simp] theorem judgeTemp_memory (i old t) : (s.judgeTemp i old t).memory = s.memory := by simp [State.judgeTemp]
@[simp] theorem notePeak_memory (hub) : (s.notePeak hub).memory = s.memory := by simp [State.notePeak]

@[simp] theorem tempUpdate_memory (hub power regulator) : (s.tempUpdate hub power regulator).memory = s.memory :=
  by simp [State.tempUpdate]

end

/-! ### Memory frames: mode requests -/

section
variable (s : State)

@[simp] theorem notListed_memory (r code) : (s.notListed r code).memory = s.memory := (rfl)

theorem modeRequest_memory {s : State} {f} (hf : ∀ t ∈ f, t.memory = s.memory) (r code) : (s.modeRequest r code f).memory = s.memory := by
  unfold State.modeRequest
  cases f <;> simp_all

@[simp] theorem discardPending_memory : s.discardPending.memory = s.memory := (rfl)

@[simp] theorem requestBoot_memory (r) : (s.requestBoot r).memory = s.memory :=
  modeRequest_memory (fun t ht => by split at ht <;> aesop) r 0

@[simp] theorem requestSteep_memory (r) : (s.requestSteep r).memory = s.memory :=
  modeRequest_memory (fun t ht => by split at ht <;> aesop) r 1

@[simp] theorem requestRun_memory (r) : (s.requestRun r).memory = s.memory :=
  modeRequest_memory (fun t ht => by split at ht <;> aesop) r 3

@[simp] theorem proceed_memory (r) : (s.proceed r).memory = s.memory := by
  unfold State.proceed
  split <;> simp

@[simp] theorem requestSafe_memory (r) : (s.requestSafe r).memory = s.memory :=
  modeRequest_memory (fun t ht => by split at ht <;> aesop) r 6

@[simp] theorem dozeGo_memory (r groups quads) : (s.dozeGo r groups quads).memory = s.memory := by
  unfold State.dozeGo
  extract_lets ds
  split
  · simp
  split
  · refine (refuseMode_memory ..).trans (memory_foldl _ _ (fun t d => ?_) s)
    split <;> simp
  · simp

@[simp] theorem requestDoze_memory (r groups quads) : (s.requestDoze r groups quads).memory = s.memory :=
  modeRequest_memory (fun t ht => by split at ht <;> aesop) r 7

@[simp] theorem requestHibernate_memory (r) : (s.requestHibernate r).memory = s.memory :=
  modeRequest_memory (fun t ht => by split at ht <;> aesop) r 8

@[simp] theorem requestUpdate_memory (r) : (s.requestUpdate r).memory = s.memory :=
  modeRequest_memory (fun t ht => by split at ht <;> aesop) r 9

@[simp] theorem enterTest_memory (row) : (s.enterTest row).memory = s.memory := by simp [State.enterTest]

@[simp] theorem requestTest_memory (r) : (s.requestTest r).memory = s.memory :=
  modeRequest_memory (fun t ht => by split at ht <;> aesop) r 11

@[simp] theorem writeModeReq_memory (r v) : (s.writeModeReq r v).memory = s.memory := by
  unfold State.writeModeReq
  split
  case _ => simp
  case _ => simp
  case _ => simp
  case _ => simp
  case _ => simp
  case _ => simp
  case _ => simp
  case _ => simp
  case _ => exact modeRequest_memory (by simp) ..

@[simp] theorem jtagTest_memory : s.jtagTest.memory = s.memory := by
  unfold State.jtagTest
  split <;> simp

@[simp] theorem jtagEnd_memory : s.jtagEnd.memory = s.memory := by simp [State.jtagEnd]

end

/-! ### Memory frames: records in flash -/

section
variable (s : State)

@[simp] theorem writeBoot_memory (f) : (s.writeBoot f).memory = s.memory := (rfl)

@[simp] theorem appendSettings_memory (b epoch sealWord body key) : (s.appendSettings b epoch sealWord body key).memory = s.memory :=
  by simp [State.appendSettings]

@[simp] theorem writeSettings_memory (b c) : (s.writeSettings b c).memory = s.memory := by simp [State.writeSettings]

@[simp] theorem readRecords_memory : s.readRecords.memory = s.memory := by
  unfold State.readRecords
  dsimp only
  (repeat' split) <;> simp

@[simp] theorem commitDone_memory : s.commitDone.memory = s.memory := by
  unfold State.commitDone
  split <;> simp

end

/-! ### Memory frames: supplies -/

section
variable (s : State)

@[simp] theorem reserveCharged_memory : s.reserveCharged.memory = s.memory := (rfl)
@[simp] theorem usFall_memory : s.usFall.memory = s.memory := (rfl)
@[simp] theorem usReturn_memory : s.usReturn.memory = s.memory := by simp [State.usReturn]
@[simp] theorem supplyLoss_memory (g mv) : (s.supplyLoss g mv).memory = s.memory := by simp [State.supplyLoss]
@[simp] theorem supplyReturn_memory (g mv) : (s.supplyReturn g mv).memory = s.memory := by simp [State.supplyReturn]
@[simp] theorem closeDelayOver_memory (g) : (s.closeDelayOver g).memory = s.memory := by simp [State.closeDelayOver]
@[simp] theorem isolatorClosed_memory (g) : (s.isolatorClosed g).memory = s.memory := by simp [State.isolatorClosed]
@[simp] theorem setOverSince_memory (k v) : (s.setOverSince k v).memory = s.memory := (rfl)
@[simp] theorem groupCurrent_memory (k above) : (s.groupCurrent k above).memory = s.memory := (rfl)

@[simp] theorem groupOverload_memory (k) : (s.groupOverload k).memory = s.memory := by
  unfold State.groupOverload
  split <;> simp

@[simp] theorem portOverload_memory (g ma) : (s.portOverload g ma).memory = s.memory := by
  unfold State.portOverload
  split <;> simp

end

/-! ### Memory frames: the ring -/

section
variable (s : State)

@[simp] theorem noteRate_memory : s.noteRate.memory = s.memory := (rfl)
@[simp] theorem linkLoss_memory (p highBer) : (s.linkLoss p highBer).memory = s.memory := by simp [State.linkLoss]
@[simp] theorem noteMismatch_memory (p) : (s.noteMismatch p).memory = s.memory := by simp [State.noteMismatch]
@[simp] theorem blockLock_memory (p) : (s.blockLock p).memory = s.memory := by simp [State.blockLock]
@[simp] theorem linkUp_memory (p) : (s.linkUp p).memory = s.memory := by simp [State.linkUp]
@[simp] theorem huntSwitch_memory (p) : (s.huntSwitch p).memory = s.memory := by simp [State.huntSwitch]
@[simp] theorem checkRates_memory : s.checkRates.memory = s.memory := by simp [State.checkRates]
@[simp] theorem marginCheck_memory (p invalid) : (s.marginCheck p invalid).memory = s.memory := by simp [State.marginCheck]

@[simp] theorem writeRate_memory (n t) : (s.writeRate n t).memory = s.memory := by
  have h := Eq.refl State.writeRate
  conv_rhs at h => delta State.writeRate
  rw [h]
  beta_reduce
  split
  · rfl
  extract_lets +onlyGivenNames u
  have hu : u.memory = s.memory := wr_memory ..
  clear_value u
  generalize resolve _ _ _ = x
  cases x
  · exact (wr_memory ..).trans ((memory_ring _ _).trans hu)
  · exact (pastRate_memory _).trans hu
  · exact (pastRate_memory _).trans hu

@[simp] theorem rateSwitch_memory : s.rateSwitch.memory = s.memory := by
  unfold State.rateSwitch
  split <;> simp

@[simp] theorem writeRingCtrl_memory (r v) : (s.writeRingCtrl r v).memory = s.memory := by simp [State.writeRingCtrl]

@[simp] theorem txBack_memory (p) : (s.txBack p).memory = s.memory := by
  unfold State.txBack
  dsimp only
  (repeat' split) <;> simp

@[simp] theorem staleEntries_memory (lo hi) : (s.staleEntries lo hi).memory = s.memory := (rfl)
@[simp] theorem resetStrainer_memory : s.resetStrainer.memory = s.memory := (rfl)
@[simp] theorem adoptNode_memory (p n) : (s.adoptNode p n).memory = s.memory := by simp [State.adoptNode]
@[simp] theorem adoptOffer_memory (r p) : (s.adoptOffer r p).memory = s.memory := by simp [State.adoptOffer]
@[simp] theorem setRingLen_memory (p l) : (s.setRingLen p l).memory = s.memory := by simp [State.setRingLen]
@[simp] theorem takeOffer_memory (p n l) : (s.takeOffer p n l).memory = s.memory := by simp [State.takeOffer]
@[simp] theorem markActed_memory (p m) : (s.markActed p m).memory = s.memory := (rfl)
@[simp] theorem noteEast_memory (p) : (s.noteEast p).memory = s.memory := by simp [State.noteEast]

@[simp] theorem actEnum_memory (p m) : (s.actEnum p m).memory = s.memory := by
  unfold State.actEnum
  dsimp only
  (repeat' split) <;> simp

@[simp] theorem actWake_memory (p m) : (s.actWake p m).memory = s.memory := by simp [State.actWake]
@[simp] theorem beaconReturned_memory (p) : (s.beaconReturned p).memory = s.memory := by simp [State.beaconReturned]
@[simp] theorem ownReturned_memory (p m) : (s.ownReturned p m).memory = s.memory := by simp [State.ownReturned]
@[simp] theorem forwardSteam_memory (p m) : (s.forwardSteam p m).memory = s.memory := by simp [State.forwardSteam]
@[simp] theorem receiveSteam_memory (p m) : (s.receiveSteam p m).memory = s.memory := by simp [State.receiveSteam]
@[simp] theorem sendBeacon_memory : s.sendBeacon.memory = s.memory := by simp [State.sendBeacon]
@[simp] theorem sendEnum_memory : s.sendEnum.memory = s.memory := by simp [State.sendEnum]
@[simp] theorem closedTimeout_memory (sub) : (s.closedTimeout sub).memory = s.memory := by simp [State.closedTimeout]
@[simp] theorem modCpl_memory (f) : (s.modCpl f).memory = s.memory := (rfl)
@[simp] theorem heartbeat_memory (sub f) : (s.heartbeat sub f).memory = s.memory := by simp [State.heartbeat]
@[simp] theorem sendHeartbeats_memory : s.sendHeartbeats.memory = s.memory := by simp [State.sendHeartbeats]
@[simp] theorem becomeGateway_memory : s.becomeGateway.memory = s.memory := (rfl)
@[simp] theorem seeLine_memory (high) : (s.seeLine high).memory = s.memory := (rfl)
@[simp] theorem noteLine_memory : s.noteLine.memory = s.memory := (rfl)
@[simp] theorem evaluateCoupler_memory (high) : (s.evaluateCoupler high).memory = s.memory := by simp [State.evaluateCoupler]
@[simp] theorem backoffOver_memory : s.backoffOver.memory = s.memory := by simp [State.backoffOver]

@[simp] theorem lineFault_memory : s.lineFault.memory = s.memory := by
  unfold State.lineFault
  dsimp only
  (repeat' split) <;> simp

@[simp] theorem releaseGateway_memory (r) : (s.releaseGateway r).memory = s.memory := by simp [State.releaseGateway]

end

/-! ### Memory frames: boot and steep -/

section
variable (s : State)

@[simp] theorem noteSteepFailure_memory (src c) : (s.noteSteepFailure src c).memory = s.memory := (rfl)
@[simp] theorem steepFallback_memory (b) : (s.steepFallback b).memory = s.memory := by simp [State.steepFallback]
@[simp] theorem slotFailed_memory (b c) : (s.slotFailed b c).memory = s.memory := by simp [State.slotFailed]
@[simp] theorem steepFailed_memory (c) : (s.steepFailed c).memory = s.memory := by simp [State.steepFailed]

@[simp] theorem selectSlot_memory : s.selectSlot.2.memory = s.memory := by
  unfold State.selectSlot
  dsimp only
  (repeat' split) <;> simp

@[simp] theorem noteFirmware_memory (b) : (s.noteFirmware b).memory = s.memory := by simp [State.noteFirmware]
@[simp] theorem takeBody_memory (b) : (s.takeBody b).memory = s.memory := (rfl)

@[simp] theorem bootSlot_memory (b) : (s.bootSlot b).memory = s.memory := by
  unfold State.bootSlot
  dsimp only
  (repeat' split) <;> simp

@[simp] theorem selftestDone_memory : s.selftestDone.memory = s.memory := by simp [State.selftestDone]
@[simp] theorem selftestFail_memory : s.selftestFail.memory = s.memory := by simp [State.selftestFail]
@[simp] theorem reportDue_memory : s.reportDue.memory = s.memory := by simp [State.reportDue]

@[simp] theorem steepEnds_memory (g) : (s.steepEnds g).memory = s.memory := by
  unfold State.steepEnds
  extract_lets t u v hub w x
  have hv : v.memory = s.memory := by simp [v, u, t]
  have hw : w.memory = s.memory := (memory_hub v _).trans hv
  have hx : x.memory = s.memory := by simp [x, hw]
  simp [hx]

@[simp] theorem steepComplete_memory : s.steepComplete.memory = s.memory := by
  unfold State.steepComplete
  split
  · rfl
  extract_lets fault t
  have ht : t.memory = s.memory := by simp [t]
  clear_value fault
  cases fault with
  | some c => simp [ht]
  | none =>
    dsimp only
    split
    next u c h => simp [memory_of_fst h, ht]
    next u h => simp [memory_of_fst h, ht]

@[simp] theorem steepFail_memory (e) : (s.steepFail e).memory = s.memory := by
  unfold State.steepFail
  split
  · rfl
  extract_lets fault t
  have ht : t.memory = s.memory := by simp [t]
  clear_value fault
  cases fault with
  | some c => simp [ht]
  | none =>
    dsimp only
    split
    next u c h => simp [memory_of_fst h, ht]
    next u h => split <;> simp [memory_of_fst h, ht]

@[simp] theorem activate_memory : s.activate.memory = s.memory := by simp [State.activate]
@[simp] theorem windowClose_memory : s.windowClose.memory = s.memory := by simp [State.windowClose]

@[simp] theorem migrateSettings_memory : s.migrateSettings.memory = s.memory := by
  unfold State.migrateSettings
  dsimp only
  (repeat' split) <;> simp

@[simp] theorem migrationEnds_memory (ok) : (s.migrationEnds ok).memory = s.memory := by simp [State.migrationEnds]
@[simp] theorem trialFails_memory (cause) : (s.trialFails cause).memory = s.memory := by simp [State.trialFails]
@[simp] theorem confirmCheck_memory : s.confirmCheck.memory = s.memory := by simp [State.confirmCheck]
@[simp] theorem trialExpire_memory : s.trialExpire.memory = s.memory := by simp [State.trialExpire]
@[simp] theorem confirmed_memory : s.confirmed.memory = s.memory := by simp [State.confirmed]
@[simp] theorem abandon_memory (r) : (s.abandon r).memory = s.memory := by simp [State.abandon]

end

/-! ### Memory frames: updates -/

section
variable (s : State)

@[simp] theorem startCommit_memory (c) : (s.startCommit c).memory = s.memory := (rfl)
@[simp] theorem writeSeal_memory (r v) : (s.writeSeal r v).memory = s.memory := by simp [State.writeSeal]
@[simp] theorem writeEpoch_memory (r v) : (s.writeEpoch r v).memory = s.memory := by simp [State.writeEpoch]
@[simp] theorem writeChallenge_memory (r v) : (s.writeChallenge r v).memory = s.memory := by simp [State.writeChallenge]

@[simp] theorem sealReady_memory : s.sealReady.memory = s.memory := by
  unfold State.sealReady
  split
  · split
    · rfl
    · exact (memory_hub _ _).trans (setWord_memory ..)
  · rfl

@[simp] theorem writeTrial_memory (r v) : (s.writeTrial r v).memory = s.memory := by simp [State.writeTrial]
@[simp] theorem loadState_memory (n cause) : (s.loadState n cause).memory = s.memory := (rfl)
@[simp] theorem openLoad_memory (r received) : (s.openLoad r received).memory = s.memory := (rfl)
@[simp] theorem closeLoad_memory : s.closeLoad.memory = s.memory := (rfl)
@[simp] theorem loadVerify_memory (r) : (s.loadVerify r).memory = s.memory := by simp [State.loadVerify]

@[simp] theorem loadVerifyDone_memory : s.loadVerifyDone.memory = s.memory := by
  unfold State.loadVerifyDone
  dsimp only
  (repeat' split) <;> simp

@[simp] theorem writeLoadBuf_memory (r i v) : (s.writeLoadBuf r i v).memory = s.memory := by simp [State.writeLoadBuf]

@[simp] theorem writeLoadPut_memory (r block words) : (s.writeLoadPut r block words).memory = s.memory :=
  by simp [State.writeLoadPut]

@[simp] theorem journalChunk_memory (c) : (s.journalChunk c).memory = s.memory := by simp [State.journalChunk]
@[simp] theorem eraseDone_memory : s.eraseDone.memory = s.memory := by simp [State.eraseDone]
@[simp] theorem notePackage_memory : s.notePackage.memory = s.memory := by simp [State.notePackage]

@[simp] theorem noteBuild_memory (p) : (s.noteBuild p).memory = s.memory := by
  refine (memory_foldl _ _ (fun t r => ?_) _).trans (notePackage_memory s)
  cases r <;> simp

@[simp] theorem updVerify_memory (r) : (s.updVerify r).memory = s.memory := by simp [State.updVerify]
@[simp] theorem updFails_memory (cause) : (s.updFails cause).memory = s.memory := (rfl)
@[simp] theorem updCancel_memory (r) : (s.updCancel r).memory = s.memory := by simp [State.updCancel]

end

/-! ### Memory frames: cyclic exchange -/

section
variable (s : State)

@[simp] theorem setPoint_memory (i w) : (s.setPoint i w).memory = s.memory := (rfl)

@[simp] theorem cupRead_memory (o n) : (s.cupRead o n).1.memory = s.memory := by
  unfold State.cupRead
  dsimp only
  (repeat' split) <;> simp

@[simp] theorem snapshotCup_memory (n j) : (s.snapshotCup n j).memory = s.memory := by
  unfold State.snapshotCup
  dsimp only
  (repeat' split) <;> simp

@[simp] theorem sampleStream_memory (i) : (s.sampleStream i).memory = s.memory := by simp [State.sampleStream]

@[simp] theorem snapshotsDone_memory (i) : (s.snapshotsDone i).memory = s.memory :=
  memory_foldl _ _ (fun t _ => memory_cyc t _) s

@[simp] theorem cupDrive_memory (n p d) : (s.cupDrive n p d).memory = s.memory := by simp [State.cupDrive]
@[simp] theorem tripCup_memory (i j) : (s.tripCup i j).memory = s.memory := by simp [State.tripCup]
@[simp] theorem missCup_memory (i j) : (s.missCup i j).memory = s.memory := by simp [State.missCup]
@[simp] theorem badPour_memory (f p) : (s.badPour f p).memory = s.memory := by simp [State.badPour]
@[simp] theorem lateCup_memory (i j) : (s.lateCup i j).memory = s.memory := by simp [State.lateCup]

@[simp] theorem cupSlack_memory (a) : (s.cupSlack a).memory = s.memory := by
  unfold State.cupSlack
  split <;> simp

@[simp] theorem exchange_memory (f start) : (s.exchange f start).1.memory = s.memory := by
  unfold State.exchange
  extract_lets i
  refine List.foldlRecOn (motive := fun acc : State × Frame => acc.1.memory = s.memory) _ _ rfl fun acc hacc j _ => ?_
  split
  next shot late _ =>
  extract_lets t
  have ht : t.memory = s.memory := by
    unfold t
    cases shot <;> split <;> simp [hacc]
  split <;> exact ht

@[simp] theorem addCommit_memory (i p n cups) : (s.addCommit i p n cups).memory = s.memory := (rfl)
@[simp] theorem commitPour_memory (f p tail) : (s.commitPour f p tail).memory = s.memory := by simp [State.commitPour]

@[simp] theorem noteArrival_memory (f p start tail) : (s.noteArrival f p start tail).memory = s.memory := by
  unfold State.noteArrival
  extract_lets i n key r t u
  have ht : t.memory = s.memory := by
    simp only [t]
    split
    · split <;> simp
    · rfl
  have hu : u.memory = s.memory := by
    simp only [u]
    split
    · exact (wrIntSat_memory ..).trans ht
    · exact ht
  clear_value u
  split
  · exact hu
  · exact (memory_cyc u _).trans hu

@[simp] theorem sendReturn_memory (g) : (s.sendReturn g).memory = s.memory := by simp [State.sendReturn]

end

/-! ### Memory frames: commands of the switch -/

section
variable (s : State)

@[simp] theorem setStrEntry_memory (k e) : (s.setStrEntry k e).memory = s.memory := (rfl)
@[simp] theorem strain_memory (i f) : (s.strain i f).1.memory = s.memory := by simp [State.strain]
@[simp] theorem dropFrame_memory (p c) : (s.dropFrame p c).memory = s.memory := by simp [State.dropFrame]
@[simp] theorem startedEarly_memory (t q rx) : (s.startedEarly t q rx).memory = t.memory := by simp [State.startedEarly]

@[simp] theorem readOut_memory (f p) : (s.readOut f p).1.memory = s.memory := by
  unfold State.readOut
  dsimp only
  (repeat' split) <;> simp

@[simp] theorem startFrame_memory (f p bad) : (s.startFrame f p bad).memory = s.memory := by simp [State.startFrame]
@[simp] theorem cut_memory (f q bad) : (s.cut f q bad).memory = s.memory := by simp [State.cut]

@[simp] theorem takePour_memory (rx) : (s.takePour rx).1.memory = s.memory := by
  unfold State.takePour
  dsimp only
  (repeat' split) <;> simp

@[simp] theorem strainCopy_memory (rx) : (s.strainCopy rx).1.memory = s.memory := by
  unfold State.strainCopy
  split <;> simp

@[simp] theorem choose_memory (rx good) : (s.choose rx good).1.memory = s.memory := by
  unfold State.choose
  dsimp only
  (repeat' split) <;> simp

@[simp] theorem deferFrame_memory (f q) : (s.deferFrame f q).memory = s.memory := by simp [State.deferFrame]
@[simp] theorem cutGood_memory (f rx) : (s.cutGood f rx).memory = s.memory := by simp [State.cutGood]
@[simp] theorem cutBad_memory (f rx) : (s.cutBad f rx).memory = s.memory := by simp [State.cutBad]

@[simp] theorem accept_memory (rx good) : (s.accept rx good).memory = s.memory := by
  unfold State.accept
  dsimp only
  (repeat' split) <;> simp

@[simp] theorem retime_memory (rx) : (s.retime rx).memory = s.memory := by simp [State.retime]

@[simp] theorem receiveFrame_memory (rx) : (s.receiveFrame rx).memory = s.memory := by
  unfold State.receiveFrame
  dsimp only
  (repeat' split) <;> simp

@[simp] theorem launchSent_memory (i due p) : (s.launchSent i due p).memory = s.memory := by simp [State.launchSent]

@[simp] theorem toTarget_memory (f) : (s.toTarget f).memory = s.memory := by
  unfold State.toTarget
  split <;> simp

@[simp] theorem loopFrame_memory (f) : (s.loopFrame f).memory = s.memory := by
  unfold State.loopFrame
  extract_lets g del
  split
  next t h => simp [memory_of_fst h]
  next t r h => simp [memory_of_fst h]

@[simp] theorem sendFrame_memory (f p bad) : (s.sendFrame f p bad).memory = s.memory := by
  unfold State.sendFrame
  split <;> simp

@[simp] theorem noteFrameEcc_memory (f) : (s.noteFrameEcc f).memory = s.memory := by simp [State.noteFrameEcc]

@[simp] theorem startNext_memory (n p) : (State.startNext n s p).memory = s.memory := by
  induction n generalizing s with
  | zero => rfl
  | succ n ih =>
    unfold State.startNext
    split
    · rfl
    dsimp only
    (repeat' split) <;> simp [ih]

@[simp] theorem holdExpire_memory (p) : (s.holdExpire p).memory = s.memory := by
  unfold State.holdExpire
  split <;> simp

@[simp] theorem reseqExpire_memory (p id) : (s.reseqExpire p id).memory = s.memory := by
  unfold State.reseqExpire
  split
  · rfl
  split
  · split <;> simp
  · rfl

@[simp] theorem reseqAge_memory (p src flow) : (s.reseqAge p src flow).memory = s.memory := (rfl)
@[simp] theorem freeLeaf_memory (l) : (s.freeLeaf l).memory = s.memory := (rfl)

@[simp] theorem audit_memory (doubleFreed) : (s.audit doubleFreed).memory = s.memory := by
  unfold State.audit
  dsimp only
  (repeat' split) <;> simp

@[simp] theorem guardOpen_memory (p) : (s.guardOpen p).memory = s.memory := by simp [State.guardOpen]
@[simp] theorem guardTimeout_memory (p) : (s.guardTimeout p).memory = s.memory := (rfl)

end

/-! ### Memory frames: commands of time -/

section
variable (s : State)

@[simp] theorem setPdelay_memory (p d) : (s.setPdelay p d).memory = s.memory := (rfl)

@[simp] theorem sendPeer_memory (p dst msg tseq arrived) : (s.sendPeer p dst msg tseq arrived).memory = s.memory := by
  unfold State.sendPeer
  extract_lets h f
  split
  next t h => simp [memory_of_fst h]
  next t r h => simp [memory_of_fst h]

@[simp] theorem pdreqReceived_memory (p f stamp) : (s.pdreqReceived p f stamp).memory = s.memory := by simp [State.pdreqReceived]
@[simp] theorem pdelaySend_memory (p) : (s.pdelaySend p).memory = s.memory := by simp [State.pdelaySend]

@[simp] theorem pdrespReceived_memory (p f stamp) : (s.pdrespReceived p f stamp).memory = s.memory := by
  unfold State.pdrespReceived
  dsimp only
  (repeat' split) <;> simp

@[simp] theorem pdelayTimeout_memory (p) : (s.pdelayTimeout p).memory = s.memory := by simp [State.pdelayTimeout]
@[simp] theorem notePrimary_memory (n) : (s.notePrimary n).memory = s.memory := by simp [State.notePrimary]
@[simp] theorem setRate_memory (v) : (s.setRate v).memory = s.memory := (rfl)
@[simp] theorem steer_memory : s.steer.memory = s.memory := (rfl)

@[simp] theorem measureRate_memory (o stamp) : (s.measureRate o stamp).memory = s.memory := by
  unfold State.measureRate
  split <;> simp

@[simp] theorem setCounter_memory (o) : (s.setCounter o).memory = s.memory := by simp [State.setCounter]
@[simp] theorem setRun_memory (n) : (s.setRun n).memory = s.memory := (rfl)
@[simp] theorem servoJump_memory (o) : (s.servoJump o).memory = s.memory := by simp [State.servoJump]

@[simp] theorem servoStep_memory (o stamp) : (s.servoStep o stamp).memory = s.memory := by
  unfold State.servoStep
  split <;> simp

@[simp] theorem acceptSync_memory (p f stamp) : (s.acceptSync p f stamp).memory = s.memory := by simp [State.acceptSync]

@[simp] theorem syncReceived_memory (p f stamp) : (s.syncReceived p f stamp).memory = s.memory := by
  unfold State.syncReceived
  dsimp only
  (repeat' split) <;> simp

@[simp] theorem syncTimeout_memory : s.syncTimeout.memory = s.memory := by
  unfold State.syncTimeout
  split
  · rfl
  split
  · exact (memory_time _ _).trans ((wr_memory ..).trans (bump_memory ..))
  · split
    · simp
    · rfl

@[simp] theorem timeStep_memory (r) : (s.timeStep r).memory = s.memory := by simp [State.timeStep]
@[simp] theorem resonatorFail_memory : s.resonatorFail.memory = s.memory := by simp [State.resonatorFail]
@[simp] theorem resonatorReady_memory : s.resonatorReady.memory = s.memory := by simp [State.resonatorReady]
@[simp] theorem resonatorTimeout_memory : s.resonatorTimeout.memory = s.memory := by simp [State.resonatorTimeout]
@[simp] theorem timebaseLoss_memory : s.timebaseLoss.memory = s.memory := by simp [State.timebaseLoss]
@[simp] theorem gatewaySync_memory : s.gatewaySync.memory = s.memory := by simp [State.gatewaySync]
@[simp] theorem gptpSync_memory (p) : (s.gptpSync p).memory = s.memory := by simp [State.gptpSync]
@[simp] theorem gptpAnnounce_memory (p) : (s.gptpAnnounce p).memory = s.memory := by simp [State.gptpAnnounce]
@[simp] theorem setSched_memory (i x) : (s.setSched i x).memory = s.memory := (rfl)

@[simp] theorem disarm_memory (i) : (s.disarm i).memory = s.memory := by
  unfold State.disarm
  split <;> simp

@[simp] theorem armSlot_memory (fields due) : (s.armSlot fields due).memory = s.memory := by simp [State.armSlot]

@[simp] theorem schedArm_memory (i t) : (s.schedArm i t).memory = s.memory := by
  unfold State.schedArm
  dsimp only
  (repeat' split) <;> simp

@[simp] theorem schedCancel_memory (i) : (s.schedCancel i).memory = s.memory := by simp [State.schedCancel]
@[simp] theorem schedDue_memory (i) : (s.schedDue i).memory = s.memory := by simp [State.schedDue]
@[simp] theorem launchLoad_memory (i words) : (s.launchLoad i words).memory = s.memory := (rfl)
@[simp] theorem writeLaunchBuf_memory (i v) : (s.writeLaunchBuf i v).memory = s.memory := by simp [State.writeLaunchBuf]

@[simp] theorem launchHandover_memory (i) : (s.launchHandover i).memory = s.memory := by
  unfold State.launchHandover
  split <;> simp

@[simp] theorem periodicEdge_memory (k) : (s.periodicEdge k).memory = s.memory := by
  unfold State.periodicEdge
  dsimp only
  (repeat' split) <;> simp

@[simp] theorem pulseOver_memory (k) : (s.pulseOver k).memory = s.memory := by
  unfold State.pulseOver
  split <;> simp

@[simp] theorem storeCapture_memory (k rising stamp) : (s.storeCapture k rising stamp).memory = s.memory :=
  by simp [State.storeCapture]

@[simp] theorem capture_memory (k rising stamp) : (s.capture k rising stamp).memory = s.memory := by simp [State.capture]
@[simp] theorem writePeriod_memory (r k v) : (s.writePeriod r k v).memory = s.memory := by simp [State.writePeriod]

end

/-! ### Memory frames: commands of bays -/

section
variable (s : State)

@[simp] theorem acceptEdge_memory (g level crossing) : (s.acceptEdge g level crossing).memory = s.memory :=
  by simp [State.acceptEdge]

@[simp] theorem currentLimit_memory (g on) : (s.currentLimit g on).memory = s.memory := by simp [State.currentLimit]
@[simp] theorem tripPin_memory (g) : (s.tripPin g).memory = s.memory := by simp [State.tripPin]
@[simp] theorem countOverlap_memory (n block) : (s.countOverlap n block).memory = s.memory := by simp [State.countOverlap]

@[simp] theorem overloadClear_memory (n mask hwSet) : (s.overloadClear n mask hwSet).memory = s.memory :=
  by simp [State.overloadClear]

@[simp] theorem writeBayOut_memory (n v) : (s.writeBayOut n v).memory = s.memory := by simp [State.writeBayOut]

@[simp] theorem pushReg_memory (n v) : (s.pushReg n v).memory = s.memory := by
  unfold State.pushReg
  extract_lets tags t
  have ht : t.memory = s.memory := wr_memory ..
  split
  next u h => simp [memory_of_fst h, ht]
  next u r _ h => simp [memory_of_fst h, ht]

@[simp] theorem takeSegment_memory (k n) : (State.takeSegment k s n).1.memory = s.memory := by
  induction k generalizing s with
  | zero => rfl
  | succ k ih =>
    unfold State.takeSegment
    split
    · rfl
    next t _ d h =>
    split
    · exact rxPop_memory h
    · exact (ih t).trans (rxPop_memory h)

@[simp] theorem sendSegment_memory (n) : (s.sendSegment n).memory = s.memory := by
  unfold State.sendSegment
  split
  · rfl
  split
  next t ws h =>
  have ht : t.memory = s.memory := (memory_of_fst h).trans (takeSegment_memory ..)
  simp [ht]

@[simp] theorem putSegment_memory (g) : (s.putSegment g).memory = s.memory := by simp [State.putSegment]
@[simp] theorem dataFrame_memory (p f) : (s.dataFrame p f).memory = s.memory := by simp [State.dataFrame]

@[simp] theorem segmentPush_memory (p) : (s.segmentPush p).memory = s.memory := by
  unfold State.segmentPush
  split <;> simp

@[simp] theorem segmentTimeout_memory (p) : (s.segmentTimeout p).memory = s.memory := by
  unfold State.segmentTimeout
  split <;> simp

end

/-! ### Memory frames: operations -/

section
variable (s : State)

theorem pickSlot_memory {s : State} {k t} (h : s.pickSlot = some (k, t)) : t.memory = s.memory := by
  unfold State.pickSlot at h
  split at h
  · cases h
  · simp only [Option.some.injEq, Prod.mk.injEq] at h
    obtain ⟨-, rfl⟩ := h
    simp

@[simp] theorem sendRequest_memory (m type slot addr data) : (s.sendRequest m type slot addr data).memory = s.memory :=
  by simp [State.sendRequest]

end

/-! ### Memory frames: instructions -/

section
variable (s : State)

@[simp] theorem runWait_memory (e c reg count) : (runWait e c reg count s).1.memory = s.memory := (rfl)

@[simp] theorem runAt_memory (e c onpast src phase) : (runAt e c onpast src phase s).1.memory = s.memory := by
  have h := Eq.refl runAt
  conv_rhs at h => delta runAt
  rw [h]
  beta_reduce
  extract_lets +onlyGivenNames x p late
  have hlate : (late s).memory = s.memory := bump_memory ..
  clear_value late
  split
  · split <;> rfl
  split
  · rfl
  generalize resolve s.now _ _ = y
  cases y
  · rfl
  · exact hlate
  · dsimp only
    split
    · exact (setCtx_memory ..).trans hlate
    · exact hlate

@[simp] theorem runOut_memory (e c bank rel mask value k) : (runOut e c bank rel mask value k s).1.memory = s.memory := by simp [runOut]

@[simp] theorem runIn_memory (e c first nm1 k) : (runIn e c first nm1 k s).1.memory = s.memory := by
  unfold runIn
  dsimp only
  (repeat' split) <;> simp

@[simp] theorem runShift_memory (e c inLane nm1 stuff k) : (runShift e c inLane nm1 stuff k s).1.memory = s.memory := by
  unfold runShift
  dsimp only
  (repeat' split) <;> simp

@[simp] theorem runWpin_memory (e c slot cond timeout) : (runWpin e c slot cond timeout s).1.memory = s.memory := by
  unfold runWpin
  dsimp only
  (repeat' split) <;> simp

@[simp] theorem runStamp_memory (e c slot bay err eop sop load nowait) :
    (runStamp e c slot bay err eop sop load nowait s).1.memory = s.memory := by
  unfold runStamp
  split
  · rfl
  split
  · rfl
  extract_lets x w x' t
  have ht : t.memory = s.memory := setCtx_memory ..
  split
  · split <;> simp [ht]
  split
  · exact ht
  split
  · exact ht
  next u _ _ h => simp [memory_of_fst h, ht]

@[simp] theorem runJmp_memory (e c cond operand target) : (runJmp e c cond operand target s).1.memory = s.memory := by
  unfold runJmp
  dsimp only
  (repeat' split) <;> simp

@[simp] theorem runSet_memory (e c dest imm) : (runSet e c dest imm s).1.memory = s.memory := by
  unfold runSet
  dsimp only
  (repeat' split) <;> simp

@[simp] theorem runQput_memory (e c err eop sop keep bay nowait) : (runQput e c err eop sop keep bay nowait s).1.memory = s.memory := by
  unfold runQput
  dsimp only
  split
  · rfl
  split
  · rfl
  split
  · rfl
  split
  · rfl
  next u _ _ h => simp [memory_of_fst h]

@[simp] theorem runQget_memory (e c bay nowait) : (runQget e c bay nowait s).1.memory = s.memory := by
  unfold runQget
  split
  · rfl
  split
  · rfl
  split
  · rfl
  next u _ _ h => exact (setCtx_memory ..).trans (txPop_memory h)

@[simp] theorem runFlush_memory (e bay tx) : (runFlush e bay tx s).1.memory = s.memory := by simp [runFlush]
@[simp] theorem runAlu_memory (e c op c1 other imm) : (runAlu e c op c1 other imm s).1.memory = s.memory := (rfl)

@[simp] theorem runCrc_memory (e c out n poly) : (runCrc e c out n poly s).1.memory = s.memory := by
  unfold runCrc
  dsimp only
  (repeat' split) <;> simp

@[simp] theorem runIns_memory (e c c1 out) : (runIns e c c1 out s).1.memory = s.memory := by
  unfold runIns
  dsimp only
  (repeat' split) <;> simp

@[simp] theorem runExtr_memory (e c c1 out) : (runExtr e c c1 out s).1.memory = s.memory := by
  unfold runExtr
  dsimp only
  (repeat' split) <;> simp

@[simp] theorem runSignal_memory (e c engine context flag) : (runSignal e c engine context flag s).1.memory = s.memory :=
  by simp [runSignal]

@[simp] theorem runAwait_memory (e c adopt flag) : (runAwait e c adopt flag s).1.memory = s.memory := by
  unfold runAwait
  dsimp only
  (repeat' split) <;> simp

@[simp] theorem runNote_memory (e c kettle masters code) : (runNote e c kettle masters code s).1.memory = s.memory := by
  unfold runNote
  split <;> simp

@[simp] theorem runImage_memory (e c out idx word) : (runImage e c out idx word s).1.memory = s.memory := by
  unfold runImage
  dsimp only
  (repeat' split) <;> simp

@[simp] theorem ldmAccess_memory (e c out idx word) : (ldmAccess e c out idx word s).1.memory = s.memory := by
  unfold ldmAccess
  split
  next t bs h => simp [memory_of_fst h]
  next t bs h => simp [memory_of_fst h]

@[simp] theorem runRq_memory (e c master type) : (runRq e c master type s).1.memory = s.memory := by
  unfold runRq
  extract_lets x
  split
  · rfl
  split
  · simp
  split
  · rfl
  next k t h =>
  have ht : t.memory = s.memory := pickSlot_memory h
  simp only [memory_fst_ite, setCtx_memory, memory_mk, sendRequest_memory, ht, ite_self]

@[simp] theorem runGett_memory (e c counter) : (runGett e c counter s).1.memory = s.memory := by
  unfold runGett
  dsimp only
  (repeat' split) <;> simp

@[simp] theorem runRdreg_memory (e c) : (runRdreg e c s).1.memory = s.memory := by
  unfold runRdreg
  dsimp only
  (repeat' split) <;> simp

@[simp] theorem rdregAccess_memory (e c) : (rdregAccess e c s).1.memory = s.memory := by
  unfold rdregAccess
  dsimp only
  (repeat' split) <;> simp

@[simp] theorem runInsn_memory (e c i) : (runInsn e c i s).1.memory = s.memory := by
  unfold runInsn
  split <;> simp

@[simp] theorem issue_memory (e c opcode place) : (s.issue e c opcode place).memory = s.memory :=
  issueAs_memory (fun i x h => by
    split at h
    · cases h
      simp
    · cases h) e c opcode

end

/-! ### Memory frames: commands of engines -/

section
variable (s : State)

@[simp] theorem writeInfCtrl_memory (e start stop) : (s.writeInfCtrl e start stop).memory = s.memory := by simp [State.writeInfCtrl]
@[simp] theorem writeProg_memory (e i v) : (s.writeProg e i v).memory = s.memory := by simp [State.writeProg]
@[simp] theorem patchProg_memory (r e i v) : (s.patchProg r e i v).memory = s.memory := by simp [State.patchProg]

@[simp] theorem pinsEffect_memory (e c) : (s.pinsEffect e c).memory = s.memory := by
  unfold State.pinsEffect
  dsimp only
  (repeat' split) <;> simp

@[simp] theorem sampleEffect_memory (e c) : (s.sampleEffect e c).memory = s.memory := by
  unfold State.sampleEffect
  dsimp only
  (repeat' split) <;> simp

@[simp] theorem laneDrive_memory (e c k high t) : (s.laneDrive e c k high t).memory = s.memory := by
  unfold State.laneDrive
  split <;> simp

@[simp] theorem outBitEffect_memory (e c) : (s.outBitEffect e c).memory = s.memory := by
  unfold State.outBitEffect
  dsimp only
  (repeat' split) <;> simp

@[simp] theorem inBitEffect_memory (e c) : (s.inBitEffect e c).memory = s.memory := by
  unfold State.inBitEffect
  dsimp only
  (repeat' split) <;> simp

@[simp] theorem clockStep_memory (e c inLane) : (s.clockStep e c inLane).memory = s.memory := by
  unfold State.clockStep
  dsimp only
  (repeat' split) <;> simp

@[simp] theorem clockEffect_memory (e c) : (s.clockEffect e c).memory = s.memory := by simp [State.clockEffect]

@[simp] theorem nextShift_memory (e c inLane fin) : (s.nextShift e c inLane fin).memory = s.memory := by
  unfold State.nextShift
  dsimp only
  (repeat' split) <;> simp

@[simp] theorem outShiftEnd_memory (e c) : (s.outShiftEnd e c).memory = s.memory := by
  unfold State.outShiftEnd
  dsimp only
  (repeat' split) <;> simp

@[simp] theorem inShiftEnd_memory (e c) : (s.inShiftEnd e c).memory = s.memory := by
  unfold State.inShiftEnd
  dsimp only
  (repeat' split) <;> simp

@[simp] theorem wpinEvent_memory (e c) : (s.wpinEvent e c).memory = s.memory := by
  unfold State.wpinEvent
  dsimp only
  (repeat' split) <;> simp

@[simp] theorem wpinTimeout_memory (e c) : (s.wpinTimeout e c).memory = s.memory := by
  unfold State.wpinTimeout
  split <;> simp

@[simp] theorem refetch_memory (e c) : (s.refetch e c).memory = s.memory := by simp [State.refetch]

end

/-! ### Memory frames: commands of the kettle -/

section
variable (s : State)

@[simp] theorem copySource_memory (w) : (s.copySource w).2.memory = s.memory := by
  unfold State.copySource
  dsimp only
  (repeat' split) <;> simp

@[simp] theorem kettleScrub_memory (corrected bad) : (s.kettleScrub corrected bad).memory = s.memory := by
  unfold State.kettleScrub
  dsimp only
  (repeat' split) <;> simp

@[simp] theorem maskExpire_memory (i) : (s.maskExpire i).memory = s.memory := (rfl)

@[simp] theorem errPulseOver_memory : s.errPulseOver.memory = s.memory := by
  unfold State.errPulseOver
  split <;> simp

@[simp] theorem endForce_memory (mask) : (s.endForce mask).memory = s.memory := by simp [State.endForce]

end

/-! ### Memory frames: the performance monitor -/

section
variable (s : State)

@[simp] theorem pmcClear_memory : s.pmcClear.memory = s.memory := by simp [State.pmcClear]

@[simp] theorem pmcSnap_memory : s.pmcSnap.memory = s.memory := by
  unfold State.pmcSnap
  split
  · rfl
  · refine (memory_pmc _ _).trans ((wr_memory ..).trans (memory_foldl _ _ (fun _ _ => wr_memory ..) s))

@[simp] theorem clearFirst_memory : s.clearFirst.2.memory = s.memory := (rfl)

@[simp] theorem writePmcCtrl_memory (freeze clear snap) : (s.writePmcCtrl freeze clear snap).memory = s.memory := by
  unfold State.writePmcCtrl
  extract_lets t
  have ht : t.memory = s.memory := wr_memory ..
  split
  · split
    next first u h =>
    have hu : u.memory = s.memory := by
      rw [show u = (first, u).2 from rfl, ← h]
      exact (clearFirst_memory _).trans ht
    split <;> simp [hu]
  split
  · simp [ht]
  split
  · simp [ht]
  · exact ht

@[simp] theorem snapDone_memory : s.snapDone.memory = s.memory := by
  unfold State.snapDone
  split
  · rfl
  · extract_lets t held
    have ht : t.memory = s.memory := by simp [t]
    exact (pmcReady_memory _).trans ((memory_foldl _ _ (fun _ _ => pmcAdd_memory ..) _).trans ((memory_pmc t _).trans ht))

@[simp] theorem sampleIdle_memory (i) : (s.sampleIdle i).memory = s.memory := by simp [State.sampleIdle]

end

/-! ### Memory frames: commands of ports -/

section
variable (s : State)

@[simp] theorem commandPort_memory (r k on) : (s.commandPort r k on).memory = s.memory := by simp [State.commandPort]
@[simp] theorem writePortCfg_memory (r k v) : (s.writePortCfg r k v).memory = s.memory := by simp [State.writePortCfg]
@[simp] theorem diodeTrip_memory (k tj) : (s.diodeTrip k tj).memory = s.memory := by simp [State.diodeTrip]
@[simp] theorem modelEval_memory (k mw tj) : (s.modelEval k mw tj).memory = s.memory := by simp [State.modelEval]
@[simp] theorem timerUpdate_memory (k) : (s.timerUpdate k).memory = s.memory := by simp [State.timerUpdate]
@[simp] theorem regulationEnter_memory (k) : (s.regulationEnter k).memory = s.memory := by simp [State.regulationEnter]
@[simp] theorem pgRise_memory (k vout) : (s.pgRise k vout).memory = s.memory := by simp [State.pgRise]
@[simp] theorem outputDrop_memory (k vout) : (s.outputDrop k vout).memory = s.memory := by simp [State.outputDrop]
@[simp] theorem portCooled_memory (k tj) : (s.portCooled k tj).memory = s.memory := by simp [State.portCooled]

@[simp] theorem declareDamage_memory (k) : (s.declareDamage k).memory = s.memory := by
  unfold State.declareDamage
  split <;> simp

@[simp] theorem clearDamage_memory (r k) : (s.clearDamage r k).memory = s.memory := by simp [State.clearDamage]

@[simp] theorem showTemp_memory (v) : (s.showTemp v).2.memory = s.memory := by
  unfold State.showTemp
  split <;> simp

@[simp] theorem showEstimate_memory (v) : (s.showEstimate v).2.memory = s.memory := by
  unfold State.showEstimate
  split <;> simp

@[simp] theorem measure_memory (k vout ma supply groupMa tj) : (s.measure k vout ma supply groupMa tj).memory = s.memory := by
  unfold State.measure
  dsimp only
  (repeat' split) <;> simp

@[simp] theorem groupOpen_memory (r g) : (s.groupOpen r g).memory = s.memory := by simp [State.groupOpen]
@[simp] theorem groupClose_memory (r g) : (s.groupClose r g).memory = s.memory := by simp [State.groupClose]
@[simp] theorem writeSeqCtrl_memory (start stop) : (s.writeSeqCtrl start stop).memory = s.memory := by simp [State.writeSeqCtrl]
@[simp] theorem seqGoto_memory (i n) : (s.seqGoto i n).memory = s.memory := (rfl)
@[simp] theorem tookTurn_memory (i) : (s.tookTurn i).memory = s.memory := (rfl)

@[simp] theorem seqStep_memory {f : Nat → State → State} (hf : ∀ w t, (f w t).memory = t.memory) (s : State) (i op)  :
    (s.seqStep i op f).memory = s.memory := by
  unfold State.seqStep
  dsimp only
  split
  · simp [hf]
  · rfl

@[simp] theorem seqEnd_memory (i) : (s.seqEnd i).memory = s.memory := seqStep_memory (fun _ _ => by simp) s i 0
@[simp] theorem seqSwitch_memory (i on) : (s.seqSwitch i on).memory = s.memory := seqStep_memory (fun _ _ => by simp) ..
@[simp] theorem seqWaitpg_memory (i) : (s.seqWaitpg i).memory = s.memory := seqStep_memory (fun _ _ => by simp) ..
@[simp] theorem seqWaitpgDone_memory (i) : (s.seqWaitpgDone i).memory = s.memory := by simp [State.seqWaitpgDone]
@[simp] theorem seqWaitpgTimeout_memory (i) : (s.seqWaitpgTimeout i).memory = s.memory := by simp [State.seqWaitpgTimeout]
@[simp] theorem seqWait_memory (i) : (s.seqWait i).memory = s.memory := seqStep_memory (fun _ _ => by simp) ..
@[simp] theorem seqWaitExpire_memory (i) : (s.seqWaitExpire i).memory = s.memory := by simp [State.seqWaitExpire]
@[simp] theorem seqJlatch_memory (i) : (s.seqJlatch i).memory = s.memory := seqStep_memory (fun _ _ => by simp) ..
@[simp] theorem seqNote_memory (i) : (s.seqNote i).memory = s.memory := seqStep_memory (fun _ _ => by simp) ..

end

/-! ### Memory frames: register writes -/

section
variable (s : State)

@[simp] theorem writeOnes_memory (a v hw f) : (s.writeOnes a v hw f).memory = s.memory := by simp [State.writeOnes]

@[simp] theorem writeFields_memory (r a v hw) : (s.writeFields r a v hw).memory = s.memory := by
  unfold State.writeFields
  split <;> simp

@[simp] theorem writeFirst_memory (v hw) : (s.writeFirst v hw).memory = s.memory := by simp [State.writeFirst]
@[simp] theorem writeErrPin_memory (v hw) : (s.writeErrPin v hw).memory = s.memory := by simp [State.writeErrPin]
@[simp] theorem writeForce_memory (v hw) : (s.writeForce v hw).memory = s.memory := by simp [State.writeForce]
@[simp] theorem writePortStat_memory (r k v hw) : (s.writePortStat r k v hw).memory = s.memory := by simp [State.writePortStat]
@[simp] theorem writePoint_memory (r i v hw) : (s.writePoint r i v hw).memory = s.memory := by simp [State.writePoint]
@[simp] theorem writeNoticeRate_memory (r m v hw) : (s.writeNoticeRate r m v hw).memory = s.memory := by simp [State.writeNoticeRate]
@[simp] theorem writeGroup_memory (r g v hw) : (s.writeGroup r g v hw).memory = s.memory := by simp [State.writeGroup]
@[simp] theorem writeFifoCtl_memory (r n tx v hw) : (s.writeFifoCtl r n tx v hw).memory = s.memory := by simp [State.writeFifoCtl]

@[simp] theorem writeRing_memory (r a v hw) : ∀ t ∈ s.writeRing r a v hw, t.memory = s.memory := by
  unfold State.writeRing
  refine forall_mem_ite (forall_mem_some (by simp)) ?_
  refine forall_mem_ite (forall_mem_some (by simp)) ?_
  refine forall_mem_ite (forall_mem_some (by simp)) ?_
  refine forall_mem_ite (forall_mem_some (by simp)) ?_
  refine forall_mem_ite (forall_mem_some (by simp)) ?_
  refine forall_mem_ite (forall_mem_some (by simp)) ?_
  exact forall_mem_orElse (forall_mem_map fun _ => by simp) (forall_mem_orElse (forall_mem_map fun _ => by simp)
    (forall_mem_orElse (forall_mem_map fun _ => by simp) (forall_mem_map fun _ => by simp)))

@[simp] theorem writeUnits_memory (r a v hw) : ∀ t ∈ s.writeUnits r a v hw, t.memory = s.memory := by
  unfold State.writeUnits
  refine forall_mem_ite (forall_mem_some (by simp)) ?_
  refine forall_mem_ite (forall_mem_some (by simp)) ?_
  refine forall_mem_ite (forall_mem_some (by simp)) ?_
  refine forall_mem_ite (forall_mem_some (by simp)) ?_
  refine forall_mem_ite (forall_mem_some (by simp)) ?_
  refine forall_mem_ite (forall_mem_some (by simp)) ?_
  refine forall_mem_ite (forall_mem_some (by simp)) ?_
  refine forall_mem_ite (forall_mem_some (by simp)) ?_
  exact forall_mem_orElse (forall_mem_map fun _ => by simp) (forall_mem_orElse (forall_mem_map fun _ => by simp)
    (forall_mem_orElse (forall_mem_map fun _ => by simp) (forall_mem_orElse (forall_mem_map fun _ => by simp)
    (forall_mem_orElse (forall_mem_map fun _ => by simp) (forall_mem_orElse (forall_mem_map fun _ => by simp)
    (forall_mem_map fun _ => by simp))))))

@[simp] theorem writeBayEng_memory (r a v hw) : ∀ t ∈ s.writeBayEng r a v hw, t.memory = s.memory := by
  unfold State.writeBayEng
  split
  · exact forall_mem_some (by simp)
  · exact forall_mem_map fun _ => by simp
  · exact forall_mem_orElse (forall_mem_map fun _ => by simp) (forall_mem_orElse (forall_mem_map fun _ => by simp)
      (forall_mem_orElse (forall_mem_map fun _ => by simp) (forall_mem_orElse (forall_mem_map fun _ => by simp)
      (forall_mem_map fun _ => by simp))))

end

/-! ### Memory frames: the target -/

section
variable (s : State)

@[simp] theorem readPlace_memory (r a n p) : (s.readPlace r a n p).1.memory = s.memory := by
  cases p with
  | regs => exact readRegs_memory ..
  | window w =>
    simp only [State.readPlace]
    split <;> simp
  | caddy => exact caddyRead_memory ..
  | flash => exact flashWindowRead_memory ..

@[simp] theorem noteMaster_memory (t) : (s.noteMaster t).memory = s.memory := by simp [State.noteMaster]
@[simp] theorem noteNode_memory (t) : (s.noteNode t).memory = s.memory := by simp [State.noteNode]
@[simp] theorem setServing_memory (b) : (s.setServing b).memory = s.memory := (rfl)

@[simp] theorem withClaim_memory (t) : (s.withClaim t).1.memory = s.memory := by
  unfold State.withClaim
  split <;> simp

@[simp] theorem respond_memory (t c data inSlot) : (s.respond t c data inSlot).memory = s.memory := by simp [State.respond]

@[simp] theorem arrive_memory (t lengthOk posted) : (s.arrive t lengthOk posted).1.memory = s.memory := by
  unfold State.arrive
  dsimp only
  (repeat' split) <;> simp

@[simp] theorem afterCheck_memory (t n k) : (s.afterCheck t n k).memory = s.memory := by simp [State.afterCheck]

@[simp] theorem countAnswer_memory (t c ev bytes n) : (s.countAnswer t c ev bytes n).memory = s.memory := by
  unfold State.countAnswer
  dsimp only
  (repeat' split) <;> simp

@[simp] theorem txnRead_memory (t n) : (s.txnRead t n).memory = s.memory := by
  unfold State.txnRead
  dsimp only
  (repeat' split) <;> simp

@[simp] theorem endRequest_memory (k q ok data) : (s.endRequest k q ok data).memory = s.memory := by simp [State.endRequest]

@[simp] theorem respWord_memory (data) : (s.respWord data).2.memory = s.memory := by
  unfold State.respWord
  split <;> simp

@[simp] theorem txnResponse_memory (m level tag code data) : (s.txnResponse m level tag code data).memory = s.memory := by
  unfold State.txnResponse
  dsimp only
  (repeat' split) <;> simp

@[simp] theorem initTimedOut_memory (k) : (s.initTimedOut k).memory = s.memory := by
  unfold State.initTimedOut
  split <;> simp

@[simp] theorem refillToken_memory (m) : (s.refillToken m).memory = s.memory := by simp [State.refillToken]

end

/-! ### Memory frames: the tick -/

section
variable (s : State)

@[simp] theorem chargeSlot_memory (e) : (s.chargeSlot e).memory = s.memory := by simp [State.chargeSlot]
@[simp] theorem countRisk_memory : s.countRisk.memory = s.memory := (congrArg State.memory (countRisk_regs s) :)
@[simp] theorem tick_memory : s.tick.memory = s.memory := by simp [State.tick]

end

/-! ### Memory frames: step -/

section
variable (s : State)

@[simp] theorem withPending_memory (q) : (s.withPending q).memory = s.memory := (rfl)

end

/-! ### Canonical memory is kept -/

theorem memOk_of_memory {s t : State} (h : t.memory = s.memory) (hs : s.memOk = true) : t.memOk = true := by
  have hmem : t.memOk = s.memOk := (congrArg (fun m => Memory.wf 0 m.1 && Memory.wf 0xFF m.2) h :)
  rw [hmem, hs]

theorem memOk_ite {c : Prop} [Decidable c] {s t : State} (hs : s.memOk = true) (ht : t.memOk = true) : (if c then s else t).memOk = true := by
  split
  · exact hs
  · exact ht

theorem memOk_foldl {α : Type} {f : State → α → State} (l : List α) (hf : ∀ t a, t.memOk = true → (f t a).memOk = true) {s : State}
    (h : s.memOk = true) : (l.foldl f s).memOk = true :=
  List.foldlRecOn (motive := fun t : State => t.memOk = true) l f h fun t ht a _ => hf t a ht

theorem memOk_iff (s : State) : s.memOk = true ↔ mwf 0 s.pimem = true ∧ mwf 0xFF s.flash = true := by
  simp [State.memOk, Memory.wf]

/-- Process image memory and flash are each kept in canonical form. -/
theorem memOk_of_parts {s t : State} (hs : s.memOk = true) (hp : mwf 0 s.pimem = true → mwf 0 t.pimem = true)
    (hf : mwf 0xFF s.flash = true → mwf 0xFF t.flash = true) : t.memOk = true :=
  (memOk_iff t).mpr (((memOk_iff s).mp hs).imp hp hf)

theorem memWriteWord_flash (s : State) (o bs i) : (s.memWriteWord o bs i).1.flash = s.flash := by
  unfold State.memWriteWord
  dsimp only
  split
  · rfl
  · split <;> rfl

section

variable {s : State} (h : s.memOk = true)
include h

theorem memOk_memWriteWord (o bs i) : (s.memWriteWord o bs i).1.memOk = true :=
  memOk_of_parts h (memWriteWord_wf s o bs i) (by rw [memWriteWord_flash]; exact id)

theorem memOk_memWrite (o bs) : (s.memWrite o bs).1.memOk = true :=
  List.foldlRecOn (motive := fun acc : State × Bool => acc.1.memOk = true) _ _ h fun _ hacc i _ => memOk_memWriteWord hacc o bs i

theorem memOk_putFlash (o bs) : (s.putFlash o bs).memOk = true :=
  memOk_of_parts h id (mwf_mputList 0xFF bs s.flash o)

theorem memOk_eraseFlash (lo hi) : (s.eraseFlash lo hi).memOk = true :=
  memOk_of_parts h id (mwf_mcut 0xFF s.flash lo hi)

theorem memOk_eraseStaging : s.eraseStaging.memOk = true := memOk_eraseFlash h ..

theorem memOk_eraseChunk (c) : (s.eraseChunk c).memOk = true := memOk_eraseFlash h ..

theorem memOk_undefineStaging : s.undefineStaging.memOk = true :=
  memOk_eraseFlash (memOk_of_memory (takeFree_memory s) h) ..

theorem memOk_cutWrites : s.cutWrites.memOk = true := by
  unfold State.cutWrites
  split
  next k t ht =>
  have hk : t.memOk = true := memOk_of_memory (by rw [show t = (k, t).2 from rfl, ← ht]; exact takeFree_memory s) h
  extract_lets whole u src v w
  have hu : u.memOk = true := by
    refine memOk_of_memory ?_ hk
    unfold u
    split
    · split <;> simp
    · rfl
  have hv : v.memOk = true := memOk_of_memory (by simp [v]) hu
  have hw : w.memOk = true := by
    unfold w
    split
    · exact memOk_putFlash hv ..
    · exact hv
  exact memOk_ite (memOk_undefineStaging hw) hw

theorem memOk_resetWith (hub) : (s.resetWith hub).memOk = true :=
  memOk_of_parts (memOk_cutWrites h) (fun _ => by rw [resetWith_proj State.pimem (fun _ => rfl)]; rfl)
    (by rw [resetWith_proj State.flash (fun _ => rfl)]; exact id)

theorem memOk_rstRelease (strap) : (s.rstRelease strap).memOk = true := memOk_ite (memOk_resetWith h _) h

theorem memOk_usHold : s.usHold.memOk = true := memOk_ite (memOk_resetWith h _) h

theorem memOk_resetBank (b) : (s.resetBank b).memOk = true := by
  unfold State.resetBank
  split
  case _ => exact memOk_of_memory (by simp) h
  case _ => exact h
  case _ => exact memOk_of_parts h (fun _ => rfl) id
  all_goals exact memOk_of_memory (by simp) h

theorem memOk_switchOnBank (b lost) : (s.switchOnBank b lost).memOk = true := by
  unfold State.switchOnBank
  split
  · exact memOk_of_memory (wrBit_memory ..) (memOk_resetBank h b)
  extract_lets t u
  have ht : t.memOk = true := memOk_of_memory (wrBit_memory ..) h
  split
  · exact memOk_of_memory (by simp [u]) (memOk_resetBank ht b)
  · exact ht

theorem memOk_ungateDomain (d lost) : (s.ungateDomain d lost).memOk = true := by
  unfold State.ungateDomain
  split
  · exact h
  extract_lets off src t u v w due x
  have hu : u.memOk = true := memOk_ite (memOk_switchOnBank (s := t) h ..) h
  refine memOk_of_memory ?_ hu
  split <;> simp [x, w, v]

theorem memOk_dozeExit (lost) : (s.dozeExit lost).memOk = true := by
  unfold State.dozeExit
  split
  · exact h
  split
  · exact h
  extract_lets t x src u
  have ht : t.memOk = true := memOk_of_memory (intake_memory ..) (memOk_foldl _ (fun _ _ ht => memOk_ungateDomain ht ..) h)
  exact memOk_of_memory (by simp [u]) ht

theorem memOk_wakeDecide (lost) : (s.wakeDecide lost).memOk = true := by
  unfold State.wakeDecide
  split
  · split
    · extract_lets t u time power v w
      have ht : t.memOk = true := memOk_ite (memOk_foldl _ (fun _ _ ht => memOk_switchOnBank ht ..) h) h
      refine memOk_of_memory ?_ ht
      split <;> simp [w, v, u]
    · exact h
  · exact h

theorem memOk_loadAbort (r) : (s.loadAbort r).memOk = true :=
  memOk_ite h (memOk_undefineStaging (memOk_of_memory (closeLoad_memory s) h))

theorem memOk_loadStart (r discard) : (s.loadStart r discard).memOk = true :=
  memOk_ite h (memOk_of_memory (by simp) (memOk_eraseStaging h))

theorem memOk_writeLoadCtrl (r v) : (s.writeLoadCtrl r v).memOk = true := by
  unfold State.writeLoadCtrl
  split
  · exact h
  extract_lets t u w
  have ht : t.memOk = true := memOk_of_memory (wr_memory ..) h
  have hu : u.memOk = true := memOk_ite (memOk_loadAbort ht r) ht
  have hw : w.memOk = true := memOk_ite (memOk_loadStart hu r _) hu
  exact memOk_ite (memOk_of_memory (loadVerify_memory w r) hw) hw

theorem memOk_resumeLoad (r) : (s.resumeLoad r).memOk = true := by
  unfold State.resumeLoad
  split
  · exact h
  extract_lets read t top
  have hread : read.memOk = true := memOk_of_memory (by simp [read]) h
  have ht : t.memOk = true := memOk_foldl _ (fun t c ht => memOk_ite ht (memOk_eraseChunk ht c)) hread
  exact memOk_of_memory (openLoad_memory ..) ht

theorem memOk_writeUpdCtrl (r v) : (s.writeUpdCtrl r v).memOk = true := by
  unfold State.writeUpdCtrl
  extract_lets t u w
  have ht : t.memOk = true := memOk_ite (memOk_of_memory (updCancel_memory s r) h) h
  have hu : u.memOk = true := memOk_ite (memOk_of_memory (updVerify_memory t r) ht) ht
  have hw : w.memOk = true := memOk_ite (memOk_resumeLoad hu r) hu
  exact memOk_ite (memOk_of_memory (abandon_memory w r) hw) hw

theorem memOk_programPut (p) : (s.programPut p).memOk = true := memOk_putFlash h ..

theorem memOk_putDone : s.putDone.memOk = true := by
  unfold State.putDone
  split
  · exact h
  next p _ =>
  extract_lets src t u v top w x
  have hu : u.memOk = true := memOk_of_memory (by simp [u, t]) h
  have hv : v.memOk = true := memOk_programPut hu p
  exact memOk_ite hu (memOk_of_memory (by simp [x, w]) hv)

theorem memOk_checksDone : s.checksDone.memOk = true := by
  unfold State.checksDone
  split
  · exact h
  extract_lets fault t
  have ht : t.memOk = true := memOk_of_memory (notePackage_memory s) h
  clear_value fault
  cases fault with
  | some c => exact memOk_of_memory (updFails_memory ..) ht
  | none =>
    dsimp only
    exact memOk_of_memory ((wr_memory ..).trans (wr_memory ..))
      (memOk_eraseFlash (memOk_of_memory ((writeBoot_memory ..).trans (takeFree_memory t)) ht) ..)

theorem memOk_buildDone (e) : (s.buildDone e).memOk = true := by
  unfold State.buildDone
  split
  · exact h
  extract_lets b p img t built u
  have ht : t.memOk = true := memOk_putFlash (memOk_of_memory (noteBuild_memory s p) h) ..
  clear_value t
  split
  · exact memOk_of_memory (updFails_memory ..) ht
  · refine memOk_of_memory ?_ ht
    split <;> simp [u]

theorem memOk_applyCup (j data) : (s.applyCup j data).memOk = true :=
  memOk_ite (memOk_of_memory (by simp) h) (memOk_memWrite h ..)

theorem memOk_cupAtApply (i n j bytes) : (s.cupAtApply i n j bytes).memOk = true := by
  unfold State.cupAtApply
  split
  · exact memOk_of_memory (missCup_memory ..) h
  split
  · exact memOk_applyCup (memOk_of_memory (by simp) h) ..
  · exact memOk_of_memory (by simp) h

theorem memOk_applyCycle (i n) : (s.applyCycle i n).memOk = true := by
  unfold State.applyCycle
  extract_lets chosen t src u v
  have hv : v.memOk = true := memOk_of_memory (by simp [v, u, t]) h
  exact memOk_ite hv (memOk_foldl _ (fun _ _ ht => memOk_cupAtApply ht ..) hv)

theorem memOk_applyStream (i) : (s.applyStream i).memOk = true :=
  memOk_ite h (memOk_foldl _ (fun _ _ ht => memOk_applyCycle ht ..) h)

theorem memOk_runAccess (e c i x) (hx : runAccess e c i s = some x) : x.1.memOk = true := by
  unfold runAccess at hx
  split at hx
  · cases hx
    exact memOk_of_memory (ldmAccess_memory ..) h
  · cases hx
    exact memOk_memWrite h ..
  · cases hx
    exact memOk_of_memory (rdregAccess_memory ..) h
  · cases hx

theorem memOk_resume (e c) : (s.resume e c).memOk = true := by
  unfold State.resume
  extract_lets x
  split
  · exact h
  split
  · split
    · exact memOk_of_memory (refetch_memory ..) h
    · split
      · exact memOk_of_memory (refetch_memory ..) h
      next t r hrun =>
        obtain ⟨i, -, hi⟩ := Option.bind_eq_some_iff.mp hrun
        exact memOk_of_memory (finish_memory ..) (memOk_runAccess h _ _ _ _ hi)
  · refine memOk_of_memory ?_ h
    split
    · rfl
    split
    · simp
    split
    · simp
    split
    · rfl
    have hrun {t r} {i : Insn} (hi : runInsn e c i s = (t, r)) : t.memory = s.memory := (memory_of_fst hi).trans (runInsn_memory ..)
    split
    next t r hi => split <;> simp [hrun hi]
    next t r _ hi => simp [hrun hi]

theorem memOk_asWrite (r a) {eff : State → State} (he : (eff s).memOk = true) : (s.asWrite r a eff).memOk = true := by
  unfold State.asWrite
  split
  · exact h
  split
  · exact memOk_of_memory (by simp) h
  · exact memOk_of_memory (by simp) he

theorem memOk_writeTop (r a v hw) : ∀ t ∈ s.writeTop r a v hw, t.memOk = true := by
  unfold State.writeTop
  refine forall_mem_ite (forall_mem_some (memOk_of_memory (by simp) h)) ?_
  refine forall_mem_ite (forall_mem_some (memOk_of_memory (by simp) h)) ?_
  refine forall_mem_ite (forall_mem_some (memOk_of_memory (by simp) h)) ?_
  refine forall_mem_ite (forall_mem_some (memOk_of_memory (by simp) h)) ?_
  refine forall_mem_ite (forall_mem_some (memOk_of_memory (by simp) h)) ?_
  refine forall_mem_ite (forall_mem_some (memOk_writeLoadCtrl h ..)) ?_
  refine forall_mem_ite (forall_mem_some (memOk_of_memory (by simp) h)) ?_
  refine forall_mem_ite (forall_mem_some (memOk_writeUpdCtrl h ..)) ?_
  refine forall_mem_ite (forall_mem_some (memOk_of_memory (by simp) h)) ?_
  exact forall_mem_orElse (forall_mem_map fun _ => memOk_of_memory (by simp) h) (forall_mem_map fun _ => memOk_of_memory (by simp) h)

theorem memOk_writeReg (r a v hw) : (s.writeReg r a v hw).memOk = true := by
  have hfields : (s.writeFields r a v hw).memOk = true := memOk_of_memory (writeFields_memory ..) h
  have hclean {o : Option State} (ho : ∀ t ∈ o, t.memory = s.memory) : ∀ t ∈ o, t.memOk = true := fun t ht => memOk_of_memory (ho t ht) h
  unfold State.writeReg
  extract_lets special
  have hspecial : ∀ t ∈ special, t.memOk = true := forall_mem_ite (memOk_writeTop h r a v hw)
    (forall_mem_ite (hclean (writeRing_memory s r a v hw)) (forall_mem_ite (hclean (writeUnits_memory s r a v hw))
      (hclean (writeBayEng_memory s r a v hw))))
  clear_value special
  cases special with
  | none => exact hfields
  | some t => exact hspecial t rfl

omit h in
theorem memOk_writeRegs (h : s.memOk = true) (r hw vs a) : (s.writeRegs r hw a vs).1.memOk = true := by
  induction vs generalizing s a with
  | nil => exact h
  | cons v vs ih =>
    unfold State.writeRegs
    dsimp only
    refine ih ?_ _
    split
    · exact h
    · split
      · exact h
      · exact memOk_writeReg h ..

theorem memOk_writePlace (r a hw bs p) : (s.writePlace r a hw bs p).1.memOk = true := by
  cases p with
  | regs => exact memOk_writeRegs h ..
  | window => exact memOk_memWrite h ..
  | caddy => exact h
  | flash => exact h

theorem memOk_atomicPlace (a x p) : (s.atomicPlace a x p).1.memOk = true := by
  cases p with
  | regs =>
    simp only [State.atomicPlace]
    split
    · exact h
    · exact h
  | window w =>
    simp only [State.atomicPlace]
    have hread : (s.memRead (w.memOffset + (a - w.base)) 8).1.memOk = true := memOk_of_memory (memRead_memory ..) h
    split
    · exact hread
    · split
      · exact memOk_memWrite hread ..
      · exact hread
  | caddy => exact h
  | flash => exact h

theorem memOk_registerWrite (r a v hw) : (s.registerWrite r a v hw).memOk = true := by
  unfold State.registerWrite
  split
  · exact h
  split
  next t c ht =>
  refine memOk_of_memory ((answered_memory ..).trans (countTxn_memory ..)) ?_
  rw [show t = (t, c).1 from rfl, ← ht]
  split
  · exact h
  split
  · exact h
  · exact memOk_writePlace h ..

theorem memOk_txnWrite (t data posted) : (s.txnWrite t data posted).memOk = true := by
  unfold State.txnWrite
  extract_lets n
  split
  next u x harrive =>
  have hu : u.memOk = true := memOk_of_memory ((memory_of_fst harrive).trans (arrive_memory ..)) h
  split
  · exact hu
  · exact memOk_of_memory (by simp) hu
  · extract_lets check v
    have hv : v.memOk = true := memOk_of_memory (afterCheck_memory ..) hu
    split
    next w c hw =>
    have hwk : w.memOk = true := by
      rw [show w = (w, c).1 from rfl, ← hw]
      clear_value check
      cases check with
      | error c => exact hv
      | ok p => exact memOk_writePlace hv ..
    exact memOk_of_memory (by simp) hwk

theorem memOk_txnAtomic (t x) : (s.txnAtomic t x).memOk = true := by
  unfold State.txnAtomic
  split
  next u got harrive =>
  have hu : u.memOk = true := memOk_of_memory ((memory_of_fst harrive).trans (arrive_memory ..)) h
  split
  · exact hu
  · exact memOk_of_memory (by simp) hu
  · extract_lets check v
    have hv : v.memOk = true := memOk_of_memory (afterCheck_memory ..) hu
    split
    next w c _ hw =>
    have hwk : w.memOk = true := by
      rw [show w = (w, c, _).1 from rfl, ← hw]
      clear_value check
      cases check with
      | error c => exact hv
      | ok p => exact memOk_atomicPlace hv ..
    exact memOk_of_memory (by simp) hwk

end

/-! ### Every command ends in a sound state (R166, R183, R618, R622, R673) -/

/-- What a state ends in, if it is a state at all, has canonical memory and nothing that waits for the Kettle or the link monitor. -/
def EndsSound (o : Host.Outcome State Fault Refusal) : Prop := ∀ t, o = .next t → t.memOk = true ∧ t.quiet = true

theorem settle_isQuiet (s : State) : s.settle.quiet = true := by
  have hdue : s.settle.hub.ringDue = false := ringSettle_ringDue ..
  simp [State.quiet, hdue]

theorem endsSound_done {s : State} (h : s.memOk = true) : EndsSound (done s) := by
  intro t ht
  cases ht
  exact ⟨memOk_of_memory (settle_memory s) h, settle_isQuiet s⟩

section

variable {s : State} (h : s.memOk = true)
include h

/-- A command that leaves memory alone. -/
theorem endsSound_of_memory {f : State} (hf : f.memory = s.memory) : EndsSound (done f) := endsSound_done (memOk_of_memory hf h)

theorem endsSound_rstNLow (ns) : EndsSound (execRstNLow ns s) := by
  unfold execRstNLow
  split
  · exact endsSound_done h
  split
  · intro t ht
    cases ht
  · exact endsSound_done (memOk_resetWith h _)

/-- The commands that write memory are named; every other one leaves it alone. -/
theorem exec_endsSound (i : Instr) : EndsSound (exec i s) := by
  have hclaim (t) : (s.withClaim t).1.memOk = true := memOk_of_memory (withClaim_memory ..) h
  cases i with
  | powerOn => exact endsSound_done (memOk_resetWith h _)
  | rstNLow ns => exact endsSound_rstNLow h ns
  | rstNRelease strap => exact endsSound_done (memOk_rstRelease h strap)
  | usHoldExpire => exact endsSound_done (memOk_usHold h)
  | dozeExitDone lost => exact endsSound_done (memOk_dozeExit h _)
  | wakeClockDecide lost => exact endsSound_done (memOk_wakeDecide h _)
  | txnWr t data => exact endsSound_done (memOk_txnWrite (hclaim t) ..)
  | txnWra t data => exact endsSound_done (memOk_txnWrite (hclaim t) ..)
  | txnFaa t => exact endsSound_done (memOk_txnAtomic (hclaim t) ..)
  | txnFao t => exact endsSound_done (memOk_txnAtomic (hclaim t) ..)
  | txnCas t => exact endsSound_done (memOk_txnAtomic (hclaim t) ..)
  | loadStart r => exact endsSound_done (memOk_asWrite h _ _ (memOk_loadStart h ..))
  | loadDiscardStaged r => exact endsSound_done (memOk_asWrite h _ _ (memOk_loadStart h ..))
  | loadAbort r => exact endsSound_done (memOk_asWrite h _ _ (memOk_loadAbort h _))
  | loadPutDone => exact endsSound_done (memOk_putDone h)
  | updChecksDone => exact endsSound_done (memOk_checksDone h)
  | updBuildDone => exact endsSound_done (memOk_buildDone h _)
  | updResume r => exact endsSound_done (memOk_asWrite h _ _ (memOk_resumeLoad h _))
  | cycApplyPoint => exact endsSound_done (memOk_applyStream h _)
  | contextResume => exact endsSound_done (memOk_resume h ..)
  | registerWrite => exact endsSound_done (memOk_registerWrite h ..)
  | actionEffect e c k => cases k <;> exact endsSound_of_memory h (by simp)
  | _ => exact endsSound_of_memory h (by simp)

end

/-- Settles O60: a step writes memory only through operations that keep its canonical form, and `State.settle`, which ends every command,
leaves no event and no change of a link. -/
theorem everyStepKeepsTheInvariant : Obligations.EveryStepKeepsTheInvariant := by
  intro s t hmem hquiet hstep
  unfold step at hstep
  split at hstep
  next hpending =>
    cases hstep
    obtain ⟨-, -, -, hhub, -, -, -, -, -, -, hraised, -⟩ := tick_frame s hpending
    exact ⟨memOk_of_memory (tick_memory s) hmem, by rw [State.quiet, hraised, hhub]; exact hquiet⟩
  next c rest _ => exact exec_endsSound (memOk_of_memory (withPending_memory s rest) hmem) c t hstep

end Sys2Proof.Machine

namespace Sys2Proof.Machine

/-! ### What the checks of a request look at (R194) -/

/-- `u` has what checks 2 to 6 of R194 look at in `s`: the variant, the mode, the rights, the windows, and every register from 0x30000 on. -/
structure ScreensAlike (s u : State) : Prop where
  variant : u.variant = s.variant
  mode : u.hub.mode = s.hub.mode
  table : u.hub.accessTable = s.hub.accessTable
  loaded : u.loaded = s.loaded
  word : ∀ a, 0x30000 ≤ a → u.word a = s.word a

namespace ScreensAlike

variable {s u v : State} (h : ScreensAlike s u)

theorem refl (s : State) : ScreensAlike s s := ⟨rfl, rfl, rfl, rfl, fun _ _ => rfl⟩

include h

theorem trans (k : ScreensAlike u v) : ScreensAlike s v :=
  ⟨k.variant.trans h.variant, k.mode.trans h.mode, k.table.trans h.table, k.loaded.trans h.loaded,
    fun a ha => (k.word a ha).trans (h.word a ha)⟩

theorem rd {f : Fld} (hf : 0x30000 ≤ f.addr) : u.rd f = s.rd f := by
  rw [State.rd, State.rd, h.word _ hf]

theorem absentReg (a : Nat) : u.absentReg a = s.absentReg a := by
  simp only [State.absentReg, State.portPresent, State.srcPresent, h.variant]

theorem placeOf (a n : Nat) (atomic : Bool) : u.placeOf a n atomic = s.placeOf a n atomic := by
  simp only [State.placeOf, State.windowAt, h.absentReg, h.loaded]

theorem modeScreen (r : Requester) (low : Bool) : u.modeScreen r low = s.modeScreen r low := by
  simp only [State.modeScreen, h.mode]

theorem blockGated (b : Nat) : u.blockGated b = s.blockGated b := by
  have hgated : u.rd R.PWR_STATUS_gated = s.rd R.PWR_STATUS_gated := h.rd (by decide)
  simp only [State.blockGated, State.groupGated, State.quadGated, State.bitOn, hgated]

theorem blockRight (r : Requester) (b : Nat) : u.blockRight r b = s.blockRight r b := by
  have haccess : u.rd R.PMC_ACCESS_operator = s.rd R.PMC_ACCESS_operator := h.rd (by decide)
  rw [State.blockRight, State.blockRight, State.bitOn, State.bitOn, h.table, h.loaded, haccess]

theorem blockScreen (r : Requester) (b : Nat) (k : Kind) : u.blockScreen r b k = s.blockScreen r b k := by
  simp only [State.blockScreen, h.modeScreen, h.blockRight, h.blockGated]

theorem windowScreen (r : Requester) (w : Window) (k : Kind) : u.windowScreen r w k = s.windowScreen r w k := by
  rw [State.windowScreen, State.windowScreen, State.windowRight, State.windowRight, h.modeScreen, h.table]

theorem regPriv (r : Requester) (a : Nat) (k : Kind) : u.regPriv r a k = s.regPriv r a k := by
  have hroute (n : Nat) : 0x30000 ≤ R.BAY_ROUTE n := by
    simp only [R.BAY_ROUTE, bayBase]
    omega
  have hrx (n : Nat) : u.rd (R.BAY_ROUTE_rx_consumer n) = s.rd (R.BAY_ROUTE_rx_consumer n) := h.rd (hroute n)
  have htx (n : Nat) : u.rd (R.BAY_ROUTE_tx_producer n) = s.rd (R.BAY_ROUTE_tx_producer n) := h.rd (hroute n)
  simp only [State.regPriv, State.on, hrx, htx]

theorem screenOne (r : Requester) (a : Nat) (k : Kind) : u.screenOne r a k = s.screenOne r a k := by
  simp only [State.screenOne, h.absentReg, h.blockScreen, h.regPriv, h.modeScreen]

theorem placeScreen (r : Requester) (a : Nat) (k : Kind) (p : Place) : u.placeScreen r a k p = s.placeScreen r a k p := by
  cases p <;> simp only [State.placeScreen, h.screenOne, h.blockScreen, h.windowScreen]

theorem checkTxn (t : Txn) (n : Nat) (k : Kind) : u.checkTxn t n k = s.checkTxn t n k := by
  simp only [State.checkTxn, h.placeOf, h.modeScreen, h.placeScreen]

end ScreensAlike

/-! ### What a request notes -/

/-- The register at `a` is none of those in which a request that gets a slot is noted (R31, R187, R212, R215, R647). -/
structure UnnotedReg (a : Nat) : Prop where
  master : ∀ m, m < 4 → a ≠ R.TOP_MASTER m
  level : a ≠ R.TOP_TXN_LEVEL
  node : a ≠ R.RING_NODE
  counter : ¬pmcBlock a

/-- The state without what a request is noted in: registers, the performance counters, and two fields of the hub. -/
def State.sansNotes (s : State) : State := { s.sansCounts with hub := { s.hub with heardAt := 0, serving := false } }

theorem noted_of_sansNotes {s u : State} (h : u.sansNotes = s.sansNotes) 
    (hword : ∀ a, UnnotedReg a → (∀ i, i < 4 → a ≠ R.TOP_TXN_CNT i) → u.word a = s.word a) : Noted s u := by
  have hhub : { u.hub with heardAt := 0, serving := false } = { s.hub with heardAt := 0, serving := false } := congrArg State.hub h
  refine ⟨keeps_of_lasting (congrArg State.lasting h :), ?_, (congrArg State.upd h :), (congrArg State.bays h :), (congrArg State.engines h :),
    (congrArg State.switch h :), (congrArg State.power h :), (congrArg State.time h :), (congrArg State.ring h :), (congrArg State.cyc h :),
    (congrArg State.kettle h :), fun a hmaster hcnt hlevel hnode hpmc => hword a ⟨hmaster, hlevel, hnode, hpmc⟩ hcnt⟩
  exact (congrArg (fun x : Hub => { x with heardAt := u.hub.heardAt, serving := u.hub.serving }) hhub :)

/-- What noting a request does: it changes its own registers and nothing that `State.sansNotes` keeps. -/
structure Notes (s u : State) : Prop where
  rest : u.sansNotes = s.sansNotes
  word : ∀ a, UnnotedReg a → u.word a = s.word a

namespace Notes

variable {s u v : State}

theorem noted (h : Notes s u) : Noted s u := noted_of_sansNotes h.rest fun a ha _ => h.word a ha

theorem refl (s : State) : Notes s s := ⟨rfl, fun _ _ => rfl⟩

theorem trans (h : Notes s u) (k : Notes u v) : Notes s v := ⟨k.rest.trans h.rest, fun a ha => (k.word a ha).trans (h.word a ha)⟩

theorem wr {f : Fld} (hf : ¬UnnotedReg f.addr) (v : Nat) : Notes s (s.wr f v) :=
  ⟨rfl, fun _ ha => word_wr_ne _ _ _ (fun h => hf (h ▸ ha))⟩

theorem heard (s : State) : Notes s s.heard := ⟨rfl, fun _ _ => rfl⟩

theorem setServing (s : State) (b : Bool) : Notes s (s.setServing b) := ⟨rfl, fun _ _ => rfl⟩

theorem pmcBy (s : State) (cls ev x n : Nat) (at_ : Attrs) : Notes s (s.pmcBy cls ev x n at_) :=
  ⟨(congrArg State.sansNotes (pmcBy_sansCounts s cls ev x n at_) :), fun _ ha => pmcBy_word s cls ev x n at_ ha.counter⟩

theorem countAnswer (s : State) (t : Txn) (c : RCode) (ev : Nat) (bytes : Option Nat) (n : Nat) : Notes s (s.countAnswer t c ev bytes n) := by
  unfold State.countAnswer
  split
  · exact pmcBy ..
  · cases bytes with
    | none => exact pmcBy ..
    | some b => exact (pmcBy ..).trans (pmcBy ..)

theorem noteMaster (s : State) (t : Txn) : Notes s (s.noteMaster t) := by
  unfold State.noteMaster
  split
  · exact refl s
  have hmaster : ¬UnnotedReg (R.TOP_MASTER t.who.master.val) := fun h => h.master _ t.who.master.isLt rfl
  have hnode : ¬UnnotedReg R.RING_NODE := fun h => h.node rfl
  extract_lets m rings u
  have hu : Notes s u := (wr hmaster _).trans (wr hnode _)
  split
  · exact hu
  · exact hu.trans (heard u)

theorem noteNode (s : State) (t : Txn) : Notes s (s.noteNode t) := by
  unfold State.noteNode
  split
  · exact refl s
  · exact wr (fun h => h.master _ t.who.master.isLt rfl) _

theorem afterCheck (s : State) (t : Txn) (n : Nat) (k : Kind) : Notes s (s.afterCheck t n k) := by
  unfold State.afterCheck
  split
  · exact noteNode s t
  · exact refl s

/-- A record that is counted as well (R647). -/
theorem noted_bump {i : Nat} (hi : i < 4) (h : Notes s u) (k : Notes (u.bump (R.TOP_TXN_CNT_count i)) v) : Noted s v :=
  noted_of_sansNotes (k.rest.trans h.rest) fun a ha hcnt =>
    (k.word a ha).trans ((word_wr_ne _ _ _ (hcnt i hi)).trans (h.word a ha))

end Notes

end Sys2Proof.Machine

namespace Sys2Proof.Machine

/-! ### A request that gets a slot -/

theorem withClaim_screensAlike (s : State) (t : Txn) : ScreensAlike s (s.withClaim t).1 := by
  unfold State.withClaim
  split <;> exact ⟨rfl, rfl, rfl, rfl, fun _ _ => rfl⟩

theorem withClaim_targetUp (s : State) (t : Txn) : (s.withClaim t).1.targetUp = s.targetUp := by
  unfold State.withClaim
  split <;> rfl

theorem withClaim_nodeOk (s : State) (t : Txn) (posted : Bool) : (s.withClaim t).1.nodeOk (s.withClaim t).2 posted = s.nodeOk t posted := by
  unfold State.withClaim
  split <;> rfl

theorem withClaim_tagBusy (s : State) (t : Txn) : (s.withClaim t).1.tagBusy (s.withClaim t).2 = s.tagBusy t := by
  unfold State.withClaim
  split <;> rfl

theorem withClaim_slotsFull (s : State) (t : Txn) :
    (s.withClaim t).1.slotsFull (s.withClaim t).2.who.master.val = s.slotsFull t.who.master.val := by
  unfold State.withClaim
  split <;> rfl

theorem withClaim_port (s : State) (t : Txn) : (s.withClaim t).2.port = t.port := by
  unfold State.withClaim
  split <;> rfl

theorem Arrives.withClaim {s : State} {t : Txn} {posted : Bool} (h : Arrives s t posted) :
    Arrives (s.withClaim t).1 (s.withClaim t).2 posted := by
  obtain ⟨hup, hnode, htag, hslots⟩ := h
  exact ⟨(withClaim_targetUp s t).trans hup, (withClaim_nodeOk s t posted).trans hnode, (withClaim_tagBusy s t).trans htag,
    fun hport => (withClaim_slotsFull s t).trans (hslots (withClaim_port s t ▸ hport))⟩

/-- Where a request that gets a slot has been noted. -/
def State.admitted (s : State) (t : Txn) : State :=
  ((s.noteMaster t).wr R.TOP_TXN_LEVEL_target_peak
    (max ((s.noteMaster t).rd R.TOP_TXN_LEVEL_target_peak) ((s.noteMaster t).targetNow + 1))).setServing true

theorem Notes.admitted (s : State) (t : Txn) : Notes s (s.admitted t) :=
  have hlevel : ¬UnnotedReg R.TOP_TXN_LEVEL_target_peak.addr := fun h => h.level rfl
  ((Notes.noteMaster s t).trans (.wr hlevel _)).trans (.setServing _ true)

theorem wr_screensAlike (s : State) {f : Fld} (hf : f.addr < 0x30000) (v : Nat) : ScreensAlike s (s.wr f v) :=
  ⟨rfl, rfl, rfl, rfl, fun _ ha => word_wr_ne _ _ _ (by omega)⟩

theorem heard_screensAlike (s : State) : ScreensAlike s s.heard := ⟨rfl, rfl, rfl, rfl, fun _ _ => rfl⟩

theorem setServing_screensAlike (s : State) (b : Bool) : ScreensAlike s (s.setServing b) := ⟨rfl, rfl, rfl, rfl, fun _ _ => rfl⟩

theorem noteMaster_screensAlike (s : State) (t : Txn) : ScreensAlike s (s.noteMaster t) := by
  have hmaster : (R.TOP_MASTER_known t.who.master.val).addr < 0x30000 := by
    have := t.who.master.isLt
    simp only [R.TOP_MASTER_known, R.TOP_MASTER]
    omega
  have hnode : R.RING_NODE_master_ring.addr < 0x30000 := by decide
  unfold State.noteMaster
  split
  · exact .refl s
  extract_lets m rings u
  have hu : ScreensAlike s u := (wr_screensAlike s hmaster 1).trans (wr_screensAlike _ hnode _)
  split
  · exact hu
  · exact hu.trans (heard_screensAlike u)

theorem admitted_screensAlike (s : State) (t : Txn) : ScreensAlike s (s.admitted t) :=
  have hlevel : R.TOP_TXN_LEVEL_target_peak.addr < 0x30000 := by decide
  ((noteMaster_screensAlike s t).trans (wr_screensAlike _ hlevel _)).trans (setServing_screensAlike _ true)

theorem noteMaster_switch (s : State) (t : Txn) : (s.noteMaster t).switch = s.switch :=
  (congrArg State.switch (Notes.noteMaster s t).rest :)

theorem noteMaster_tagBusy (s : State) (t : Txn) : (s.noteMaster t).tagBusy t = s.tagBusy t := by
  rw [State.tagBusy, State.tagBusy, noteMaster_switch]

theorem noteMaster_slotsFull (s : State) (t : Txn) (m : Nat) : (s.noteMaster t).slotsFull m = s.slotsFull m := by
  unfold State.slotsFull State.slotsOfMaster
  rw [noteMaster_switch]

theorem arrive_taken {s : State} {t : Txn} {posted : Bool} (h : Arrives s t posted) : s.arrive t true posted = (s.admitted t, .taken) := by
  obtain ⟨hup, hnode, htag, hslots⟩ := h
  have hfull : ¬(t.port.isSome = true ∧ s.slotsFull t.who.master.val = true) := fun ⟨hport, hfull⟩ =>
    absurd hfull (Bool.eq_false_iff.mp (hslots hport))
  simp only [State.arrive, hup, hnode, noteMaster_tagBusy, htag, noteMaster_slotsFull, if_neg hfull]
  rfl

theorem arrive_down {s : State} (h : s.targetUp = false) (t : Txn) (lengthOk posted : Bool) :
    s.arrive t lengthOk posted = (s, .gone) := by
  simp [State.arrive, h]

/-- A record of an impermissible length or for another node (R163, R181). -/
theorem arrive_misfit {s : State} (h : s.targetUp = true) {t : Txn} {lengthOk posted : Bool}
    (hfit : lengthOk = false ∨ s.nodeOk t posted = false) :
    s.arrive t lengthOk posted = (s.bump (R.TOP_TXN_CNT_count 0), .gone) := by
  rcases hfit with hfit | hfit <;> simp [State.arrive, h, hfit]

theorem arrive_tagBusy {s : State} (h : s.targetUp = true) {t : Txn} {posted : Bool} (hnode : s.nodeOk t posted = true)
    (htag : s.tagBusy t = true) : s.arrive t true posted = ((s.noteMaster t).bump (R.TOP_TXN_CNT_count 1), .gone) := by
  simp [State.arrive, h, hnode, noteMaster_tagBusy, htag]

theorem arrive_full {s : State} (h : s.targetUp = true) {t : Txn} {posted : Bool} (hnode : s.nodeOk t posted = true)
    (htag : s.tagBusy t = false) (hport : t.port.isSome = true) (hfull : s.slotsFull t.who.master.val = true) :
    s.arrive t true posted = ((s.noteMaster t).bump (R.TOP_TXN_CNT_count 2), .full) := by
  simp [State.arrive, h, hnode, noteMaster_tagBusy, htag, hport, noteMaster_slotsFull, hfull]

theorem within_length {n : Nat} (h1 : 1 ≤ n) (h256 : n ≤ 256) : within 1 n 256 = true := by
  simp [within, h1, h256]

end Sys2Proof.Machine

namespace Sys2Proof.Machine

/-! ### What a request that has a slot does (R194 to R196) -/

/-- The state in which the access of an admitted request is made. -/
def State.checked (s : State) (t : Txn) (n : Nat) (k : Kind) : State :=
  ((s.withClaim t).1.admitted (s.withClaim t).2).afterCheck (s.withClaim t).2 n k

theorem Notes.checked (s : State) (t : Txn) (n : Nat) (k : Kind) : Notes (s.withClaim t).1 (s.checked t n k) :=
  (Notes.admitted _ _).trans (.afterCheck _ _ n k)

theorem checkTxn_admitted (s : State) (t : Txn) (n : Nat) (k : Kind) :
    ((s.withClaim t).1.admitted (s.withClaim t).2).checkTxn (s.withClaim t).2 n k = s.checkTxn (s.withClaim t).2 n k :=
  ((withClaim_screensAlike s t).trans (admitted_screensAlike _ _)).checkTxn ..

section
variable {s : State} {t : Txn}

theorem exec_txnRd_error {n : Nat} {c : RCode} (h1 : 1 ≤ n) (h256 : n ≤ 256) (h : Arrives s t false)
    (hc : s.checkTxn (s.withClaim t).2 n .read = .error c) : exec (.txnRd t n) s =
      .next (((s.checked t n .read).countAnswer (s.withClaim t).2 c 0 none n).respond (s.withClaim t).2 c (fillBytes c n) true).settle := by
  simp [exec, execTxnRd, done_eq, State.txnRead, within_length h1 h256, arrive_taken h.withClaim, checkTxn_admitted, hc, State.checked]

theorem exec_txnRd_ok {n : Nat} {p : Place} (h1 : 1 ≤ n) (h256 : n ≤ 256) (h : Arrives s t false)
    (hp : s.checkTxn (s.withClaim t).2 n .read = .ok p) {u : State} {c : RCode} {bs : List Byte}
    (hread : (s.checked t n .read).readPlace (s.withClaim t).2.who (s.withClaim t).2.addr.toNat n p = (u, c, bs)) : exec (.txnRd t n) s =
      .next ((u.countAnswer (s.withClaim t).2 c 0 (some 8) n).respond (s.withClaim t).2 c bs true).settle := by
  simp only [State.checked] at hread
  simp [exec, execTxnRd, done_eq, State.txnRead, within_length h1 h256, arrive_taken h.withClaim, checkTxn_admitted, hp, hread]

/-- The access of a write, and the code it comes to. -/
def State.writeChecked (s : State) (t : Txn) (data : List Byte) : Except RCode Place → State × RCode
  | .error c => (s.checked t data.length .write, c)
  | .ok p => (s.checked t data.length .write).writePlace (s.withClaim t).2.who (s.withClaim t).2.addr.toNat 0 data p

theorem txnWrite_taken {data : List Byte} {posted : Bool} (h1 : 1 ≤ data.length) (h256 : data.length ≤ 256) (h : Arrives s t posted)
    {u : State} {c : RCode} (hu : s.writeChecked t data (s.checkTxn (s.withClaim t).2 data.length .write) = (u, c)) :
    (s.withClaim t).1.txnWrite (s.withClaim t).2 data posted =
      if posted = true then (u.countAnswer (s.withClaim t).2 c 1 (some 9) data.length).setServing false
      else (u.countAnswer (s.withClaim t).2 c 1 (some 9) data.length).respond (s.withClaim t).2 c [] true := by
  simp only [State.txnWrite, within_length h1 h256, arrive_taken h.withClaim, checkTxn_admitted]
  generalize s.checkTxn (s.withClaim t).2 data.length .write = check at hu
  cases check with
  | error d =>
    obtain ⟨rfl, rfl⟩ := Prod.mk.inj hu
    rfl
  | ok p =>
    simp only [State.writeChecked, State.checked] at hu
    simp only [hu]

theorem exec_txnWra {data : List Byte} (h1 : 1 ≤ data.length) (h256 : data.length ≤ 256) (h : Arrives s t false) {u : State} {c : RCode}
    (hu : s.writeChecked t data (s.checkTxn (s.withClaim t).2 data.length .write) = (u, c)) : exec (.txnWra t data) s =
      .next ((u.countAnswer (s.withClaim t).2 c 1 (some 9) data.length).respond (s.withClaim t).2 c [] true).settle := by
  rw [exec, execTxnWra, done_eq, txnWrite_taken h1 h256 h hu]
  rfl

theorem exec_txnWr {data : List Byte} (h1 : 1 ≤ data.length) (h256 : data.length ≤ 256) (h : Arrives s t true) {u : State} {c : RCode}
    (hu : s.writeChecked t data (s.checkTxn (s.withClaim t).2 data.length .write) = (u, c)) : exec (.txnWr t data) s =
      .next ((u.countAnswer (s.withClaim t).2 c 1 (some 9) data.length).setServing false).settle := by
  rw [exec, execTxnWr, done_eq, txnWrite_taken h1 h256 h hu]
  rfl

/-- The access of an atomic, the code it comes to and the word it answers. -/
def State.atomicChecked (s : State) (t : Txn) (x : Atomic) : Except RCode Place → State × RCode × Word
  | .error c => (s.checked t 8 .atomic, c, c.pattern)
  | .ok p => (s.checked t 8 .atomic).atomicPlace (s.withClaim t).2.addr.toNat x p

theorem txnAtomic_taken (h : Arrives s t false) {x : Atomic} {u : State} {c : RCode} {w : Word}
    (hu : s.atomicChecked t x (s.checkTxn (s.withClaim t).2 8 .atomic) = (u, c, w)) : (s.withClaim t).1.txnAtomic (s.withClaim t).2 x =
      (u.countAnswer (s.withClaim t).2 c 2 none 8).respond (s.withClaim t).2 c (wordBytes w) true := by
  simp only [State.txnAtomic, arrive_taken h.withClaim, checkTxn_admitted]
  generalize s.checkTxn (s.withClaim t).2 8 .atomic = check at hu
  cases check with
  | error d =>
    cases hu
    rfl
  | ok p =>
    simp only [State.atomicChecked, State.checked] at hu
    simp only [hu]

end

/-- Settles O15: a request is checked in the state in which it has been noted, where the checks of R194 look at nothing that has changed. -/
theorem checksThatFailAnswerTheirCode : Obligations.ChecksThatFailAnswerTheirCode := by
  refine ⟨fun s t n c h1 h256 h hc => ?_, fun s t data c h1 h256 h hc _ => ?_, fun s t data c h1 h256 h hc _ => ?_, fun s t v w c h hc => ?_⟩
  · exact ⟨_, exec_txnRd_error h1 h256 h hc, ((Notes.checked ..).trans (.countAnswer ..)).noted⟩
  · exact ⟨_, exec_txnWra h1 h256 h (by rw [hc]; rfl), ((Notes.checked ..).trans (.countAnswer ..)).noted⟩
  · exact ⟨_, exec_txnWr h1 h256 h (by rw [hc]; rfl), (((Notes.checked ..).trans (.countAnswer ..)).trans (.setServing ..)).noted, rfl⟩
  · have hatomic (x : Atomic) : ∃ u, (s.withClaim t).1.txnAtomic (s.withClaim t).2 x =
        u.respond (s.withClaim t).2 c (wordBytes c.pattern) true ∧ Noted (s.withClaim t).1 u :=
      ⟨_, txnAtomic_taken h (by rw [hc]; rfl), ((Notes.checked ..).trans (.countAnswer ..)).noted⟩
    obtain ⟨u, hu, hnoted⟩ := hatomic (.faa v)
    obtain ⟨u', hu', hnoted'⟩ := hatomic (.fao v)
    obtain ⟨u'', hu'', hnoted''⟩ := hatomic (.cas v w)
    exact ⟨⟨u, by rw [← hu]; rfl, hnoted⟩, ⟨u', by rw [← hu']; rfl, hnoted'⟩, ⟨u'', by rw [← hu'']; rfl, hnoted''⟩⟩

/-- What a request notes of its master does not depend on its CLAIM. -/
theorem withClaim_noteMaster (s u : State) (t : Txn) : u.noteMaster (s.withClaim t).2 = u.noteMaster t := by
  unfold State.withClaim
  split <;> rfl

/-- Settles O18: the four ways out of `State.arrive` that give no slot. -/
theorem recordsThatAreNotTakenAreCounted : Obligations.RecordsThatAreNotTakenAreCounted := by
  refine ⟨fun s t n data hdown => ?_, fun s t n hup hn => ?_, fun s t v hup hnode => ?_, fun s t data hup h1 h256 hnode htag => ?_,
    fun s t n hup h1 h256 hnode htag hport hfull => ?_⟩
  · have hgone (lengthOk posted) := arrive_down ((withClaim_targetUp s t).trans hdown) (s.withClaim t).2 lengthOk posted
    refine ⟨?_, ?_, ?_⟩ <;> simp [exec, execTxnRd, execTxnWr, execTxnWra, done_eq, State.txnRead, State.txnWrite, hgone]
  · have hlength : within 1 n 256 = false := by
      simp only [within, decide_eq_false_iff_not]
      omega
    simp [exec, execTxnRd, done_eq, State.txnRead, arrive_misfit ((withClaim_targetUp s t).trans hup) (.inl hlength)]
  · simp [exec, execTxnFaa, done_eq, State.txnAtomic,
      arrive_misfit ((withClaim_targetUp s t).trans hup) (.inr ((withClaim_nodeOk s t false).trans hnode))]
  · have hbusy := arrive_tagBusy ((withClaim_targetUp s t).trans hup) ((withClaim_nodeOk s t true).trans hnode)
      ((withClaim_tagBusy s t).trans htag)
    simp only [exec, execTxnWr, done_eq, State.txnWrite, within_length h1 h256, hbusy, withClaim_noteMaster]
  · have hbusy := arrive_full ((withClaim_targetUp s t).trans hup) ((withClaim_nodeOk s t false).trans hnode)
      ((withClaim_tagBusy s t).trans htag) ((withClaim_port s t).symm ▸ hport) ((withClaim_slotsFull s t).trans hfull)
    have hexec : exec (.txnRd t n) s = .next (((((s.withClaim t).1.noteMaster (s.withClaim t).2).bump (R.TOP_TXN_CNT_count 2)).countAnswer
        (s.withClaim t).2 .busy 0 none n).respond (s.withClaim t).2 .busy (fillBytes .busy n) false).settle := by
      simp only [exec, execTxnRd, done_eq, State.txnRead, within_length h1 h256, hbusy]
    exact ⟨_, hexec, Notes.noted_bump (by decide) (.noteMaster ..) (.countAnswer ..)⟩

end Sys2Proof.Machine

namespace Sys2Proof.Machine

/-! ### Requests to process image windows -/

theorem cleanMem_of_eccMarks {s u : State} (hs : CleanMem s) (h : u.eccMarks = s.eccMarks) : CleanMem u := fun i => by
  rw [State.eccOf, h]
  exact hs i

theorem Notes.cleanMem {s u : State} (h : Notes s u) (hs : CleanMem s) : CleanMem u :=
  cleanMem_of_eccMarks hs (congrArg State.eccMarks h.rest :)

theorem Notes.memBytes {s u : State} (h : Notes s u) (o n : Nat) : u.memBytes o n = s.memBytes o n :=
  (congrArg (fun v : State => v.memBytes o n) h.rest :)

theorem withClaim_cleanMem {s : State} (hs : CleanMem s) (t : Txn) : CleanMem (s.withClaim t).1 :=
  cleanMem_of_eccMarks hs (by unfold State.withClaim; split <;> rfl)

theorem withClaim_memBytes (s : State) (t : Txn) (o n : Nat) : (s.withClaim t).1.memBytes o n = s.memBytes o n := by
  unfold State.withClaim
  split <;> rfl

theorem withClaim_addr (s : State) (t : Txn) : (s.withClaim t).2.addr = t.addr := by
  unfold State.withClaim
  split <;> rfl

theorem noteMemEcc_clean {s : State} (h : CleanMem s) (ws : List Nat) : s.noteMemEcc ws = s := by
  induction ws with
  | nil => rfl
  | cons w ws ih =>
    rw [State.noteMemEcc, List.foldl_cons, if_neg (h w)]
    exact ih

/-- A read of good words gives their bytes and changes nothing. -/
theorem memRead_clean {s : State} (h : CleanMem s) (o n : Nat) : s.memRead o n = (s, true, s.memBytes o n) := by
  have hall : (wordsOf o n).all (fun i => s.eccOf .pimem i != .bad) = true := List.all_eq_true.mpr fun i _ => by simp [h i]
  simp only [State.memRead, noteMemEcc_clean h, hall]

/-- What is written between notes is stored, and nothing else changes. -/
theorem Notes.stores {s v u : State} (hclean : CleanMem s) (h : Notes s v) {o : Nat} {bs : List Byte} (k : Notes (v.memWrite o bs).1 u) :
    Stores s u o bs := by
  obtain ⟨-, hrest, hout, hin⟩ := memWrite_clean (h.cleanMem hclean) o bs
  have hbyte (a : Nat) : u.memByte a = (v.memWrite o bs).1.memByte a := (congrArg (fun x : State => x.memByte a) k.rest :)
  have hbefore (a : Nat) : v.memByte a = s.memByte a := (congrArg (fun x : State => x.memByte a) h.rest :)
  have rest {β : Type} (p : State → β) (hp : ∀ x : State, p x.sansNotes = p x) (hp' : ∀ x : State, p x.sansMem = p x) : p u = p s := by
    rw [← hp u, k.rest, hp, ← hp', hrest, hp', ← hp v, h.rest, hp]
  exact ⟨fun a ha => (hbyte a).trans ((hout a ha).trans (hbefore a)), fun i hi => (hbyte _).trans (hin i hi),
    rest State.flash (fun _ => rfl) (fun _ => rfl), rest State.upd (fun _ => rfl) (fun _ => rfl), rest State.bays (fun _ => rfl) (fun _ => rfl),
    rest State.engines (fun _ => rfl) (fun _ => rfl), rest State.switch (fun _ => rfl) (fun _ => rfl),
    rest State.power (fun _ => rfl) (fun _ => rfl), rest State.time (fun _ => rfl) (fun _ => rfl),
    rest State.ring (fun _ => rfl) (fun _ => rfl), rest State.cyc (fun _ => rfl) (fun _ => rfl),
    rest State.kettle (fun _ => rfl) (fun _ => rfl), rest State.now (fun _ => rfl) (fun _ => rfl), rest State.clk (fun _ => rfl) (fun _ => rfl),
    fun a hmaster hlevel hnode hpmc =>
      have ha : UnnotedReg a := ⟨hmaster, hlevel, hnode, hpmc⟩
      (k.word a ha).trans ((congrArg (fun x : State => x.word a) hrest :).trans (h.word a ha))⟩

section
variable {s : State} (hclean : CleanMem s) (t : Txn)
include hclean

theorem checked_cleanMem (n : Nat) (k : Kind) : CleanMem (s.checked t n k) := (Notes.checked s t n k).cleanMem (withClaim_cleanMem hclean t)

omit hclean in
theorem checked_memBytes (n : Nat) (k : Kind) (o m : Nat) : (s.checked t n k).memBytes o m = s.memBytes o m :=
  ((Notes.checked s t n k).memBytes o m).trans (withClaim_memBytes s t o m)

theorem readPlace_window (r : Requester) (n : Nat) (k : Kind) (w : Window) :
    (s.checked t n k).readPlace r (s.withClaim t).2.addr.toNat n (.window w) =
    (s.checked t n k, .ok, s.memBytes (w.memOffset + (t.addr.toNat - w.base)) n) := by
  simp only [State.readPlace, memRead_clean (checked_cleanMem hclean t n k), checked_memBytes, withClaim_addr]
  rfl

theorem writeChecked_window (data : List Byte) (w : Window) : s.writeChecked t data (.ok (.window w)) =
    (((s.checked t data.length .write).memWrite (w.memOffset + (t.addr.toNat - w.base)) data).1, .ok) := by
  obtain ⟨hok, -⟩ := memWrite_clean (checked_cleanMem hclean t data.length .write) (w.memOffset + (t.addr.toNat - w.base)) data
  simp only [State.writeChecked, State.writePlace, withClaim_addr, hok]
  rfl

/-- An atomic that writes (R204). -/
theorem atomicChecked_window_some {x : Atomic} {w : Window} {v : Word}
    (hx : x.new (bytesWord (s.memBytes (w.memOffset + (t.addr.toNat - w.base)) 8)) = some v) : s.atomicChecked t x (.ok (.window w)) =
      (((s.checked t 8 .atomic).memWrite (w.memOffset + (t.addr.toNat - w.base)) (wordBytes v)).1, .ok,
        bytesWord (s.memBytes (w.memOffset + (t.addr.toNat - w.base)) 8)) := by
  simp only [State.atomicChecked, State.atomicPlace, memRead_clean (checked_cleanMem hclean t 8 .atomic), checked_memBytes, withClaim_addr, hx]
  rfl

/-- An atomic that writes nothing. -/
theorem atomicChecked_window_none {x : Atomic} {w : Window}
    (hx : x.new (bytesWord (s.memBytes (w.memOffset + (t.addr.toNat - w.base)) 8)) = none) : s.atomicChecked t x (.ok (.window w)) =
      (s.checked t 8 .atomic, .ok, bytesWord (s.memBytes (w.memOffset + (t.addr.toNat - w.base)) 8)) := by
  simp only [State.atomicChecked, State.atomicPlace, memRead_clean (checked_cleanMem hclean t 8 .atomic), checked_memBytes, withClaim_addr, hx]
  rfl

/-- An atomic on a window that writes `v` (R202 to R204). -/
theorem txnAtomic_window {x : Atomic} {w : Window} {v : Word} (h : Arrives s t false)
    (hw : s.checkTxn (s.withClaim t).2 8 .atomic = .ok (.window w))
    (hx : x.new (bytesWord (s.memBytes (w.memOffset + (t.addr.toNat - w.base)) 8)) = some v) :
    ∃ u, (s.withClaim t).1.txnAtomic (s.withClaim t).2 x = u.respond (s.withClaim t).2 .ok
        (wordBytes (bytesWord (s.memBytes (w.memOffset + (t.addr.toNat - w.base)) 8))) true ∧
      Stores (s.withClaim t).1 u (w.memOffset + (t.addr.toNat - w.base)) (wordBytes v) :=
  ⟨_, txnAtomic_taken h (by rw [hw]; exact atomicChecked_window_some hclean t hx),
    (Notes.checked s t 8 .atomic).stores (withClaim_cleanMem hclean t) (.countAnswer ..)⟩

end

/-- Settles O16: where no word of memory is bad, an access to a window reads or writes its bytes, and the rest is what a request notes. -/
theorem windowsReadAndWriteProcessImageMemory : Obligations.WindowsReadAndWriteProcessImageMemory := by
  refine ⟨fun s t n w h1 h256 h hw hclean => ?_, fun s t data w h1 h256 h hw hclean => ?_, fun s t data w h1 h256 h hw hclean => ?_,
    fun s t v w h hw hclean => ?_, fun s t compare swap w h hw hclean => ?_⟩
  · exact ⟨_, exec_txnRd_ok h1 h256 h hw (readPlace_window hclean t ..), ((Notes.checked ..).trans (.countAnswer ..)).noted⟩
  · exact ⟨_, exec_txnWra h1 h256 h (by rw [hw]; exact writeChecked_window hclean t data w),
      (Notes.checked ..).stores (withClaim_cleanMem hclean t) (.countAnswer ..)⟩
  · exact ⟨_, exec_txnWr h1 h256 h (by rw [hw]; exact writeChecked_window hclean t data w),
      (Notes.checked ..).stores (withClaim_cleanMem hclean t) ((Notes.countAnswer ..).trans (.setServing ..))⟩
  · obtain ⟨u, hu, hstores⟩ := txnAtomic_window hclean t (x := .faa v) h hw rfl
    obtain ⟨u', hu', hstores'⟩ := txnAtomic_window hclean t (x := .fao v) h hw rfl
    exact ⟨⟨u, by rw [← hu]; rfl, hstores⟩, ⟨u', by rw [← hu']; rfl, hstores'⟩⟩
  · by_cases hsame : bytesWord (s.memBytes (w.memOffset + (t.addr.toNat - w.base)) 8) = compare
    · have hswap : (Atomic.cas compare swap).new (bytesWord (s.memBytes (w.memOffset + (t.addr.toNat - w.base)) 8)) = some swap := by
        simp [Atomic.new, hsame]
      obtain ⟨u, hu, hstores⟩ := txnAtomic_window hclean t h hw hswap
      refine ⟨u, by rw [← hu]; rfl, ?_⟩
      rw [if_pos hsame]
      exact hstores
    · have hnone : (Atomic.cas compare swap).new (bytesWord (s.memBytes (w.memOffset + (t.addr.toNat - w.base)) 8)) = none := by
        simp [Atomic.new, hsame]
      have hatomic := atomicChecked_window_none hclean t hnone
      rw [← hw] at hatomic
      have hu := txnAtomic_taken h hatomic
      refine ⟨_, by rw [← hu]; rfl, ?_⟩
      rw [if_neg hsame]
      exact ((Notes.checked ..).trans (.countAnswer ..)).noted

end Sys2Proof.Machine

namespace Sys2Proof.Machine

/-! ### TOP_SCRATCH (R189, R203, R204) -/

theorem findReg_scratch (i : Fin 8) : findReg (R.TOP_SCRATCH i.val) = some (R.TOP_SCRATCH_desc, i.val) := by
  fin_cases i <;> rfl

theorem writeTop_scratch (s : State) (r : Requester) (i : Fin 8) (v hw : Word) : s.writeTop r (R.TOP_SCRATCH i.val) v hw = none := by
  fin_cases i <;> rfl

theorem wr_whole (s : State) (a : Nat) (v : Word) : s.wr ⟨a, 0, 64⟩ (fget v 0 64) = s.setWord a v := by
  have hset : fset (s.word a) 0 64 (fget v 0 64) = v := by
    apply BitVec.eq_of_getLsbD_eq
    intro i hi
    rw [fset_getLsbD _ _ _ _ _ hi, if_pos ⟨by omega, by omega⟩, fget_testBit]
    simp [hi]
  rw [State.wr, hset]

theorem writeReg_scratch (s : State) (r : Requester) (i : Fin 8) (v : Word) :
    s.writeReg r (R.TOP_SCRATCH i.val) v 0 = s.setWord (R.TOP_SCRATCH i.val) v := by
  have hlow : R.TOP_SCRATCH i.val < 0x20000 := by
    simp only [R.TOP_SCRATCH]
    omega
  have hpmc : ¬(R.TOP_SCRATCH i.val = R.PMC_ACCESS ∧ r.level ≠ .supervisor) := by
    simp only [R.TOP_SCRATCH, R.PMC_ACCESS]
    omega
  simp only [State.writeReg, if_pos hlow, writeTop_scratch, Option.getD_none, State.writeFields, findReg_scratch, if_neg hpmc]
  have hfields : R.TOP_SCRATCH_desc.fields.filter (fun f => !reservedField (R.TOP_SCRATCH i.val) f) = [⟨0, 64, .rw, 0, false⟩] := by
    fin_cases i <;> rfl
  rw [hfields]
  exact wr_whole s _ v

theorem readReg_scratch (s : State) (i : Fin 8) : s.readReg (R.TOP_SCRATCH i.val) = s.word (R.TOP_SCRATCH i.val) := by
  unfold State.readReg
  rw [findReg_scratch]
  fin_cases i <;> rfl

theorem popAt_scratch (s : State) (i : Fin 8) : s.popAt (R.TOP_SCRATCH i.val) = none := by
  fin_cases i <;> rfl

theorem progAt_scratch (i : Fin 8) : progAt (R.TOP_SCRATCH i.val) = none := by
  fin_cases i <;> rfl

theorem regNotReady_scratch (s : State) (i : Fin 8) : s.regNotReady (R.TOP_SCRATCH i.val) = false := by
  fin_cases i <;> rfl

theorem unnotedReg_scratch (i : Fin 8) : UnnotedReg (R.TOP_SCRATCH i.val) := by
  constructor
  · intro m hm
    simp only [R.TOP_SCRATCH, R.TOP_MASTER]
    omega
  · simp only [R.TOP_SCRATCH, R.TOP_TXN_LEVEL]
    omega
  · simp only [R.TOP_SCRATCH, R.RING_NODE]
    omega
  · simp only [R.TOP_SCRATCH, pmcBlock]
    omega

/-- A register that passes the checks of a read exists, and no rule of its unit forbids the read. -/
theorem screenOne_none {s : State} {r : Requester} {a : Nat} {k : Kind} (h : s.screenOne r a k = none) :
    s.absentReg a = false ∧ s.regPriv r a k = false := by
  unfold State.screenOne at h
  split at h
  · contradiction
  · split at h
    · contradiction
    · next habsent =>
      split at h
      · split at h <;> contradiction
      · contradiction
      · split at h
        · contradiction
        · next hpriv => exact ⟨by simpa using habsent, by simpa using hpriv⟩

/-- The place of a request that passes the checks passes its own. -/
theorem placeScreen_none {s : State} {t : Txn} {n : Nat} {k : Kind} {p : Place} (h : s.checkTxn t n k = .ok p) :
    s.placeScreen t.who t.addr.toNat k p = none := by
  unfold State.checkTxn at h
  split at h
  · contradiction
  · split at h
    · contradiction
    · split at h
      · contradiction
      · cases h
        assumption

theorem afterCheck_screensAlike (s : State) (t : Txn) (n : Nat) (k : Kind) : ScreensAlike s (s.afterCheck t n k) := by
  have hmaster : (R.TOP_MASTER_node t.who.master.val).addr < 0x30000 := by
    have := t.who.master.isLt
    simp only [R.TOP_MASTER_node, R.TOP_MASTER]
    omega
  unfold State.afterCheck State.noteNode
  split
  · split
    · exact .refl s
    · exact wr_screensAlike s hmaster _
  · exact .refl s

theorem checked_screensAlike (s : State) (t : Txn) (n : Nat) (k : Kind) : ScreensAlike s (s.checked t n k) :=
  (withClaim_screensAlike s t).trans ((admitted_screensAlike _ _).trans (afterCheck_screensAlike _ _ n k))

theorem Notes.keeps {s u : State} (h : Notes s u) : Keeps s u := keeps_of_lasting (congrArg State.lasting h.rest :)

theorem withClaim_keeps (s : State) (t : Txn) : Keeps s (s.withClaim t).1 := by
  unfold State.withClaim
  split <;> exact keeps_of_lasting rfl

theorem withClaim_word (s : State) (t : Txn) (a : Nat) : (s.withClaim t).1.word a = s.word a := by
  unfold State.withClaim
  split <;> rfl

theorem checked_keeps (s : State) (t : Txn) (n : Nat) (k : Kind) : Keeps s (s.checked t n k) :=
  (withClaim_keeps s t).trans (Notes.checked s t n k).keeps

theorem checked_scratch (s : State) (t : Txn) (n : Nat) (k : Kind) (i : Fin 8) :
    (s.checked t n k).word (R.TOP_SCRATCH i.val) = s.word (R.TOP_SCRATCH i.val) :=
  ((Notes.checked s t n k).word _ (unnotedReg_scratch i)).trans (withClaim_word s t _)

theorem keeps_setWord (s : State) (a : Nat) (v : Word) : Keeps s (s.setWord a v) := keeps_of_lasting rfl

/-- An atomic on a scratch register that writes `v`. -/
theorem txnAtomic_scratch {s : State} {t : Txn} {i : Fin 8} {x : Atomic} {v : Word} (h : Arrives s t false)
    (ha : t.addr.toNat = R.TOP_SCRATCH i.val)
    (hp : s.checkTxn (s.withClaim t).2 8 .atomic = .ok (.regs 0 1)) (hx : x.new (s.word (R.TOP_SCRATCH i.val)) = some v) :
    ∃ u, (s.withClaim t).1.txnAtomic (s.withClaim t).2 x =
        u.respond (s.withClaim t).2 .ok (wordBytes (s.word (R.TOP_SCRATCH i.val))) true ∧
      u.word (R.TOP_SCRATCH i.val) = v ∧ Keeps s u := by
  have hatomic : s.atomicChecked t x (.ok (.regs 0 1)) =
      ((s.checked t 8 .atomic).setWord (R.TOP_SCRATCH i.val) v, .ok, s.word (R.TOP_SCRATCH i.val)) := by
    simp only [State.atomicChecked, State.atomicPlace, withClaim_addr, ha, checked_scratch, hx]
  rw [← hp] at hatomic
  have hcount := Notes.countAnswer ((s.checked t 8 .atomic).setWord (R.TOP_SCRATCH i.val) v) (s.withClaim t).2 .ok 2 none 8
  exact ⟨_, txnAtomic_taken h hatomic, (hcount.word _ (unnotedReg_scratch i)).trans (word_setWord_same ..),
    (checked_keeps s t 8 .atomic).trans ((keeps_setWord ..).trans hcount.keeps)⟩

/-- A read of a scratch register gives its word and changes nothing. -/
theorem readPlace_scratch {s : State} {r : Requester} {i : Fin 8} (h : s.screenOne r (R.TOP_SCRATCH i.val) .read = none) :
    s.readPlace r (R.TOP_SCRATCH i.val) 8 (.regs 0 1) = (s, .ok, wordBytes (s.word (R.TOP_SCRATCH i.val))) := by
  obtain ⟨habsent, hpriv⟩ := screenOne_none h
  simp [State.readPlace, State.readRegs, State.readOne, habsent, hpriv, popAt_scratch, regNotReady_scratch, progAt_scratch, readReg_scratch,
    RCode.join]

/-- Settles O17: a scratch register is one field of 64 bits that no view changes and no operation of its block takes. -/
theorem scratchRegistersTakeWritesAndAtomics : Obligations.ScratchRegistersTakeWritesAndAtomics := by
  obtain ⟨-, -, -, -, hwrite, -⟩ := writesAreCheckedBeforeTheyAct
  refine ⟨fun s r i v hg hwindows => ?_, fun s t i v h ha hp => ?_, fun s t i h ha hp => ?_⟩
  · have haddr : (BitVec.ofNat 32 (R.TOP_SCRATCH i.val)).toNat = R.TOP_SCRATCH i.val := by
      simp only [R.TOP_SCRATCH, BitVec.toNat_ofNat]
      omega
    have hexec := hwrite s r (BitVec.ofNat 32 (R.TOP_SCRATCH i.val)) v 0
    rw [haddr, writeReg_scratch] at hexec
    obtain ⟨hanswer, hkeeps, hhub, -, -, -, -, hword⟩ :=
      answeredCount_frame (s.setWord (R.TOP_SCRATCH i.val) v) r (R.TOP_SCRATCH i.val) .ok .ok 1 9 8 []
    refine ⟨_, hexec hg ?_ ?_, ?_, hanswer, (keeps_setWord ..).trans hkeeps, ?_, fun a hne hpmc => ?_⟩
    · simp only [R.TOP_SCRATCH]
      omega
    · simp [State.windowAt, hwindows]
    · exact (hword _ (unnotedReg_scratch i).counter).trans (word_setWord_same ..)
    · rw [State.wrote, hhub]
      unfold State.heardFrom
      split <;> rfl
    · exact (hword _ hpmc).trans (word_setWord_ne _ _ hne)
  · obtain ⟨u, hu, hfaa⟩ := txnAtomic_scratch (x := .faa v) h ha hp rfl
    obtain ⟨u', hu', hfao⟩ := txnAtomic_scratch (x := .fao v) h ha hp rfl
    obtain ⟨u'', hu'', hcas⟩ := txnAtomic_scratch (x := .cas (s.word (R.TOP_SCRATCH i.val)) v) (v := v) h ha hp (by simp [Atomic.new])
    exact ⟨⟨u, by rw [← hu]; rfl, hfaa⟩, ⟨u', by rw [← hu']; rfl, hfao⟩, ⟨u'', by rw [← hu'']; rfl, hcas⟩⟩
  · have hscreen := placeScreen_none hp
    have hread : (s.checked t 8 .read).readPlace (s.withClaim t).2.who (s.withClaim t).2.addr.toNat 8 (.regs 0 1) =
        (s.checked t 8 .read, .ok, wordBytes (s.word (R.TOP_SCRATCH i.val))) := by
      rw [withClaim_addr, ha] at hscreen ⊢
      have hchecked : (s.checked t 8 .read).screenOne (s.withClaim t).2.who (R.TOP_SCRATCH i.val) .read = none :=
        ((checked_screensAlike s t 8 .read).screenOne ..).trans hscreen
      rw [readPlace_scratch hchecked, checked_scratch]
    exact ⟨_, exec_txnRd_ok (by decide) (by decide) h hp hread, ((Notes.checked ..).trans (.countAnswer ..)).noted⟩

end Sys2Proof.Machine

namespace Sys2Proof.Machine

/-! ### Responses and timeouts of the initiator (R209 to R211, R544) -/

/-- What a response sets in the context that waits for it. -/
def Ctx.awaited (x : Ctx) : Option Nat × Bool × Word × Nat := (x.slot, x.reqFailed, x.inSh, x.inCnt)

theorem Ctx.passed_awaited (x : Ctx) : x.passed.awaited = x.awaited := by
  unfold Ctx.passed
  split
  · split <;> rfl
  · rfl

theorem pmcRecord_sansCounts (s : State) (r : Sample) : (s.pmcRecord r).sansCounts = s.sansCounts := by
  unfold State.pmcRecord
  split <;> rfl

theorem pmcReady_sansCounts (s : State) : s.pmcReady.sansCounts = s.sansCounts := by
  unfold State.pmcReady
  extract_lets _ t
  have ht : t.sansCounts = s.sansCounts := rfl
  split
  · exact ht
  · refine (foldl_keeps State.sansCounts _ _ (fun v w _ => ?_) t).trans ht
    split
    · exact pmcRecord_sansCounts ..
    · rfl

/-- `t` has the requests in flight and the hub's own fields of `s`, and what a response sets in context `c` of engine `e`. -/
structure SameRequests (e c : Nat) (s t : State) : Prop where
  reqs : t.initReqs = s.initReqs
  hub : t.hub = s.hub
  ctx : (t.ctx e c).awaited = (s.ctx e c).awaited

namespace SameRequests

variable {e c : Nat} {s t u : State}

theorem refl (e c : Nat) (s : State) : SameRequests e c s s := ⟨rfl, rfl, rfl⟩

theorem trans (h : SameRequests e c s t) (k : SameRequests e c t u) : SameRequests e c s u :=
  ⟨k.reqs.trans h.reqs, k.hub.trans h.hub, k.ctx.trans h.ctx⟩

theorem of_sansCounts (h : t.sansCounts = s.sansCounts) : SameRequests e c s t :=
  ⟨(congrArg State.initReqs h :), (congrArg State.hub h :), (congrArg (fun v : State => (v.ctx e c).awaited) h :)⟩

theorem setCtx {x : Ctx} (hx : x.awaited = (s.ctx e c).awaited) : SameRequests e c s (s.setCtx e c x) :=
  ⟨rfl, rfl, by rw [ctx_setCtx_same, hx]⟩

variable (e c s)

theorem pmcEv (cls ev x : Nat) (a : Attrs) : SameRequests e c s (s.pmcEv cls ev x a) := of_sansCounts (pmcEv_sansCounts ..)

theorem enterWait (r : Nat) : SameRequests e c s (s.enterWait e c r) :=
  (setCtx (x := { s.ctx e c with st := .waiting, wait := r }) rfl).trans (pmcEv ..)

theorem ready : SameRequests e c s (s.ready e c) := by
  unfold State.ready
  dsimp only
  split
  · exact enterWait ..
  · exact setCtx rfl

theorem bump (f : Fld) : SameRequests e c s (s.bump f) := ⟨rfl, rfl, rfl⟩

theorem raise (src data : Nat) : SameRequests e c s (s.raise src data) := ⟨rfl, rfl, rfl⟩

theorem progEcc (i : Nat) : SameRequests e c s (s.progEcc e i) := by
  unfold State.progEcc
  split
  · exact refl e c s
  · exact bump ..
  · exact (bump ..).trans (raise ..)

theorem fetch : SameRequests e c s (s.fetch e c) := (progEcc e c s _).trans (setCtx rfl)

theorem advance : SameRequests e c s (s.advance e c) := by
  unfold State.advance
  extract_lets x t
  have ht : SameRequests e c s t := setCtx (Ctx.passed_awaited _)
  split
  · exact ht.trans (fetch ..)
  · exact ht

theorem noteIssue : SameRequests e c s (s.noteIssue e c) :=
  ⟨rfl, rfl, by rw [State.noteIssue, ctx_setEngine _ (by rfl)]⟩

theorem retire (pc : Nat) : SameRequests e c s (s.retire e c pc) :=
  ((noteIssue e c s).trans (pmcEv ..)).trans (of_sansCounts (pmcReady_sansCounts _))

/-- An instruction that is over with nothing more to do (R507). -/
theorem finish_next (w : BitVec 32) : SameRequests e c s (s.finish e c w .next) := by
  have hclear : SameRequests e c s (s.setCtx e c { s.ctx e c with cur := none, stampWord := none }) := setCtx rfl
  unfold State.finish
  exact ((hclear.trans (retire ..)).trans (advance ..)).trans (ready ..)

end SameRequests

/-- The request of a slot whose context waits for it ends (R209 to R211, R544). -/
theorem endRequest_awaited {s : State} {k : Nat} {q : InitReq} (hslot : (s.ctx q.engine q.ctx).slot = some k) (ok : Bool) (data : Option Word) :
    (s.endRequest k q ok data).initReqs = mput none s.initReqs k none ∧ (s.endRequest k q ok data).hub = s.hub ∧
    ((s.endRequest k q ok data).ctx q.engine q.ctx).awaited =
      (none, !ok, data.getD (s.ctx q.engine q.ctx).inSh, if data.isSome then 64 else (s.ctx q.engine q.ctx).inCnt) := by
  unfold State.endRequest
  extract_lets t x y z
  have hx : x.slot = some k := hslot
  rw [if_neg (not_not_intro hx)]
  obtain ⟨hreqs, hhub, hctx⟩ := SameRequests.finish_next q.engine q.ctx (t.setCtx q.engine q.ctx z) (z.cur.getD 0)
  refine ⟨hreqs, hhub, hctx.trans ?_⟩
  rw [ctx_setCtx_same]
  cases data <;> rfl

/-- What `endRequest_awaited` says of the context, field by field, with the memory that stays. -/
theorem endRequest_fields {s u : State} {k : Nat} {q : InitReq} (hslot : (s.ctx q.engine q.ctx).slot = some k) (ok : Bool) (data : Option Word)
    (hu : s.endRequest k q ok data = u) : mget none u.initReqs k = none ∧ (u.ctx q.engine q.ctx).slot = none ∧
    (u.ctx q.engine q.ctx).reqFailed = (!ok) ∧ (u.ctx q.engine q.ctx).inSh = data.getD (s.ctx q.engine q.ctx).inSh ∧
    (u.ctx q.engine q.ctx).inCnt = (if data.isSome then 64 else (s.ctx q.engine q.ctx).inCnt) ∧ u.pimem = s.pimem ∧ u.hub = s.hub := by
  obtain ⟨hreqs, hhub, hctx⟩ := endRequest_awaited hslot ok data
  rw [hu] at hreqs hhub hctx
  have hmem : u.memory = s.memory := hu ▸ endRequest_memory s k q ok data
  simp only [Ctx.awaited, Prod.mk.injEq] at hctx
  obtain ⟨hslot', hfailed, hsh, hcnt⟩ := hctx
  exact ⟨by rw [hreqs, mget_mput_same], hslot', hfailed, hsh, hcnt, congrArg Prod.fst hmem, hhub⟩

theorem pmcEv_request (s : State) (cls ev x : Nat) (a : Attrs) : (s.pmcEv cls ev x a).initReqs = s.initReqs ∧
    (s.pmcEv cls ev x a).hub = s.hub ∧ (s.pmcEv cls ev x a).pimem = s.pimem :=
  ⟨(congrArg State.initReqs (pmcEv_sansCounts s cls ev x a) :), (congrArg State.hub (pmcEv_sansCounts s cls ev x a) :),
    (congrArg State.pimem (pmcEv_sansCounts s cls ev x a) :)⟩

/-- Settles O19: a request ends by `State.endRequest`, and the step of its context to the next instruction leaves what was set. -/
theorem responsesAndTimeoutsEndRequests : Obligations.ResponsesAndTimeoutsEndRequests := by
  refine ⟨fun s m tag data q hup hq hm hkind hdata hslot => ?_, fun s m tag code data q hup hcode hq hm hslot => ?_,
    fun s m level tag code data hup hq => ?_, fun s slot q hawake hq hdue hslot => ?_, fun s slot hq => ?_, fun s m hawake hint hdue => ?_⟩
  · obtain ⟨-, hhub, hmem⟩ := pmcEv_request s 1 1 0 (toMaster m.val)
    have hexec : exec (.txnResp m .localLevel tag 0 data) s =
        .next ((s.pmcEv 1 1 0 (toMaster m.val)).endRequest tag.toNat q true (some (bytesWord data))).settle := by
      simp [exec, execTxnResp, done_eq, State.txnResponse, hup, hq, hm, hkind, State.respWord, hdata]
    obtain ⟨hfree, hctx, hfailed, hsh, hcnt, hpimem, hsame⟩ := endRequest_fields (s := s.pmcEv 1 1 0 (toMaster m.val))
      (by rw [pmcEv_ctx]; exact hslot) true (some (bytesWord data)) rfl
    exact ⟨_, hexec, hfree, hctx, hfailed, hsh, hcnt, hpimem.trans hmem, hsame.trans hhub⟩
  · obtain ⟨-, hhub, hmem⟩ := pmcEv_request s 1 2 0 (toMaster m.val)
    have hne : (code.toNat == 0) = false := by
      simpa using fun h => hcode (BitVec.eq_of_toNat_eq h)
    have hexec : exec (.txnResp m .localLevel tag code data) s =
        .next ((s.pmcEv 1 2 0 (toMaster m.val)).endRequest tag.toNat q false none).settle := by
      simp [exec, execTxnResp, done_eq, State.txnResponse, hup, hq, hm, hne]
    obtain ⟨hfree, hctx, hfailed, hsh, -, hpimem, hsame⟩ := endRequest_fields (s := s.pmcEv 1 2 0 (toMaster m.val))
      (by rw [pmcEv_ctx]; exact hslot) false none rfl
    exact ⟨_, hexec, hfree, hctx, hfailed, by rw [hsh, pmcEv_ctx]; rfl, hpimem.trans hmem, hsame.trans hhub⟩
  · simp [exec, execTxnResp, done_eq, State.txnResponse, hup, hq]
  · obtain ⟨-, hhub, hmem⟩ := pmcEv_request (s.bump (R.TOP_TXN_CNT_count 3)) 1 3 0 (toMaster q.master)
    have hover : ¬(s.asleep = true ∨ s.clk < q.sentAt + s.loaded.initTimeout * 1000) := by
      rintro (h | h)
      · simp [hawake] at h
      · omega
    have hexec : exec (.initTimeout slot) s =
        .next (((s.bump (R.TOP_TXN_CNT_count 3)).pmcEv 1 3 0 (toMaster q.master)).endRequest slot.toNat q false none).settle := by
      simp only [exec, execInitTimeout, done_eq, State.initTimedOut, hq, if_neg hover]
    obtain ⟨hfree, hctx, hfailed, -, -, hpimem, hsame⟩ := endRequest_fields
      (s := (s.bump (R.TOP_TXN_CNT_count 3)).pmcEv 1 3 0 (toMaster q.master)) (by rw [pmcEv_ctx]; exact hslot) false none rfl
    exact ⟨_, hexec, hfree, hctx, hfailed, hpimem.trans hmem, hsame.trans hhub⟩
  · simp [exec, execInitTimeout, done_eq, State.initTimedOut, hq]
  · have hclk : ¬(s.asleep = true ∨ s.clk < (s.bucket m.val).lastFill + s.rd (R.TOP_NOTICE_RATE_interval m.val) * 1000 ∨
        s.rd (R.TOP_NOTICE_RATE_interval m.val) = 0) := by
      rintro (h | h | h)
      · simp [hawake] at h
      · omega
      · exact hint h
    rw [exec, execNoticeTokenRefill, done_eq, State.refillToken, if_neg hclk]

end Sys2Proof.Machine
